-- ==== Sys2Proof/Word.lean ====
section
/-! DEFINITION. The word types of the ZZ-96 (R6): bytes, 32-bit register words, 64-bit instruction
words and 64-byte read words, all little-endian and with bit 0 the least significant. -/

namespace Sys2Proof

abbrev Byte := BitVec 8
abbrev Half := BitVec 16
abbrev Word := BitVec 32
abbrev DWord := BitVec 64
/-- One 64-byte read word or one v register (R180, Table 2.5). -/
abbrev Line := BitVec 512
/-- A sparse table: key and value, keys rising. -/
abbrev Tab (α : Type) := List (Nat × α)

end Sys2Proof
end

