-- ==== Sys2Proof/Config.lean ====
section
/-! DEFINITION. What one part fixes and the spec leaves open: fuses, keys, and the free values.
Every opaque constant here has no body: nothing in Lean can prove a value of it. -/

namespace Sys2Proof.Config

/-- PRODUCTION fuse (R421, Table 17.2: reset value "fuse"). -/
opaque production : Bool
/-- Word w of DB_SERIAL_w (Table 17.2: reset value "fuse"). -/
opaque serial : Nat → Word
/-- Public debug key X and Y; the spec gives only that its digest is fused on die (R421). -/
opaque debugKey : Nat × Nat
/-- A free value drawn at draw number n: an unspecified value of R10, a nonce of R421. -/
opaque freeBits : Nat → Nat
/-- Where in the bound of R140 the result of F-tile unit u (1 exp, 2 log, 3 reciprocal, 4 reciprocal square root, 5
GELU) on an FP32 operand lies; and the result on an infinity that R140 does not name. The reference model that fixes the
bits is not in the spec. -/
opaque fnElement : Nat → Word → Nat
/-- The exponential of the box decoder (R140), as fnElement. -/
opaque fnExp : Word → Nat
/-- Softmax of element i of a row (R140), as fnElement. -/
opaque fnSoftmax : List Word → Nat → Nat
/-- Element i of a result of F-tile unit u that the spec leaves open, as a function of its operands (R66): a record beyond
the row, a crop sample at a coordinate that is no number. -/
opaque fnOpen : Nat → List Word → Nat → Nat
/-- Place that the headframe gives a translation table in its reserved sump: claim, level, and the part of the CVA
that leads to the table (R295). R290 gives the range and Table 12.1 the size and alignment. -/
opaque tableAt : Nat → Nat → Nat → Nat

/-- CVAs of the descriptor lists (source, destination) of the standing streams that an image names at a
bind. R312 says that the image names them; no section of the image that the spec gives holds them. -/
opaque standing : Nat → List (Nat × Nat)

/-- Transmit stream that the A-tile with a logical id and its output port feed: true for Ethernet, with the port
or lane number. R259 says that the image binds them; no section of the image that the spec gives holds it. -/
opaque txStream : Nat → Nat → Option (Bool × Nat)

end Sys2Proof.Config
end

