-- ==== Sys2Proof/Syntax.lean ====
section
/-! DEFINITION. The commands of the ZZ-96: one constructor for each row of spec/opcode_table.json, in
the table's order. Tiles are named by physical position, skips by skip id, host commands by the SEQ of
their ACCEPTED journal record, and every other object by its number in the spec. -/

namespace Sys2Proof

/-- The memories of a tile that a checker or a line remap names (Table 15.1, Table 15.5). -/
inductive TileUnit
  | weight | window | bank | scale | localStore | data | config | middle | scratch | hold
deriving DecidableEq, Repr

/-- What one checker reports (Table 15.1). Tiles are physical positions. -/
inductive FaultReport
  /-- residue mismatch or adder difference of a MAC column (R369) -/
  | residue (t column : Nat)
  /-- duplicated rescale path disagrees -/
  | rescale (t : Nat)
  /-- one-bit or, with `double`, uncorrectable error of a tile SRAM word at a window offset -/
  | sram (t : Nat) (u : TileUnit) (offset : Nat) (double : Bool)
  /-- an uncorrectable word at `offset` of S-tile `t` was read by the thread `th` of tile `reader` -/
  | sramRead (t : Nat) (u : TileUnit) (offset reader th : Nat)
  /-- program word error on fetch (R98) -/
  | program (t th word : Nat) (double : Bool)
  /-- disagreement of one sequencer copy, 0 to 2 (R52) -/
  | seqVote (t copy : Nat)
  /-- skip end word error; `tail` for a tail word -/
  | skipEnd (skip : Nat) (tail double : Bool)
  /-- F-tile function lane parity -/
  | fnLane (t unit lane : Nat)
  | ucieLane (lane : Nat)
  | emeelLane (port lane : Nat) (lostLock : Bool)
  /-- sump word error at a device physical address -/
  | sump (addr : Nat) (double : Bool)
  /-- parity error of word `addr` of memory `mem` of riddle block `block` (R286) -/
  | riddleParity (block mem addr : Nat)
  /-- a detector lane lost codeword lock (R262) -/
  | detectorLane (lane : Nat)
  /-- shaft switch or link failure beyond flit correction at a position -/
  | shaftSwitch (t : Nat)
deriving DecidableEq, Repr

/-- Kinds of an Emeel flit header (R347). -/
inductive FlitKind
  | data | commitMark | discardMark | credit | tick | memory | register | command
deriving DecidableEq, Repr

/-- An Emeel flit as its header and payload name it (R347), with the mesh time stamp of R350. -/
structure Flit where
  kind : FlitKind
  /-- device that the flit is for -/
  device : Nat
  stream : Nat
  seq : BitVec 12
  stamp : Nat
  /-- end of packet, miss mark, zero-run flag and mask of an entry -/
  tag : Nat
  payload : Line
deriving DecidableEq, Repr

/-- An edge at the pin of an LVDS pair, with the times in ps for which the pin keeps its level before and after it (R264). -/
structure LvdsEdge where
  pair : Nat
  rising : Bool
  before : Nat
  after : Nat
deriving DecidableEq, Repr

/-- Bytes of a fill, with the byte count that the whole fill declares (R60). -/
structure FillPart where
  total : Nat
  bytes : List Byte
deriving DecidableEq, Repr

/-- The end of a port burst, or its retry after an HBM interface error (Table 15.6). -/
structure PortBurst where
  port : Nat
  retry : Bool
deriving DecidableEq, Repr

/-- A rising edge of a clock tree, with the levels on the general pairs at it and at the falling edge before it (Table 11.1). -/
structure TreeEdge where
  tree : Nat
  rise : Byte
  fall : Byte
deriving DecidableEq, Repr

/-- One command of the block. -/
inductive Instr
  /-- TICK (R13). An external tick takes effect in a tick domain, where it is accepted or, if early, ignored. -/
  | tick (d : Nat)
  /-- TICK_INSERTED (R13). When PERIOD plus TOLERANCE fc pass with no external tick, the domain inserts a tick. -/
  | tickInserted (d : Nat)
  /-- INTERNAL_GENERATOR_TICK (R14). The internal generator produces a tick PERIOD fc after ENABLE or after the previous tick. -/
  | internalGeneratorTick (d : Nat)
  /-- FOLLOWED_TICK (R356). A domain that follows the mesh head ticks at its scheduled mesh time. -/
  | followedTick (d : Nat)
  /-- TICK_MESSAGE (R356). A device receives a tick message or start time from the mesh head and schedules the tick at T plus TICK_DELAY. -/
  | tickMessage (d : Nat) (isStart : Bool) (time : Nat)
  /-- CAPTURE_TIMEOUT (R288). A capture whose edge has not come by the tick of shift S+1 completes FAILED. -/
  | captureTimeout (block : Nat)
  /-- TICK_MARK_ARRIVAL (R18). The tick reaches a tile over the bell network, and threads in WAITTICK become ready. -/
  | tickMarkArrival (t : Nat)
  /-- SLOT_MARK_ARRIVAL (R169). A slot or reserve mark reaches a tile slot_fc row fc after the previous mark, and SLOT waits end. -/
  | slotMarkArrival (t : Nat)
  /-- DECISION_WORD_TRANSMIT (R267). A decision word leaves its decision line at 40 ns plus i times T after its tick. -/
  | decisionWordTransmit (line : Nat)
  /-- LVDS_TICK_EDGE (R264). A rising edge on an LVDS tick input is sampled and takes effect 12 to 13 fc later. -/
  | lvdsTickEdge (edge : LvdsEdge)
  /-- FRAME_START (R255). A FRAME_START block opens a frame and ends any open frame as incomplete. -/
  | frameStart (lane : Nat) (chan : Half) (seq : Word)
  /-- DATA_BLOCK (R255). A data block adds payload to the open frame, or is discarded and counted outside a frame. -/
  | dataBlock (lane : Nat) (data : DWord)
  /-- FRAME_END (R255). A FRAME_END block closes a frame, which is complete if its length, CRC and codewords check. -/
  | frameEnd (lane : Nat) (crc : Word) (len : BitVec 24)
  /-- TICK_BLOCK (R265). A TICK block on a lane schedules a tick 190 ns after its codeword, matched across a mirrored pair. -/
  | tickBlock (lane : Nat) (seq : Byte)
  /-- IDLE (R254). An IDLE block is removed from the stream. -/
  | idle (lane : Nat)
  /-- ALIGN (R253). ALIGN blocks lock the codeword boundaries and are removed. -/
  | align (lane : Nat) (number : Byte)
  /-- UNCORRECTABLE_CODEWORD (R255). The blocks of an uncorrectable codeword are discarded, and the open frame becomes incomplete. -/
  | uncorrectableCodeword (lane : Nat)
  /-- LANE_LOSES_LOCK (R262). A lane that loses codeword lock ends its open frame, and the loss is tracked for retirement. -/
  | laneLosesLock (lane : Nat)
  /-- LANE_REGAINS_LOCK (R262). A lane that regains codeword lock returns to service, and LANE_UP shows it. -/
  | laneRegainsLock (lane : Nat)
  /-- ETHERNET_FRAME (R257). An Ethernet frame is received, checked against the supported features, and dropped and counted if outside them. -/
  | ethernetFrame (port : Nat) (bytes : List Byte)
  /-- PAUSE_EXPIRY (R259). The requested pause quanta expire, and transmission resumes. -/
  | pauseExpiry (port : Nat)
  /-- MIRROR_WINDOW_END (R261). At the end of the mirror window, the Adit forwards the primary copy, the secondary copy or an incomplete frame. -/
  | mirrorWindowEnd (lane : Nat)
  /-- FRAME_ARRIVAL (R21). A frame's last bit reaches the A-tile, which numbers it, maps it and holds it, or sends it to tailings. -/
  | frameArrival (lane : Nat)
  /-- INGEST_PUSH (R269). The A-tile ingest pushes payload entries into the ingest skip; in real time a lack of credit makes the frame incomplete. -/
  | ingestPush (d p c : Nat)
  /-- SCATTER_DRAIN (R272). The A-tile pushes the dense entries of a scatter frame, one per fc, and zeroes the buffer as it goes. -/
  | scatterDrain (a : Nat)
  /-- ZERO_FILL_PUSH (R30). Zero fill entries of a missing or incomplete frame are pushed as credit returns. -/
  | zeroFillPush (d p c : Nat)
  /-- DEADLINE_FILL_PUSH (R192). Miss-marked fill entries of a missed stage are placed and committed as credit allows. -/
  | deadlineFillPush (skip : Nat)
  /-- TRANSMIT_PACKET (R259). The Adit sends a transmit stream packet as one RAW66 frame or as drift datagrams. -/
  | transmitPacket (eth : Bool) (n : Nat)
  /-- UCIE_PACKET_RECEIVED (R368). A UCIe packet is checked by CRC and retransmitted on error. -/
  | uciePacketReceived (lane : Nat) (crcOk : Bool)
  /-- RIDDLE_INPUT_WORD (R278). A riddle input port presents one word with its flags from its FIFO. -/
  | riddleInputWord (block port : Nat)
  /-- RIDDLE_OUTPUT_WORD (R279). A riddle output port takes one word toward the A-tile of its channel. -/
  | riddleOutputWord (block port : Nat)
  /-- RIDDLE_EOF_DEADLINE (R280). At te plus 32 ns, the Adit releases the matched output EOF, or marks the frame late. -/
  | riddleEofDeadline (block lane : Nat)
  /-- RIDDLE_CONFIG_READBACK (R286). Once per millisecond, the headframe compares the CRCs of the cluster records and starts a repair on a mismatch. -/
  | riddleConfigReadback (bad : List (Nat × Nat))
  /-- RIDDLE_REPAIR_COMPLETE (R286). The rewrite of a riddle record completes, and EOFs no longer carry ERR. -/
  | riddleRepairComplete (block : Nat)
  /-- RD_BLOCK_RESET (R289). A write of RESET returns the block's registers to INIT at the next port-tree edge and ends open frames with ERR. -/
  | rdBlockReset (block : Nat)
  /-- CAPTURE_EDGE (R287). At the E-th rising edge of tree T after the arming tick, the block's state is captured and written out. -/
  | captureEdge (block : Nat)
  /-- NOP (R173). Does nothing for one fc. -/
  | nop (t th : Nat)
  /-- HALT (R175). Stops the thread until the next start of an image. -/
  | halt (t th : Nat)
  /-- BRK (R174). Halts the thread and reports CODE when breakpoints are enabled; otherwise acts as NOP. -/
  | brk (t th : Nat)
  /-- FN (R138). Starts an F-tile function unit on a call descriptor, checking the descriptor. -/
  | fn (t th : Nat)
  /-- LOOP (R165). Loads a counter with TRIP and opens a loop body. -/
  | loop (t th : Nat)
  /-- LIDX (R166). Writes g[RD] from g[RA] plus the pass index times STRIDE. -/
  | lidx (t th : Nat)
  /-- WAITTICK (R167). Holds the thread until the next tick reaches the tile. -/
  | waittick (t th : Nat)
  /-- SLOT (R170). Waits for a numbered slot mark or for the next mark. -/
  | slot (t th : Nat)
  /-- BELL (R171). Sends a token along a send route, waiting while a destination inbox is full. -/
  | bell (t th : Nat)
  /-- WAITBELL (R172). Waits for a token in a receive route's inbox and removes the oldest. -/
  | waitbell (t th : Nat)
  /-- POP (R146). Takes the head entry into a register, or, with TK = 2, moves a block into tile memory. -/
  | pop (t th : Nat)
  /-- PEEK (R150). Reads the head entry without consuming it. -/
  | peek (t th : Nat)
  /-- PUSH (R151). Sends one tentative entry, or a block of entries, using credit. -/
  | push (t th : Nat)
  /-- COMMIT (R154). Commits pushed entries or releases consumed entries on one port or all ports. -/
  | commit (t th : Nat)
  /-- DROP (R155). Consumes the rest of the current packet on an input port, entering the dropping state if needed. -/
  | drop (t th : Nat)
  /-- WAITQ (R156). Holds the thread until a port has COUNT visible entries or COUNT credits. -/
  | waitq (t th : Nat)
  /-- QSTAT (R157). Writes the port status to a g register. -/
  | qstat (t th : Nat)
  /-- LD (R158). Loads 1, 2 or 4 bytes of S-tile scratch into a g register. -/
  | ld (t th : Nat)
  /-- ST (R158). Stores the low bytes of a g register to S-tile scratch. -/
  | st (t th : Nat)
  /-- LDV (R158). Loads a 64-byte scratch line into a v register. -/
  | ldv (t th : Nat)
  /-- STV (R158). Stores a v register to a 64-byte scratch line. -/
  | stv (t th : Nat)
  /-- FENCE (R160). Holds the thread until its earlier scratch loads and stores are done. -/
  | fence (t th : Nat)
  /-- LOCK (R161). Requests a 64-byte scratch line for the thread and waits for the grant. -/
  | lock (t th : Nat)
  /-- UNLOCK (R161). Frees a locked line once the holder's earlier accesses are performed. -/
  | unlock (t th : Nat)
  /-- MMS (R120). Issues a matrix-multiply stream into an accumulator bank. -/
  | mms (t th : Nat)
  /-- WCS (R123). Issues a window convolution stream for one output row. -/
  | wcs (t th : Nat)
  /-- GRS (R126). Writes a stream descriptor of the issuing thread. -/
  | grs (t th : Nat)
  /-- RQ (R127). Starts a row quantise of activation rows, with row scales. -/
  | rq (t th : Nat)
  /-- OQ (R129). Starts an output quantise of bank rows to the window or a port. -/
  | oq (t th : Nat)
  /-- VADD (R133). Adds lanes or scalars. -/
  | vadd (t th : Nat)
  /-- VSUB (R133). Subtracts lanes or scalars. -/
  | vsub (t th : Nat)
  /-- VMUL (R133). Multiplies lanes or scalars. -/
  | vmul (t th : Nat)
  /-- VMAX (R133). Takes the larger of each lane pair. -/
  | vmax (t th : Nat)
  /-- VMIN (R133). Takes the smaller of each lane pair. -/
  | vmin (t th : Nat)
  /-- VCSEL (R133). Selects a or c in each lane by a comparison. -/
  | vcsel (t th : Nat)
  /-- VSHL (R133). Shifts integer lanes left. -/
  | vshl (t th : Nat)
  /-- VSHR (R133). Shifts integer lanes right, arithmetically. -/
  | vshr (t th : Nat)
  /-- VAND (R133). Bitwise AND of integer lanes. -/
  | vand (t th : Nat)
  /-- VOR (R133). Bitwise OR of integer lanes. -/
  | vor (t th : Nat)
  /-- VXOR (R133). Bitwise XOR of integer lanes. -/
  | vxor (t th : Nat)
  /-- VCVT (R134). Converts lanes from TYPE to DTYPE. -/
  | vcvt (t th : Nat)
  /-- VRELU (R133). Rectifies lanes or a scalar. -/
  | vrelu (t th : Nat)
  /-- ZPACK (R136). Packs the nonzero INT8 lanes and sets ZM. -/
  | zpack (t th : Nat)
  /-- ZUNPK (R136). Expands packed bytes under ZM. -/
  | zunpk (t th : Nat)
  /-- VMOVI (R135). Writes an immediate into a v or g register. -/
  | vmovi (t th : Nat)
  /-- PC_BREAKPOINT_MATCH (R420). A PC comparator halts its thread before it issues the set word. -/
  | pcBreakpointMatch (n : Nat)
  /-- MAC_STREAM_START (R122). A MAC stream starts on the array after any wait for the array, an interlock, a token or a weight half. -/
  | macStreamStart (t : Nat)
  /-- MAC_STREAM_COMPLETE (R122). A MAC stream writes its bank 12 fc after its last product, leaves flight and may release its weight half. -/
  | macStreamComplete (t : Nat)
  /-- HEAVY_UNIT_TOKEN_GRANT (R246). A waiting M-tile is granted a heavy-unit token, oldest first. -/
  | heavyUnitTokenGrant (row claim : Nat)
  /-- RQ_COMPLETE (R128). A row quantise completes, having written its rows and row-scale registers. -/
  | rqComplete (t : Nat)
  /-- OQ_COMPLETE (R132). An output quantise completes 8 fc after its last row. -/
  | oqComplete (t : Nat)
  /-- FN_CALL_COMPLETE (R138). An F-tile call writes its outputs and RESULT and completes. -/
  | fnCallComplete (t unit : Nat)
  /-- BLOCK_MOVE_COMPLETE (R148). A block POP or PUSH completes 2 fc after its last entry moves. -/
  | blockMoveComplete (t : Nat)
  /-- SCRATCH_LOAD_RETURN (R159). A scratch load writes its register. -/
  | scratchLoadReturn (t i : Nat)
  /-- SCRATCH_STORE_PERFORMED (R159). A scratch store is performed at the S-tile. -/
  | scratchStorePerformed (t i : Nat)
  /-- LOCK_GRANT (R161). A free scratch line is granted to the oldest LOCK request. -/
  | lockGrant (t line : Nat)
  /-- WEIGHT_FILL_ARRIVAL (R60). Fill bytes reach a weight-store half, moving it to FILLING and then to READY. -/
  | weightFillArrival (t : Nat) (half : Bool) (part : FillPart)
  /-- ENTRY_REACHES_TAIL (R186). A pushed entry reaches a destination skip's tail as a tentative entry. -/
  | entryReachesTail (skip : Nat)
  /-- COMMIT_TAKES_EFFECT (R186). A deferred commit takes effect when the last push it covers completes, and its mark leaves. -/
  | commitTakesEffect (t port : Nat)
  /-- ENTRIES_BECOME_VISIBLE (R186). Committed entries become visible 2 fc after their commit mark arrives. -/
  | entriesBecomeVisible (skip : Nat)
  /-- CREDIT_ARRIVAL (R186). Released credit reaches the producer port. -/
  | creditArrival (skip : Nat)
  /-- DISCARD_MARK_ARRIVAL (R358). A discard mark removes tentative entries at a cross-device consumer. -/
  | discardMarkArrival (skip : Nat)
  /-- HEAD_REFILL (R183). A word fetched from a skip middle reaches the head. -/
  | headRefill (skip : Nat)
  /-- BELL_TOKEN_ARRIVAL (R171). A bell token reaches a destination inbox. -/
  | bellTokenArrival (t route : Nat)
  /-- SKIP_TIMER_EXPIRY (R196). A skip's stranded-tail timer reaches TIMEOUT times 64 fc and restarts. -/
  | skipTimerExpiry (skip : Nat)
  /-- HOIST_BURST_ISSUE (R306). A hoist translates and issues the next burst of its stream. -/
  | hoistBurstIssue (h : Nat)
  /-- HOIST_BURST_COMPLETE (R307). A burst completes, advancing the progress count and possibly ending or switching the stream. -/
  | hoistBurstComplete (h i : Nat)
  /-- WAIT_HALF_END (R311). A hoist in WAIT_HALF sees its half FREE and begins the fill. -/
  | waitHalfEnd (h : Nat)
  /-- TRANSLATION_WALK_COMPLETE (R298). A translation cache miss completes its table walk. -/
  | translationWalkComplete (claim page : Nat)
  /-- HOLD_COPY_COMPLETE (R309). A hold copy finishes its event store record, and HEAD advances. -/
  | holdCopyComplete (h : Nat)
  /-- SUMP_REQUEST (R313). A requester presents a run of port bursts at a sump port. -/
  | sumpRequest (port req claim d : Nat) (len lst : Nat) (write : Bool)
  /-- PORT_BURST_COMPLETE (R315). A port burst completes, and the arbiter makes its next grant decision. -/
  | portBurstComplete (burst : PortBurst)
  /-- CANARY_COUNT_EXPIRY (R316). A grant held for CANARY times 256 fc is revoked, and its requester is stopped. -/
  | canaryCountExpiry (port : Nat)
  /-- MARKING_COMPLETE (R302). The marking engine finishes marking mapped pages or tile memory unwritten. -/
  | markingComplete (seq : Nat)
  /-- PATROL_SCRUB (R388). The background patrol scrubs tile SRAM and the sump, correcting errors. -/
  | patrolScrub (addr : Nat)
  /-- BAR4_ACCESS (R299). A host read or write through BAR4 is translated and performed as a burst. -/
  | bar4Access (claim : Nat) (write : Bool) (cva : Nat) (len : Nat) (data : List Byte)
  /-- DOORBELL_PRODUCER_WRITE (R324). Host software writes a command ring's PRODUCER index. -/
  | doorbellProducerWrite (claim ring : Nat) (value : Word)
  /-- DOORBELL_CONSUMER_WRITE (R325). Host software advances CONSUMER of the completion or event ring. -/
  | doorbellConsumerWrite (claim ring : Nat) (value : Word)
  /-- FORWARDED_DOORBELL (R363). A member device receives a forwarded doorbell of a member-served ring. -/
  | forwardedDoorbell (claim ring : Nat) (value : Word)
  /-- RING_ENTRY_TAKE (R328). The headframe takes a command entry, checks its tag, journals it, advances CONSUMER and validates it. -/
  | ringEntryTake (claim ring : Nat)
  /-- COMPLETION_ENTRY_PLACE (R325). A completion record is placed in ring 14 when room allows, and MSI-X vector 0 may fire. -/
  | completionEntryPlace (claim : Nat)
  /-- EVENT_RECORD_PLACE (R325). A held event record is placed in ring 15 when room allows, and MSI-X vector 1 may fire. -/
  | eventRecordPlace (claim : Nat)
  /-- CLAIM_OPEN (R337). Opens a closed claim, mapping its rings and journal and setting its quota. -/
  | claimOpen (seq : Nat)
  /-- CLAIM_RESET (R338). Drains and resets a claim's pipelines, streams, skips, tiles and images. -/
  | claimReset (seq : Nat)
  /-- CLAIM_RESET_COMPLETE (R338). When every engine reports clean, the reset completes and the claim returns to OPEN. -/
  | claimResetComplete (claim : Nat)
  /-- CLAIM_CLOSE (R340). Resets a claim if open, then unmaps everything and closes it. -/
  | claimClose (seq : Nat)
  /-- MAP (R302). Allocates and marks sump pages, or maps tile-window or remote pages. -/
  | map (seq : Nat)
  /-- UNMAP (R298). Removes mappings after invalidating cached copies and draining bursts. -/
  | unmap (seq : Nat)
  /-- RING_SETUP (R327). Sets up or disables a command ring at a pinned region. -/
  | ringSetup (seq : Nat)
  /-- LOAD (R241). Checks an image and reserves, writes and patches its resources. -/
  | load (seq : Nat)
  /-- LOAD_COMPLETE (R241). The writes of a load finish, and its completion record is written. -/
  | loadComplete (seq : Nat)
  /-- SHADOW_LOAD_COMPLETE (R55). A tile's shadow copies are complete, and SHADOW_VALID is set. -/
  | shadowLoadComplete (t : Nat)
  /-- UNLOAD (R327). Unloads an image that is not bound. -/
  | unload (seq : Nat)
  /-- BIND (R17). Binds a pipeline to a tick domain, decision lines and quads, or refuses it. -/
  | bind (seq : Nat)
  /-- START (R32). Schedules a pipeline to accept frames from a shift. -/
  | start (seq : Nat)
  /-- STOP (R32). Schedules a pipeline to stop accepting frames from a shift. -/
  | stop (seq : Nat)
  /-- SWAP (R32). Schedules all stages to switch to a swap-compatible successor image at a tick. -/
  | swap (seq : Nat)
  /-- WEIGHT_UPDATE (R342). Copies new weights into a tile's weight store range. -/
  | weightUpdate (seq : Nat)
  /-- HOIST (R305). Queues a best-effort copy stream on a hoist. -/
  | hoist (seq : Nat)
  /-- RESUME (R310). Requeues a stream set aside by a page fault at the head of its queue. -/
  | resume (seq : Nat)
  /-- SCRUB (R387). Reads and corrects a range, then writes a summary. -/
  | scrub (seq : Nat)
  /-- SNAPSHOT (R414). Schedules a snapshot of the tile and skip state of an image. -/
  | snapshot (seq : Nat)
  /-- SNAPSHOT_LATCH (R414). At F fc after tick S, the state is latched and drained to the destination. -/
  | snapshotLatch
  /-- CAPTURE (R287). Schedules a capture of a riddle block's state. -/
  | capture (seq : Nat)
  /-- COUNTER_READ (R413). Copies counters of one class to claim memory. -/
  | counterRead (seq : Nat)
  /-- SELF_TEST (R386). Runs the self-tests that its scope selects. -/
  | selfTest (seq : Nat)
  /-- JOURNAL_READ (R336). Copies journal records to claim memory. -/
  | journalRead (seq : Nat)
  /-- FENCE_COMMAND (R329). Completes when every earlier-accepted command of the claim has completed. -/
  | fenceCommand (seq : Nat)
  /-- FLR (R341). A function-level reset resets one claim, or all claims for the physical function. -/
  | flr (claim : Nat)
  /-- PERST_N_ASSERT (R396). PERST_N alone performs a conventional PCIe reset, with FLR of the physical function. -/
  | perstNAssert
  /-- POR_N_ASSERT (R396). Cold reset ends all state of the device. -/
  | porNAssert
  /-- POR_N_DEASSERT (R405). Release from cold reset samples MESH_HEAD and starts the boot ROM. -/
  | porNDeassert (meshHead : Bool)
  /-- PLL_LOCK (R405). The PLLs lock, and the firmware read, HBM init and SRAM fill start. -/
  | pllLock
  /-- TILE_SRAM_FILL_COMPLETE (R300). Tile SRAM holds zeros with valid check bits. -/
  | tileSramFillComplete
  /-- CHECKER_SELF_TEST_COMPLETE (R386). The checker test and SRAM march finish, and failures are spared. -/
  | checkerSelfTestComplete (failures : List FaultReport)
  /-- HBM_TRAINED (R405). The HBM interfaces finish training. -/
  | hbmTrained
  /-- SUMP_ADDRESS_TEST_COMPLETE (R386). The sump address test finishes. -/
  | sumpAddressTestComplete (failures : List FaultReport)
  /-- FIRMWARE_VERIFIED (R406). The firmware signature check ends, setting SECURE_BOOT_OK or a boot error. -/
  | firmwareVerified (error : Nat)
  /-- SUMP_FILL_COMPLETE (R405). The sump fill ends, ONLINE is set and the headframe processor is released. -/
  | sumpFillComplete
  /-- HEADFRAME_READY (R405). READY is set in HF_STATUS. -/
  | headframeReady
  /-- PCIE_LINK_UP (R405). The PCIe link reaches the active state. -/
  | pcieLinkUp
  /-- ROW_POWER_READY (R397). A powered-on fabric row becomes ready, with its SRAM filled. -/
  | rowPowerReady (row : Nat)
  /-- DROOP_SENSOR_TRIP (R399). A row's sag sensor trips. -/
  | droopSensorTrip (row : Nat)
  /-- DROOP_SENSOR_CLEAR (R399). A row's sag sensor clears. -/
  | droopSensorClear (row : Nat)
  /-- ROW_CLOCK_STEP_DOWN (R399). After 2 row fc with the sensor tripped, k falls by one. -/
  | rowClockStepDown (row : Nat)
  /-- ROW_CLOCK_STEP_UP (R399). After STEP_UP_FC row fc with the sensor clear, k rises by one. -/
  | rowClockStepUp (row : Nat)
  /-- THERMAL_SENSOR_READ (R403). Every 100 µs, the junction sensors are read and the thermal thresholds applied. -/
  | thermalSensorRead (celsius : Nat)
  /-- FAULT_DETECTION (R373). A checker reports a fault; it is tracked and corrected, replayed or retired. -/
  | faultDetection (f : FaultReport)
  /-- REPLAY_RESTART (R373). In fc t+16 the restored threads issue again from their checkpoints. -/
  | replayRestart (t : Nat)
  /-- RETIREMENT_EFFECT (R376). A decided retirement takes effect at the first slot boundary. -/
  | retirementEffect
  /-- RETIREMENT_COPY_COMPLETE (R376). A line or bank copy of a retirement completes. -/
  | retirementCopyComplete
  /-- SPARE_LOAD_COMPLETE (R379). The spare tile finishes loading from the headframe's copy. -/
  | spareLoadComplete (t : Nat)
  /-- SPARE_RESTART (R379). The spare's threads restart from their checkpoints at the next slot boundary. -/
  | spareRestart (t : Nat)
  /-- PORT_TRAINING_COMPLETE (R349). An Emeel port finishes training and fixes L_MEAS, RETRY_WINDOW and L_FIXED, or fails. -/
  | portTrainingComplete (port lMeas : Nat) (neighbour : Option Nat)
  /-- FLIT_RECEIVED (R348). A flit is corrected and CRC-checked, then accepted, discarded as a duplicate or NAKed. -/
  | flitReceived (port : Nat) (f : Flit) (corrected : Nat) (crcOk : Bool)
  /-- NAK_RECEIVED (R348). A NAK causes the sender to retransmit from its replay buffer. -/
  | nakReceived (port : Nat) (seq : Nat)
  /-- FLIT_DELIVERY (R350). An accepted flit is handed on exactly L_FIXED fc after its stamp. -/
  | flitDelivery (port : Nat)
  /-- ID_TOKEN_RECEIVED (R354). A device takes its mesh id from an id token and forwards it. -/
  | idTokenReceived (port x y xSize ySize : Nat)
  /-- DEVICE_REPORT (R354). A device reports to the head; when all have reported, ENUMERATED is set. -/
  | deviceReport (id : Nat) (latency : Nat)
  /-- MESH_TIME_CORRECTION (R355). Each millisecond, a member measures its offset and slews MESH_TIME. -/
  | meshTimeCorrection (offset : Int)
  /-- REMOTE_WINDOW_ACCESS (R364). A PF access to the remote register window is sent to the selected member. -/
  | remoteWindowAccess (write : Bool) (offset : Nat) (value : Word)
  /-- REMOTE_ACCESS_TIMEOUT (R364). A window access unanswered within 65,536 fc returns all ones or is discarded. -/
  | remoteAccessTimeout
  /-- ENUMERATE (R354). A write of ENUMERATE on the head starts mesh enumeration. -/
  | enumerate (value : Word)
  /-- RETRAIN (R367). A write of RETRAIN retrains an Emeel port unless a bound route uses it. -/
  | retrain (port : Nat) (value : Word)
  /-- HF_TICK_CFG_WRITE (R14). A write to a domain's configuration, including ENABLE, is checked and applied. -/
  | hfTickCfgWrite (d : Nat) (value : Word)
  /-- HF_TICK_PERIOD_WRITE (R14). A write of PERIOD is checked and applied. -/
  | hfTickPeriodWrite (d : Nat) (value : Word)
  /-- HF_TICK_TOL_WRITE (R14). A write of TOLERANCE is checked and applied. -/
  | hfTickTolWrite (d : Nat) (value : Word)
  /-- HF_TICK_COUNT_LO_READ (R15). A read of COUNT_LO latches bits 63..32 into COUNT_HI. -/
  | hfTickCountLoRead (d : Nat)
  /-- JOURNAL_HEAD_LO_READ (R345). A read of JOURNAL_HEAD_LO latches the high word. -/
  | journalHeadLoRead (claim : Nat)
  /-- HF_SEQ_LO_READ (R345). A read of SEQ_LO latches SEQ_HI. -/
  | hfSeqLoRead
  /-- HF_EVENT_SEQ_LO_READ (R371). A read of EVENT_SEQ_LO latches EVENT_SEQ_HI. -/
  | hfEventSeqLoRead
  /-- EM_TIME_LO_READ (R367). A read of TIME_LO latches TIME_HI. -/
  | emTimeLoRead
  /-- HF_LOCK_SET_WRITE (R344). A write of 1 to bit k locks lock group k until device reset. -/
  | hfLockSetWrite (value : Word)
  /-- HF_FAULT_CFG_WRITE (R371). A write of the fault configuration is applied, or ignored as a whole if out of range. -/
  | hfFaultCfgWrite (value : Word)
  /-- AD_QUAD_CFG_WRITE (R252). A write of a quad's configuration is rejected if the quad is in use, or otherwise retrains the quad. -/
  | adQuadCfgWrite (q : Nat) (value : Word)
  /-- AD_QUAD_CHMAP_WRITE (R256). A write of CH_BASE and CH_COUNT is applied unless the quad is bypass-bound. -/
  | adQuadChmapWrite (q : Nat) (value : Word)
  /-- AD_DEC_LINE_WRITE (R266). A write of LINE_RATE or DUPLICATE is applied unless a bound line forbids it. -/
  | adDecLineWrite (line : Nat) (value : Word)
  /-- SP_ARB_CFG_WRITE (R318). A write of the canary limit and LW_INTERVAL is applied at the next decision, or rejected. -/
  | spArbCfgWrite (value : Word)
  /-- SP_HOIST_CFG_WRITE (R318). A write of a hoist's ENABLE and MAX_BURST is applied at its next burst, or rejected. -/
  | spHoistCfgWrite (h : Nat) (value : Word)
  /-- PW_TDP_CFG_WRITE (R401). A write of TDP_W is checked and starts a share computation. -/
  | pwTdpCfgWrite (value : Word)
  /-- PW_THERMAL_CFG_WRITE (R403). A write of WARN_C is applied, re-arming the warning crossing, or rejected. -/
  | pwThermalCfgWrite (value : Word)
  /-- PW_DROOP_CFG_WRITE (R409). A write of STEP_UP_FC and THRESHOLD_MV is applied or rejected. -/
  | pwDroopCfgWrite (value : Word)
  /-- COUNTER_LOW_READ (R410). A read of a counter's low word latches its bits 47..32 in the path's latch. -/
  | counterLowRead (jtag : Bool) (offset : Nat)
  /-- COUNTER_HIGH_WRITE (R410). A write of a counter's high word loads the staging register and may clear OVF. -/
  | counterHighWrite (jtag : Bool) (offset : Nat) (value : Word)
  /-- COUNTER_LOW_WRITE (R410). A write of a counter's low word sets all 48 bits from the staging register and the word. -/
  | counterLowWrite (jtag : Bool) (offset : Nat) (value : Word)
  /-- DB_HALT (R417). A halt command asks the named threads to halt before their next issue. -/
  | dbHalt (value : Word)
  /-- DB_RESUME (R419). A resume command restarts halted threads, placing them at WAITTICK if a tick has passed. -/
  | dbResume (value : Word)
  /-- DB_STEP (R417). A step command lets each named thread issue one instruction and then halt again. -/
  | dbStep (value : Word)
  /-- DB_FORCE (R418). A force command halts at once, breaking any held lock. -/
  | dbForce (value : Word)
  /-- HALT_TAKES_EFFECT (R417). A pending halt takes effect before the thread's next issue, after any UNLOCK. -/
  | haltTakesEffect (t th : Nat)
  /-- HALT_LOCK_TIMEOUT (R418). After 4,096 fc a waiting halt breaks the lock, sets FORCED and halts. -/
  | haltLockTimeout (t th : Nat)
  /-- UNLOCK_SUBMIT (R421). A write of SUBMIT starts the check of a debug unlock token. -/
  | unlockSubmit
  /-- UNLOCK_CHECK_COMPLETE (R421). The token check ends, setting UNLOCKED, or decrementing ATTEMPTS_LEFT and drawing a new nonce. -/
  | unlockCheckComplete
  /-- DBACC (R422). A JTAG DBACC update performs one register access, or refuses it. -/
  | dbacc (value : DWord)
  /-- REGISTER_WRITE (R8). A write to any other register field acts by its access type, with locked fields ignored. -/
  | registerWrite (offset : Nat) (value : Word)
  /-- PERST_N_DEASSERT (R396). Deassertion of the PCIe fundamental reset pin ends the reset and starts link training, which reaches the active state within 20 ms. -/
  | perstNDeassert
  /-- TREE_RISING_EDGE (R275). A rising edge of a riddle regional clock tree updates the macrocell registers clocked by it and performs the memory reads and writes of its ports. -/
  | treeRisingEdge (edge : TreeEdge)
  /-- STACK_TEMPERATURE_UPDATE (R318). Every 1 ms the ZZ-96 updates TEMP_C of each HBM stack in SP_STACK_STATUS_k. -/
  | stackTemperatureUpdate (celsius : List Byte)
  /-- PACKAGE_POWER_UPDATE (R409). Every 1 ms the ZZ-96 updates POWER_MW with the measured package power. -/
  | packagePowerUpdate (milliwatt : BitVec 20)
  /-- TREE_FREQUENCY_UPDATE (R289). Every 1 ms the ZZ-96 updates FREQ_KHZ of each riddle tree with its measured output frequency. -/
  | treeFrequencyUpdate (kilohertz : List (BitVec 20))
deriving DecidableEq, Repr

end Sys2Proof
end

