-- ==== Sys2Proof/Machine/State.lean ====
section
/-! DEFINITION. The state of the ZZ-96 as plain data: every register, store, queue, counter and pin
that the spec names, the queue of waiting commands, and the state after reset. Tables (`Tab`) list only
what differs from the reset value of an entry. -/

namespace Sys2Proof.Machine

/-- Why a command stops. No constructor here stands for an effect the spec gives: each says that the
command names no happening of the machine in this state. -/
inductive Fault where
  /-- The command names an object the device does not have, or an operand outside its width. Raised by
  every meaning that takes an index. Safe: the hardware has no such happening. -/
  | badOperand
  /-- The happening is not pending in this state or is not due at this time. Raised by the meanings of
  internal and timed happenings. Safe: the hardware does not do it in this state. -/
  | notDue
  /-- The thread cannot issue this instruction now: it is not the ready thread that R48 selects, or the
  word at its program counter is another instruction (R114). Safe: the hardware does not issue it. -/
  | cannotIssue
  /-- A host access or command reaches a part that is switched off or absent, such as a BAR2 page of a
  function that is not enabled. Safe. -/
  | noAccess
deriving DecidableEq, Repr

/-- Why a command has no meaning in the model. -/
inductive Refusal where
  /-- The command is not modelled. Raised by an arm of exec that has no meaning yet. Safe. -/
  | notModelled (mnemonic : String)
deriving DecidableEq, Repr

/-! ## Tick domains (chapter 1) -/

/-- Registers and time of one tick domain (Tables 1.1 to 1.5). -/
structure TickDomain where
  enable : Bool := false
  source : BitVec 2 := 0
  lane : BitVec 6 := 0
  lvdsInput : BitVec 3 := 0
  period : BitVec 24 := 0x4B0
  tolerance : BitVec 16 := 0xC
  early : Bool := false
  lost : Bool := false
  running : Bool := false
  count : DWord := 0
  /-- COUNT_HI as latched by the last read of COUNT_LO -/
  countHi : Word := 0
  /-- fc of the last tick, once the domain runs (R13, R16) -/
  lastTick : Nat := 0
  /-- fc of the last external or inserted tick, from which R13 counts; none before the first -/
  lastArrival : Option Nat := none
  /-- fc at which the internal generator ticks next (R14) -/
  nextInternal : Nat := 0
  /-- external ticks on their way, whatever the domain's source: tick input 0 to 7 or 8 + lane, and the fc at
  which each arrives in the tick domain (R13, R264, R265) -/
  dueTicks : List (Nat × Nat) := []
  /-- mesh times at which a followed domain ticks (R356) -/
  followAt : List Nat := []
  /-- a followed domain's internal generator repeats every PERIOD (R356) -/
  followRepeat : Bool := false
  /-- row fc of each row at the last tick; none before the first (R400) -/
  rowFc : List Nat := []
deriving DecidableEq, Repr

/-! ## Sequencers and tiles (chapters 2 to 6) -/

/-- What a thread waits for (R48, R114). -/
inductive Wait where
  | none
  | tick
  /-- SLOT with NEXT = 0: the mark of a slot -/
  | slot (n : Nat)
  /-- SLOT with NEXT = 1 -/
  | nextMark
  | queue (port count : Nat)
  | bell (route : Nat) (any : Bool) (value rd : Nat)
  | bellSend (route value : Nat)
  | fence
  | lock (tile line : Nat)
  | fn (unit : Nat)
  /-- an uncorrectable program word stopped the thread until the tick (R98) -/
  | eccWord
deriving DecidableEq, Repr

/-- Why a thread is stopped, if it is (Table 2.11, R168, R175, R417). -/
inductive Mode where
  | idle | running | halted | illegal | debug
deriving DecidableEq, Repr

/-- A stream descriptor (R103, R126). -/
structure SDesc where
  gsize : Nat := 0
  wmode : Nat := 0
  amode : Nat := 0
  wsbase : Nat := 0
  abase : Nat := 0
  pitch : Nat := 0
deriving DecidableEq, Repr

/-- One open loop body of a thread, innermost first (R110, R165). -/
structure LoopFrame where
  ctr : Nat
  first : Nat
  last : Nat
  trip : Nat
  pass : Nat := 0
deriving DecidableEq, Repr

/-- What a checkpoint holds (R372), and what a thread's registers are (Table 2.5, R103, R136). -/
structure Regs where
  g : Tab Word := []
  v : Tab Line := []
  pc : Nat := 0
  loops : List LoopFrame := []
  sd : Tab SDesc := []
  zm : DWord := 0
  /-- last value popped on each input port of the thread (R146) -/
  lastPop : Tab Line := []
deriving DecidableEq, Repr

/-- One thread of a sequencer. -/
structure Thread where
  mode : Mode := .idle
  wait : Wait := .none
  regs : Regs := {}
  checkpoint : Regs := {}
  /-- an instruction has issued since the checkpoint (R373) -/
  issued : Bool := false
  /-- row fc from which the thread may issue again -/
  readyAt : Nat := 0
  /-- row fc at which an outstanding write of g (0 to 31), v (32 to 47) or ZM (48) is done; registers
  whose arrival has no fixed time are listed in `await` (R114) -/
  busy : Tab Nat := []
  await : List Nat := []
  /-- value of each such register before the outstanding write: what observation shows until it is done (R137) -/
  before : Tab Line := []
  /-- the locked S-tile (logical id) and line offset (R161) -/
  lock : Option (Nat × Nat) := none
  /-- lines whose UNLOCK has issued and waits for the thread's accesses up to a number: S-tile (logical id), line
  offset, number of the last access before the UNLOCK (R161) -/
  unlocks : List (Nat × Nat × Nat) := []
  /-- a debug halt is asked for; the row fc at which it breaks a lock (R417, R418) -/
  haltAsked : Option Nat := none
  /-- halt again after the next issue (STEP) -/
  stepping : Bool := false
  /-- a tick of the thread's domain has passed since its debug halt (R419) -/
  tickPassed : Bool := false
  /-- its stage has missed while it ran on outside its perpetual body: its commits are late results (R29) -/
  late : Bool := false
  /-- resumed at a word that a comparator names: that word may issue once (R420) -/
  passBreak : Bool := false
  /-- scratch stores issued since the start of the image (R153, R164) -/
  stores : Nat := 0
  /-- scratch loads and stores issued since the start of the image (R161) -/
  accesses : Nat := 0
  /-- a COMMIT on one port has issued since the checkpoint (R190) -/
  midCommit : Bool := false
  /-- a replay has followed such a COMMIT, or a slot that cannot be repeated: the thread's later results are unspecified
  (R190, R375) -/
  unsure : Bool := false
deriving DecidableEq, Repr

/-- An output or input port of a tile (R143). `dests` holds destination skips with the route latency of
each; an input port has its own skip there. -/
structure Port where
  thread : Nat
  output : Bool
  dests : List (Nat × Nat) := []
  /-- entries pushed since the start of the image, register pushes and block entries alike -/
  pushed : Nat := 0
  /-- of those, how many the last COMMIT covers, in effect or deferred -/
  committed : Nat := 0
  /-- COMMITs still deferred, oldest first: the pushes or consumed words each covers (R154, R186) -/
  deferred : List Nat := []
deriving DecidableEq, Repr

/-- A bell route entry of a tile (R171): thread, direction, destinations with latency. -/
structure Bell where
  thread : Nat
  send : Bool
  dests : List (Nat × Nat × Nat) := []
deriving DecidableEq, Repr

/-- The instructions that an M-tile runs in order (R115). -/
inductive MacKind where
  | mms | wcs | rq | oq
deriving DecidableEq, Repr

/-- An MMS, WCS, RQ or OQ in flight on an M-tile. -/
structure MacOp where
  kind : MacKind
  word : Nat
  desc : SDesc := {}
  thread : Nat
  issuedAt : Nat
  /-- row fc in which the array or the unit started -/
  startedAt : Option Nat := none
  /-- count of pushes of its port up to its last (OQ with TOPORT = 1) -/
  upTo : Nat := 0
  /-- scratch stores its thread had issued (R153) -/
  after : Nat := 0
  /-- row fc before which it does not start: the fc after a wait ended (R122) -/
  notBefore : Nat := 0
  /-- rows of an OQ already written to the window (R132) -/
  rows : Nat := 0
  /-- a window write met what the stream reads: its results are unspecified (R116) -/
  unsure : Bool := false
deriving DecidableEq, Repr

/-- An F-tile call in flight, with the copied descriptor (R138). -/
structure FnCall where
  unit : Nat
  desc : Nat
  descAddr : Nat
  thread : Nat
  issuedAt : Nat
  startedAt : Option Nat := none
deriving DecidableEq, Repr

/-- A block POP or PUSH in flight (R148, R152). -/
structure BlockMove where
  push : Bool
  port : Nat
  thread : Nat
  addr : Nat
  count : Nat
  /-- entries taken at issue by a block POP, oldest first -/
  taken : List Line := []
  eop : Bool := false
  /-- the last word popped before the move, for missing entries (R148) -/
  lastWord : Line := 0
  /-- count of pushes or consumed words of the port up to its last -/
  upTo : Nat := 0
  issuedAt : Nat
  /-- row fc whose next fc moves the first entry, once no interlock holds it -/
  startedAt : Option Nat := none
  /-- taken entries that have not reached the head yet (R183) -/
  missing : Nat := 0
  /-- row fc in which the last entry that has reached the head moves, once the move has started -/
  lastAt : Nat := 0
  /-- scratch stores its thread had issued (R153) -/
  after : Nat := 0
deriving DecidableEq, Repr

/-- A scratch load or store on its way (R158, R159). -/
structure Scratch where
  load : Bool
  thread : Nat
  /-- how many stores the thread had issued, this one included -/
  order : Nat := 0
  /-- how many accesses the thread had issued, this one included (R161) -/
  number : Nat := 0
  /-- bytes that the load has taken, before a later store of its thread to the address (R164) -/
  got : Option Nat := none
  reg : Nat
  vector : Bool
  size : Nat
  signed : Bool := false
  /-- logical id of the S-tile, and byte offset -/
  stile : Nat
  offset : Nat
  data : Line := 0
  due : Nat
deriving DecidableEq, Repr

/-- Weight-store half states (Table 2.6). -/
inductive HalfState where
  | free | filling | ready | active
deriving DecidableEq, Repr

/-- A window write to memory that a SWAP exchanges: fc, claim, first offset, bytes, start and length of its access,
whether a violation of the access is raised already, and the bytes that were there (R46, R95, R96). -/
structure WindowWrite where
  fc : Nat
  claim : Nat
  first : Nat
  bytes : List Byte
  access : Nat × Nat
  noted : Bool
  old : List (Nat × Byte)
deriving DecidableEq, Repr

/-- What a thread has done since its checkpoint, as far as a replay must be able to repeat it (R375). -/
structure Slot where
  /-- tile-memory bytes, as (start, end), that it read before it had written them -/
  reads : List (Nat × Nat) := []
  writes : List (Nat × Nat) := []
  /-- it has overwritten a byte that it read -/
  broken : Bool := false
  /-- its scratch stores: S-tile, offset, size, value -/
  stores : List (Nat × Nat × Nat × Nat) := []
  /-- scratch stores from before a replay that are still to be repeated -/
  again : List (Nat × Nat × Nat × Nat) := []
deriving DecidableEq, Repr

/-- One tile position: ST registers, sequencer and units (chapters 2 to 6). -/
structure Tile where
  mapped : Bool := false
  logical : Nat := 0
  enabled : Bool := false
  claim : Nat := 0
  group : Nat := 0
  fold : Bool := false
  threadsUsed : Nat := 0
  /-- handle of the image that owns the tile, and its stage (Table 9.5) -/
  image : Nat := 0
  stage : Nat := 0xFF
  activeBank : Bool := false
  shadowValid : Bool := false
  replaced : Bool := false
  degraded : Bool := false
  halfA : HalfState := .free
  halfB : HalfState := .free
  fillA : Nat := 0
  /-- byte count that the fill in progress of each half declares (R60) -/
  fillTotalA : Nat := 0
  fillTotalB : Nat := 0
  /-- fc in which each half last became FREE at the end of a stream (R317) -/
  freedA : Option Nat := none
  freedB : Option Nat := none
  /-- window writes of this fc to the program banks and scale files (R96) -/
  landed : List WindowWrite := []
  fillB : Nat := 0
  lockBroken : Bool := false
  swapFailed : Bool := false
  illegal : Bool := false
  threads : Tab Thread := []
  lastIssued : Nat := 3
  /-- row fc from which the tile may issue again: at most one instruction each fc (R48) -/
  issueFc : Nat := 0
  /-- thread that owns each loop counter (Table 2.5) -/
  counters : Tab Nat := []
  ports : Tab Port := []
  bells : Tab Bell := []
  inbox : Tab (List Byte) := []
  /-- bell tokens on their way to this tile: route, token, row fc of arrival (R171) -/
  bellFly : List (Nat × Byte × Nat) := []
  macs : List MacOp := []
  rowScale : Tab Half := []
  fns : List FnCall := []
  moves : List BlockMove := []
  scratch : List Scratch := []
  /-- an S-tile's locked lines: offset, holder position and thread (R161) -/
  locks : List (Nat × Nat × Nat) := []
  /-- LOCK requests: offset, position, thread, and the fc of this row at which each is here -/
  lockReqs : List (Nat × Nat × Nat × Nat) := []
  /-- ticks of the domain on their way: tick-clock fc at which each reaches column 0, and, once it has
  entered the row, row fc at which it arrives here (R18) -/
  tickIn : List Nat := []
  tickDue : List Nat := []
  /-- row fc at which the current shift's tick arrived, and the next slot mark (R169) -/
  shiftFc : Option Nat := none
  nextSlot : Nat := 0
  /-- pushes carry the miss mark until the next mark (R191) -/
  missMark : Bool := false
  /-- a thread has popped an entry to which a degraded tile contributed: pushes say so until the next mark (R23) -/
  degradedMark : Bool := false
  /-- R29 applies to the stage at its tick because of an earlier fault of this shift -/
  mustMiss : Bool := false
  /-- the miss a replay, replacement or retry caused carries SECONDARY of this event (R384) -/
  missCause : Option Nat := none
  /-- row fc at which a replay restarts its threads (R373) -/
  restartAt : Option Nat := none
  /-- threads to restart, and the location whose retry the replay is (R370) -/
  restart : List Nat := []
  retryOf : Option Nat := none
  /-- row fc of the detection that the replay answers (R198) -/
  replayFc : Nat := 0
  /-- slots of the threads that have used a unit or stored to scratch since their checkpoint (R375) -/
  slots : Tab Slot := []
  /-- retirements in effect (Table 15.1): column, sequencer copies, function lanes as 4,096 × unit + lane,
  S-tile bank -/
  columnRetired : Option Nat := none
  copiesMasked : List Nat := []
  lanesRetired : List Nat := []
  bankReplaced : Option Nat := none
  /-- remapped lines of each unit or bank -/
  remaps : List (TileUnit × Nat × Nat) := []
  skipEndsMoved : Nat := 0
  lost : Bool := false
  /-- a spare: being loaded, its row fc, and ticks of the pipeline still to pass (R379) -/
  spareLoading : Bool := false
  /-- shadow copies being written, and the handle whose contents they are (R55) -/
  shadowLoading : Bool := false
  shadowImage : Nat := 0
  spareLoaded : Bool := false
  graceTicks : Nat := 0
deriving DecidableEq, Repr

/-! ## The shaft (chapter 7) -/

/-- A pushed entry at the tail or on the route (R186). -/
structure Entry where
  /-- scratch stores its thread had issued at the push: they are performed before it is seen (R153) -/
  after : Nat := 0
  /-- number of the push on its port since the start of the image; 0 for an entry committed as placed -/
  seq : Nat := 0
  data : Line
  bytes : Nat
  eop : Bool := false
  miss : Bool := false
  /-- a slot of its frame ran on a tile replaced without a warm spare (R23) -/
  degraded : Bool := false
  /-- a zero-run entry and its mask (R194) -/
  zrc : Bool := false
  mask : DWord := 0
  /-- fc of the consumer's row at which it reaches the tail -/
  due : Nat := 0
deriving DecidableEq, Repr

/-- A read word or zero-run entry on the consumer side (R188, R193). -/
structure RWord where
  data : Line
  valid : Nat
  eop : Bool := false
  forced : Bool := false
  miss : Bool := false
  degraded : Bool := false
  zrc : Bool := false
  mask : DWord := 0
  /-- bytes it stores, for the free bytes of a zero-run skip (R194) -/
  stored : Nat := 0
deriving DecidableEq, Repr

/-- SKIP configuration (Tables 7.5 to 7.11) and its ends. -/
structure SkipCfg where
  valid : Bool := false
  sump : Bool := false
  net : BitVec 2 := 0
  zrc : Bool := false
  pushWidth : BitVec 3 := 0
  faultUnderrun : Bool := false
  forceTail : Bool := false
  rateCheck : Bool := false
  realtime : Bool := false
  claim : Nat := 0
  pipeline : Nat := 0
  domain : Nat := 0
  consumer : Nat := 0
  baseLo : Word := 0
  baseHi : Word := 0
  size : Nat := 0
  channels : Nat := 0
  pushRate : Nat := 0
  popRate : Nat := 0
  /-- consumer port, if a thread port reads the skip (R427) -/
  port : Option Nat := none
  /-- hardware end (R428): 0 none, 1 ingest, 2 decision, 3 hold -/
  role : Nat := 0
  hwChannel : Nat := 0
  hwCount : Nat := 0
  hwTile : Nat := 0
  /-- producer position and port, when a thread port pushes -/
  producer : Option (Nat × Nat) := none
  routeLatency : Nat := 0
  fetchLatency : Nat := 0
  image : Nat := 0
  /-- segments of a hold: S-tile logical id, offset, length (R182) -/
  segments : List (Nat × Nat × Nat) := []
  /-- a cross-device skip's peer device (R357) -/
  peer : Option Nat := none
deriving DecidableEq, Repr

/-- One skip: configuration, entries, credit, status and rate counts. -/
structure Skip where
  cfg : SkipCfg := {}
  timeout : Half := 0
  /-- limit in force until the timer's next restart (Table 7.11) -/
  activeTimeout : Nat := 0
  /-- row fc of the consumer tile the timer has counted -/
  timer : Nat := 0
  credit : Nat := 0
  free : Nat := 0
  /-- entries on the route, oldest first -/
  fly : List Entry := []
  /-- entries that reached the tail and are not yet in a visible word, oldest first -/
  tail : List Entry := []
  /-- how many of `tail` (from the oldest) are committed -/
  tailCommitted : Nat := 0
  /-- commit marks on the route: the last push each covers, and the fc at which its entries become visible -/
  marks : List (Nat × Nat) := []
  /-- last push that a mark which arrived covers -/
  covered : Nat := 0
  /-- discard marks on the route: the last push each keeps, and when it arrives (R358) -/
  discards : List (Nat × Nat) := []
  /-- last push that a COMMIT in effect covers -/
  effective : Nat := 0
  /-- fc of the last COMMIT in effect, and the last push covered before that fc (R201) -/
  commitAt : Option Nat := none
  commitFrom : Nat := 0
  /-- scratch stores that the entries an egress A-tile has handed on release (R153) -/
  sentAfter : Nat := 0
  /-- words consumed and words released since the start of the image -/
  consumedCount : Nat := 0
  releasedCount : Nat := 0
  /-- visible, unconsumed words, oldest first, and how many have reached the head (R183) -/
  words : List RWord := []
  headWords : Nat := 0
  fetches : List Nat := []
  /-- POPs and PEEKs waiting for a word on its way to the head: position, thread, register, PEEK. A block POP stands
  here once for each word it waits for, with register 64 (R183) -/
  popWait : List (Nat × Nat × Nat × Bool) := []
  /-- consumed, unreleased words, oldest first -/
  consumed : List RWord := []
  /-- row fc and number of words that became visible in it (Table 7.2) -/
  freshAt : Nat := 0
  fresh : Nat := 0
  creditAt : Nat := 0
  creditFresh : Nat := 0
  /-- credit on its way back: amount, due -/
  creditFly : List (Nat × Nat) := []
  dropping : Bool := false
  /-- the drop in progress began after the consumer's last COMMIT (R189), in this row fc (R201) -/
  dropNew : Bool := false
  dropAt : Nat := 0
  underrun : Bool := false
  timeoutBit : Bool := false
  creditViol : Bool := false
  widthMismatch : Bool := false
  ratePushErr : Bool := false
  ratePopErr : Bool := false
  lastPushed : Nat := 0
  lastPopped : Nat := 0
  /-- entries committed and words released in the running shift (R199) -/
  pushedNow : Nat := 0
  poppedNow : Nat := 0
  pushSeen : Bool := false
  popSeen : Bool := false
  pushArmed : Bool := false
  popArmed : Bool := false
  /-- fill entries and releases a deadline miss still owes (R192) -/
  fillDue : Nat := 0
  releaseDue : Nat := 0
  /-- values of `fillDue` at which the entry placed is the last of an earlier miss's fill (R192) -/
  fillEnds : List Nat := []
  /-- next place in the ring of a hold (R182) -/
  holdAt : Nat := 0
deriving DecidableEq, Repr

/-! ## Images and pipelines (chapters 1 and 9) -/

structure TileRec where
  tile : Nat
  kind : Nat
  flags : Nat
  threads : Nat
  stage : Nat
  starts : List Nat
  progFirst : Nat
  progWords : Nat
  counters : Nat
  ports : Nat
  bells : Nat
  initFirst : Nat
  initCount : Nat
deriving DecidableEq, Repr

structure RouteRec where
  kind : Nat
  hops : Nat
  src : Nat
  entry : Nat
  dest : Nat
  destEntry : Nat
  flits : Nat
  path : Nat
deriving DecidableEq, Repr

structure SkipRec where
  id : Nat
  cfg : Nat
  size : Nat
  middleRef : Nat
  timeout : Nat
  middleOffset : Nat
  pushRate : Nat
  popRate : Nat
  channels : Nat
  consumerPort : Nat
  role : Nat
  hwChannel : Nat
  hwCount : Nat
  hwTile : Nat
deriving DecidableEq, Repr

structure OwnRec where
  tile : Nat
  use : Nat
  offset : Nat
  length : Nat
  ref : Nat
deriving DecidableEq, Repr

structure BlobRec where
  target : Nat
  dest : Nat
  offset : Nat
  length : Nat
  data : Nat
deriving DecidableEq, Repr

structure RegionRec where
  size : Nat
  kind : Nat
  /-- claim-virtual address given with the LOAD (R239) -/
  cva : Nat := 0
deriving DecidableEq, Repr

structure RelocRec where
  kind : Nat
  region : Nat
  site : Nat
  addend : Nat
deriving DecidableEq, Repr

structure BudgetRec where
  stage : Nat
  channels : Nat
  slotFc : Nat
  reserveFc : Nat
  workFc : Nat
  replayFc : Nat
deriving DecidableEq, Repr

structure EnvRec where
  row : Nat
  peak : Nat
  minTokens : Nat
  streamMw : Nat
  staticMw : Nat
deriving DecidableEq, Repr

/-- MESH records (Table 14.1). -/
structure MeshRec where
  route : Nat
  direction : Nat
  peerDevice : Nat
  peerTile : Nat
  peerEntry : Nat
  peerCfg : Nat
  peerSize : Nat
  flits : Nat
  maxDx : Nat
deriving DecidableEq, Repr

/-- A frame of the riddle bitstream (R284). -/
structure RiddleFrame where
  type : Nat
  target : Nat
  payload : List Byte
deriving DecidableEq, Repr

structure RiddleBits where
  blockMask : Nat
  treeMask : Nat
  pairMask : Nat
  latencyNs : Nat
  frames : List RiddleFrame
deriving DecidableEq, Repr

/-- An Oadel image as its header and sections give it (chapter 9). -/
structure Image where
  claim : Nat := 0
  /-- the LOAD has completed -/
  loaded : Bool := false
  flags : Nat := 0
  shiftFc : Nat := 0
  depth : Nat := 0
  channels : Nat := 0
  keepMask : Nat := 0
  reserveQ10 : Nat := 0
  holdDrain : Nat := 0
  swapKey : Nat := 0
  tiles : List TileRec := []
  program : List Nat := []
  inits : List (Nat × Nat × Nat) := []
  routes : List RouteRec := []
  skips : List SkipRec := []
  owns : List OwnRec := []
  blobs : List BlobRec := []
  blobData : List Byte := []
  regions : List RegionRec := []
  relocs : List RelocRec := []
  budgets : List BudgetRec := []
  envs : List EnvRec := []
  mesh : List MeshRec := []
  riddle : Option RiddleBits := none
  /-- handle of the predecessor named by the LOAD, if it is a successor (R243) -/
  predecessor : Option Nat := none
  /-- 32 × domain + id once bound -/
  bound : Option Nat := none
  started : Bool := false
  /-- SEQ of its LOAD (R241) -/
  loadSeq : Nat := 0
  /-- bytes the headframe keeps for replacements: logical tile, window offset, byte (R379) -/
  copy : List (Nat × Nat × Byte) := []
deriving DecidableEq, Repr

/-- A frame at the A-tile or in the pipeline (R21, R25, R30). -/
structure Frame where
  channel : Nat
  number : Nat
  complete : Bool
  payload : List Byte
  /-- entries of the ingest skip already pushed, and zero fill in progress (R30) -/
  pushed : Nat := 0
  fill : Bool := false
  /-- its decision word has left; it stays only until its entries are all pushed -/
  released : Bool := false
  held : Bool := true
  /-- place and bytes in the ring of its hold (R182) -/
  lo : Nat := 0
  size : Nat := 0
  /-- row fc from which the next entry may leave -/
  nextAt : Nat := 0
deriving DecidableEq, Repr

/-- A hold copy waiting on or running on a hoist (R309). -/
structure HoldCopy where
  pipe : Nat
  claim : Nat
  channel : Nat
  number : Nat
  decision : Word
  /-- frame length, its hold skip, and its place there -/
  length : Nat
  hold : Nat
  lo : Nat
  size : Nat
  /-- CVA of the event store; offsets of the record, of HEAD after it, and of a wrap header (R309) -/
  store : Nat
  record : Nat
  newHead : Nat
  wrapAt : Option Nat
  /-- latest-service time SHIFT_FC -/
  lst : Nat
  /-- bytes of the event store, and its number among the copies queued (R309) -/
  storeSize : Nat := 0
  order : Nat := 0
  /-- its hold space was needed before it completed: it is written no further (R26) -/
  lost : Bool := false
deriving DecidableEq, Repr

/-- A bound pipeline (R17, R22, R32). -/
structure Pipe where
  image : Nat
  claim : Nat
  lineBase : Nat := 0
  lineCount : Nat := 0
  hoist : Nat := 0
  quads : Nat := 0
  /-- effective shifts of START, STOP and SWAP, with the command's SEQ -/
  start : Option (Nat × Nat) := none
  accepting : Bool := false
  stop : Option (Nat × Nat) := none
  swap : Option (Nat × Nat × Nat) := none
  /-- a claim reset ends the pipeline at its next tick (R33) -/
  ending : Bool := false
  frames : List Frame := []
  /-- channels that delivered a frame in the running shift (R21) -/
  seen : List Nat := []
  standing : List (Nat × Nat × Nat) := []
  /-- decision words of a best-effort pipeline go to its sump skip (R31) -/
  sumpSkip : Option Nat := none
deriving DecidableEq, Repr

/-! ## The Adit (chapter 10) -/

/-- A frame open on a lane (R255). -/
structure OpenFrame where
  chan : Nat
  seq : Word
  payload : List Byte := []
  blocks : Nat := 0
  broken : Bool := false
  /-- words already given to the riddle -/
  sent : Nat := 0
  /-- its number among the frames on their way to an A-tile; 0 for none -/
  stream : Nat := 0
deriving DecidableEq, Repr

structure Lane where
  up : Bool := false
  retired : Bool := false
  frame : Option OpenFrame := none
  /-- transmission is paused until this fc (R259) -/
  pausedUntil : Nat := 0
  paused : Bool := false
deriving DecidableEq, Repr

/-- AD_QUAD_CFG_q, AD_QUAD_CHMAP_q and AD_QUAD_STATUS_q (Tables 10.8 to 10.10). -/
structure Quad where
  enable : Bool := false
  mode : BitVec 2 := 0
  rate : BitVec 3 := 0
  mirror : Bool := false
  bypass : Bool := true
  skew : Byte := 0
  chBase : Half := 0
  chCount : Byte := 0
  domain : BitVec 3 := 0
  pipeline : BitVec 5 := 0
  bypassBound : Bool := false
  laneDown : Bool := false
  seqGap : Bool := false
  /-- previous frame sequence of each channel id (R255) -/
  prevSeq : Tab Word := []
deriving DecidableEq, Repr

structure Lvds where
  enable : Bool := false
  invert : Bool := false
  term : Bool := true
  ddr : Bool := false
  delay : BitVec 7 := 0
  /-- DIR of the PAIR frame of a general pair: an output (Table 11.4) -/
  out : Bool := false
deriving DecidableEq, Repr

structure DecLine where
  bound : Bool := false
  domain : BitVec 3 := 0
  pipeline : BitVec 5 := 0
  rate : BitVec 2 := 2
  duplicate : Bool := false
  words : Nat := 0
  firstChannel : Nat := 0
  /-- words waiting to leave: tenths of fc at which each begins, and the word (R267) -/
  queue : List (Nat × Word) := []
deriving DecidableEq, Repr

/-- AD_ATILE registers and scatter unit of an A-tile (R269 to R272). -/
structure ATile where
  mode : BitVec 2 := 0
  s2dF : BitVec 2 := 0
  valueType : Bool := false
  dtype : Bool := false
  conflict : BitVec 2 := 0
  c : BitVec 10 := 0
  h : Half := 0
  w : Half := 0
  /-- scatter buffers in use: pipe, channel, frame number, dense bytes left (R271) -/
  buffers : List (Nat × Nat × Nat × List Byte) := []
  /-- row fc from which the next dense entry may leave (R272) -/
  nextAt : Nat := 0
deriving DecidableEq, Repr

/-- A drift frame being put together from datagrams on an Ethernet port (R258). -/
structure Assembly where
  chan : Nat
  seq : Word
  payload : List Byte := []
  broken : Bool := false
  /-- its number among the frames on their way to an A-tile; 0 for none -/
  stream : Nat := 0
deriving DecidableEq, Repr

/-- A mirror window open on a primary lane (R261). -/
structure Mirror where
  lane : Nat
  chan : Nat
  seq : Word
  endsAt : Nat
  primary : Option (Bool × List Byte × Word) := none
  secondary : Option (Bool × List Byte × Word) := none
  /-- its window has ended: the later copy of its frame is discarded -/
  closed : Bool := false
  /-- the other copy came, after the window -/
  lateCopy : Bool := false
deriving DecidableEq, Repr

/-- A frame on its way to an A-tile (R256, R263), already mapped or not. -/
structure Arriving where
  lane : Nat
  target : Option (Nat × Nat)
  complete : Bool
  payload : List Byte
  /-- tenths of fc at which the last bit reaches the A-tile -/
  due : Nat
  /-- number of a frame whose bytes come ahead of its last bit (R21); 0 for a frame that comes whole -/
  id : Nat := 0
  /-- its end has not come -/
  open_ : Bool := false
  /-- tenths of fc at which how many of its bytes are at the A-tile, oldest first -/
  got : List (Nat × Nat) := []
  /-- entries pushed ahead of its last bit, the row fc from which the next may go, and a lack of credit (R30) -/
  pushed : Nat := 0
  nextAt : Nat := 0
  cut : Bool := false
  /-- at its first hit it took a scatter buffer, or found none free (R271) -/
  buffer : Option Bool := none
deriving DecidableEq, Repr

structure Adit where
  lanes : Tab Lane := []
  quads : Tab Quad := []
  lvds : Tab Lvds := []
  lines : Tab DecLine := []
  atiles : Tab ATile := []
  /-- AD_ETH_PORT_p, 64 bytes each -/
  eth : Tab Line := []
  assembly : Tab Assembly := []
  mirrors : List Mirror := []
  arriving : List Arriving := []
  /-- frames numbered so far on their way to an A-tile -/
  opened : Nat := 0
  /-- bytes of a transmit packet that has left its stream in part (R259) -/
  txOpen : Tab (List Byte) := []
  /-- TICK blocks of mirrored pairs whose first copy has come: lane and tick sequence (R265) -/
  tickSeqs : List (Nat × Byte) := []
  /-- UCIe lanes repaired onto a redundant lane, and lanes in retry -/
  ucieRepaired : List Nat := []
  ucieRetry : List Nat := []
deriving DecidableEq, Repr

/-! ## The riddle (chapter 11) -/

/-- One word at a riddle port with its flags (R278). -/
structure RWordIn where
  data : BitVec 128
  valid : Half
  sof : Bool
  eof : Bool
  err : Bool
  chid : Half
  /-- tenths of fc at which it reaches the port (R278) -/
  due : Nat := 0
deriving DecidableEq, Repr

structure RMemory where
  width : Nat := 0
  readTree : Nat := 0
  writeTree : Nat := 0
  data : List Byte := []
  /-- registered RADDR -/
  raddr : Nat := 0
  /-- data of the last read -/
  rdata : Nat := 0
  /-- words with a parity error -/
  badParity : List Nat := []
deriving DecidableEq, Repr

/-- A riddle capture armed or running (R287). -/
structure RCapture where
  seq : Nat
  tree : Nat
  shift : Nat
  edge : Nat
  dest : Nat
  /-- tick domain of the pipeline, and the fc of the record -/
  dom : Nat := 0
  takenAt : Option Nat := none
  armed : Bool := false
  edges : Nat := 0
  disturbed : Bool := false
  /-- the record, once its edge has come -/
  record : List Byte := []
deriving DecidableEq, Repr

structure ROut where
  /-- the open output frame: pipeline channel, source lane, payload, ERR -/
  tag : Nat
  src : Nat
  payload : List Byte
  err : Bool
  /-- its number among the frames on their way to an A-tile, and tenths of fc at which its EOF was presented -/
  stream : Nat := 0
  ended : Nat := 0
deriving DecidableEq, Repr

structure RBlock where
  loaded : Bool := false
  portTree : Nat := 0
  claim : Nat := 0
  image : Nat := 0
  latencyNs : Nat := 0
  captureBusy : Bool := false
  fifoOverflow : Bool := false
  parity : Bool := false
  mapInvalid : Bool := false
  late : Bool := false
  configRepaired : Bool := false
  /-- BLOCK frame: 64 cluster records and the sink table (Table 11.4, Table 11.5) -/
  config : List Byte := []
  q : List Nat := []
  memories : List RMemory := []
  /-- words waiting at the four input ports, and the word presented in this port cycle -/
  inFifo : Tab (List RWordIn) := []
  inNow : Tab RWordIn := []
  dropIn : List Nat := []
  /-- words in each output FIFO, and the ports that have handed over a word in this port cycle -/
  outFill : Tab Nat := []
  outTaken : List Nat := []
  /-- ticks of tick domains that the next port clock edge shows (Table 11.5) -/
  tickPulse : List Nat := []
  outOpen : Tab ROut := []
  /-- output EOFs ready to be released: lane, frame -/
  done : List (Nat × ROut) := []
  /-- input EOFs still unmatched: lane and te in tenths of fc -/
  eofs : List (Nat × Nat) := []
  lateLanes : List Nat := []
  errNext : Bool := false
  resetAsked : Bool := false
  /-- cluster records under repair, and the fc of the last repair (R286, R288) -/
  repairs : List Nat := []
  repairedAt : Option Nat := none
  capture : Option RCapture := none
deriving DecidableEq, Repr

structure RTree where
  enabled : Bool := false
  src : BitVec 2 := 0
  sel : BitVec 4 := 0
  claim : Nat := 0
  div : Byte := 0
  freqKhz : BitVec 20 := 0
deriving DecidableEq, Repr

structure Riddle where
  blocks : Tab RBlock := []
  trees : Tab RTree := []
  /-- global line: driving block, macrocell, reg (R276) -/
  globals : Tab (Nat × Nat × Bool) := []
  /-- general pairs 24 to 31: held by an image, and their I/O registers -/
  pairHeld : Tab Nat := []
  /-- input registers: i the rising-edge one of pair 24 + i, 8 + i the falling-edge one (Table 11.1) -/
  pairIn : List Nat := []
  /-- what the output registers of pair 24 + i hold: rising-edge output, falling-edge output, output enable (Table 11.2) -/
  pairOut : Tab (Bool × Bool × Bool) := []
  readbackAt : Nat := 0
deriving DecidableEq, Repr

/-! ## Sump and hoists (chapter 12) -/

/-- A hoist descriptor (Table 12.3). -/
structure Desc where
  addr : Nat
  length : Nat
  count : Nat
  stride : Int
  lst : Nat
  fill : Bool
  /-- it breaks an alignment or range rule (R305) -/
  bad : Bool := false
  /-- ADDRESS is a device physical address: the fill of a WEIGHT_UPDATE (R342) -/
  phys : Bool := false
deriving DecidableEq, Repr

/-- What a stream is for. -/
inductive StreamKind where
  /-- HOIST command or a FILL of WEIGHT_UPDATE: its command's SEQ -/
  | command (seq : Nat)
  | hold (c : HoldCopy)
  /-- standing stream i of a pipeline (R312) -/
  | standing (pipe i : Nat)
deriving DecidableEq, Repr

structure Burst where
  offset : Nat
  length : Nat
  /-- device physical addresses, and whether each page is dual (R293) -/
  src : Nat
  srcDual : Bool := false
  dst : Nat
  dstDual : Bool := false
  fill : Bool
  done : Bool := false
deriving DecidableEq, Repr

structure Stream where
  kind : StreamKind
  claim : Nat
  src : List Desc := []
  dst : List Desc := []
  /-- offset of the next burst to issue -/
  next : Nat := 0
  bursts : List Burst := []
  /-- its lists have been read -/
  started : Bool := false
  /-- CVAs of its lists (source, destination) -/
  lists : Nat × Nat := (0, 0)
  /-- fc in which it was queued (R317) -/
  readyAt : Nat := 0
deriving DecidableEq, Repr

structure Hoist where
  enable : Bool := true
  maxBurst : BitVec 3 := 6
  running : Option Stream := none
  rt : List Stream := []
  be : List Stream := []
  aside : List Stream := []
  waitHalf : Bool := false
  stopped : Bool := false
  /-- PROGRESS of the last faulted stream -/
  progress : Nat := 0
  faultCva : Nat := 0
  faultWrite : Bool := false
deriving DecidableEq, Repr

/-- A run of port bursts presented at a sump port (R313). -/
structure Run where
  requester : Nat
  claim : Nat
  domain : Nat
  total : Nat
  left : Nat
  write : Bool
  since : Nat
  deadline : Nat
  /-- latest-service time, from which the deadline is made when the run is presented (R314) -/
  lst : Nat := 0xFFFFFF
  /-- hoist and stream offset of the hoist burst that presents it (R313) -/
  burst : Option (Nat × Nat) := none
deriving DecidableEq, Repr

structure SumpPort where
  pending : List Run := []
  holder : Option Run := none
  grantAt : Nat := 0
  decisions : Nat := 0
  /-- canary limit of the present grant in fc, and whether its port burst is under a lower-level retry (R316, R318) -/
  limit : Nat := 0x10000
  retried : Bool := false
  /-- runs of requesters that wait at the bound of 1,024 requests of a stack (R176) -/
  waiting : List Run := []
deriving DecidableEq, Repr

structure Sump where
  canary : Half := 0x100
  lwInterval : BitVec 7 := 8
  logValid : Bool := false
  logPort : Nat := 0
  logRequester : Nat := 0
  logClaim : Nat := 0
  logHeadframe : Bool := false
  online : List Bool := [false, false]
  retired : List Bool := [false, false]
  temp : List Byte := [0, 0]
  hoists : Tab Hoist := []
  ports : Tab SumpPort := []
  /-- translation cache: claim, page, entry; most recent first (R298) -/
  cache : List (Nat × Nat × DWord) := []
  /-- stopped middle engines (R316) -/
  enginesStopped : List Nat := []
  /-- hold copies queued so far, and records written behind one that is not: claim, store, number, HEAD after it (R309) -/
  copies : Nat := 0
  storeDone : List (Nat × Nat × Nat × Nat) := []
  /-- sump words reported uncorrectable, with the fc (R294) -/
  badWords : List (Nat × Nat) := []
  remaps : List Nat := []
  /-- physical 64 KiB units in use by claims -/
  used : List Nat := []
deriving DecidableEq, Repr

/-! ## The headframe (chapter 13) -/

structure Ring where
  producer : Word := 0
  consumer : Word := 0
  entries : Nat := 0
  /-- CVA of a claim ring, device physical base of rings 0, 14 and 15 -/
  base : Nat := 0
  overrun : Bool := false
  eventsLost : Bool := false
  /-- served by this mesh member (R363) -/
  device : Nat := 0
deriving DecidableEq, Repr

inductive ClaimState where
  | closed | opened | draining
deriving DecidableEq, Repr

/-- An event record held for ring 15 (Table 15.11), as its bytes read little-endian. -/
abbrev Record := BitVec 512

structure Claim where
  state : ClaimState := .closed
  requireSigned : Bool := false
  keyMask : Byte := 0
  quota : Nat := 0
  used : Nat := 0
  eventsLost : Bool := false
  ringOverrun : Bool := false
  badCommand : Bool := false
  journalHead : DWord := 0
  journalHi : Word := 0
  /-- translation leaves: 64 KiB pages by CVA bits 47..16, 2 MiB pages by CVA bits 47..21 -/
  pages : Tab DWord := []
  bigPages : Tab DWord := []
  held : List Record := []
  /-- accepted tags, newest first, with the SEQ of their ACCEPTED record and, once completed, their
  state, reason and result (R332) -/
  tags : List (BitVec 48 × Nat × Option (Nat × Nat × BitVec 128)) := []
  bar4Fault : Bool := false
  canary : Bool := false
  pageFault : Bool := false
  uninit : Bool := false
  /-- UNINIT_READ: fc of the last event, first address and reads since (R303) -/
  uninitAt : Option Nat := none
  uninitAddr : Nat := 0
  uninitReads : Nat := 0
  /-- fc at which a reset was accepted, and ticks of pipelines still awaited (R338) -/
  resetAt : Nat := 0
  nextRing : Nat := 0
  /-- SR-IOV enables its virtual function (R320); PCIe resets VF Enable to 0 (PRESUMED, log 72) -/
  srIov : Bool := false
  /-- PCIe masking of MSI-X vectors 0 and 1 of its function, and those that wait for it to end (R325); PCIe masks both
  at reset (PRESUMED, log 72) -/
  msixMask : BitVec 2 := 3
  msixPending : BitVec 2 := 0
  /-- BAR4 of its function has 2 to this many bytes (R321): at reset the smallest (DESIGN CHOICE, log 72) -/
  bar4Log : Nat := 28
deriving DecidableEq, Repr

inductive CmdState where
  /-- accepted, not started -/
  | accepted
  /-- started; the happening that ends it has not come -/
  | running
  /-- ended: completed (true) or failed, reason, result; its completion entry waits for ring 14 -/
  | ended (ok : Bool) (reason : Nat) (result : BitVec 128)
deriving DecidableEq, Repr

/-- A command in flight (R328). -/
structure Cmd where
  seq : Nat
  claim : Nat
  ring : Nat
  index : Word
  /-- the 64-byte entry, little-endian -/
  entry : BitVec 512
  state : CmdState := .accepted
  /-- SEQ of the original of a duplicate (R332) -/
  duplicateOf : Option Nat := none
  /-- outside the limit of 16 (R328) -/
  extra : Bool := false
  /-- the completion journal record, once written -/
  record : BitVec 512 := 0
  /-- leaves a MAP writes when its marking is done: page number and entry (R302) -/
  plan : List (Nat × DWord) := []
deriving DecidableEq, Repr

structure HostIf where
  ready : Bool := false
  secureBootOk : Bool := false
  lockState : Word := 0
  lockViol : Word := 0
  lockViolAddr : Word := 0
  seq : Nat := 0
  seqHi : Word := 0
  requireSignedAll : Bool := false
  keyEnable : Byte := 0xFF
  /-- key words by 32 × slot + word; a listed word is written (WOS) -/
  keys : Tab Word := []
  claims : Tab Claim := []
  rings : Tab Ring := []
  cmds : List Cmd := []
  nextClaim : Nat := 0
  /-- a snapshot scheduled or draining: SEQ; its shift and the fc of its moment once the tick came (R414) -/
  snapshot : Option (Nat × Option (Nat × Nat)) := none
  /-- records taken for it: of tile id at key 2 id, of skip id at key 2 id + 1 (R414) -/
  snapped : Tab (List Byte) := []
deriving DecidableEq, Repr

/-! ## Emeel (chapter 14) -/

structure EmPort where
  enable : Bool := true
  up : Bool := false
  lanesUp : BitVec 4 := 0
  retired : BitVec 4 := 0
  degraded : Bool := false
  neighbour : Option Nat := none
  retryLate : Bool := false
  linkDown : Bool := false
  lFixed : Nat := 0
  lMeas : Nat := 0
  /-- next sequence to send, replay buffer, next sequence expected, accepted flits awaiting delivery -/
  sendSeq : BitVec 12 := 0
  replay : List Flit := []
  expect : BitVec 12 := 0
  accepted : List (Flit × Bool) := []
  /-- fc of a NAK whose flit has not come yet (R198) -/
  nakAt : Option Nat := none
deriving DecidableEq, Repr

structure Emeel where
  head : Bool := false
  xMinus1 : BitVec 3 := 0
  yMinus1 : BitVec 3 := 0
  deviceId : BitVec 6 := 0
  idTaken : Bool := false
  /-- port on which a member received its id (R355) -/
  idPort : Option Nat := none
  enumerating : Bool := false
  enumerated : Bool := false
  timeLocked : Bool := false
  wiringError : Bool := false
  lastCorrection : Byte := 0
  devices : Nat := 1
  reported : List (Nat × Nat) := []
  tickDelay : Half := 0
  follow : Byte := 0
  meshTime : Nat := 0
  timeHi : Word := 0
  /-- fc still to slew, and fc since the last slewed fc (R355) -/
  slew : Int := 0
  slewWait : Nat := 0
  rwinEnable : Bool := false
  rwinDevice : BitVec 6 := 0
  rwinPage : BitVec 6 := 0
  ports : Tab EmPort := []
  /-- members whose reset of a claim has not completed, as (claim, device) (R362) -/
  awaiting : List (Nat × Nat) := []
  /-- members that have told the head that their mesh time is locked (R355) -/
  locked : List Nat := []
  /-- the window access outstanding: write, device, register offset, value, fc of its start (R364) -/
  window : Option (Bool × Nat × Nat × Word × Nat) := none
deriving DecidableEq, Repr

/-! ## Faults (chapter 15) -/

/-- A tracker entry: location key, times of occurrences in fc, newest first. -/
structure Track where
  loc : Nat
  times : List Nat
deriving DecidableEq, Repr

/-- A retirement decided and not yet in effect, or copying (R376). -/
structure Retire where
  report : FaultReport
  /-- tile whose slot boundaries count -/
  tile : Option Nat := none
  /-- a slot boundary has come since the decision -/
  ready : Bool := false
  copying : Bool := false
  doneAt : Nat := 0
deriving DecidableEq, Repr

structure Faults where
  recurCount : BitVec 4 := 3
  recurWindowMs : BitVec 12 := 1000
  patrolEn : Bool := true
  selfTestDone : Bool := false
  selfTestFail : Bool := false
  trackerFull : Bool := false
  tracker : List Track := []
  eventSeq : Nat := 0
  eventSeqHi : Word := 0
  retires : List Retire := []
  /-- what was corrected or sent again, by location, and the fc of its second try: a report there in that
  fc is a failed retry (R370) -/
  retrying : List (Nat × Nat) := []
  /-- location and fc of reports, for reports that meet in one fc (R389) -/
  lastReport : Option (Nat × Nat) := none
  /-- CORRECTED events: location and code, fc of the last record, occurrences since (R391) -/
  folded : List (Nat × Nat × Nat) := []
  /-- failures found by a self-test, raised once after READY (R386) -/
  found : List FaultReport := []
deriving DecidableEq, Repr

/-! ## Power and clocks (chapter 16) -/

structure Row where
  deep : Bool := false
  sensor : Bool := false
  k : Nat := 16
  /-- row fc completed, and sixteenths of the next one -/
  fc : Nat := 0
  acc : Nat := 0
  /-- row fc at which the next clock step falls due (R399) -/
  stepAt : Nat := 0
  powered : Bool := false
  /-- fc of the row's power-on, while it is not ready (R397) -/
  powering : Bool := false
  tokensOn : Bool := false
  /-- token shares of the row by claim (R248) -/
  shares : Tab Nat := []
  /-- M-tiles waiting for a token, oldest first: position and claim (R246) -/
  waiting : List (Nat × Nat) := []
deriving DecidableEq, Repr

structure Power where
  porAsserted : Bool := true
  perstAsserted : Bool := true
  thermtrip : Bool := false
  linkUp : Bool := false
  phase : BitVec 4 := 0
  error : Byte := 0
  tdpW : BitVec 10 := 850
  powerMw : BitVec 20 := 0
  warnC : Byte := 95
  warning : Bool := false
  tripped : Bool := false
  throttled : Bool := false
  tjC : Byte := 0
  /-- the last read was at or above WARN_C (R403) -/
  aboveWarn : Bool := false
  warnAt : Option Nat := none
  warnFolded : Nat := 0
  stepUpFc : Byte := 64
  thresholdMv : Byte := 30
  pllLocked : Bool := false
  sramFilled : Bool := false
  checkersDone : Bool := false
  hbmTrained : Bool := false
  sumpTested : Bool := false
  firmwareOk : Bool := false
  sumpFilled : Bool := false
  rows : List Row := List.replicate 24 {}
deriving DecidableEq, Repr

/-! ## Counters and debug (chapter 17) -/

/-- A 48-bit counter with its sticky bit (R410). -/
structure Counter where
  value : Nat := 0
  ovf : Bool := false
  /-- software has written the counter in this fc: the value it would hold without the write (R9) -/
  wrote : Option Nat := none
  /-- hardware has set OVF in this fc (R9) -/
  ovfNow : Bool := false
deriving DecidableEq, Repr

structure Debug where
  /-- counters by DB offset (Table 17.1) -/
  counters : Tab Counter := []
  latchBar0 : Half := 0
  latchJtag : Half := 0
  stageBar0 : Half := 0
  stageJtag : Half := 0
  unlocked : Bool := false
  scope : BitVec 2 := 0
  busy : Bool := false
  attempts : BitVec 4 := 3
  nonce : List Word := List.replicate 8 0
  token : Tab Word := []
  haltThreads : BitVec 4 := 0
  haltTile : BitVec 10 := 0
  forced : Bool := false
  peekTile : BitVec 10 := 0
  brkEn : Tab Word := []
  /-- DB_PC_BRK_n: enable, thread, tile, word -/
  pcBrk : Tab (Bool × Nat × Nat × Nat) := []
  jtagData : Word := 0
  jtagRefused : Bool := false
deriving DecidableEq, Repr

/-- What leaves the device (pins, links and answers to reads), newest first in `State.out`. -/
inductive Out where
  /-- decision line, tenths of fc at which the word begins, word, and its characters: K or data (R267) -/
  | decision (line : Nat) (at10 : Nat) (word : Word) (chars : List (Bool × Byte))
  /-- a decision line word repeated by DUPLICATE (R266) is listed for its own line -/
  | readValue (value : Word)
  | readBytes (bytes : List Byte)
  | msix (claim vector : Nat)
  /-- a frame on a RAW66 lane, with its 66-bit blocks: control or data, and the payload (R253, R254, R259) -/
  | rawFrame (lane : Nat) (chan : Half) (seq : Word) (payload : List Byte) (crc : Word) (blocks : List (Bool × DWord))
  /-- an Ethernet frame from its destination address to its FCS (R257, R259) -/
  | ethFrame (port : Nat) (bytes : List Byte)
  | flit (port : Nat) (f : Flit)
  | nak (port : Nat) (seq : Nat)
  | idToken (port x y xSize ySize : Nat)
  | report (id latency : Nat)
  | tickSent (d : Nat) (isStart : Bool) (time : Nat)
  | doorbell (device claim ring : Nat) (value : Word)
  /-- accesses to the memory of another device (R361) -/
  | remoteRead (device addr length : Nat)
  | remoteWrite (device addr : Nat) (bytes : List Byte)
  | windowAccess (device : Nat) (write : Bool) (offset : Nat) (value : Word)
  | thermtrip
deriving DecidableEq, Repr

/-- The whole device, and the queue of waiting commands. -/
structure State where
  pending : List Instr := []
  /-- time in fc of the tick domain clock since power-on (R12) -/
  now : Nat := 0
  /-- draws of free values made so far: the model's own field -/
  free : Nat := 0
  ticks : Tab TickDomain := []
  tiles : Tab Tile := []
  skips : Tab Skip := []
  /-- sump and tile memory by device physical address; an unlisted byte reads 0 (R300) -/
  mem : List Host.Cell := []
  /-- unwritten words (R301) as disjoint rising ranges of device physical word numbers, end excluded -/
  unwritten : List (Nat × Nat) := []
  images : Tab Image := []
  pipes : Tab Pipe := []
  adit : Adit := {}
  riddle : Riddle := {}
  sump : Sump := {}
  host : HostIf := {}
  emeel : Emeel := {}
  faults : Faults := {}
  power : Power := {}
  dbg : Debug := {}
  /-- W1C bits that hardware has set in this fc, by register offset and bit (R9) -/
  hits : List (Nat × Nat) := []
  /-- what has left the device, newest first: the model's own record -/
  out : List Out := []
deriving DecidableEq, Repr

/-- The machine right after power-on reset: POR_N is still asserted, every register holds its Reset
value, and memory lists nothing. -/
def State.reset : State := {}

end Sys2Proof.Machine
end

