-- ==== Sys2Proof/Machine/Bits.lean ====
section
/-! DEFINITION. Bit fields, little-endian byte strings, CRC-32 and sparse tables. -/

namespace Sys2Proof.Machine

/-- Bits hi..lo of a number. -/
def bits (x hi lo : Nat) : Nat := (x >>> lo) % 2 ^ (hi + 1 - lo)

/-- Bit i of a number. -/
def bitAt (x i : Nat) : Bool := (x >>> i) % 2 == 1

def boolNat (b : Bool) : Nat := if b then 1 else 0

/-- Little-endian value of a byte string (R6). -/
def leNat : List Byte → Nat
  | [] => 0
  | b :: bs => b.toNat + 256 * leNat bs

/-- The n bytes of a number, little-endian. -/
def natLE : Nat → Nat → List Byte
  | 0, _ => []
  | n + 1, x => BitVec.ofNat 8 x :: natLE n (x / 256)

/-- Field of a byte string: n bytes from offset o, little-endian; bytes past its end read 0. -/
def fieldLE (bs : List Byte) (o n : Nat) : Nat := leNat ((bs.drop o).take n)

def padTo (n : Nat) (bs : List Byte) : List Byte := bs.take n ++ List.replicate (n - bs.length) 0

def lineBytes (l : Line) : List Byte := natLE 64 l.toNat
def bytesLine (bs : List Byte) : Line := BitVec.ofNat 512 (leNat (bs.take 64))

/-- Two's complement value of the low w bits. -/
def signedOf (w x : Nat) : Int :=
  let y := x % 2 ^ w
  if y < 2 ^ (w - 1) then (y : Int) else (y : Int) - (2 ^ w : Nat)

/-- The low w bits of an integer. -/
def wrapInt (w : Nat) (i : Int) : Nat := (i % ((2 ^ w : Nat) : Int)).toNat

def ceilDiv (a b : Nat) : Nat := (a + b - 1) / b

/-- One bit-serial step of the reflected IEEE 802.3 polynomial. -/
def crcBit (c : Nat) : Nat := if c % 2 == 1 then (c / 2) ^^^ 0xEDB88320 else c / 2

def crcByte (c : Nat) (b : Byte) : Nat :=
  crcBit (crcBit (crcBit (crcBit (crcBit (crcBit (crcBit (crcBit (c ^^^ b.toNat))))))))

/-- CRC-32 of R237. -/
def crc32 (bs : List Byte) : Nat := (bs.foldl crcByte 0xFFFFFFFF) ^^^ 0xFFFFFFFF

def popcount : Nat → Nat → Nat
  | 0, _ => 0
  | n + 1, x => x % 2 + popcount n (x / 2)

/-- floor(log2 x) for x > 0, by fuel. -/
def log2Fuel : Nat → Nat → Nat
  | 0, _ => 0
  | n + 1, x => if x < 2 then 0 else 1 + log2Fuel n (x / 2)

/-! Sparse tables: a missing key holds the default. -/

def look {α : Type} (t : Tab α) (k : Nat) : Option α :=
  match t with
  | [] => none
  | (j, x) :: r => if j = k then some x else look r k

def lookD {α : Type} (t : Tab α) (k : Nat) (d : α) : α := (look t k).getD d

def put {α : Type} (t : Tab α) (k : Nat) (v : α) : Tab α :=
  match t with
  | [] => [(k, v)]
  | (j, x) :: r =>
    if k < j then (k, v) :: (j, x) :: r else if k = j then (k, v) :: r else (j, x) :: put r k v

def del {α : Type} (t : Tab α) (k : Nat) : Tab α := t.filter (fun p => p.1 != k)

/-- Remove element i of a list. -/
def dropAt {α : Type} (l : List α) (i : Nat) : List α := l.take i ++ l.drop (i + 1)

/-- Replace element i of a list. -/
def setAt {α : Type} (l : List α) (i : Nat) (x : α) : List α := l.set i x

/-- First element that a test accepts, with its place. -/
def findAt {α : Type} (p : α → Bool) : List α → Option (Nat × α)
  | [] => none
  | x :: r => if p x then some (0, x) else (findAt p r).map (fun q => (q.1 + 1, q.2))

/-- Apply f for each number below n, in ascending order. -/
def upTo {σ : Type} (n : Nat) (f : σ → Nat → σ) (s : σ) : σ := (List.range n).foldl f s

/-! Memory cells in canonical form: addresses rising, no zero byte listed. -/

def memGet : List Host.Cell → Nat → Byte
  | [], _ => 0
  | (k, x) :: m, a => if k = a then x else memGet m a

def memSet : List Host.Cell → Nat → Byte → List Host.Cell
  | [], a, b => if b = 0 then [] else [(a, b)]
  | (k, x) :: m, a, b =>
    if a < k then (if b = 0 then (k, x) :: m else (a, b) :: (k, x) :: m)
    else if a = k then (if b = 0 then m else (a, b) :: m)
    else (k, x) :: memSet m a b

/-- The canonical form, from a lower bound on the first address. -/
def memWfFrom : Nat → List Host.Cell → Bool
  | _, [] => true
  | lo, (k, x) :: m => decide (lo ≤ k) && x != 0 && memWfFrom (k + 1) m

def Memory.wf (m : List Host.Cell) : Bool := memWfFrom 0 m

def memWrite : List Host.Cell → Nat → List Byte → List Host.Cell
  | m, _, [] => m
  | m, a, b :: bs => memWrite (memSet m a b) (a + 1) bs

def memRead (m : List Host.Cell) (a : Nat) : Nat → List Byte
  | 0 => []
  | n + 1 => memGet m a :: memRead m (a + 1) n

/-- Zero the n bytes from a. -/
def memClear (m : List Host.Cell) (a n : Nat) : List Host.Cell :=
  m.filter (fun c => decide (c.1 < a) || decide (a + n ≤ c.1))

/-! Ranges of unwritten words. -/

def rangeHas (r : List (Nat × Nat)) (w : Nat) : Bool := r.any (fun p => decide (p.1 ≤ w) && decide (w < p.2))

def rangeDel (r : List (Nat × Nat)) (lo hi : Nat) : List (Nat × Nat) :=
  (r.flatMap (fun p => [(p.1, min p.2 lo), (max p.1 hi, p.2)])).filter (fun p => decide (p.1 < p.2))

def rangeInsert : List (Nat × Nat) → Nat × Nat → List (Nat × Nat)
  | [], x => [x]
  | p :: r, x => if x.1 < p.1 then x :: p :: r else p :: rangeInsert r x

def rangeAdd (r : List (Nat × Nat)) (lo hi : Nat) : List (Nat × Nat) :=
  if lo < hi then rangeInsert (rangeDel r lo hi) (lo, hi) else r

end Sys2Proof.Machine
end

