-- ==== Sys2Proof/Machine/Numeric.lean ====
section
/-! DEFINITION. Numeric formats, exact values, rounding and conversion (chapter 3). A value is exact, as
(-1)^neg * n / d * 2^e, and is rounded only where Table 3.7 says so. -/

namespace Sys2Proof.Machine

/-- An exact value: (-1)^neg * n / d * 2^e with d > 0, an infinity, or NaN. Zero keeps its sign. -/
inductive Num where
  | nan
  | inf (neg : Bool)
  | fin (neg : Bool) (n d : Nat) (e : Int)
deriving DecidableEq, Repr

/-- A floating-point format of Table 3.1. `nans`: 0 no special values, 1 only S.1111.111, 2 as IEEE 754. -/
structure Fmt where
  m : Nat
  eBits : Nat
  bias : Nat
  nans : Nat
deriving DecidableEq, Repr

def fmtE4M3 : Fmt := ⟨3, 4, 7, 1⟩
def fmtE5M2 : Fmt := ⟨2, 5, 15, 2⟩
def fmtE3M2 : Fmt := ⟨2, 3, 3, 0⟩
def fmtE2M3 : Fmt := ⟨3, 2, 1, 0⟩
def fmtE2M1 : Fmt := ⟨1, 2, 1, 0⟩
def fmtBF16 : Fmt := ⟨7, 8, 127, 2⟩
def fmtFP32 : Fmt := ⟨23, 8, 127, 2⟩

def Num.ofInt (i : Int) : Num := .fin (decide (i < 0)) i.natAbs 1 0
def Num.zero : Num := .fin false 0 1 0
def Num.pow2 (e : Int) : Num := .fin false 1 1 e

def Num.isNan : Num → Bool
  | .nan => true
  | _ => false

def Num.isZero : Num → Bool
  | .fin _ n _ _ => n == 0
  | _ => false

/-- NaN or an infinity (R81). -/
def Num.nonFinite : Num → Bool
  | .fin _ _ _ _ => false
  | _ => true

def Num.neg : Num → Num
  | .nan => .nan
  | .inf b => .inf (!b)
  | .fin b n d e => .fin (!b) n d e

def Num.abs : Num → Num
  | .nan => .nan
  | .inf _ => .inf false
  | .fin _ n d e => .fin false n d e

/-- Exact product; infinity times zero is NaN. -/
def Num.mul : Num → Num → Num
  | .nan, _ => .nan
  | _, .nan => .nan
  | .inf a, .inf b => .inf (a != b)
  | .inf a, .fin b n _ _ => if n = 0 then .nan else .inf (a != b)
  | .fin b n _ _, .inf a => if n = 0 then .nan else .inf (a != b)
  | .fin a n d e, .fin b n' d' e' => .fin (a != b) (n * n') (d * d') (e + e')

/-- Exact quotient, IEEE 754 at zeros and infinities. -/
def Num.div : Num → Num → Num
  | .nan, _ => .nan
  | _, .nan => .nan
  | .inf _, .inf _ => .nan
  | .inf a, .fin b _ _ _ => .inf (a != b)
  | .fin a _ _ _, .inf b => .fin (a != b) 0 1 0
  | .fin a n d e, .fin b n' d' e' =>
    if n' = 0 then (if n = 0 then .nan else .inf (a != b)) else .fin (a != b) (n * d') (d * n') (e - e')

/-- Signed numerator of a finite value over a common denominator and exponent. -/
def scaledInt (neg : Bool) (n : Nat) (k : Nat) (sh : Int) : Int :=
  let x : Int := (n * k * 2 ^ sh.toNat : Nat)
  if neg then -x else x

/-- Exact sum. Opposite zeros, and a nonzero pair that cancels, give +0. -/
def Num.add : Num → Num → Num
  | .nan, _ => .nan
  | _, .nan => .nan
  | .inf a, .inf b => if a = b then .inf a else .nan
  | .inf a, .fin _ _ _ _ => .inf a
  | .fin _ _ _ _, .inf a => .inf a
  | .fin a n d e, .fin b n' d' e' =>
    if n = 0 ∧ n' = 0 then .fin (a && b) 0 1 0 else
    let m := min e e'
    let x := scaledInt a n d' (e - m) + scaledInt b n' d (e' - m)
    .fin (decide (x < 0)) x.natAbs (d * d') m

def Num.sub (a b : Num) : Num := a.add b.neg

/-- a < b for values that are not NaN; false with a NaN. -/
def Num.lt : Num → Num → Bool
  | .nan, _ => false
  | _, .nan => false
  | .inf a, .inf b => a && !b
  | .inf a, .fin _ _ _ _ => a
  | .fin _ _ _ _, .inf b => !b
  | .fin a n d e, .fin b n' d' e' =>
    let m := min e e'
    decide (scaledInt a n d' (e - m) < scaledInt b n' d (e' - m))

/-- Equality of values that are not NaN; +0 equals -0. -/
def Num.eq (a b : Num) : Bool := !a.isNan && !b.isNan && !a.lt b && !b.lt a

/-- Nearest natural number to p / q, ties to even. -/
def roundDiv (p q : Nat) : Nat :=
  let f := p / q
  let r := p % q
  if 2 * r < q then f else if q < 2 * r then f + 1 else if f % 2 = 0 then f else f + 1

/-- floor(log2 (n / d)) for n, d > 0. -/
def floorLog2 (n d : Nat) : Int :=
  let k : Int := (n.log2 : Int) - (d.log2 : Int)
  if (n * 2 ^ (-k).toNat) < d * 2 ^ k.toNat then k - 1 else k

/-- n / d * 2^e in units of 2^q, rounded. -/
def roundUnits (n d : Nat) (e q : Int) : Nat := roundDiv (n * 2 ^ (e - q).toNat) (d * 2 ^ (q - e).toNat)

/-- Largest exponent field that holds finite values. -/
def Fmt.topE (f : Fmt) : Nat := if f.nans = 2 then 2 ^ f.eBits - 2 else 2 ^ f.eBits - 1
/-- Magnitude bits of the largest finite value. -/
def Fmt.maxMag (f : Fmt) : Nat := f.topE * 2 ^ f.m + (if f.nans = 1 then 2 ^ f.m - 2 else 2 ^ f.m - 1)
def Fmt.signBit (f : Fmt) : Nat := 2 ^ (f.m + f.eBits)
def Fmt.infMag (f : Fmt) : Nat := (2 ^ f.eBits - 1) * 2 ^ f.m
/-- Canonical NaN (Table 3.2). -/
def Fmt.nanBits (f : Fmt) : Nat :=
  if f.nans = 1 then 2 ^ (f.m + f.eBits) - 1 else (2 ^ f.eBits - 1) * 2 ^ f.m + 2 ^ (f.m - 1)

/-- Decode stored bits (R67). -/
def Fmt.decode (f : Fmt) (x : Nat) : Num :=
  let s := bitAt x (f.m + f.eBits)
  let e := bits x (f.m + f.eBits - 1) f.m
  let m := x % 2 ^ f.m
  let top := 2 ^ f.eBits - 1
  if f.nans = 2 ∧ e = top then (if m = 0 then .inf s else .nan)
  else if f.nans = 1 ∧ e = top ∧ m = 2 ^ f.m - 1 then .nan
  else if e = 0 then .fin s m 1 (1 - (f.bias : Int) - f.m)
  else .fin s (2 ^ f.m + m) 1 ((e : Int) - f.bias - f.m)

/-- Magnitude bits of n / d * 2^e rounded to the format with its exponent unbounded above; the result
lies beyond `maxMag` when it rounds beyond the largest finite value (R87). -/
def Fmt.roundMag (f : Fmt) (n d : Nat) (e : Int) : Nat :=
  if n = 0 then 0 else
  let qmin : Int := 1 - (f.bias : Int) - f.m
  let q := max (floorLog2 n d + e - f.m) qmin
  let u := roundUnits n d e q
  -- units u of 2^q: the exponent field is q - qmin + 1 for a normal value, and a carry moves into it
  u + ((q - qmin).toNat) * 2 ^ f.m

/-- Convert to a floating-point format under R87: bits, and how many saturations it counts. -/
def Fmt.convert (f : Fmt) (satfp : Bool) : Num → Nat × Nat
  | .nan => (f.nanBits, 0)
  | .inf s =>
    let sg := if s then f.signBit else 0
    if satfp ∨ f.nans = 0 then (sg + f.maxMag, 1)
    else if f.nans = 1 then (f.nanBits, 0) else (sg + f.infMag, 0)
  | .fin s n d e =>
    let sg := if s then f.signBit else 0
    let m := f.roundMag n d e
    if m ≤ f.maxMag then (sg + m, 0)
    else if satfp ∨ f.nans = 0 then (sg + f.maxMag, 1)
    else if f.nans = 1 then (f.nanBits, 0) else (sg + f.infMag, 0)

/-- round_fp32 of R78, as bits. -/
def fp32 (x : Num) : Nat := (fmtFP32.convert false x).1
def bf16 (x : Num) : Nat := (fmtBF16.convert false x).1
def ofFp32 (x : Nat) : Num := fmtFP32.decode x
def ofBf16 (x : Nat) : Num := fmtBF16.decode x
/-- Round an exact value to FP32 and take its value. -/
def rnd (x : Num) : Num := ofFp32 (fp32 x)

/-- Nearest integer, ties to even, of a finite value. -/
def Num.roundInt : Num → Int
  | .fin s n d e =>
    let u : Int := roundDiv (n * 2 ^ e.toNat) (d * 2 ^ (-e).toNat)
    if s then -u else u
  | _ => 0

/-- Clamp to lo..hi, and count the clamp. -/
def clampInt (i lo hi : Int) : Int × Nat := if i < lo then (lo, 1) else if hi < i then (hi, 1) else (i, 0)

/-- Convert to a w-bit integer with range lo..hi (R86). -/
def convertInt (w : Nat) (lo hi : Int) : Num → Nat × Nat
  | .nan => (0, 1)
  | .inf s => (wrapInt w (if s then lo else hi), 1)
  | x => let c := clampInt x.roundInt lo hi; (wrapInt w c.1, c.2)

/-! ## Format codes (Table 4.3) -/

def codeBits : Nat → Nat
  | 0x0 => 4 | 0xC => 4 | 0x2 => 32 | 0x6 => 32 | 0x5 => 16 | 0xA => 6 | 0xB => 6 | _ => 8

def isMx (c : Nat) : Bool := decide (7 ≤ c ∧ c ≤ 12)

/-- Element format of a floating code. -/
def codeFmt : Nat → Option Fmt
  | 0x3 => some fmtE4M3 | 0x8 => some fmtE4M3 | 0x4 => some fmtE5M2 | 0x9 => some fmtE5M2
  | 0x5 => some fmtBF16 | 0x6 => some fmtFP32 | 0xA => some fmtE3M2 | 0xB => some fmtE2M3
  | 0xC => some fmtE2M1 | _ => none

/-- Value of an element without its MX scale; an MXINT8 element is its integer (Table 3.5). -/
def decodeElem (c x : Nat) : Num :=
  match codeFmt c with
  | some f => f.decode x
  | none => .ofInt (signedOf (codeBits c) x)

/-- Convert to a destination that is not an MX format, with its saturation count. -/
def convertTo (c : Nat) (satfp : Bool) (x : Num) : Nat × Nat :=
  match codeFmt c with
  | some f => f.convert satfp x
  | none =>
    let w := codeBits c
    convertInt w (-(2 ^ (w - 1) : Nat)) ((2 ^ (w - 1) : Nat) - 1) x

/-- Operand class of a MAC format: 0 integer, 1 float-8, 2 BF16, 3 none (Table 3.5). -/
def macClass (c : Nat) : Nat :=
  if c = 0 ∨ c = 1 ∨ c = 7 then 0 else if c = 5 then 2
  else if c = 3 ∨ c = 4 ∨ (8 ≤ c ∧ c ≤ 12) then 1 else 3

/-- A pair that R74 permits. -/
def macPair (w a : Nat) : Bool := macClass w != 3 && macClass w == macClass a

/-- Products per fc (Table 3.5). -/
def macRate (w a : Nat) : Nat := if w = 0 ∧ a = 0 then 2048 else if macClass w = 2 then 256 else 1024

/-! ## Packed elements (R71) -/

/-- Element k of a packed row whose bytes read little-endian are x. -/
def elemAt (b x k : Nat) : Nat := (x >>> (k * b)) % 2 ^ b

/-- Elements packed from bit 0 up. -/
def packElems (b : Nat) : List Nat → Nat
  | [] => 0
  | x :: xs => x % 2 ^ b + 2 ^ b * packElems b xs

/-! ## Groups (R76 to R80) -/

/-- Exact group sum of the integer and float-8 classes; an exact zero is +0. -/
def exactSum (ps : List (Num × Num)) : Num :=
  match ps.foldl (fun a p => a.add (p.1.mul p.2)) Num.zero with
  | .fin s n d e => .fin (s && n != 0) n d e
  | x => x

/-- BF16 class: FP32 sum in ascending order from +0. -/
def bf16Sum (ps : List (Num × Num)) : Num := ps.foldl (fun a p => rnd (a.add (p.1.mul p.2))) Num.zero

def groupSum (cls : Nat) (ps : List (Num × Num)) : Num :=
  if cls = 2 then
    match bf16Sum ps with
    | .fin s n d e => .fin (s && n != 0) n d e
    | x => x
  else exactSum ps

/-- R78 on values; the result is the FP32 running sum. -/
def groupRescale (P sw sa acc : Num) : Num :=
  let t := if P.isNan || sw.isNan || sa.isNan then Num.nan else rnd ((P.mul sw).mul sa)
  rnd (acc.add t)

/-- E8M0 scale (R73). -/
def e8m0 (x : Nat) : Num := if x = 0xFF then .nan else .pow2 ((x : Int) - 127)

/-- A block scale as an operand scale: MXINT8 folds in 2^-6 (Table 3.6). -/
def mxScale (c x : Nat) : Num :=
  if x = 0xFF then .nan else .pow2 ((x : Int) - 127 - (if c = 7 then 6 else 0))

/-! ## Row quantise (R84) -/

/-- Largest magnitude; NaN if any value is NaN. -/
def absMax (xs : List Num) : Num :=
  xs.foldl (fun a x => if a.isNan || x.isNan then Num.nan else if a.lt x.abs then x.abs else a) Num.zero

/-- Quantised elements, the BF16 row scale, saturations and non-finite count. -/
def rowQuantise (xs : List Num) (Q : Nat) : List Int × Nat × Nat × Nat :=
  let amax := absMax xs
  if amax.nonFinite then (xs.map (fun _ => 0), 0x7FC0, 0, 1)
  else if amax.isZero then (xs.map (fun _ => 0), 0, 0, 0)
  else
    let s0 := bf16 (amax.div (.ofInt Q))
    let s := if s0 = 0 then 1 else s0
    let qs := xs.map (fun x => clampInt ((x.div (ofBf16 s)).roundInt) (-(Q : Int)) Q)
    (qs.map (·.1), s, (qs.map (·.2)).foldl (· + ·) 0, 0)

/-! ## MX output (R88, R89) -/

def mxEmax : Nat → Int
  | 0x8 => 8 | 0x9 => 15 | 0xA => 4 | 0xB => 2 | 0xC => 2 | _ => 0

/-- Scale byte of a block. -/
def mxByte (c : Nat) (xs : List Num) : Nat :=
  if xs.any Num.nonFinite then 0xFF
  else match absMax xs with
    | .fin _ n d e =>
      if n = 0 then 0
      else (max 0 (min 254 (floorLog2 n d + e - mxEmax c + 127))).toNat
    | _ => 0xFF

/-- Elements of a block and their saturations. -/
def mxElems (c : Nat) (satfp : Bool) (xs : List Num) : List (Nat × Nat) :=
  let x := mxByte c xs
  if x = 0xFF then xs.map (fun _ => (0, 0))
  else if xs.all Num.isZero then xs.map (fun _ => (0, 0))
  else xs.map (fun v =>
    let q := v.mul (.pow2 (127 - (x : Int) + (if c = 7 then 6 else 0)))
    if c = 7 then (let r := clampInt q.roundInt (-127) 127; (wrapInt 8 r.1, r.2))
    else match codeFmt c with
      | some f => f.convert satfp q
      | none => (0, 0))

/-! ## Hadamard rotation (R93) -/

/-- One butterfly stage at distance h on FP32 values. -/
def butterfly (h : Nat) (y : List Num) : List Num :=
  (List.range y.length).map (fun i =>
    if (i / h) % 2 = 0 then rnd ((y.getD i .zero).add (y.getD (i + h) .zero))
    else rnd ((y.getD (i - h) .zero).sub (y.getD i .zero)))

def butterflies : Nat → Nat → List Num → List Num
  | 0, _, y => y
  | k + 1, h, y => butterflies k (2 * h) (butterfly h y)

/-- Rotation of a block of 2^m values with sign bits. -/
def hadamard (xs : List Num) (signs : Nat) (m : Nat) : List Num :=
  let y := (List.range xs.length).map (fun i =>
    let x := xs.getD i .zero
    if bitAt signs i then x.neg else x)
  let z := butterflies m 1 y
  let c : Num := if m % 2 = 0 then .pow2 (-((m / 2 : Nat) : Int))
    else (ofFp32 0x3F3504F3).mul (.pow2 (-(((m - 1) / 2 : Nat) : Int)))
  z.map (fun v => rnd (v.mul c))

end Sys2Proof.Machine
end

