-- ==== Sys2Proof/Machine/Elementary.lean ====
section
/-! DEFINITION. Exact values of the functions of the F-tile units, far below one unit in the last place of FP32, and
the free choice within the bound that R140 gives. The evaluation is in fixed point, with each constant computed from
its series. -/

namespace Sys2Proof.Machine

/-- Fraction bits of the fixed point. -/
def fixBits : Nat := 400
def fixOne : Int := 2 ^ fixBits
def fixMul (a b : Int) : Int := a * b / fixOne

/-- Floor of a finite value in fixed point. -/
def toFix : Num → Int
  | .fin s n d e =>
    let x : Int := (n * 2 ^ (e + fixBits).toNat : Nat) / (d * 2 ^ (-(e + fixBits)).toNat : Nat)
    if s then -x else x
  | _ => 0

def ofFix (x e : Int) : Num := .fin (decide (x < 0)) x.natAbs 1 (e - fixBits)

/-- Sum of z^(2k+1) / (2k+1) for k below n, with alternating signs when `alt` holds. -/
def oddSeries (alt : Bool) (n : Nat) (z : Int) : Int :=
  let zz := if alt then -fixMul z z else fixMul z z
  ((List.range n).foldl (fun (a : Int × Int) k => (a.1 + a.2 / (2 * k + 1 : Nat), fixMul a.2 zz)) (0, z)).1

/-- ln 2 = 2 artanh(1/3). -/
def fixLn2 : Int := 2 * oddSeries false 130 (fixOne / 3)
/-- pi = 16 arctan(1/5) - 4 arctan(1/239). -/
def fixPi : Int := 16 * oddSeries true 90 (fixOne / 5) - 4 * oddSeries true 30 (fixOne / 239)

/-- Floor of the square root, from `bits` bits down. -/
def isqrtFrom (x : Nat) : Nat → Nat → Nat
  | 0, r => r
  | b + 1, r => let q := r + 2 ^ b; isqrtFrom x b (if q * q ≤ x then q else r)

def isqrt (x : Nat) : Nat := isqrtFrom x (x.log2 / 2 + 1) 0

/-- e^x. Beyond plus and minus 256 the value lies far outside FP32. -/
def expExact (x : Num) : Num :=
  let y := max (-256 * fixOne) (min (256 * fixOne) (toFix x))
  let n := y / fixLn2
  let r := y - n * fixLn2
  ofFix (((List.range 80).reverse).foldl (fun (a : Int) k => fixOne + fixMul a r / (k + 1 : Nat)) fixOne) n

/-- ln x of a positive value. -/
def logExact : Num → Num
  | .fin _ n d e =>
    let p := floorLog2 n d
    let m := toFix (.fin false n d (-p))
    let z := (m - fixOne) * fixOne / (m + fixOne)
    ofFix (2 * oddSeries false 130 z + (p + e) * fixLn2) 0
  | x => x

/-- 1 / sqrt x of a positive value. -/
def rsqrtExact : Num → Num
  | .fin _ n d e =>
    let odd : Nat := if e % 2 = 0 then 0 else 1
    .fin false (isqrt (d * 2 ^ (2 * fixBits) / (n * 2 ^ odd))) 1 (-((e - odd) / 2) - fixBits)
  | x => x

/-- x / 2 (1 + erf(x / sqrt 2)); beyond plus and minus 16 the other term is below every unit of FP32. -/
def geluExact (x : Num) : Num :=
  let y := toFix x
  if 16 * fixOne < y then x
  else if y < -16 * fixOne then ofFix (-1) 200
  else
    let yy := fixMul y y
    let s := ((List.range 520).foldl (fun (a : Int × Int) k =>
      (a.1 + a.2 / (2 * k + 1 : Nat), -(fixMul a.2 yy) / (2 * (k + 1) : Nat))) (0, y)).1
    let c : Int := (isqrt ((2 * fixOne * fixOne * fixOne / fixPi).toNat) : Nat)
    ofFix (fixMul y (fixOne + fixMul c s) / 2) 0

/-- Exact value of unit u: 1 exp, 2 log, 3 reciprocal, 4 reciprocal square root, 5 GELU (Table 5.4). -/
def elementExact (u : Nat) (x : Num) : Num :=
  match u with
  | 1 => expExact x
  | 2 => logExact x
  | 3 => (Num.pow2 0).div x
  | 4 => rsqrtExact x
  | _ => geluExact x

/-- Exponent of one unit in the last place of FP32 at a value. -/
def ulpExp : Num → Int
  | .fin _ n d e => if n = 0 then -149 else max (floorLog2 n d + e - 23) (-149)
  | _ => 0

/-- A value within one unit in the last place of FP32 of x (R140), at the place that a free value picks: from one unit
below to one above, in steps of 2^-20 units, with one step more on each side for the error of the evaluation. -/
def within (x : Num) (pick : Nat) : Num :=
  let k : Int := ((pick % (2 ^ 21 + 3) : Nat) : Int) - (2 ^ 20 + 1)
  x.add ((Num.ofInt k).mul (.pow2 (ulpExp x - 20)))

/-- Greatest element of a softmax row. -/
def softmaxTop (xs : List Num) : Num := xs.foldl (fun a x => if a.lt x then x else a) (.inf true)

/-- Exact softmax of element i over a given sum: e^(x_i - max) / sum (Table 5.4); e^-Inf is 0 (R140). -/
def softmaxExact (sum : Num) (xs : List Num) (i : Nat) : Num :=
  (match (xs.getD i .nan).sub (softmaxTop xs) with
    | .fin s n d k => expExact (.fin s n d k)
    | _ => Num.zero).div sum

end Sys2Proof.Machine
end

