-- ==== Sys2Proof/Machine/Ops.lean ====
section
/-! DEFINITION. The named operations over the state that every meaning is built from: access to the
objects, memory, counters, time stamps, events, journal records and completions. -/

namespace Sys2Proof

/-- The tile position where a report's unit lies. -/
def FaultReport.tile : FaultReport → Option Nat
  | .residue t _ => some t
  | .rescale t => some t
  | .sram t _ _ _ => some t
  | .sramRead t _ _ _ _ => some t
  | .program t _ _ _ => some t
  | .seqVote t _ => some t
  | .skipEnd _ _ _ => none
  | .fnLane t _ _ => some t
  | .ucieLane _ => none
  | .emeelLane _ _ _ => none
  | .sump _ _ => none
  | .riddleParity _ _ _ => none
  | .detectorLane _ => none
  | .shaftSwitch t => some t

/-- fc from the slot boundary to the effect of a retirement that moves no data (R376). -/
def FaultReport.effectFc : FaultReport → Nat
  | .residue _ _ => 4
  | .skipEnd _ _ _ => 4
  | .fnLane _ _ _ => 4
  | .program _ _ _ _ => 4
  | .seqVote _ _ => 4
  | .rescale _ => 0
  | .sram _ _ _ _ => 0
  | .sramRead _ _ _ _ _ => 0
  | .ucieLane _ => 0
  | .emeelLane _ _ _ => 0
  | .sump _ _ => 0
  | .riddleParity _ _ _ => 0
  | .detectorLane _ => 0
  | .shaftSwitch _ => 0

end Sys2Proof

namespace Sys2Proof.Machine

abbrev Result := Host.Outcome State Fault Refusal

/-- A happening that is due: it has its effect. Otherwise it names nothing that happens. -/
def whenDue (ok : Bool) (t : State) : Result := if ok then .next t else .fault .notDue

/-- A command on an object that exists. -/
def whenValid (ok : Bool) (t : State) : Result := if ok then .next t else .fault .badOperand

/-! ## Objects -/

def kindOf (t : Nat) : Nat :=
  let c := t % 32
  if c = 0 ∨ c = 31 then 0
  else if c = 4 ∨ c = 11 ∨ c = 20 ∨ c = 27 then 1
  else if c = 8 ∨ c = 16 ∨ c = 24 then 2 else 3

/-- Spare positions (R36). -/
def isSpare (t : Nat) : Bool := t % 32 == 15 || (t % 32 == 16 && (t / 32) % 3 == 2)

def Tile.init (t : Nat) : Tile := { mapped := !isSpare t, logical := t }

def State.tile (s : State) (t : Nat) : Tile := (look s.tiles t).getD (Tile.init t)
def State.setTile (s : State) (t : Nat) (x : Tile) : State := { s with tiles := put s.tiles t x }
def State.modTile (s : State) (t : Nat) (f : Tile → Tile) : State := s.setTile t (f (s.tile t))
def Tile.thread (x : Tile) (th : Nat) : Thread := lookD x.threads th {}
def Tile.setThread (x : Tile) (th : Nat) (y : Thread) : Tile := { x with threads := put x.threads th y }
def State.thread (s : State) (t th : Nat) : Thread := (s.tile t).thread th
def State.modThread (s : State) (t th : Nat) (f : Thread → Thread) : State :=
  s.modTile t (fun x => x.setThread th (f (x.thread th)))
def State.modRegs (s : State) (t th : Nat) (f : Regs → Regs) : State :=
  s.modThread t th (fun x => { x with regs := f x.regs })
def State.dom (s : State) (d : Nat) : TickDomain := lookD s.ticks d {}
def State.modDom (s : State) (d : Nat) (f : TickDomain → TickDomain) : State :=
  { s with ticks := put s.ticks d (f (s.dom d)) }
def State.skip (s : State) (k : Nat) : Skip := lookD s.skips k {}
def State.modSkip (s : State) (k : Nat) (f : Skip → Skip) : State :=
  { s with skips := put s.skips k (f (s.skip k)) }
def State.claim (s : State) (c : Nat) : Claim := lookD s.host.claims c {}
def State.modHost (s : State) (f : HostIf → HostIf) : State := { s with host := f s.host }
def State.modClaim (s : State) (c : Nat) (f : Claim → Claim) : State :=
  s.modHost (fun h => { h with claims := put h.claims c (f (lookD h.claims c {})) })
def State.ring (s : State) (c k : Nat) : Ring := lookD s.host.rings (16 * c + k) {}
def State.modRing (s : State) (c k : Nat) (f : Ring → Ring) : State :=
  s.modHost (fun h => { h with rings := put h.rings (16 * c + k) (f (lookD h.rings (16 * c + k) {})) })
/-- The indices of a ring and its place become as given; OVERRUN and EVENTS_LOST end only by a write (Table 13.4). -/
def Ring.setUp (r : Ring) (n base device : Nat) : Ring :=
  { producer := 0, consumer := 0, entries := n, base := base, device := device, overrun := r.overrun, eventsLost := r.eventsLost }
def State.image (s : State) (h : Nat) : Image := lookD s.images h {}
def State.modImage (s : State) (h : Nat) (f : Image → Image) : State :=
  { s with images := put s.images h (f (s.image h)) }
def State.pipe? (s : State) (p : Nat) : Option Pipe := look s.pipes p
def State.modPipe (s : State) (p : Nat) (f : Pipe → Pipe) : State :=
  match look s.pipes p with
  | some x => { s with pipes := put s.pipes p (f x) }
  | none => s
def State.modAdit (s : State) (f : Adit → Adit) : State := { s with adit := f s.adit }
def State.lane (s : State) (l : Nat) : Lane := lookD s.adit.lanes l {}
def State.modLane (s : State) (l : Nat) (f : Lane → Lane) : State :=
  s.modAdit (fun a => { a with lanes := put a.lanes l (f (lookD a.lanes l {})) })
def State.quad (s : State) (q : Nat) : Quad := lookD s.adit.quads q {}
def State.modQuad (s : State) (q : Nat) (f : Quad → Quad) : State :=
  s.modAdit (fun a => { a with quads := put a.quads q (f (lookD a.quads q {})) })
def State.decLine (s : State) (l : Nat) : DecLine := lookD s.adit.lines l {}
def State.modLine (s : State) (l : Nat) (f : DecLine → DecLine) : State :=
  s.modAdit (fun a => { a with lines := put a.lines l (f (lookD a.lines l {})) })
/-- TERM resets to 1 and reads 0 on an output (Table 10.11): pairs 8 to 23 are always outputs. -/
def State.lvds (s : State) (i : Nat) : Lvds := lookD s.adit.lvds i (if i < 8 ∨ 24 ≤ i then {} else { term := false })
def State.atile (s : State) (a : Nat) : ATile := lookD s.adit.atiles a {}
def State.modAtile (s : State) (a : Nat) (f : ATile → ATile) : State :=
  s.modAdit (fun x => { x with atiles := put x.atiles a (f (lookD x.atiles a {})) })
def State.block (s : State) (q : Nat) : RBlock := lookD s.riddle.blocks q {}
def State.modRiddle (s : State) (f : Riddle → Riddle) : State := { s with riddle := f s.riddle }
def State.modBlock (s : State) (q : Nat) (f : RBlock → RBlock) : State :=
  s.modRiddle (fun r => { r with blocks := put r.blocks q (f (lookD r.blocks q {})) })
def State.tree (s : State) (t : Nat) : RTree := lookD s.riddle.trees t {}
def State.modSump (s : State) (f : Sump → Sump) : State := { s with sump := f s.sump }
def State.hoist (s : State) (h : Nat) : Hoist := lookD s.sump.hoists h {}
def State.modHoist (s : State) (h : Nat) (f : Hoist → Hoist) : State :=
  s.modSump (fun x => { x with hoists := put x.hoists h (f (lookD x.hoists h {})) })
def State.sumpPort (s : State) (p : Nat) : SumpPort := lookD s.sump.ports p {}
def State.modSumpPort (s : State) (p : Nat) (f : SumpPort → SumpPort) : State :=
  s.modSump (fun x => { x with ports := put x.ports p (f (lookD x.ports p {})) })
def State.modEmeel (s : State) (f : Emeel → Emeel) : State := { s with emeel := f s.emeel }
def State.emPort (s : State) (p : Nat) : EmPort := lookD s.emeel.ports p {}
def State.modEmPort (s : State) (p : Nat) (f : EmPort → EmPort) : State :=
  s.modEmeel (fun x => { x with ports := put x.ports p (f (lookD x.ports p {})) })
def State.modFaults (s : State) (f : Faults → Faults) : State := { s with faults := f s.faults }
def State.modPower (s : State) (f : Power → Power) : State := { s with power := f s.power }
def State.row (s : State) (r : Nat) : Row := s.power.rows.getD r {}
def State.modRow (s : State) (r : Nat) (f : Row → Row) : State :=
  s.modPower (fun p => { p with rows := p.rows.set r (f (p.rows.getD r {})) })
def State.modDebug (s : State) (f : Debug → Debug) : State := { s with dbg := f s.dbg }
def State.emit (s : State) (o : Out) : State := { s with out := o :: s.out }

/-- Hardware sets W1C bit b of the register at offset o in this fc: a write of the same fc does not clear it (R9). -/
def State.hit (s : State) (o b : Nat) : State := { s with hits := (o, b) :: s.hits }

/-! Offsets of the registers that hold W1C bits (Tables 1.4, 2.11, 7.13, 10.10, 11.8, 12.6, 13.4, 13.12, 14.6). -/
def tickStatus (d : Nat) : Nat := 0x1000C + 0x40 * d
def claimStatus (c : Nat) : Nat := 0x20004 + 0x40 * c
def faultStatus : Nat := 0x30004
def skipStatus (k : Nat) : Nat := 0x1400024 + 0x40 * k
def tileStatus (t : Nat) : Nat := 0x2010004 + 0x100 * t
def quadStatus (q : Nat) : Nat := 0x3001008 + 0x40 * q
def blockStatus (q : Nat) : Nat := 0x4001004 + 0x20 * q
def sumpLog : Nat := 0x5000008
def sumpClaim (c : Nat) : Nat := 0x5001008 + 0x10 * c
def meshStatus : Nat := 0x6000008
def emPortStatus (p : Nat) : Nat := 0x6001004 + 0x40 * p
def thermalStatus : Nat := 0x7000018
def rowStatus (r : Nat) : Nat := 0x7000100 + 4 * r
def haltStatus : Nat := 0x8000104
def ringStatus (claim ring : Nat) : Nat := 0x1000000C + 0x10000 * claim + 0x1000 * ring

/-- What a write of v does to the W1C bits of a register: bits that hardware has set in this fc stay (R9). -/
def State.unhit (s : State) (o : Nat) (v : Word) : Word :=
  (s.hits.filter (fun h => h.1 == o)).foldl (fun v h => v &&& ~~~(1#32 <<< h.2)) v

/-- Row clock time of a tile position. -/
def State.rowFc (s : State) (t : Nat) : Nat := (s.row (t / 32)).fc

/-- Draw a free value: no statement can say what it is. -/
def State.drawn (s : State) : Nat := Config.freeBits s.free
def State.draw (s : State) : State := { s with free := s.free + 1 }

/-- No position: beyond the last of the grid. -/
def noTile : Nat := 768

/-- The position that serves a logical tile id; `noTile` where none does, as for the id of a spare (R37). -/
def State.physical (s : State) (id : Nat) : Nat :=
  if (s.tile id).mapped ∧ (s.tile id).logical = id then id
  else match s.tiles.find? (fun p => p.2.mapped && p.2.logical == id) with
    | some p => p.1
    | none => noTile

/-! ## Memory -/

/-- Device physical address of offset o of a tile's window (R45). -/
def tileAddr (t o : Nat) : Nat := 0x10000000000 + t * 0x100000 + o

def sumpTop : Nat := 0xC00000000

/-- Sump pseudo-channel of an address (R292). -/
def pseudoChannel (a : Nat) : Nat := bits a 13 8 ^^^ bits a 19 14
def stackOf (a : Nat) : Nat := pseudoChannel a / 32
/-- Pseudo-channel within the stack, and row address in the pseudo-channel (R292). -/
def stackIndex (a : Nat) : Nat := pseudoChannel a % 32
def sumpUnit (a : Nat) : Nat := bits a 35 14 * 256 + bits a 7 0

/-- Primary and mirror address of offset o in a dual page (R293). -/
def dualPrimary (base o : Nat) : Nat := base + ((o >>> 13) <<< 14) + o % 0x2000

/-- A single sump byte of a retired stack is lost: it reads a free value (R294). -/
def State.lostByte (s : State) (a : Nat) : Bool :=
  decide (a < sumpTop) && s.sump.retired.getD (stackOf a) false

def State.readByte (s : State) (a : Nat) : Byte :=
  if s.lostByte a then BitVec.ofNat 8 (Config.freeBits (Nat.pair s.free a)) else memGet s.mem a

def State.readBytes (s : State) (a n : Nat) : List Byte :=
  (List.range n).map (fun i => s.readByte (a + i))

/-- Words a write of n bytes from a touches: a partly written unwritten word holds zero in its other
bytes, and counts as written (R304). -/
def State.writeBytes (s : State) (a : Nat) (bs : List Byte) : State :=
  if bs.isEmpty then s else
  { s with mem := memWrite s.mem a bs, unwritten := rangeDel s.unwritten (a / 8) ((a + bs.length + 7) / 8) }

/-- Write the unwritten marker to whole words (R302): the bytes read 0. -/
def State.markRange (s : State) (a n : Nat) : State :=
  { s with mem := memClear s.mem a n, unwritten := rangeAdd s.unwritten (a / 8) ((a + n) / 8) }

def State.isUnwritten (s : State) (a : Nat) : Bool := rangeHas s.unwritten (a / 8)

/-- Words of a run of bytes that hold the marker. -/
def State.unwrittenWords (s : State) (a n : Nat) : List Nat :=
  ((List.range ((a + n + 7) / 8 - a / 8)).map (fun i => a / 8 + i)).filter (fun w => rangeHas s.unwritten w)

/-! ## Counters (R410 to R412) -/

def ctrBase : Nat → Nat
  | 0 => 0x100000 | 1 => 0x200000 | 2 => 0x400000 | 3 => 0x401000 | 4 => 0x410000 | 5 => 0x520000
  | 6 => 0x524000 | 7 => 0x525000 | 8 => 0x526000 | 9 => 0x527000 | 10 => 0x528000 | _ => 0x529000
/-- N_k of Table 17.1. -/
def ctrPer : Nat → Nat
  | 0 => 16 | 1 => 4 | 2 => 3 | 3 => 8 | 4 => 2 | 5 => 6 | 6 => 4 | 7 => 8 | 8 => 4 | 9 => 6 | 10 => 5 | _ => 5
/-- Objects of a class. -/
def ctrObjects : Nat → Nat
  | 0 => 768 | 1 => 65536 | 2 => 24 | 3 => 256 | 4 => 65536 | 5 => 256 | 6 => 32 | 7 => 64 | 8 => 48 | 9 => 16
  | 10 => 4 | _ => 64
def ctrOff (k i c : Nat) : Nat := ctrBase k + (i * ctrPer k + c) * 8

/-- Counting n: a value that software has written in this fc stands, but OVF is set as without the write (R9). -/
def Counter.add (x : Counter) (n : Nat) : Counter :=
  let wraps := decide (2 ^ 48 ≤ x.wrote.getD x.value + n)
  { value := if x.wrote.isSome then x.value else (x.value + n) % 2 ^ 48
    ovf := x.ovf || wraps
    wrote := x.wrote.map (fun v => (v + n) % 2 ^ 48)
    ovfNow := x.ovfNow || wraps }

/-- A software write of all 48 bits (R9, R410). -/
def Counter.written (x : Counter) (v : Nat) : Counter := { x with value := v, wrote := some (x.wrote.getD x.value) }

/-- The fc is over: what met a write in it no longer does (R9). -/
def Counter.settle (x : Counter) : Counter := { x with wrote := none, ovfNow := false }

/-- Add n to counter c of object i in class k. -/
def State.count (s : State) (k i c n : Nat) : State :=
  if n = 0 then s else
  s.modDebug (fun d => { d with counters := put d.counters (ctrOff k i c) ((lookD d.counters (ctrOff k i c) {}).add n) })

def State.counter (s : State) (k i c : Nat) : Nat := (lookD s.dbg.counters (ctrOff k i c) {}).value

/-- Tile counters are kept by logical tile (Table 17.1). -/
def State.countTile (s : State) (t c n : Nat) : State := s.count 0 (s.tile t).logical c n

/-! ## Time stamps (R16) -/

/-- Shift count and offset of a domain; 0xFF_FFFF outside any shift. -/
def State.stamp (s : State) (d : Nat) : Nat × Nat :=
  let x := s.dom d
  (x.count.toNat, if x.running then (s.now - x.lastTick) % 2 ^ 24 else 0xFFFFFF)

/-! ## Headframe memory (R290, R323, R334): the placement is the model's choice -/

def hfBase (c : Nat) : Nat := 0xB80000000 + c * 0x400000
def ringPhys (c k : Nat) : Nat := hfBase c + (if k = 0 then 0 else if k = 14 then 0x10000 else 0x20000)
def journalPage (c p : Nat) : Nat := hfBase c + 0x200000 + p * 0x20000
/-- Address of the record's primary copy: records never cross an 8 KiB half of a dual page. -/
def journalAddr (c r : Nat) : Nat :=
  let o := 64 * (r % 16384)
  dualPrimary (journalPage c (o / 0x10000)) (o % 0x10000)

/-! ## Events (R390 to R392) -/

inductive EvFor where
  | claim | pf | both
deriving DecidableEq, Repr

/-- Codes of Table 15.12 with class and audience. -/
structure EvKind where
  code : Nat
  cls : Nat
  audience : EvFor
deriving DecidableEq, Repr

namespace Ev
def tickEarly : EvKind := ⟨0x0001, 0, .pf⟩
def tickLost : EvKind := ⟨0x0002, 0, .pf⟩
def tickConfigRejected : EvKind := ⟨0x0003, 6, .pf⟩
def frameOverrun : EvKind := ⟨0x0004, 4, .claim⟩
def deadlineMiss : EvKind := ⟨0x0005, 4, .claim⟩
def holdOverrun : EvKind := ⟨0x0006, 4, .claim⟩
def eventStoreFull : EvKind := ⟨0x0007, 4, .claim⟩
def lockViolation : EvKind := ⟨0x0008, 6, .pf⟩
def ringOverrun : EvKind := ⟨0x0009, 5, .claim⟩
def selfTestFailed : EvKind := ⟨0x000A, 3, .pf⟩
def trackerFull : EvKind := ⟨0x000B, 0, .pf⟩
def rateMismatch : EvKind := ⟨0x0101, 5, .claim⟩
def creditViolation : EvKind := ⟨0x0102, 5, .claim⟩
def queueWidthMismatch : EvKind := ⟨0x0103, 5, .claim⟩
def queueUnderrun : EvKind := ⟨0x0104, 5, .claim⟩
def skipTimeout : EvKind := ⟨0x0105, 0, .claim⟩
def bellMismatch : EvKind := ⟨0x0106, 5, .claim⟩
def skipEndCorrected : EvKind := ⟨0x0107, 1, .both⟩
def skipEndUncorrectable : EvKind := ⟨0x0108, 2, .both⟩
def skipEndRetired : EvKind := ⟨0x0109, 3, .both⟩
def illegalInstruction : EvKind := ⟨0x0201, 5, .claim⟩
def tileWindowViolation : EvKind := ⟨0x0202, 5, .claim⟩
def weightHalfBusy : EvKind := ⟨0x0203, 5, .claim⟩
def fnDescriptorInvalid : EvKind := ⟨0x0204, 5, .claim⟩
def scratchAddressInvalid : EvKind := ⟨0x0205, 5, .claim⟩
def lockSequenceInvalid : EvKind := ⟨0x0206, 5, .claim⟩
def seqVoteCorrected : EvKind := ⟨0x0207, 1, .both⟩
def programEccCorrected : EvKind := ⟨0x0208, 1, .both⟩
def programEccUncorrectable : EvKind := ⟨0x0209, 4, .both⟩
def sramEccCorrected : EvKind := ⟨0x020A, 1, .both⟩
def sramEccUncorrectable : EvKind := ⟨0x020B, 4, .both⟩
def residueError : EvKind := ⟨0x020C, 2, .both⟩
def rescaleMismatch : EvKind := ⟨0x020D, 2, .both⟩
def fnLaneError : EvKind := ⟨0x020E, 2, .both⟩
def slotReplayed : EvKind := ⟨0x020F, 2, .both⟩
def columnRetired : EvKind := ⟨0x0210, 3, .both⟩
def lineRemapped : EvKind := ⟨0x0211, 3, .both⟩
def bankReplaced : EvKind := ⟨0x0212, 3, .both⟩
def fnLaneRetired : EvKind := ⟨0x0213, 3, .both⟩
def seqCopyRetired : EvKind := ⟨0x0214, 3, .both⟩
def tileReplaced : EvKind := ⟨0x0215, 3, .both⟩
def tileLost : EvKind := ⟨0x0216, 4, .both⟩
def lockBroken : EvKind := ⟨0x0217, 4, .claim⟩
def blockAddressInvalid : EvKind := ⟨0x0218, 5, .claim⟩
def quadConfigRejected : EvKind := ⟨0x0301, 6, .pf⟩
def laneDown : EvKind := ⟨0x0302, 4, .both⟩
def mirrorDegraded : EvKind := ⟨0x0303, 3, .both⟩
def ucieRetry : EvKind := ⟨0x0304, 2, .pf⟩
def ucieLaneRepaired : EvKind := ⟨0x0305, 3, .pf⟩
def riddleFifoOverflow : EvKind := ⟨0x0401, 4, .claim⟩
def riddleMapInvalid : EvKind := ⟨0x0402, 5, .claim⟩
def riddleLate : EvKind := ⟨0x0403, 4, .claim⟩
def riddleParity : EvKind := ⟨0x0404, 4, .both⟩
def riddleConfigRepaired : EvKind := ⟨0x0405, 2, .both⟩
def uninitRead : EvKind := ⟨0x0501, 5, .claim⟩
def bar4Fault : EvKind := ⟨0x0502, 5, .claim⟩
def hoistPageFault : EvKind := ⟨0x0503, 0, .claim⟩
def hoistLate : EvKind := ⟨0x0504, 4, .claim⟩
def canaryBite : EvKind := ⟨0x0505, 4, .both⟩
def spConfigRejected : EvKind := ⟨0x0506, 6, .pf⟩
def sumpEccCorrected : EvKind := ⟨0x0507, 1, .both⟩
def sumpEccUncorrectable : EvKind := ⟨0x0508, 4, .both⟩
def sumpLineRemapped : EvKind := ⟨0x0509, 3, .pf⟩
def stackRetired : EvKind := ⟨0x050A, 3, .both⟩
def emeelRetryLate : EvKind := ⟨0x0601, 2, .pf⟩
def emeelLinkDown : EvKind := ⟨0x0602, 4, .pf⟩
def meshWiringError : EvKind := ⟨0x0603, 6, .pf⟩
def emRemoteTimeout : EvKind := ⟨0x0604, 4, .pf⟩
def emConfigRejected : EvKind := ⟨0x0605, 6, .pf⟩
def emeelLaneRetired : EvKind := ⟨0x0606, 3, .pf⟩
def droopDeep : EvKind := ⟨0x0701, 0, .both⟩
def thermalWarning : EvKind := ⟨0x0702, 0, .pf⟩
def thermalTrip : EvKind := ⟨0x0703, 4, .pf⟩
def pwConfigRejected : EvKind := ⟨0x0704, 6, .pf⟩
def breakpoint : EvKind := ⟨0x0801, 0, .pf⟩
def debugHalt : EvKind := ⟨0x0802, 0, .pf⟩
def debugUnlockRejected : EvKind := ⟨0x0803, 6, .pf⟩
end Ev

/-- The parts of an event record that its rule names (Table 15.11). -/
structure EvArgs where
  claim : Nat := 0
  /-- tick domain and pipeline id, when the event belongs to a pipeline -/
  pipe : Option Nat := none
  locKind : Nat := 0
  locSub : Nat := 0
  loc : Nat := 0
  addr : Nat := 0
  data : Nat := 0
  retry : Bool := false
  cause : Option Nat := none
  count : Nat := 1
deriving DecidableEq, Repr

/-- Domain that stamps an event: that of its pipeline, else domain 0 (R16). -/
def EvArgs.domain (e : EvArgs) : Nat :=
  match e.pipe with
  | some p => p / 32
  | none => 0

def State.eventRecord (s : State) (k : EvKind) (e : EvArgs) (copy : Bool) : Record :=
  let d := e.domain
  let (sh, fc) := s.stamp d
  BitVec.ofNat 512
    (s.faults.eventSeq % 2 ^ 64 + k.code <<< 64 + k.cls <<< 80
      + (boolNat copy + 2 * boolNat e.retry + 4 * boolNat e.cause.isSome) <<< 88
      + (e.claim % 256) <<< 96 + d <<< 104
      + (match e.pipe with | some p => 0x80 + p % 32 | none => 0) <<< 112
      + sh <<< 128 + fc <<< 192
      + (e.locKind % 16) <<< 252 + (e.locSub % 4096) <<< 240 + (e.loc % 65536) <<< 224
      + (e.addr % 2 ^ 64) <<< 256 + (e.data % 2 ^ 64) <<< 320 + (e.cause.getD 0 % 2 ^ 64) <<< 384
      + (e.count % 2 ^ 32) <<< 448)

def Ring.fill (r : Ring) : Nat := (r.producer - r.consumer).toNat

/-- An MSI-X vector of a claim fires, or waits while PCIe masks it (R325). -/
def State.fireMsix (s : State) (c v : Nat) : State :=
  if (s.claim c).msixMask.getLsbD v then s.modClaim c (fun x => { x with msixPending := x.msixPending ||| BitVec.ofNat 2 (1 <<< v) })
  else s.emit (.msix c v)

/-- Write an entry at PRODUCER of ring 14 or 15, advance PRODUCER and fire the MSI-X vector when the
ring was empty (R324, R325). -/
def State.placeEntry (s : State) (c k : Nat) (r : Record) : State :=
  let g := s.ring c k
  let s1 := s.writeBytes (ringPhys c k + 64 * (g.producer.toNat % 1024)) (lineBytes r)
  let s2 := s1.modRing c k (fun g => { g with producer := g.producer + 1 })
  if g.fill = 0 then s2.fireMsix c (k - 14) else s2

/-- R325: place an event in ring 15, or hold it, or count it as lost. A closed claim has no ring. -/
def State.deliver (s : State) (c : Nat) (r : Record) : State :=
  if (s.ring c 15).entries = 0 then s
  else if (s.claim c).held.isEmpty ∧ (s.ring c 15).fill < 1024 then s.placeEntry c 15 r
  else if (s.claim c).held.length < 64 then s.modClaim c (fun x => { x with held := x.held ++ [r] })
  else ((((s.modClaim c (fun x => { x with eventsLost := true })).modRing c 15
      (fun g => { g with eventsLost := true })).hit (claimStatus c) 26).hit (ringStatus c 15) 0).count 5 c 4 1

/-- Raise an event (R390, R391). -/
def State.raise (s : State) (k : EvKind) (e : EvArgs) : State :=
  let s1 := match k.audience with
    | .pf => s.deliver 0 (s.eventRecord k e false)
    | .claim => s.deliver e.claim (s.eventRecord k e false)
    | .both =>
      let s1 := s.deliver e.claim (s.eventRecord k e false)
      if e.claim = 0 then s1 else s1.deliver 0 (s.eventRecord k e true)
  s1.modFaults (fun f => { f with eventSeq := f.eventSeq + 1 })

/-- One millisecond in fc of the tick domain clock. -/
def msFc : Nat := 1200000

/-- A CORRECTED event is raised at most once per millisecond per location, and its COUNT holds the
occurrences since the last record (R391). -/
def State.raiseFolded (s : State) (loc : Nat) (k : EvKind) (e : EvArgs) : State :=
  let key := k.code + 2 ^ 16 * loc
  match s.faults.folded.find? (fun p => p.1 == key) with
  | some (_, at_, n) =>
    if s.now < at_ + msFc then
      s.modFaults (fun f => { f with folded := (key, at_, n + 1) :: f.folded.filter (fun p => p.1 != key) })
    else
      (s.raise k { e with count := n + 1 }).modFaults
        (fun f => { f with folded := (key, s.now, 0) :: f.folded.filter (fun p => p.1 != key) })
  | none => (s.raise k e).modFaults (fun f => { f with folded := (key, s.now, 0) :: f.folded })

/-! ## Journal and completions (R331 to R336) -/

namespace Reason
def badCommand : Nat := 0x100
def notPermitted : Nat := 0x101
def claimState : Nat := 0x102
def noResource : Nat := 0x103
def alreadyMapped : Nat := 0x104
def notMapped : Nat := 0x105
def pinned : Nat := 0x106
def badHandle : Nat := 0x107
def busy : Nat := 0x108
def tooLate : Nat := 0x109
def bindRejected : Nat := 0x10A
def shadowNotReady : Nat := 0x10B
def notSwapCompatible : Nat := 0x10C
def lengthMismatch : Nat := 0x10D
def descriptorInvalid : Nat := 0x10E
def notFaulted : Nat := 0x10F
def canary : Nat := 0x110
def captureBusy : Nat := 0x111
def captureTimeout : Nat := 0x112
def overwritten : Nat := 0x113
def selfTestFailed : Nat := 0x114
def claimReset : Nat := 0x00E
end Reason

/-- Field of a command entry: n bytes from byte o (Table 13.5). -/
def Cmd.arg (c : Cmd) (o n : Nat) : Nat := (c.entry.toNat >>> (8 * o)) % 2 ^ (8 * n)
def Cmd.opcode (c : Cmd) : Nat := c.arg 0 2
def Cmd.tag (c : Cmd) : BitVec 48 := BitVec.ofNat 48 (c.arg 8 6)
def Cmd.ordered (c : Cmd) : Bool := bitAt (c.arg 2 1) 0

/-- A journal record (Table 13.8). -/
def State.journalRecord (s : State) (c : Cmd) (st : Nat) (origin reason : Nat) (result : BitVec 128) : Record :=
  let (sh, fc) := s.stamp 0
  BitVec.ofNat 512
    (s.host.seq % 2 ^ 64 + c.tag.toNat <<< 64 + st <<< 112 + (boolNat c.duplicateOf.isSome) <<< 120
      + c.opcode <<< 128 + (c.ring % 256) <<< 144 + (c.claim % 256) <<< 152 + c.index.toNat <<< 160
      + (origin % 2 ^ 64) <<< 192 + sh <<< 256 + fc <<< 320 + reason <<< 352 + result.toNat <<< 384)

/-- Write a record to the claim's journal in both stacks; HEAD and SEQ advance (R334, R335). -/
def State.journal (s : State) (claim : Nat) (r : Record) : State :=
  let a := journalAddr claim (s.claim claim).journalHead.toNat
  let s1 := (s.writeBytes a (lineBytes r)).writeBytes (a + 0x2000) (lineBytes r)
  (s1.modClaim claim (fun x => { x with journalHead := x.journalHead + 1 })).modHost
    (fun h => { h with seq := h.seq + 1 })

def State.cmd? (s : State) (seq : Nat) : Option Cmd := s.host.cmds.find? (fun c => c.seq == seq)

def State.modCmd (s : State) (seq : Nat) (f : Cmd → Cmd) : State :=
  s.modHost (fun h => { h with cmds := h.cmds.map (fun c => if c.seq == seq then f c else c) })

/-- Write the completion record of one command in flight and mark it ended. -/
def State.finishOne (s : State) (c : Cmd) (ok : Bool) (reason : Nat) (result : BitVec 128) : State :=
  let r := s.journalRecord c (if ok then 2 else 3) c.seq reason result
  (s.journal c.claim r).modCmd c.seq (fun c => { c with state := .ended ok reason result, record := r })

/-- End a command: its completion record, its entry in the tag window, and the completion of every
duplicate that waits for it (R332). -/
def State.finish (s : State) (seq : Nat) (ok : Bool) (reason : Nat) (result : BitVec 128) : State :=
  match s.cmd? seq with
  | none => s
  | some c =>
    let s1 := s.finishOne c ok reason result
    let s2 := s1.modClaim c.claim (fun x => { x with
      tags := x.tags.map (fun p => if p.2.1 == seq then (p.1, p.2.1, some (boolNat ok, reason, result)) else p) })
    let dups := s2.host.cmds.filter (fun d => d.duplicateOf == some seq && d.state == .accepted)
    dups.foldl (fun s d => s.finishOne d ok reason result) s2

def State.fail (s : State) (seq reason : Nat) : State := s.finish seq false reason 0
def State.complete (s : State) (seq : Nat) (result : BitVec 128) : State := s.finish seq true 0 result

/-! ## Locks (R344) -/

/-- A write ignored by a lock or a write-once field of group k. -/
def State.lockViolation (s : State) (k offset : Nat) (value : Word) : State :=
  ((s.modHost (fun h => { h with lockViol := h.lockViol ||| BitVec.ofNat 32 (2 ^ k), lockViolAddr := BitVec.ofNat 32 offset })).hit 0x10 k).raise
    Ev.lockViolation { addr := offset, data := value.toNat }

def State.locked (s : State) (k : Nat) : Bool := s.host.lockState.getLsbD k

/-! ## Translation (R295 to R298) -/

/-- A leaf entry (Table 12.2). -/
def leafEntry (addr : Nat) (dual write : Bool) : DWord :=
  BitVec.ofNat 64 (((addr % 2 ^ 48) / 256) * 256 + 16 * boolNat dual + 4 + 2 * boolNat write + 1)
def leafValid (e : DWord) : Bool := e.getLsbD 0
def leafWrite (e : DWord) : Bool := e.getLsbD 1
def leafPinned (e : DWord) : Bool := e.getLsbD 3
def leafDual (e : DWord) : Bool := e.getLsbD 4
def leafAddr (e : DWord) : Nat := bits e.toNat 47 8 * 256

/-- The leaf that maps a CVA, with the offset in its page. -/
def Claim.leaf (x : Claim) (cva : Nat) : Option (DWord × Nat) :=
  match look x.pages (cva / 0x10000) with
  | some e => if leafValid e then some (e, cva % 0x10000) else none
  | none => match look x.bigPages (cva / 0x200000) with
    | some e => if leafValid e then some (e, cva % 0x200000) else none
    | none => none

/-- Where a CVA leads: device physical address, and whether the page is dual. -/
structure Phys where
  addr : Nat
  dual : Bool
  write : Bool
deriving DecidableEq, Repr

/-- Some loaded image of the claim owns the tile position (R297). -/
def State.claimOwns (s : State) (claim t : Nat) : Bool :=
  s.images.any (fun p => p.2.claim == claim && p.2.loaded && p.2.tiles.any (fun r => s.physical r.tile == t))

/-- Bits of a CVA below the index of a table level (Table 12.1). -/
def levelShift (level : Nat) : Nat := if level = 1 then 39 else if level = 2 then 30 else if level = 3 then 21 else 16

/-- Physical address of the table of a level on the path of a CVA: in headframe-reserved sump, aligned to its size
(R290, R295, Table 12.1). SP_CLAIM_ROOT holds that of level 1. -/
def tableAddr (claim level cva : Nat) : Nat :=
  let size := if level = 4 then 256 else 4096
  0xB80000000 + Config.tableAt claim level (cva >>> (levelShift level + (if level = 4 then 5 else 9))) % (0x80000000 / size) * size

/-- A leaf of the claim lies below the entry of a level on the path of a CVA. -/
def Claim.under (x : Claim) (level cva : Nat) : Bool :=
  let n := levelShift level
  x.pages.any (fun p => leafValid p.2 && (p.1 * 0x10000) >>> n == cva >>> n)
    || (decide (level ≤ 2) && x.bigPages.any (fun p => leafValid p.2 && (p.1 * 0x200000) >>> n == cva >>> n))

/-- Entry of a level of the table tree on the path of a CVA (R295, R296, Table 12.2): a leaf, the address of the next
table, or 0. -/
def Claim.entry (x : Claim) (claim level cva : Nat) : DWord :=
  let next := if x.under level cva then BitVec.ofNat 64 (tableAddr claim (level + 1) cva + 1) else 0
  if level = 4 then lookD x.pages (cva / 0x10000) 0
  else if level = 3 then (match look x.bigPages (cva / 0x200000) with
    | some e => if leafValid e then e else next
    | none => next)
  else next

/-- The entries that a walk reads, up to the first that is a leaf or not VALID: at most four sump reads (R295, R298). -/
def Claim.walk (x : Claim) (claim cva : Nat) : Nat → Nat → List DWord
  | 0, _ => []
  | n + 1, level =>
    let e := x.entry claim level cva
    if !leafValid e || e.getLsbD 2 then [e] else e :: x.walk claim cva n (level + 1)

def State.translate (s : State) (claim cva : Nat) (write : Bool) : Option Phys :=
  if 2 ^ 48 ≤ cva then none else
  match (s.claim claim).leaf cva with
  | none => none
  | some (e, o) =>
    let a := if leafDual e then dualPrimary (leafAddr e) o else leafAddr e + o
    if write && !leafWrite e then none
    else if 0x10000000000 ≤ a ∧ a < 0x10030000000 ∧ ¬ s.claimOwns claim ((a - 0x10000000000) / 0x100000) then none
    else some { addr := a, dual := leafDual e, write := leafWrite e }

/-- A byte through a translation: a dual page reads its surviving copy (R294). -/
def State.readPhys (s : State) (p : Phys) : Byte :=
  if p.dual && s.lostByte p.addr then s.readByte (p.addr + 0x2000) else s.readByte p.addr

def State.writePhysByte (s : State) (p : Phys) (b : Byte) : State :=
  let s1 := s.writeBytes p.addr [b]
  if p.dual then s1.writeBytes (p.addr + 0x2000) [b] else s1

end Sys2Proof.Machine
end

