-- ==== Sys2Proof/Machine/Link.lean ====
section
/-! DEFINITION. Emeel links as the rest of the device sees them: dimension-order routes, and the sending of flits
(chapter 14). The stream id of a flit is the id of the skip on the consumer's device; the payload of a mark or
of a credit holds its count. -/

namespace Sys2Proof.Machine

/-- Devices of the mesh in x and in y (R353). -/
def Emeel.xSize (x : Emeel) : Nat := x.xMinus1.toNat + 1
def Emeel.ySize (x : Emeel) : Nat := x.yMinus1.toNat + 1

/-- Port of the next link towards a device, by dimension order (R354); none for this device. -/
def Emeel.portTo (e : Emeel) (device : Nat) : Option Nat :=
  let here := e.deviceId.toNat
  let dx := (device % e.xSize + e.xSize - here % e.xSize) % e.xSize
  let dy := (device / e.xSize + e.ySize - here / e.xSize) % e.ySize
  if dx ≠ 0 then some (if 2 * dx ≤ e.xSize then 0 else 1)
  else if dy ≠ 0 then some (if 2 * dy ≤ e.ySize then 2 else 3)
  else none

/-- Port at which the dimension-order route from a device arrives here: credits go back along it (R358). -/
def Emeel.portFrom (e : Emeel) (device : Nat) : Option Nat :=
  let here := e.deviceId.toNat
  let dx := (here % e.xSize + e.xSize - device % e.xSize) % e.xSize
  let dy := (here / e.xSize + e.ySize - device / e.xSize) % e.ySize
  if dy ≠ 0 then some (if 2 * dy ≤ e.ySize then 3 else 2)
  else if dx ≠ 0 then some (if 2 * dx ≤ e.xSize then 1 else 0)
  else none

/-- Emeel counters (Table 17.1). -/
def State.countPort (s : State) (p c : Nat) : State := s.count 10 p c 1

/-- Send a flit on a port `delay` fc from now, with its mesh time stamp (R348, R350). The replay buffer keeps
it; a port that is down sends nothing. -/
def State.sendOn (s : State) (p : Nat) (f : Flit) (delay : Nat) : State :=
  let x := s.emPort p
  let g := { f with seq := x.sendSeq, stamp := s.emeel.meshTime + delay }
  let s1 := s.modEmPort p (fun x => { x with sendSeq := x.sendSeq + 1, replay := (x.replay ++ [g]).drop (x.replay.length - 1023) })
  if x.up then (s1.emit (.flit p g)).countPort p 0 else s1

/-- Port on which a flit for a device leaves. -/
def Emeel.portOut (e : Emeel) (kind : FlitKind) (device : Nat) : Option Nat :=
  if kind = .credit then e.portFrom device else e.portTo device

/-- Send a flit towards a device. -/
def State.sendFlit (s : State) (device : Nat) (kind : FlitKind) (stream tag : Nat) (payload : Line) (delay : Nat) : State :=
  match s.emeel.portOut kind device with
  | some p => s.sendOn p { kind := kind, device := device, stream := stream, seq := 0, stamp := 0, tag := tag, payload := payload } delay
  | none => s

/-- Ask every member of a mesh for a claim action (R362). -/
def State.tellMembers (s : State) (op : Nat) (entry : BitVec 512) : State :=
  if s.emeel.head && s.emeel.enumerated then
    (List.range (s.emeel.devices - 1)).foldl (fun s i => s.sendFlit (i + 1) .command op 0 entry 0) s
  else s

end Sys2Proof.Machine
end

