-- ==== Sys2Proof/Machine/Operands.lean ====
section
/-! DEFINITION. Tile instruction words: fields, which encodings a tile accepts at run time (Table 4.5),
and the registers a word reads or writes (chapter 4). -/

namespace Sys2Proof.Machine

/-! Fields of the layouts of Table 4.1. -/
def wOp (w : Nat) : Nat := bits w 63 58
def qPort (w : Nat) : Nat := bits w 57 53
def qTk (w : Nat) : Nat := bits w 52 51
def qReg (w : Nat) : Nat := bits w 50 46
def qWidth (w : Nat) : Nat := bits w 45 43
def qEop (w : Nat) : Bool := bitAt w 42
def qZrc (w : Nat) : Bool := bitAt w 41
def qAll (w : Nat) : Bool := bitAt w 40
def qLine (w : Nat) : Nat := bits w 29 16
def qCount (w : Nat) : Nat := bits w 15 0
def xStile (w : Nat) : Nat := bits w 57 48
def xReg (w : Nat) : Nat := bits w 47 43
def xBase (w : Nat) : Nat := bits w 42 38
def xWidth (w : Nat) : Nat := bits w 37 36
def xSx (w : Nat) : Bool := bitAt w 35
def xOffset (w : Nat) : Nat := bits w 19 0
def lCtr (w : Nat) : Nat := bits w 57 56
def lEnd (w : Nat) : Nat := bits w 55 45
def lTrip (w : Nat) : Nat := bits w 23 0
def lRd (w : Nat) : Nat := bits w 55 51
def lRa (w : Nat) : Nat := bits w 50 46
def lStride (w : Nat) : Int := signedOf 16 (bits w 15 0)
def yNext (w : Nat) : Bool := bitAt w 57
def yRoute (w : Nat) : Nat := bits w 56 52
def yRd (w : Nat) : Nat := bits w 51 47
def yAny (w : Nat) : Bool := bitAt w 46
def yValue (w : Nat) : Nat := bits w 7 0
def vS (w : Nat) : Bool := bitAt w 57
def vI (w : Nat) : Bool := bitAt w 56
def vType (w : Nat) : Nat := bits w 55 52
def vRd (w : Nat) : Nat := bits w 51 47
def vRa (w : Nat) : Nat := bits w 46 42
def vRb (w : Nat) : Nat := bits w 41 37
def vRc (w : Nat) : Nat := bits w 36 32
def vDtype (w : Nat) : Nat := bits w 31 28
def vCond (w : Nat) : Nat := bits w 27 25
def vSatfp (w : Nat) : Bool := bitAt w 24
def vImm (w : Nat) : Nat := bits w 15 0
def mBank (w : Nat) : Nat := bits w 57 56
def mAcc (w : Nat) : Bool := bitAt w 55
def mRel (w : Nat) : Bool := bitAt w 54
def mSd (w : Nat) : Nat := bits w 53 52
def fnUnit (w : Nat) : Nat := bits w 57 54
def fnWait (w : Nat) : Bool := bitAt w 53
def fnDesc (w : Nat) : Nat := bits w 52 40
def oToport (w : Nat) : Bool := bitAt w 35
def oPort (w : Nat) : Nat := bits w 34 30
def oDtype (w : Nat) : Nat := bits w 29 26

/-- Operand formats of an MMS or WCS word. -/
def macTypes (w : Nat) : Nat × Nat :=
  if wOp w = 0x28 then (bits w 17 14, bits w 13 10) else (bits w 10 7, bits w 6 3)

/-- Ones in bits hi..lo. -/
def ones (hi lo : Nat) : Nat := (2 ^ (hi + 1 - lo) - 1) <<< lo

/-- Opcodes of Table 4.4. -/
def opKnown (op : Nat) : Bool :=
  decide (op ≤ 3) || decide (8 ≤ op ∧ op ≤ 9) || decide (0x10 ≤ op ∧ op ≤ 0x13) || decide (0x18 ≤ op ∧ op ≤ 0x1E)
    || decide (0x20 ≤ op ∧ op ≤ 0x26) || decide (0x28 ≤ op ∧ op ≤ 0x2C) || decide (0x30 ≤ op ∧ op ≤ 0x3F)

/-- Bits below OPCODE that a word's instruction uses (Table 4.1, Table 4.4). -/
def usedMask (w : Nat) : Nat :=
  match wOp w with
  | 0x02 => ones 15 0
  | 0x03 => ones 57 40
  | 0x08 => ones 57 45 + ones 23 0
  | 0x09 => ones 57 46 + ones 15 0
  | 0x11 => ones 57 57 + ones 7 0
  | 0x12 => ones 56 52 + ones 7 0
  | 0x13 => ones 56 52 + ones 46 46 + (if yAny w then ones 51 47 else ones 7 0)
  | 0x18 => ones 57 43 + (if qTk w = 2 then ones 29 0 else 0)
  | 0x19 => ones 57 43
  | 0x1A => ones 57 41 + (if qTk w = 2 then ones 29 0 else 0)
  | 0x1B => ones 57 53 + ones 40 40
  | 0x1C => ones 57 53
  | 0x1D => ones 57 53 + ones 15 0
  | 0x1E => ones 57 53 + ones 50 46
  | 0x20 => ones 57 35 + ones 19 0
  | 0x21 => ones 57 36 + ones 19 0
  | 0x22 => ones 57 38 + ones 19 0
  | 0x23 => ones 57 38 + ones 19 0
  | 0x25 => ones 57 48 + ones 42 38 + ones 19 0
  | 0x26 => ones 57 48 + ones 42 38 + ones 19 0
  | 0x28 => ones 57 10
  | 0x29 => ones 57 3
  | 0x2A => ones 57 18
  | 0x2B => ones 57 16
  | 0x2C => ones 57 35 + ones 29 20 + (if oToport w then ones 34 30 else 0)
  | 0x35 => ones 57 42 + (if vI w then ones 15 0 else ones 41 37) + ones 36 32 + ones 27 25
  | 0x3B => ones 55 42 + ones 31 28 + ones 24 24
  | 0x3C => ones 57 57 + ones 55 42
  | 0x3D => ones 55 42
  | 0x3E => ones 55 42
  | 0x3F => ones 57 57 + ones 55 42 + ones 15 0
  | op => if 0x30 ≤ op ∧ op ≤ 0x3A then ones 57 42 + (if vI w then ones 15 0 else ones 41 37) else 0

/-- Fields below OPCODE that Table 4.4 does not list are zero (R99). -/
def unusedZero (w : Nat) : Bool := (w % 2 ^ 58) &&& (2 ^ 58 - 1 - usedMask w) == 0

/-- A vector register field: bit 4 is 0. -/
def vOk (r : Nat) : Bool := decide (r < 16)

/-- TYPE of a vector or scalar instruction (Table 4.3). -/
def vTypeOk (w : Nat) : Bool :=
  let t := vType w
  if vS w then t == 2 || t == 6 else t == 1 || t == 2 || t == 5 || t == 6

/-- Register fields of a vector instruction with S = 0. -/
def vRegsOk (w : Nat) (rb rc : Bool) : Bool :=
  vS w || (vOk (vRd w) && vOk (vRa w) && (!rb || vI w || vOk (vRb w)) && (!rc || vOk (vRc w)))

/-- Field values that Table 4.2, Table 4.3, Table 4.4, R74, R107 and R108 allow, on a tile of a kind. A COUNT of 0 lies outside
its range of Table 4.2: the word is illegal at run time too, which R100 does not list (DESIGN CHOICE, log 102). -/
def formOk (kind w : Nat) : Bool :=
  match wOp w with
  | 0x00 => true
  | 0x01 => true
  | 0x02 => true
  | 0x03 => kind == 2 && decide (fnUnit w ≤ 11)
  | 0x08 => true
  | 0x09 => true
  | 0x10 => true
  | 0x11 => !yNext w || yValue w == 0
  | 0x12 => true
  | 0x13 => true
  | 0x18 => (qTk w == 0 && qWidth w == 6 && vOk (qReg w)) || (qTk w == 1 && qWidth w == 2)
      || (qTk w == 2 && qWidth w == 6 && kind != 0 && qCount w != 0)
  | 0x19 => (qTk w == 0 && qWidth w == 6 && vOk (qReg w)) || (qTk w == 1 && qWidth w == 2)
  | 0x1A => (qTk w == 0 && decide (qWidth w ≤ 6) && vOk (qReg w))
      || (qTk w == 1 && decide (qWidth w ≤ 2) && !qZrc w)
      || (qTk w == 2 && qWidth w == 6 && kind != 0 && !qZrc w && qCount w != 0)
  | 0x1B => !qAll w || qPort w == 0
  | 0x1C => true
  | 0x1D => qCount w != 0
  | 0x1E => true
  | 0x20 => decide (xWidth w ≤ 2)
  | 0x21 => decide (xWidth w ≤ 2)
  | 0x22 => vOk (xReg w)
  | 0x23 => vOk (xReg w)
  | 0x24 => true
  | 0x25 => true
  | 0x26 => true
  | 0x28 => kind == 3 && macPair (macTypes w).1 (macTypes w).2
  | 0x29 => kind == 3 && macPair (macTypes w).1 (macTypes w).2
  | 0x2A => kind == 3 && bits w 55 54 != 3 && decide (bits w 53 51 ≤ 4) && bits w 50 49 != 3
  | 0x2B => kind == 3 && (bits w 31 28 == 5 || bits w 31 28 == 6) && decide (bits w 27 24 ≤ 1)
  | 0x2C => kind == 3 && oDtype w != 2 && decide (oDtype w ≤ 0xC)
  | 0x35 => vTypeOk w && vRegsOk w true true && decide (vCond w ≤ 5)
  | 0x3B => decide (vType w ≤ 6) && decide (vDtype w ≤ 6) && vOk (vRd w) && vOk (vRa w)
  | 0x3C => vTypeOk w && vRegsOk w false false
  | 0x3D => vType w == 1 && vOk (vRd w) && vOk (vRa w)
  | 0x3E => vType w == 1 && vOk (vRd w) && vOk (vRa w)
  | 0x3F => vTypeOk w && (vS w || vOk (vRd w)) && (vRa w == 0 || (vRa w == 1 && vS w))
  | op => decide (0x30 ≤ op) && decide (op ≤ 0x3A) && vTypeOk w && vRegsOk w true false
      && (decide (op < 0x36) || decide (vType w ≤ 2))

/-- Ports, counters and bell entries that the word names are assigned to the thread in that direction
(R50, R143, R171). -/
def assignedOk (x : Tile) (th w : Nat) : Bool :=
  let port (out : Option Bool) (p : Nat) : Bool := match look x.ports p with
    | some y => y.thread == th && (match out with | some b => y.output == b | none => true)
    | none => false
  let bell (send : Bool) : Bool := match look x.bells (yRoute w) with
    | some y => y.thread == th && y.send == send
    | none => false
  let op := wOp w
  if op = 0x18 ∨ op = 0x19 ∨ op = 0x1C then port (some false) (qPort w)
  else if op = 0x1A then port (some true) (qPort w)
  else if op = 0x1B then qAll w || port none (qPort w)
  else if op = 0x1D ∨ op = 0x1E then port none (qPort w)
  else if op = 0x2C then !oToport w || port (some true) (oPort w)
  else if op = 0x08 ∨ op = 0x09 then look x.counters (lCtr w) == some th
  else if op = 0x12 then bell true
  else if op = 0x13 then bell false
  else true

/-- What a tile detects at decode (R109): the word is legal for the thread. -/
def legalWord (x : Tile) (kind th w : Nat) : Bool :=
  opKnown (wOp w) && unusedZero w && formOk kind w && assignedOk x th w

/-- Registers that a legal word reads or writes: g as 0 to 31, v as 32 to 47, ZM as 48 (R114). The g register of a block
move is read at issue. A POP or PEEK of a zero-run entry writes ZM as well. -/
def wordRegs (w : Nat) : List Nat :=
  let op := wOp w
  if op = 0x09 then [lRd w, lRa w]
  else if op = 0x13 then (if yAny w then [yRd w] else [])
  else if op = 0x18 ∨ op = 0x19 then (if qTk w = 0 then [32 + qReg w] else [qReg w])
  else if op = 0x1A then (if qTk w = 0 then (if qZrc w then [32 + qReg w, 48] else [32 + qReg w]) else [qReg w])
  else if op = 0x1E then [qReg w]
  else if op = 0x20 ∨ op = 0x21 then [xReg w, xBase w]
  else if op = 0x22 ∨ op = 0x23 then [32 + xReg w, xBase w]
  else if op = 0x25 ∨ op = 0x26 then [xBase w]
  else if op = 0x3D ∨ op = 0x3E then [32 + vRd w, 32 + vRa w, 48]
  else if op = 0x3F then [(if vS w then 0 else 32) + vRd w]
  else if op = 0x3B ∨ op = 0x3C then [(if vS w then 0 else 32) + vRd w, (if vS w then 0 else 32) + vRa w]
  else if 0x30 ≤ op then
    let b := if vS w then 0 else 32
    [b + vRd w, b + vRa w] ++ (if vI w then [] else [b + vRb w]) ++ (if op = 0x35 then [b + vRc w] else [])
  else []

/-- Size of the memory that a block move of a tile kind addresses, and its window offset (R107). -/
def blockMemory (kind : Nat) : Nat × Nat :=
  if kind = 3 then (32768, 0x30000) else if kind = 2 then (65536, 0) else if kind = 1 then (655360, 0) else (0, 0)

end Sys2Proof.Machine
end

