-- ==== Sys2Proof/Machine/Shaft.lean ====
section
/-! DEFINITION. Skips: pushing, packing, commit, release, discard and rewind of entries (chapter 7). Times
on a route are counted in the clock of the consumer's row, times of credit in that of the producer's. -/

namespace Sys2Proof.Machine

/-- Read word size (R180). -/
def SkipCfg.readWidth (c : SkipCfg) : Nat := if c.net = 1 then 4 else 64
/-- Push width w (R193). -/
def SkipCfg.width (c : SkipCfg) : Nat := 2 ^ c.pushWidth.toNat

def State.skipPos (s : State) (k : Nat) : Nat := s.physical (s.skip k).cfg.consumer
def State.skipFc (s : State) (k : Nat) : Nat := s.rowFc (s.skipPos k)
/-- Row clock of the producer end. -/
def State.producerFc (s : State) (k : Nat) : Nat :=
  match (s.skip k).cfg.producer with
  | some (id, _) => s.rowFc (s.physical id)
  | none => s.skipFc k

/-- Initial credit (R184). -/
def SkipCfg.initialCredit (c : SkipCfg) : Nat := if c.zrc then c.size / 72 else c.size / c.width

/-- Credit, counting all that has arrived. -/
def Skip.creditAll (k : Skip) : Nat := if k.cfg.zrc then k.free / 72 else k.credit

/-- Credit that an instruction issued in row fc `fc` sees: not what arrives in that fc (R201). -/
def Skip.creditSeen (k : Skip) (fc : Nat) : Nat :=
  let new := if k.creditAt = fc then k.creditFresh else 0
  if k.cfg.zrc then (k.free - new) / 72 else k.credit - new

/-- Visible, unconsumed words that an instruction issued in row fc `fc` sees (R201). -/
def Skip.seen (k : Skip) (fc : Nat) : Nat := k.words.length - (if k.freshAt = fc then k.fresh else 0)

/-- Bytes that an entry stores in a zero-run skip (R194). -/
def Entry.stored (e : Entry) : Nat := if e.zrc then 8 + 8 * ceilDiv e.bytes 8 else 72

/-- Use credit for an entry (R151, R194). -/
def Skip.useCredit (k : Skip) (n stored : Nat) : Skip :=
  if k.cfg.zrc then { k with free := k.free - stored } else { k with credit := k.credit - n }

def Skip.returnCredit (k : Skip) (n stored : Nat) : Skip :=
  if k.cfg.zrc then { k with free := k.free + stored } else { k with credit := k.credit + n }

/-! ## Packing (R188, R193) -/

def sumBytes (es : List Entry) : Nat := (es.map Entry.bytes).foldl (· + ·) 0

/-- Bytes of entries in order, from byte 0. -/
def packData : List Entry → Nat
  | [] => 0
  | e :: es => e.data.toNat % 2 ^ (8 * e.bytes) + 2 ^ (8 * e.bytes) * packData es

/-- A read word made of entries; one of a zero-run skip has no valid-byte tag (R195). -/
def mkWord (zrc : Bool) (es : List Entry) (forced : Bool) : RWord :=
  { data := BitVec.ofNat 512 (packData es), valid := if zrc then 0 else sumBytes es
    eop := !forced && (es.getLast?.map Entry.eop).getD false, forced := forced
    miss := es.any Entry.miss, degraded := es.any Entry.degraded, zrc := es.any Entry.zrc
    mask := (es.head?.map Entry.mask).getD 0
    stored := if zrc then (es.map Entry.stored).foldl (· + ·) 0 else 0 }

/-- Words that the committed prefix of a tail completes, the tail that is left, and how many of it are
committed. `acc` holds the entries of the open word, newest first. -/
def packWords (rw : Nat) (zrc : Bool) : Nat → List Entry → List Entry → List RWord × List Entry × Nat
  | 0, acc, rest => ([], acc.reverse ++ rest, acc.length)
  | _ + 1, acc, [] => ([], acc.reverse, acc.length)
  | n + 1, acc, e :: rest =>
    let acc' := e :: acc
    if zrc ∨ e.eop ∨ rw ≤ sumBytes acc' then
      let r := packWords rw zrc n [] rest
      (mkWord zrc acc'.reverse false :: r.1, r.2.1, r.2.2)
    else packWords rw zrc n acc' rest

/-- Bytes that a word takes of the skip: the valid ones, or on a zero-run skip the stored ones (R195). -/
def RWord.bytes (w : RWord) : Nat := w.valid + w.stored

/-- Credit amount that releasing a word returns (R185, R194). -/
def Skip.wordCredit (k : Skip) (w : RWord) : Nat := if k.cfg.zrc then w.stored else w.valid / k.cfg.width

/-- Send released credit back: it reaches the producer port d + 2 fc after the release (R186). -/
def Skip.sendCredit (k : Skip) (amount producerFc : Nat) : Skip :=
  if amount = 0 then k
  else { k with creditFly := k.creditFly ++ [(amount, producerFc + k.cfg.routeLatency + 2)] }

/-- Count n released words for the rate check (R199). -/
def Skip.countReleased (k : Skip) (n : Nat) : Skip :=
  { k with releasedCount := k.releasedCount + n, poppedNow := k.poppedNow + n, popSeen := k.popSeen || decide (0 < n) }

/-- A word becomes visible at the consumer: a miss that still owes releases takes it (R192), a drop in
progress consumes it (R155), in the next fc if it comes in the fc of the DROP (R201), or it joins the visible words;
an empty middle lets it pass to the head (R183). -/
def Skip.addWord (k : Skip) (fc pfc : Nat) (w : RWord) : Skip :=
  if 0 < k.releaseDue then
    ({ k with releaseDue := k.releaseDue - 1, consumedCount := k.consumedCount + 1
              releasedCount := k.releasedCount + 1 }).sendCredit (k.wordCredit w) pfc
  else if k.dropping && k.words.isEmpty && k.dropAt != fc then
    { k with consumed := k.consumed ++ [w], consumedCount := k.consumedCount + 1, dropping := !w.eop }
  else
    let straight := decide (k.headWords = k.words.length ∧ k.headWords < 2)
    { k with words := k.words ++ [w]
             headWords := if straight then k.headWords + 1 else k.headWords
             fresh := if k.freshAt = fc then k.fresh + 1 else 1, freshAt := fc }

/-- Start fetches from the middle while the head has room (R183). -/
def Skip.refill (k : Skip) (fc : Nat) : Nat → Skip
  | 0 => k
  | n + 1 =>
    if k.fetches.length < 16 ∧ k.headWords < 2 ∧ k.headWords + k.fetches.length < k.words.length + k.popWait.length then
      let first := fc + k.cfg.fetchLatency
      let due := max first ((k.fetches.getLast?.map (· + 1)).getD 0)
      ({ k with fetches := k.fetches ++ [due] }).refill fc n
    else k

/-- Move what the committed prefix of the tail completes to the visible words. -/
def Skip.absorb (k : Skip) (fc pfc : Nat) : Skip :=
  let r := packWords k.cfg.readWidth k.cfg.zrc k.tailCommitted [] k.tail
  ((r.1).foldl (fun (x : Skip) w => x.addWord fc pfc w) { k with tail := r.2.1, tailCommitted := r.2.2 }).refill fc 16

/-- Entries of the tail that commit marks cover. -/
def Skip.markTail (k : Skip) : Skip :=
  { k with tailCommitted := (k.tail.takeWhile (fun e => decide (e.seq ≤ k.covered))).length }

/-- Bytes in the skip: tail, visible and consumed words, for the occupancy counter (Table 17.1). -/
def Skip.storedBytes (k : Skip) : Nat :=
  if k.cfg.zrc then (k.tail.map Entry.stored).foldl (· + ·) 0 + (k.words.map RWord.stored).foldl (· + ·) 0
      + (k.consumed.map RWord.stored).foldl (· + ·) 0
  else sumBytes k.tail + (k.words.map RWord.valid).foldl (· + ·) 0 + (k.consumed.map RWord.valid).foldl (· + ·) 0

/-- Keep the occupancy high-water counter of skip k. -/
def State.noteOccupancy (s : State) (k : Nat) : State :=
  let n := (s.skip k).storedBytes
  let c := s.counter 1 k 0
  if c < n ∧ k < 65536 then s.count 1 k 0 (n - c) else s

/-! ## The producer side -/

/-- Destination skips of an output port with their route latency. -/
def State.portDests (s : State) (t p : Nat) : List (Nat × Nat) :=
  match look (s.tile t).ports p with
  | some x => x.dests
  | none => []

def State.modPort (s : State) (t p : Nat) (f : Port → Port) : State :=
  s.modTile t (fun x => match look x.ports p with
    | some y => { x with ports := put x.ports p (f y) }
    | none => x)

/-- The first `after` scratch stores of the thread that produces skip k are performed (R153). -/
def State.storesBefore (s : State) (k after : Nat) : Bool :=
  match (s.skip k).cfg.producer with
  | none => true
  | some (id, p) =>
    let x := s.tile (s.physical id)
    let th := ((look x.ports p).map Port.thread).getD 0
    x.scratch.all (fun q => q.load || q.thread != th || decide (after < q.order))

/-- The smallest of a list, 0 for an empty one. -/
def listMin : List Nat → Nat
  | [] => 0
  | [x] => x
  | x :: xs => min x (listMin xs)

/-- Credit of an output port as an instruction issued now sees it (R145). -/
def State.portCredit (s : State) (t p : Nat) : Nat :=
  listMin ((s.portDests t p).map (fun d => (s.skip d.1).creditSeen (s.rowFc t)))

/-- Credit that a WAITQ compares: what a deadline fill still needs is not free (R192). -/
def State.portCreditFree (s : State) (t p : Nat) (all : Bool) : Nat :=
  listMin ((s.portDests t p).map (fun d =>
    let k := s.skip d.1
    (if all then k.creditAll else k.creditSeen (s.rowFc t)) - k.fillDue))

/-- Use the credits of n entries on every destination (R151, R152). -/
def State.portUse (s : State) (t p n stored : Nat) : State :=
  (s.portDests t p).foldl (fun s d => s.modSkip d.1 (fun k => k.useCredit n stored)) s

/-- Put an entry on the route to every destination; it leaves `delay` fc from now (R186). -/
def State.sendEntry (s : State) (t p delay : Nat) (e : Entry) : State :=
  (s.portDests t p).foldl (fun s d =>
    let due := s.skipFc d.1 + delay + d.2
    s.modSkip d.1 (fun k => { k with fly := k.fly ++ [{ e with due := due }] })) s

/-- The fill entry that is placed when this many are owed ends its packet: the last of a miss's fill (R192). -/
def Skip.fillEnd (k : Skip) : Bool := k.fillDue == 1 || k.fillEnds.contains k.fillDue

/-- A miss-marked zero fill entry (R192, R194). -/
def fillEntry (c : SkipCfg) (eop : Bool) : Entry :=
  if c.zrc then { data := 0, bytes := 0, eop := eop, miss := true, zrc := true, mask := 0 }
  else { data := 0, bytes := c.width, eop := eop, miss := true }

/-- Place n owed fill entries on a skip as far as credit allows; each is committed as it is placed, and
the last of the fill ends its packet (R192). -/
def State.placeFills (s : State) (k : Nat) : Nat → State
  | 0 => s
  | n + 1 =>
    let x := s.skip k
    if 0 < x.fillDue ∧ 0 < x.creditAll then
      let from_ := (x.cfg.producer.map (fun q => (s.tile (s.physical q.1)).degraded)).getD false
      let e := { fillEntry x.cfg x.fillEnd with degraded := from_ }
      let due := s.skipFc k + x.cfg.routeLatency
      (s.modSkip k (fun x => { x.useCredit 1 e.stored with
        fillDue := x.fillDue - 1, fly := x.fly ++ [{ e with due := due }]
        marks := x.marks ++ [(x.effective, due + 2)] })).placeFills k n
    else s

/-- All fills that credit allows, on every destination of a port: they stand ahead of a later push. -/
def State.portFills (s : State) (t p : Nat) : State :=
  (s.portDests t p).foldl (fun s d => s.placeFills d.1 (s.skip d.1).fillDue) s

/-- A COMMIT takes effect in fc `now`: it notes what was covered before that fc (R201). -/
def Skip.commitNote (k : Skip) (now : Nat) : Skip :=
  if k.commitAt = some now then k else { k with commitAt := some now, commitFrom := k.effective }

/-- A commit of the port's pushes up to `upTo` takes effect: its marks leave (R186, R199). -/
def State.commitOut (s : State) (t p upTo : Nat) : State :=
  (s.portDests t p).foldl (fun s d =>
    let due := s.skipFc d.1 + d.2 + 2
    s.modSkip d.1 (fun k =>
      if upTo ≤ k.effective then k else
      { k.commitNote s.now with effective := upTo, pushedNow := k.pushedNow + (upTo - k.effective), pushSeen := true
                                marks := k.marks ++ [(upTo, due)] })) s

/-- Entries that COMMITs of fc `now` have put in effect (R201). -/
def Skip.committedIn (k : Skip) (now : Nat) : Nat := if k.commitAt = some now then k.effective - k.commitFrom else 0

/-- The tick of a real-time pipeline: a COMMIT that took effect in the same fc has no effect (R201). -/
def Skip.uncommit (k : Skip) (now : Nat) : Skip :=
  if k.committedIn now = 0 then k else
  { k with effective := k.commitFrom, pushedNow := k.pushedNow - k.committedIn now
           marks := k.marks.filter (fun m => decide (m.1 ≤ k.commitFrom)), commitAt := none }

/-- Release n consumed words of skip k: their credit goes back (R154, R185). -/
def State.releaseWords (s : State) (k n : Nat) : State :=
  let pfc := s.producerFc k
  s.modSkip k (fun x =>
    let ws := x.consumed.take n
    let amount := (ws.map x.wordCredit).foldl (· + ·) 0
    (({ x with consumed := x.consumed.drop n }).countReleased ws.length).sendCredit amount pfc)

/-- Remove from one skip every tentative push above `keep`; the credit of those entries returns (R189). -/
def Skip.discardAbove (k : Skip) (keep extra : Nat) : Skip :=
  let gone := (k.fly ++ k.tail).filter (fun e => decide (keep < e.seq))
  let k1 := { k with fly := k.fly.filter (fun e => decide (e.seq ≤ keep))
                     tail := k.tail.filter (fun e => decide (e.seq ≤ keep)) }
  k1.returnCredit (gone.length + extra) ((gone.map Entry.stored).foldl (· + ·) 0 + 72 * extra)

/-- Pushes of block moves on a port that have used credit but not started, above `keep`. -/
def Tile.unstarted (x : Tile) (p keep : Nat) : Nat :=
  ((x.moves.filter (fun m => m.push && m.port == p && m.startedAt.isNone && decide (keep < m.upTo))).map
    BlockMove.count).foldl (· + ·) 0
  + ((x.macs.filter (fun m => m.kind == .oq && m.upTo != 0 && m.startedAt.isNone && decide (keep < m.upTo)
      && bits m.word 34 30 == p)).map
    (fun m => (bits m.word 24 20 + 1) * (if bits m.word 29 26 = 6 then 2 else 1))).foldl (· + ·) 0

/-- Discard the pushes of a port above `keep` in every destination; over Emeel a discard mark follows the
route (R358). -/
def State.discardPort (s : State) (t p keep : Nat) : State :=
  let extra := (s.tile t).unstarted p keep
  let s1 := (s.portDests t p).foldl (fun s d =>
    if (s.skip d.1).cfg.peer.isSome then
      let due := s.skipFc d.1 + d.2
      s.modSkip d.1 (fun k => { (k.returnCredit extra (72 * extra)) with
        discards := k.discards ++ [(keep, due)] })
    else s.modSkip d.1 (fun k => k.discardAbove keep extra)) s
  s1.modPort t p (fun x => { x with pushed := keep, committed := keep, deferred := x.deferred.filter (fun c => decide (c ≤ keep)) })

/-- Return the words consumed above `keep` to the visible state, ahead of later ones, and cancel a drop
begun since (R189). -/
def Skip.rewind (k : Skip) (keep fc : Nat) : Skip :=
  let n := keep - k.releasedCount
  let back := k.consumed.drop n
  let k1 := { k with consumed := k.consumed.take n, words := back ++ k.words, dropping := k.dropping && !k.dropNew
                     consumedCount := k.consumedCount - back.length
                     headWords := min 2 (back.length + k.headWords), fetches := [], popWait := []
                     fresh := 0 }
  k1.refill fc 16

/-! ## The consumer side -/

def State.portSkip (s : State) (t p : Nat) : Nat :=
  match s.portDests t p with
  | d :: _ => d.1
  | [] => 0

/-- The timer has passed its limit: it reached it in an earlier fc, in which no access came (R196, R201). -/
def Skip.timerOver (k : Skip) : Bool := decide (0 < k.activeTimeout) && decide (k.activeTimeout * 64 < k.timer)

/-- An access restarts the stranded-tail timer with the limit now in TIMEOUT (R196, Table 7.11), unless the timer has
already passed it (R201). -/
def Skip.touch (k : Skip) : Skip := if k.timerOver then k else { k with timer := 0, activeTimeout := k.timeout.toNat }

/-- Consume the first n visible words: they wait for release (R146, R187). -/
def Skip.consume (k : Skip) (n fc : Nat) : Skip :=
  ({ k with words := k.words.drop n, consumed := k.consumed ++ k.words.take n
            consumedCount := k.consumedCount + (k.words.take n).length
            headWords := k.headWords - n }).touch.refill fc 16

/-- Visible words of the current packet, and whether its last entry is among them. -/
def packetWords : List RWord → Nat × Bool
  | [] => (0, false)
  | w :: ws => if w.eop then (1, true) else let r := packetWords ws; (r.1 + 1, r.2)

/-- A drop in progress consumes the visible words of its packet (R155, R201). -/
def Skip.dropOn (k : Skip) (fc : Nat) : Skip :=
  if k.dropping && !k.words.isEmpty then
    let r := packetWords k.words
    { k.consume r.1 fc with dropping := !r.2 }
  else k

/-- Visible words that an instruction issued in row fc `fc` counts: those that a drop in progress will discard are not
among them (R155, R156). -/
def Skip.countable (k : Skip) (fc : Nat) (all : Bool) : Nat :=
  (if all then k.words.length else k.seen fc) - (if k.dropping then (packetWords k.words).1 else 0)

/-- The stage of a tile is treated as having missed its deadline for the current frame (R29). -/
def State.mustMiss (s : State) (t : Nat) : State := s.modTile t (fun x => { x with mustMiss := true })

/-- Tiles of the lockstep group of t, or t alone (R53). -/
def State.groupOf (s : State) (t : Nat) : List Nat :=
  let g := (s.tile t).group
  if g = 0 then [t] else
    ((List.range 32).map (fun c => s.physical ((s.tile t).logical / 32 * 32 + c))).filter (fun u =>
      (s.tile u).group == g && (s.tile u).image == (s.tile t).image && (s.tile u).enabled)

/-- Entries that the tile pushes from now carry the miss mark, until its next mark (R191). -/
def State.markMiss (s : State) (t : Nat) : State :=
  (s.groupOf t).foldl (fun s u =>
    let s1 := s.modTile u (fun x => { x with missMark := true })
    ((s.tile u).ports).foldl (fun s p =>
      if p.2.output then p.2.dests.foldl (fun s d =>
        let fc := s.skipFc d.1
        s.modSkip d.1 (fun k => { k with fly := k.fly.map (fun e =>
          if fc + d.2 < e.due ∧ e.seq ≠ 0 then { e with miss := true } else e) })) s
      else s) s1) s

/-- A thread of the tile has popped an entry to which a degraded tile contributed: what the tile pushes until its next mark
says so too, for every member of its lockstep group (R23; log 95). -/
def State.markDegraded (s : State) (t : Nat) : State :=
  (s.groupOf t).foldl (fun s u => s.modTile u (fun x => { x with degradedMark := true })) s

/-- Marks of popped words that go over to what the tile pushes (R23, R191). -/
def State.markFrom (s : State) (t : Nat) (ws : List RWord) : State :=
  let s1 := if ws.any RWord.miss then s.markMiss t else s
  if ws.any RWord.degraded then s1.markDegraded t else s1

/-- A slot mark or tick ends the marking: entries of the tile's units that leave later do not carry it (R191). -/
def State.unmarkMiss (s : State) (t : Nat) : State :=
  if !(s.tile t).missMark then s
  else ((s.tile t).ports).foldl (fun s p =>
    if p.2.output then p.2.dests.foldl (fun s d =>
      let fc := s.skipFc d.1
      s.modSkip d.1 (fun k => { k with fly := k.fly.map (fun e =>
        if fc + d.2 < e.due ∧ e.seq ≠ 0 then { e with miss := false } else e) })) s
    else s) s

/-- Claim and pipeline of a tile's image, for events. -/
def State.tileEv (s : State) (t : Nat) : EvArgs :=
  { claim := (s.tile t).claim, pipe := (s.image (s.tile t).image).bound, locKind := 1, loc := (s.tile t).logical }

def State.skipEv (s : State) (k : Nat) : EvArgs :=
  { claim := (s.skip k).cfg.claim, pipe := (s.image (s.skip k).cfg.image).bound, locKind := 2, loc := k }

/-! ## Reads of unwritten words (R303, R379) -/

/-- The middle engine that serves a sump skip has been stopped by the canary (R316, Table 12.4): its consumer tile
lies in row r and in one half of the columns. -/
def State.engineStopped (s : State) (k : Nat) : Bool :=
  let p := s.skipPos k
  (s.skip k).cfg.sump && s.sump.enginesStopped.contains (40 + 2 * (p / 32) + (if 16 ≤ p % 32 then 1 else 0))

/-- n reads of marked words, the first at `addr`: counted, and raised at most once per millisecond (R303). -/
def State.uninitRead (s : State) (claim addr n : Nat) : State :=
  if n = 0 then s else
  let x := s.claim claim
  let first := if x.uninitReads = 0 then addr else x.uninitAddr
  let total := x.uninitReads + n
  let s1 := s.count 5 claim 0 n
  let due := match x.uninitAt with
    | some a => decide (a + msFc ≤ s.now)
    | none => true
  if due then
    ((s1.raise Ev.uninitRead { claim := claim, addr := first, count := total }).modClaim claim
      (fun x => { x with uninit := true, uninitAt := some s.now, uninitReads := 0 })).hit (sumpClaim claim) 0
  else (s1.modClaim claim (fun x => { x with uninit := true, uninitAddr := first, uninitReads := total })).hit (sumpClaim claim) 0

/-- A tile's units or threads read n bytes at offset o of tile t's window. On a spare in its grace time a
marked word sets the miss mark instead (R379). -/
def State.noteTileRead (s : State) (t o n : Nat) : State :=
  match s.unwrittenWords (tileAddr t o) n with
  | [] => s
  | w :: ws =>
    if 0 < (s.tile t).graceTicks then s.markMiss t
    else s.uninitRead (s.tile t).claim (8 * w) (ws.length + 1)

/-! ## Waits (R114, R156) -/

/-- Ready in the fc after now, and no earlier than two fc after the wait was issued. -/
def State.wakeThread (s : State) (t th : Nat) : State :=
  let fc := s.rowFc t
  s.modThread t th (fun x => { x with wait := .none, readyAt := max (fc + 1) (x.readyAt + 1) })

/-- The condition of a WAITQ, with everything that has arrived counted. -/
def State.waitqHolds (s : State) (t p n : Nat) (all : Bool) : Bool :=
  match look (s.tile t).ports p with
  | some x =>
    if x.output then decide (n ≤ s.portCreditFree t p all)
    else
      decide (n ≤ (s.skip (s.portSkip t p)).countable (s.rowFc t) all)
  | none => false

/-- Wake the threads of a tile whose WAITQ condition now holds. -/
def State.wakeQueues (s : State) (t : Nat) : State :=
  upTo 4 (fun s th =>
    match (s.thread t th).wait with
    | .queue p n => if s.waitqHolds t p n true then s.wakeThread t th else s
    | _ => s) s

end Sys2Proof.Machine
end

