-- ==== Sys2Proof/Machine/Seq.lean ====
section
/-! DEFINITION. The tile sequencer: fetch, selection of the issuing thread, issue, illegal words, loops,
checkpoints and register writes (chapters 2, 4 and 15). -/

namespace Sys2Proof.Machine

/-- Word at an address of the active program bank (R94, R97). -/
def State.word (s : State) (t pc : Nat) : Nat :=
  let bank := if (s.tile t).activeBank then 0xF4000 else 0xF0000
  leNat (s.readBytes (tileAddr t (bank + 8 * pc)) 8)

def State.pcWord (s : State) (t th : Nat) : Nat := s.word t (s.thread t th).regs.pc

/-- The word is the instruction of opcode op; NOP also stands for a word with no listed opcode and for a
fetch beyond word 2,047 (R97, R102). -/
def opMatches (op pc w : Nat) : Bool :=
  if op = 0 then decide (2048 ≤ pc) || wOp w == 0 || !opKnown (wOp w)
  else decide (pc < 2048) && wOp w == op

def Tile.streams (x : Tile) : Nat := (x.macs.filter (fun m => m.kind == .mms || m.kind == .wcs)).length

/-- The unit that a word needs can accept it (R114, R176). -/
def Tile.unitFree (x : Tile) (th w : Nat) : Bool :=
  let op := wOp w
  if op = 0x28 ∨ op = 0x29 then decide (x.streams < 2)
  else if op = 0x03 then !(x.fns.any (fun f => f.unit == fnUnit w))
  else if (op = 0x18 ∨ op = 0x1A) ∧ qTk w = 2 then decide (x.moves.length < 4)
  else if op = 0x20 ∨ op = 0x22 then
    let l := x.scratch.filter (fun q => q.load)
    decide (l.length < 32) && decide ((l.filter (fun q => q.thread == th)).length < 8)
  else if op = 0x21 ∨ op = 0x23 then decide ((x.scratch.filter (fun q => !q.load)).length < 32)
  else true

/-- Registers that the thread's next word reads or writes: a POP or PEEK on a zero-run skip may write ZM (R114, R147). -/
def State.nextRegs (s : State) (t w : Nat) : List Nat :=
  if (wOp w = 0x18 ∨ wOp w = 0x19) ∧ qTk w = 0 ∧ (s.skip (s.portSkip t (qPort w))).cfg.zrc then 48 :: wordRegs w else wordRegs w

/-- No write of one of the registers is outstanding (R114). -/
def Thread.regsFree (x : Thread) (fc : Nat) (rs : List Nat) : Bool :=
  rs.all (fun r => !x.await.contains r && decide (lookD x.busy r 0 ≤ fc))

/-- The registers of a thread's next word and the unit that it needs are free (R114, R176). -/
def State.wordFree (s : State) (t th : Nat) : Bool :=
  let w := s.pcWord t th
  (s.thread t th).regsFree (s.rowFc t) (s.nextRegs t w) && (s.tile t).unitFree th w

/-- The thread must wait: in a wait that it began, or for a register or a unit of its next word (R53, R114). -/
def State.mustWait (s : State) (t th : Nat) : Bool :=
  let x := s.thread t th
  x.mode == .running && (x.wait != .none
    || (decide (x.readyAt ≤ s.rowFc t) && legalWord (s.tile t) (kindOf t) th (s.pcWord t th) && !s.wordFree t th))

/-- A thread of a member of the lockstep group must wait or is debug-halted: the group holds (R53, R417). -/
def State.groupHeld (s : State) (t : Nat) : Bool :=
  (s.tile t).group != 0 && (s.groupOf t).any (fun u =>
    ((s.tile u).threads).any (fun p => s.mustWait u p.1 || p.2.mode == .debug))

/-- A comparator names the next word of the thread (R420). -/
def State.breakAt (s : State) (t th : Nat) : Bool :=
  s.dbg.pcBrk.any (fun p => p.2.1 && p.2.2.1 == th && s.physical p.2.2.2.1 == t
    && p.2.2.2.2 == (s.thread t th).regs.pc) && !(s.thread t th).passBreak

/-- The thread is ready to issue its next word in this fc (R114, R417). -/
def State.threadReady (s : State) (t th : Nat) : Bool :=
  let x := s.thread t th
  let fc := s.rowFc t
  let w := s.pcWord t th
  x.mode == .running && x.wait == .none && decide (x.readyAt ≤ fc)
    && (x.haltAsked.isNone || x.lock.isSome) && !s.breakAt t th && !s.groupHeld t
    && !((s.tile t).restartAt.isSome && (s.tile t).restart.contains th)
    && !(s.tile t).spareLoading && !(s.tile t).spareLoaded
    && (!legalWord (s.tile t) (kindOf t) th w || s.wordFree t th)

/-- Round-robin selection: no thread after the last issuer and before th is ready (R48). -/
def State.selected (s : State) (t th : Nat) : Bool :=
  let last := (s.tile t).lastIssued
  let d := (th + 3 - last) % 4
  s.threadReady t th && (List.range d).all (fun i => !s.threadReady t ((last + 1 + i) % 4))

/-- The tile issues the instruction of opcode op from thread th in this fc. -/
def State.canIssue (s : State) (t th op : Nat) : Bool :=
  decide (t < 768) && decide (th < 4) && (s.tile t).enabled && !(s.row (t / 32)).powering
    && decide ((s.tile t).issueFc ≤ s.rowFc t) && s.selected t th
    && opMatches op (s.thread t th).regs.pc (s.pcWord t th)

/-- Loop frames and program counter after the word at pc (R110, R165). -/
def advanceLoops : List LoopFrame → Nat → List LoopFrame × Nat
  | [], pc => ([], pc + 1)
  | f :: r, pc =>
    if pc ≠ f.last then (f :: r, pc + 1)
    else if f.trip = 0 then ({ f with pass := (f.pass + 1) % 2 ^ 24 } :: r, f.first)
    else if f.pass + 1 < f.trip then ({ f with pass := f.pass + 1 } :: r, f.first)
    else advanceLoops r pc

def Regs.advance (r : Regs) : Regs :=
  let n := advanceLoops r.loops r.pc
  { r with loops := n.1, pc := n.2 }

/-- Issue slot used: counter, round-robin pointer and program counter move on (R48, R97). -/
def State.issued (s : State) (t th : Nat) : State :=
  let fc := s.rowFc t
  let s1 := (s.countTile t 0 1).modTile t (fun x => { x with lastIssued := th, issueFc := fc + 1 })
  s1.modThread t th (fun x => { x with
    regs := x.regs.advance, issued := true, readyAt := fc + 1, passBreak := false, stepping := false
    haltAsked := if x.stepping then some (fc + 4096) else x.haltAsked })

/-- An illegal instruction (R50). -/
def State.illegalWord (s : State) (t th : Nat) : State :=
  let s1 := (s.raise Ev.illegalInstruction (s.tileEv t)).modThread t th (fun x => { x with mode := .illegal, wait := .none })
  ((s1.modTile t (fun x => { x with illegal := true })).hit (tileStatus t) 0).mustMiss t

/-- Issue the next word of a thread: its effect if it is legal for the tile and the thread. -/
def State.issueWord (s : State) (t th : Nat) (body : Nat → State → State) : State :=
  let w := s.pcWord t th
  let s1 := s.issued t th
  if legalWord (s.tile t) (kindOf t) th w && decide ((s.thread t th).regs.pc < 2048) then body w s1
  else s1.illegalWord t th

/-- An instruction row: it issues when the sequencer selects it. -/
def State.instr (s : State) (t th op : Nat) (body : Nat → State → State) : Result :=
  if s.canIssue t th op then .next (s.issueWord t th body) else .fault .cannotIssue

/-! ## Registers -/

def State.g (s : State) (t th r : Nat) : Word := lookD (s.thread t th).regs.g r 0
def State.v (s : State) (t th r : Nat) : Line := lookD (s.thread t th).regs.v r 0

/-- Value of a register, numbered as `wordRegs` numbers them. -/
def Regs.value (r : Regs) (i : Nat) : Line :=
  if i < 32 then (lookD r.g i 0).setWidth 512 else if i < 48 then lookD r.v (i - 32) 0 else r.zm.setWidth 512

/-- Keep what a register shows until an outstanding write of it is done (R137). -/
def Thread.keep (x : Thread) (i : Nat) : Thread := { x with before := put x.before i (x.regs.value i) }

/-- What a register shows in row fc `fc`: its value before an outstanding write (R137). -/
def Thread.shown (x : Thread) (fc i : Nat) : Line :=
  if x.await.contains i || decide (fc < lookD x.busy i 0) then lookD x.before i 0 else x.regs.value i

/-- Write g[r]; later words wait for it until `lat` fc after issue, and observation shows it from then on (R137). -/
def State.setG (s : State) (t th r lat : Nat) (x : Word) : State :=
  let fc := s.rowFc t
  s.modThread t th (fun y => { y.keep r with regs := { y.regs with g := put y.regs.g r x }, busy := put y.busy r (fc + lat) })
def State.setV (s : State) (t th r lat : Nat) (x : Line) : State :=
  let fc := s.rowFc t
  s.modThread t th (fun y => { y.keep (32 + r) with regs := { y.regs with v := put y.regs.v r x }, busy := put y.busy (32 + r) (fc + lat) })
def State.setZM (s : State) (t th lat : Nat) (x : DWord) : State :=
  let fc := s.rowFc t
  s.modThread t th (fun y => { y.keep 48 with regs := { y.regs with zm := x }, busy := put y.busy 48 (fc + lat) })

/-- A register whose value has no fixed arrival: later words wait for it (R114, R159, R183). -/
def State.awaitReg (s : State) (t th r : Nat) : State :=
  s.modThread t th (fun y => { y with await := r :: y.await })
def State.arriveReg (s : State) (t th r : Nat) : State :=
  s.modThread t th (fun y => { y with await := y.await.erase r })

/-- Take a checkpoint of a thread (R372). A replay that waited for it ends for this thread (R370), and its next slot
begins (R375). -/
def State.takeCheckpoint (s : State) (t th : Nat) : State :=
  (s.modTile t (fun x => { x with
    restart := if x.restartAt.isNone then x.restart.filter (· != th) else x.restart, slots := del x.slots th })).modThread
    t th (fun x => { x with checkpoint := x.regs, issued := false, midCommit := false })

/-- Begin a wait (R114). -/
def State.beginWait (s : State) (t th : Nat) (w : Wait) : State := s.modThread t th (fun x => { x with wait := w })

/-- The pipeline is real-time (Table 9.2). -/
def Image.realtime (x : Image) : Bool := bitAt x.flags 0
def State.tileRealtime (s : State) (t : Nat) : Bool := (s.image (s.tile t).image).realtime

/-- Positions that serve the tiles of an image. -/
def State.imageTiles (s : State) (h : Nat) : List Nat := (s.image h).tiles.map (fun r => s.physical r.tile)

/-- Positions of the tiles of one stage of an image. -/
def State.stageTiles (s : State) (h g : Nat) : List Nat := (s.imageTiles h).filter (fun t => (s.tile t).stage == g)

/-- The pipeline a tile works for. -/
def State.tilePipe (s : State) (t : Nat) : Option Nat := (s.image (s.tile t).image).bound

/-- Budget record of a stage of an image. -/
def Image.budget (x : Image) (stage : Nat) : Option BudgetRec := x.budgets.find? (fun b => b.stage == stage)
def State.tileBudget (s : State) (t : Nat) : Option BudgetRec := (s.image (s.tile t).image).budget (s.tile t).stage

/-! ## Locks of a thread (R161 to R163) -/

/-- Free a line that a thread has locked. -/
def State.freeLine (s : State) (t th st line : Nat) : State :=
  s.modTile (s.physical st) (fun x => { x with locks := x.locks.filter (fun l => !(l.1 == line && l.2.1 == t && l.2.2 == th)) })

/-- Free the line that a thread holds. -/
def State.freeLock (s : State) (t th : Nat) : State :=
  match (s.thread t th).lock with
  | some (st, line) => (s.freeLine t th st line).modThread t th (fun x => { x with lock := none })
  | none => s

/-- Unspecified values in n bytes (R163, R168): each byte is free. -/
def State.scramble (s : State) (a n : Nat) : State :=
  ((s.writeBytes a ((List.range n).map (fun i => BitVec.ofNat 8 (Config.freeBits (Nat.pair s.free i)))))).draw

/-- An abort, reset or forced halt frees the line of a lock holder, and the line holds an unspecified value (R163). -/
def State.breakLock (s : State) (t th : Nat) : State :=
  match (s.thread t th).lock with
  | some (st, line) =>
    let s0 := (s.freeLock t th).scramble (tileAddr (s.physical st) line) 64
    let s1 := (s0.modTile t (fun x => { x with lockBroken := true })).hit (tileStatus t) 2
    s1.raise Ev.lockBroken { s1.tileEv t with addr := st * 2 ^ 32 + line, data := th }
  | none => s

end Sys2Proof.Machine
end

