-- ==== Sys2Proof/Machine/Units.lean ====
section
/-! DEFINITION. The units of a tile: which lines and banks an instruction in flight reads and writes, the
interlock, and when held units start (R115, R148, R149). -/

namespace Sys2Proof.Machine

/-- Lines of a K-element row of a format (R117). -/
def lrow (k code : Nat) : Nat := ceilDiv (k * codeBits code) 512

/-- Byte ranges (start, end) of the tile memory that an instruction reads and writes, and the
accumulator bank it writes or reads. -/
structure Touch where
  reads : List (Nat × Nat) := []
  writes : List (Nat × Nat) := []
  bankW : Option Nat := none
  bankR : Option Nat := none
  /-- row-scale registers read and written (R83) -/
  rsR : Option (Nat × Nat) := none
  rsW : Option (Nat × Nat) := none
deriving DecidableEq, Repr

/-- Reduction length of an MMS, WCS or RQ word. -/
def macK (w : Nat) : Nat :=
  if wOp w = 0x28 then 32 * (bits w 46 39 + 1)
  else if wOp w = 0x29 then (bits w 51 49 + 1) * (bits w 48 46 + 1) * (32 * (bits w 36 32 + 1))
  else 32 * (bits w 40 32 + 1)

/-- Result rows of an MMS, WCS, RQ or OQ word. -/
def macRows (w : Nat) : Nat :=
  if wOp w = 0x28 then bits w 51 47 + 1
  else if wOp w = 0x29 then bits w 41 37 + 1
  else if wOp w = 0x2B then bits w 23 16 + 1
  else bits w 24 20 + 1

def macTouch (m : MacOp) : Touch :=
  let w := m.word
  match m.kind with
  | .mms =>
    let a := bits w 38 30
    let at_ := (macTypes w).2
    let el := macRows w * lrow (macK w) at_
    let sc := if isMx at_ then ceilDiv (macRows w * (macK w / 32)) 64 else 0
    { reads := [(64 * a, 64 * (a + el + sc))], bankW := some (mBank w)
      rsR := if m.desc.amode = 1 then some (m.desc.abase % 256, m.desc.abase % 256 + macRows w) else none }
  | .wcs =>
    let a := bits w 31 23
    let kh := bits w 51 49 + 1
    let kw := bits w 48 46 + 1
    let dl := bits w 43 42 + 1
    let px := (macRows w - 1) * (bits w 45 44 + 1) + (kw - 1) * dl + 1
    let row := px * (bits w 36 32 + 1) * 4 * codeBits (macTypes w).2
    { reads := [(64 * a, 64 * a + 64 * ((kh - 1) * dl * m.desc.pitch) + row)], bankW := some (mBank w) }
  | .rq =>
    let a := bits w 49 41
    { reads := [(64 * a, 64 * (a + macRows w * lrow (macK w) (bits w 31 28)))]
      writes := [(64 * a, 64 * (a + macRows w * lrow (macK w) (bits w 27 24)))]
      rsW := some (bits w 57 50, bits w 57 50 + macRows w) }
  | .oq =>
    let d := bits w 44 36
    let lo := if oDtype w = 6 then 2 else 1
    { writes := if oToport w then [] else [(64 * d, 64 * (d + macRows w * lo + (if isMx (oDtype w) then 1 else 0)))]
      bankR := some (mBank w) }

def moveTouch (m : BlockMove) : Touch :=
  if m.push then { reads := [(m.addr, m.addr + 64 * m.count)] } else { writes := [(m.addr, m.addr + 64 * m.count)] }

/-- Field of a copied call descriptor (Table 5.3). -/
def fnField (d o n : Nat) : Nat := (d >>> (8 * o)) % 2 ^ (8 * n)

/-- Bytes that a call reads, and bytes that it writes, as (start, length) (Table 5.4). -/
def fnRanges (unit d : Nat) : List (Nat × Nat) × List (Nat × Nat) :=
  let src := fnField d 0 4
  let dst := fnField d 4 4
  let n := fnField d 8 2
  let k := fnField d 10 2
  let sb := codeBits (fnField d 12 1)
  let db := fnField d 13 1 |> codeBits
  let rows := fnField d 14 2
  let p0 := fnField d 16 4
  let p1 := fnField d 20 4
  let p2 := fnField d 24 4
  let bytes (n b : Nat) : Nat := ceilDiv (n * b) 8
  match unit with
  | 0 => ([(src, bytes (rows * n) sb)] ++ (if p0 = 0xFFFFFFFF then [] else [(p0, ceilDiv n 8)]), [(dst, bytes (rows * n) db)])
  | 7 => ([(src, bytes (rows * n) sb)], [(dst, rows * k * 8)])
  | 8 => ([(src, bytes (rows * n * p0) sb)], [(dst, rows * n * k * 2)])
  | 9 => ([(src, rows * n * 16), (p0, n * 16)], [(dst, rows * n * 16)])
  | 10 => ([(src, rows * n * 20)], [(dst, rows * k * 8)])
  | 11 => ([(src, rows * n * 16), (p0, bytes (p1 % 65536 * (p1 / 65536) * (p2 / 65536)) sb)],
      [(dst, bytes (rows * n * (p2 % 256) * (p2 / 256 % 256) * (p2 / 65536)) db)])
  | _ => ([(src, bytes (rows * n) sb)], [(dst, bytes (rows * n) db)])

/-- The 64-byte lines that a byte range lies in (R115). -/
def wholeLines (r : Nat × Nat) : Nat × Nat := if r.2 ≤ r.1 then r else (r.1 / 64 * 64, ceilDiv r.2 64 * 64)

def fnTouch (f : FnCall) : Touch :=
  let r := fnRanges f.unit f.desc
  { reads := r.1.map (fun (p : Nat × Nat) => wholeLines (p.1, p.1 + p.2))
    writes := (r.2 ++ [(f.descAddr + 28, 4)]).map (fun (p : Nat × Nat) => wholeLines (p.1, p.1 + p.2)) }

def meets (a b : Nat × Nat) : Bool := decide (a.1 < b.2) && decide (b.1 < a.2)
def anyMeets (a b : List (Nat × Nat)) : Bool := a.any (fun x => b.any (fun y => meets x y))
def optMeets : Option (Nat × Nat) → Option (Nat × Nat) → Bool
  | some a, some b => meets a b
  | _, _ => false
def optSame : Option Nat → Option Nat → Bool
  | some a, some b => a == b
  | _, _ => false

/-! ## What a slot reads and writes (R375) -/

/-- What of a range of bytes lies outside another. -/
def outsideOf (a b : Nat × Nat) : List (Nat × Nat) := [(a.1, min a.2 b.1), (max a.1 b.2, a.2)].filter (fun p => decide (p.1 < p.2))

/-- An instruction of the slot reads and then writes ranges of tile memory. -/
def Slot.access (u : Slot) (k : List (Nat × Nat) × List (Nat × Nat)) : Slot :=
  let reads := u.reads ++ u.writes.foldl (fun l x => l.flatMap (fun r => outsideOf r x)) k.1
  { u with reads := reads, writes := u.writes ++ k.2, broken := u.broken || anyMeets reads k.2 }

/-- The rows of an accumulator bank that a word uses, above every window offset. -/
def bankBytes (w : Nat) : Nat × Nat := (2 ^ 20 + 0x1000 * mBank w, 2 ^ 20 + 0x1000 * mBank w + 128 * macRows w)

/-- Bytes that an M-tile instruction reads and writes, its accumulator bank among them. -/
def macAccess (m : MacOp) : List (Nat × Nat) × List (Nat × Nat) :=
  let k := macTouch m
  match m.kind with
  | .oq => (bankBytes m.word :: k.reads, k.writes)
  | .rq => (k.reads, k.writes)
  | .mms => (k.reads ++ (if mAcc m.word then [bankBytes m.word] else []), [bankBytes m.word])
  | .wcs => (k.reads ++ (if mAcc m.word then [bankBytes m.word] else []), [bankBytes m.word])

def moveAccess (m : BlockMove) : List (Nat × Nat) × List (Nat × Nat) := ((moveTouch m).reads, (moveTouch m).writes)

def fnAccess (f : FnCall) : List (Nat × Nat) × List (Nat × Nat) :=
  let r := fnRanges f.unit f.desc
  let span (l : List (Nat × Nat)) := l.map (fun (p : Nat × Nat) => (p.1, p.1 + p.2))
  (span ((f.descAddr, 28) :: r.1), span ((f.descAddr + 28, 4) :: r.2))

/-- Note in a thread's slot what an instruction reads and writes. -/
def Tile.noteSlot (x : Tile) (th : Nat) (k : List (Nat × Nat) × List (Nat × Nat)) : Tab Slot :=
  put x.slots th ((lookD x.slots th {}).access k)

/-- A later instruction must wait for an earlier one still in flight (R83, R115). -/
def interlocked (later earlier : Touch) : Bool :=
  anyMeets later.reads earlier.writes || anyMeets later.writes earlier.reads
    || optSame later.bankW earlier.bankW || optSame later.bankR earlier.bankW || optSame later.bankW earlier.bankR
    || optSame later.bankR earlier.bankR
    || optMeets later.rsW earlier.rsR || optMeets later.rsR earlier.rsW

/-- Everything in flight on a tile with its issue time. -/
def Tile.inFlight (x : Tile) : List (Nat × Touch) :=
  x.macs.map (fun m => (m.issuedAt, macTouch m)) ++ x.moves.map (fun m => (m.issuedAt, moveTouch m))
    ++ x.fns.map (fun f => (f.issuedAt, fnTouch f))

/-- An instruction issued at fc `at_` is held by an earlier one (R115, R149). -/
def Tile.held (x : Tile) (at_ : Nat) (k : Touch) : Bool :=
  x.inFlight.any (fun p => decide (p.1 < at_) && interlocked k p.2)

/-! ## Values -/

/-- Row-scale register of an M-tile (R83). -/
def Tile.rs (x : Tile) (r : Nat) : Num := ofBf16 (lookD x.rowScale r 0).toNat

/-- Window offset of scale register i in the active file (Table 2.4, R56). -/
def Tile.scaleOffset (x : Tile) (i : Nat) : Nat := 0x40000 + (if x.activeBank then 0x1000 else 0) + 2 * i
def State.scaleReg (s : State) (t i : Nat) : Num :=
  ofBf16 (leNat (s.readBytes (tileAddr t ((s.tile t).scaleOffset i)) 2))

/-- Window offset of entry (r, n) of an accumulator bank, row by row in FP32 (R38). -/
def bankOffset (b r n : Nat) : Nat := 0x50000 + 0x1000 * b + 128 * r + 4 * n
def State.bankEntry (s : State) (t b r n : Nat) : Num :=
  ofFp32 (leNat (s.readBytes (tileAddr t (bankOffset b r n)) 4))

/-! ## Output quantise rows (R129 to R131) -/

/-- Elements of row r of an OQ with their saturations. -/
def State.oqRow (s : State) (t : Nat) (m : MacOp) (r : Nat) : List (Nat × Nat) :=
  let w := m.word
  let ys := (List.range 32).map (fun n =>
    (s.bankEntry t (mBank w) r n).mul (s.scaleReg t (bits w 55 45 + n)))
  if isMx (oDtype w) then mxElems (oDtype w) (bitAt w 25) ys
  else ys.map (convertTo (oDtype w) (bitAt w 25))

/-- Scale byte of row r for an MX destination. -/
def State.oqMxByte (s : State) (t : Nat) (m : MacOp) (r : Nat) : Nat :=
  let w := m.word
  mxByte (oDtype w) ((List.range 32).map (fun n =>
    (s.bankEntry t (mBank w) r n).mul (s.scaleReg t (bits w 55 45 + n))))

def satSum (es : List (Nat × Nat)) : Nat := (es.map (·.2)).foldl (· + ·) 0

/-- Number of fc of an OQ row (R132). -/
def oqRowFc (w : Nat) : Nat := if oDtype w = 6 then 2 else 1
/-- Pushes of an OQ with TOPORT = 1 (R131). -/
def oqPushes (w : Nat) : Nat := macRows w * oqRowFc w
/-- Bytes of each of its pushes. -/
def oqWidth (w : Nat) : Nat := if oDtype w = 6 then 64 else codeBits (oDtype w) * 4

/-- Entries that a producer thread pushes carry the miss mark of its tile (R191); those of a thread whose results are
unspecified carry a free value (R190, R375). `after` counts the scratch stores that the push releases (R153). -/
def State.pushEntry (s : State) (t p delay seq after : Nat) (e : Entry) : State :=
  let x := s.tile t
  let unsure := (x.thread ((look x.ports p).map Port.thread |>.getD 0)).unsure
  let s1 := if unsure then s.draw else s
  s1.sendEntry t p delay { e with
    miss := x.missMark, degraded := x.degraded || x.degradedMark, seq := seq, after := after
    data := if unsure then BitVec.ofNat 512 (s.drawn % 2 ^ (8 * e.bytes)) else e.data }

/-- Send the rows of an OQ to its port: row r leaves in fc base + 2 + r (R132). EOP is 0: neither the word nor R131 names
an end of packet (DESIGN CHOICE, log 96). -/
def State.oqSend (s : State) (t : Nat) (m : MacOp) (base : Nat) : State :=
  let w := m.word
  let fc := s.rowFc t
  let n := oqPushes w
  let rows := (List.range (macRows w)).map (fun r => packElems (codeBits (oDtype w)) ((s.oqRow t m r).map (·.1)))
  upTo n (fun s i =>
    let row := rows.getD (i / oqRowFc w) 0
    let part := if oqRowFc w = 2 then (row >>> (512 * (i % 2))) % 2 ^ 512 else row
    s.pushEntry t (oPort w) (base + 2 + i - fc) (m.upTo - n + 1 + i) m.after
      { data := BitVec.ofNat 512 part, bytes := oqWidth w }) s

/-- Send the entries of a block PUSH: entry i leaves in fc base + 1 + i (R148, R152). -/
def State.moveSend (s : State) (t : Nat) (m : BlockMove) (base : Nat) : State :=
  let fc := s.rowFc t
  let off := (blockMemory (kindOf t)).2 + m.addr
  upTo m.count (fun s i =>
    (s.noteTileRead t (off + 64 * i) 64).pushEntry t m.port (base + 1 + i - fc) (m.upTo - m.count + 1 + i) m.after
      { data := bytesLine (s.readBytes (tileAddr t (off + 64 * i)) 64), bytes := 64
        eop := m.eop && decide (i + 1 = m.count) }) s

/-- A block move starts after row fc `base`: the entries that have reached the head move one in each fc (R148, R183). -/
def BlockMove.start (m : BlockMove) (base : Nat) : BlockMove :=
  { m with startedAt := some base, lastAt := base + (m.taken.length - m.missing) }

/-- The first stream in issue order that has not started. -/
def Tile.nextStream (x : Tile) : Option MacOp :=
  x.macs.find? (fun m => (m.kind == .mms || m.kind == .wcs) && m.startedAt.isNone)

/-- A move or an RQ of the tile completes in this fc: a stream that waits for it starts in the next one at the earliest
(R122). -/
def State.holdStreams (s : State) (t issued : Nat) (k : Touch) : State :=
  let fc := s.rowFc t
  s.modTile t (fun x => { x with macs := x.macs.map (fun n =>
    if (n.kind == .mms || n.kind == .wcs) && n.startedAt.isNone && decide (issued < n.issuedAt) && interlocked (macTouch n) k
    then { n with notBefore := fc + 1 } else n) })

/-- Start every held unit other than a MAC stream whose interlock has ended. `base` is the row fc after
which it starts. -/
def State.startUnits (s : State) (t base : Nat) : State :=
  let x := s.tile t
  let ready (at_ : Nat) (k : Touch) : Bool := !x.held at_ k
  let go := x.macs.filter (fun m => (m.kind == .rq || m.kind == .oq) && m.startedAt.isNone && ready m.issuedAt (macTouch m))
  let mv := x.moves.filter (fun m => m.startedAt.isNone && ready m.issuedAt (moveTouch m))
  let fn := x.fns.filter (fun f => f.startedAt.isNone && ready f.issuedAt (fnTouch f))
  let s1 := s.modTile t (fun x => { x with
    macs := x.macs.map (fun m => if go.contains m then { m with startedAt := some base } else m)
    moves := x.moves.map (fun m => if mv.contains m then m.start base else m)
    fns := x.fns.map (fun f => if fn.contains f then { f with startedAt := some base } else f) })
  let s2 := go.foldl (fun s m => if m.kind == .oq && m.upTo != 0 then s.oqSend t m base else s) s1
  mv.foldl (fun s m => if m.push then s.moveSend t m base else s) s2

end Sys2Proof.Machine
end

