-- ==== Sys2Proof/Machine/Queue.lean ====
section
/-! DEFINITION. Queue instructions, and the happenings along a skip's route (chapters 6 and 7). -/

namespace Sys2Proof.Machine

/-- An access whose TK or width does not match the skip: nothing moves (R144). -/
def State.widthMismatch (s : State) (t p : Nat) : State :=
  let s1 := (s.portDests t p).foldl (fun s d => (s.modSkip d.1 (fun k => { k with widthMismatch := true })).hit (skipStatus d.1) 1) s
  (s1.raise Ev.queueWidthMismatch { s1.tileEv t with locSub := p }).mustMiss t

/-- A push without credit (R151). -/
def State.creditViolation (s : State) (t p : Nat) : State :=
  let s1 := (s.portDests t p).foldl (fun s d => (s.modSkip d.1 (fun k => { k with creditViol := true })).hit (skipStatus d.1) 2) s
  (s1.raise Ev.creditViolation { s1.tileEv t with locSub := p }).mustMiss t

/-- A POP or PEEK that found no visible entry (R146). -/
def State.underrun (s : State) (t k : Nat) : State :=
  let s1 := ((s.modSkip k (fun x => { x with underrun := true })).hit (skipStatus k) 3).count 1 k 2 1
  if (s.skip k).cfg.faultUnderrun then (s1.raise Ev.queueUnderrun (s1.skipEv k)).mustMiss t else s1

/-- Visible words that a POP or PEEK finds: none while dropping (R155). -/
def State.poppable (s : State) (t p : Nat) : Nat :=
  let k := s.skip (s.portSkip t p)
  if k.dropping then 0 else k.seen (s.rowFc t)

/-- The value last popped on a port (R146). -/
def State.lastPop (s : State) (t th p : Nat) : Line := lookD (s.thread t th).regs.lastPop p 0

/-- Write the register of a POP or PEEK, 2 fc after issue (R146). -/
def State.popWrite (s : State) (t th w : Nat) (x : Line) : State :=
  if qTk w = 0 then s.setV t th (qReg w) 2 x else s.setG t th (qReg w) 2 (BitVec.ofNat 32 x.toNat)

/-- POP and PEEK with TK = 0 or 1 (R146, R147, R150). -/
def State.popRegister (s : State) (t th w : Nat) (peek : Bool) : State :=
  let p := qPort w
  let k := s.portSkip t p
  let x := s.skip k
  let fc := s.rowFc t
  let signal := decide (x.cfg.net = 1)
  if signal != (qTk w == 1) then s.widthMismatch t p
  else if s.poppable t p = 0 then
    ((s.popWrite t th w (s.lastPop t th p)).modSkip k Skip.touch).underrun t k
  else match x.words with
    | [] => s
    | h :: _ =>
      if h.zrc && qTk w == 1 then s.widthMismatch t p
      else
        let s1 := s.popWrite t th w h.data
        let s2 := if h.zrc then s1.setZM t th 2 h.mask else s1
        let s3 := s2.markFrom t [h]
        let s4 := if peek then s3.modSkip k Skip.touch
          else (s3.modSkip k (fun x => x.consume 1 fc)).modRegs t th (fun r => { r with lastPop := put r.lastPop p h.data })
        if x.headWords = 0 then
          let r := (if qTk w = 0 then 32 else 0) + qReg w
          (s4.awaitReg t th r).modSkip k (fun x => ({ x with popWait := x.popWait ++ [(t, th, r, peek)] }).refill fc 16)
        else s4

/-- POP with TK = 2 (R107, R148). -/
def State.popBlock (s : State) (t th w : Nat) : State :=
  let p := qPort w
  let k := s.portSkip t p
  let x := s.skip k
  let fc := s.rowFc t
  let a := ((s.g t th (qReg w)).toNat + 64 * qLine w) % 2 ^ 32
  let n := qCount w
  if a % 64 ≠ 0 ∨ (blockMemory (kindOf t)).1 < a + 64 * n then
    (s.raise Ev.blockAddressInvalid (s.tileEv t)).mustMiss t
  else
    let m := min n (s.poppable t p)
    let taken := x.words.take m
    if x.cfg.net = 1 ∨ taken.any RWord.zrc then s.widthMismatch t p
    else
      let last := s.lastPop t th p
      let s1 := s.modSkip k (fun y => { y with
        popWait := y.popWait ++ List.replicate (m - x.headWords) (t, th, 64, false) }.consume m fc)
      let s2 := if m < n then upTo (n - m) (fun s _ => s.underrun t k) s1 else s1
      let s3 := s2.markFrom t taken
      let mv : BlockMove := { push := false, port := p, thread := th, addr := a, count := n
                              taken := taken.map RWord.data, lastWord := last, upTo := (s3.skip k).consumedCount
                              issuedAt := fc, missing := m - x.headWords }
      let s4 := s3.modRegs t th (fun r => { r with
        lastPop := put r.lastPop p ((taken.getLast?.map RWord.data).getD last) })
      (s4.modTile t (fun y => { y with moves := y.moves ++ [mv], slots := y.noteSlot th (moveAccess mv) })).startUnits t fc

/-- POP (R146 to R149). -/
def execPop (t th : Nat) (s : State) : Result :=
  s.instr t th 0x18 (fun w s => if qTk w = 2 then s.popBlock t th w else s.popRegister t th w false)

/-- PEEK (R150). -/
def execPeek (t th : Nat) (s : State) : Result :=
  s.instr t th 0x19 (fun w s => s.popRegister t th w true)

/-- Every destination of a port takes entries of this form (R144, R194). -/
def State.pushFits (s : State) (t p w : Nat) : Bool :=
  (s.portDests t p).all (fun d =>
    let c := (s.skip d.1).cfg
    decide (c.pushWidth.toNat = qWidth w) && (decide (c.net = 1) == (qTk w == 1)) && (!qZrc w || c.zrc))

/-- PUSH with TK = 0 or 1 (R151). -/
def State.pushRegister (s : State) (t th w : Nat) : State :=
  let p := qPort w
  if !s.pushFits t p w then s.widthMismatch t p
  else
    let s1 := s.portFills t p
    let r := s1.thread t th
    let n := popcount 64 r.regs.zm.toNat
    let bytes := if qZrc w then n else 2 ^ qWidth w
    let data : Nat := if qTk w = 0 then (s1.v t th (qReg w)).toNat else (s1.g t th (qReg w)).toNat
    let e : Entry := { data := BitVec.ofNat 512 (data % 2 ^ (8 * bytes)), bytes := bytes, eop := qEop w
                       zrc := qZrc w, mask := if qZrc w then r.regs.zm else 0 }
    if s1.portCredit t p = 0 then s1.creditViolation t p
    else
      let seq := ((look (s1.tile t).ports p).map Port.pushed).getD 0 + 1
      ((s1.portUse t p 1 e.stored).pushEntry t p 1 seq (s1.thread t th).stores e).modPort t p (fun x => { x with pushed := seq })

/-- PUSH with TK = 2 (R107, R152). -/
def State.pushBlock (s : State) (t th w : Nat) : State :=
  let p := qPort w
  let fc := s.rowFc t
  let a := ((s.g t th (qReg w)).toNat + 64 * qLine w) % 2 ^ 32
  let n := qCount w
  if a % 64 ≠ 0 ∨ (blockMemory (kindOf t)).1 < a + 64 * n then
    (s.raise Ev.blockAddressInvalid (s.tileEv t)).mustMiss t
  else if !s.pushFits t p w then s.widthMismatch t p
  else
    let s1 := s.portFills t p
    if s1.portCredit t p < n then s1.creditViolation t p
    else
      let seq := ((look (s1.tile t).ports p).map Port.pushed).getD 0 + n
      let s2 := (s1.portUse t p n (72 * n)).modPort t p (fun x => { x with pushed := seq })
      let mv : BlockMove := { push := true, port := p, thread := th, addr := a, count := n, eop := qEop w
                              upTo := seq, issuedAt := fc, after := (s.thread t th).stores }
      (s2.modTile t (fun y => { y with moves := y.moves ++ [mv], slots := y.noteSlot th (moveAccess mv) })).startUnits t fc

/-- PUSH (R151 to R153). -/
def execPush (t th : Nat) (s : State) : Result :=
  s.instr t th 0x1A (fun w s => if qTk w = 2 then s.pushBlock t th w else s.pushRegister t th w)

/-- A push or pop on the port covered by a count is still in flight (R154, R186). -/
def Tile.portBusy (x : Tile) (p upTo : Nat) : Bool :=
  x.moves.any (fun m => m.port == p && decide (m.upTo ≤ upTo))
    || x.macs.any (fun m => m.kind == .oq && m.upTo != 0 && oPort m.word == p && decide (m.upTo ≤ upTo))

/-- A commit up to a count takes effect on a port. -/
def State.commitEffect (s : State) (t p upTo : Nat) : State :=
  match look (s.tile t).ports p with
  | some x =>
    if x.output then s.commitOut t p upTo
    else let k := s.portSkip t p; s.releaseWords k (upTo - (s.skip k).releasedCount)
  | none => s

/-- A late result is discarded and counted (R29). -/
def State.lateResult (s : State) (t p upTo : Nat) : State :=
  let e := listMin ((s.portDests t p).map (fun d => (s.skip d.1).effective))
  (s.discardPort t p e).countTile t 12 (upTo - e)

/-- The stage of tile t has missed the current frame before its tick (R29, R50): a fault has seen to it. -/
def State.stageMissed (s : State) (t : Nat) : Bool :=
  (s.tilePipe t).isSome && s.tileRealtime t
    && (t :: s.stageTiles (s.tile t).image (s.tile t).stage).any (fun u => (s.tile u).mustMiss)

/-- COMMIT on one port (R154); after a miss its results are late (R29). A drop begun before it goes on over a replay
(R189). -/
def State.commitPort (s : State) (t p : Nat) : State :=
  match look (s.tile t).ports p with
  | none => s
  | some x =>
    let n := if x.output then x.pushed else (s.skip (s.portSkip t p)).consumedCount
    let s := if x.output then s else s.modSkip (s.portSkip t p) (fun k => { k with dropNew := false })
    if x.output ∧ (((s.tile t).thread x.thread).late ∨ s.stageMissed t) then s.lateResult t p n
    else
      let s1 := s.modPort t p (fun x => { x with committed := n })
      if (s.tile t).portBusy p n then s1.modPort t p (fun x => { x with deferred := x.deferred ++ [n] })
      else s1.commitEffect t p n

/-- Ports assigned to a thread. -/
def Tile.portsOf (x : Tile) (th : Nat) : List Nat := (x.ports.filter (fun p => p.2.thread == th)).map (·.1)

/-- COMMIT (R154); with ALL = 1 it takes a checkpoint (R372). -/
def execCommit (t th : Nat) (s : State) : Result :=
  s.instr t th 0x1B (fun w s =>
    if qAll w then (((s.tile t).portsOf th).foldl (fun s p => s.commitPort t p) s).takeCheckpoint t th
    else (s.commitPort t (qPort w)).modThread t th (fun x => { x with midCommit := true }))

/-- DROP (R155): of the words that become visible in this very fc, it consumes those of the packet in the next (R201). -/
def execDrop (t th : Nat) (s : State) : Result :=
  s.instr t th 0x1C (fun w s =>
    let k := s.portSkip t (qPort w)
    let fc := s.rowFc t
    let r := packetWords ((s.skip k).words.take ((s.skip k).seen fc))
    s.modSkip k (fun x => if x.dropping then x.touch
      else { (x.consume r.1 fc) with dropping := !r.2, dropNew := !r.2, dropAt := fc }))

/-- WAITQ (R156): no wait if the condition holds; what arrives in this fc counts from the next. -/
def execWaitq (t th : Nat) (s : State) : Result :=
  s.instr t th 0x1D (fun w s =>
    let fc := s.rowFc t
    if s.waitqHolds t (qPort w) (qCount w) false then s
    else if s.waitqHolds t (qPort w) (qCount w) true then s.modThread t th (fun x => { x with readyAt := fc + 2 })
    else s.beginWait t th (.queue (qPort w) (qCount w)))

/-- Port status (Table 6.1). -/
def State.portStatus (s : State) (t p : Nat) : Nat :=
  match look (s.tile t).ports p with
  | none => 0
  | some x =>
    if x.output then
      let n := min (s.portCredit t p) 0xFFFF
      n <<< 16 + 1 <<< 15 + (boolNat (x.dests.any (fun d => (s.skip d.1).underrun))) <<< 13
        + (boolNat (x.dests.any (fun d => (s.skip d.1).timeoutBit))) <<< 11
    else
      let k := s.skip (s.portSkip t p)
      let c := k.countable (s.rowFc t) false
      let h := match k.words with
        | w :: _ => w.eop && decide (0 < c)
        | [] => false
      (min c 0xFFFF) <<< 16 + (boolNat (c == 0)) <<< 14 + (boolNat k.underrun) <<< 13 + (boolNat k.dropping) <<< 12
        + (boolNat k.timeoutBit) <<< 11 + (boolNat h) <<< 10

/-- QSTAT (R157). -/
def execQstat (t th : Nat) (s : State) : Result :=
  s.instr t th 0x1E (fun w s => s.setG t th (qReg w) 2 (BitVec.ofNat 32 (s.portStatus t (qPort w))))

/-! ## Happenings -/

/-- Row fc at which a started move completes, once every entry has reached the head: the entries missing at issue follow
the last one, one in each fc (R148, R183). -/
def BlockMove.due (m : BlockMove) : Option Nat :=
  if m.startedAt.isSome ∧ m.missing = 0 then some (m.lastAt + (m.count - m.taken.length) + 2) else none

def Tile.doneMove (x : Tile) (fc : Nat) : Option (Nat × BlockMove) :=
  findAt (fun m => match m.due with
    | some d => decide (d ≤ fc)
    | none => false) x.moves

/-- Entries that a block POP writes: those it took, then the last one again (R148). -/
def BlockMove.entries (m : BlockMove) : List Line :=
  m.taken ++ List.replicate (m.count - m.taken.length) (m.taken.getLast?.getD m.lastWord)

/-- BLOCK_MOVE_COMPLETE (R148, R152): a block POP has written its entries; units it held start. -/
def blockMoveCompleteDo (t : Nat) (s : State) : State :=
  match (s.tile t).doneMove (s.rowFc t) with
  | none => s
  | some (i, m) =>
    let s1 := s.modTile t (fun x => { x with moves := dropAt x.moves i })
    let off := (blockMemory (kindOf t)).2 + m.addr
    let s2 := if m.push then s1 else s1.writeBytes (tileAddr t off) (m.entries.flatMap lineBytes)
    (s2.holdStreams t m.issuedAt (moveTouch m)).startUnits t (s.rowFc t)

def execBlockMoveComplete (t : Nat) (s : State) : Result :=
  whenDue ((s.tile t).doneMove (s.rowFc t)).isSome (blockMoveCompleteDo t s)

def commitTakesEffectOk (t p : Nat) (s : State) : Bool :=
  match look (s.tile t).ports p with
  | some x => match x.deferred with
    | c :: _ => !(s.tile t).portBusy p c
    | [] => false
  | none => false

/-- COMMIT_TAKES_EFFECT (R154, R186). -/
def commitTakesEffectDo (t p : Nat) (s : State) : State :=
  match look (s.tile t).ports p with
  | some x => match x.deferred with
    | c :: r => (s.modPort t p (fun x => { x with deferred := r })).commitEffect t p c
    | [] => s
  | none => s

def execCommitTakesEffect (t p : Nat) (s : State) : Result :=
  whenDue (commitTakesEffectOk t p s) (commitTakesEffectDo t p s)

def entryReachesTailOk (k : Nat) (s : State) : Bool :=
  match (s.skip k).fly with
  | e :: _ => decide (k < 0x20000) && decide (e.due ≤ s.skipFc k)
  | [] => false

/-- ENTRY_REACHES_TAIL (R186). -/
def entryReachesTailDo (k : Nat) (s : State) : State :=
  (s.modSkip k (fun x => match x.fly with
    | e :: r => { x with fly := r, tail := x.tail ++ [e] }
    | [] => x)).noteOccupancy k

def execEntryReachesTail (k : Nat) (s : State) : Result := whenDue (entryReachesTailOk k s) (entryReachesTailDo k s)

/-- Scratch stores of the producing thread that the pushes of a mark release are performed (R153). -/
def State.storesDone (s : State) (k : Nat) (cov : Nat) : Bool :=
  s.storesBefore k ((((s.skip k).tail.filter (fun e => decide (e.seq ≤ cov))).map Entry.after).foldl max 0)

def entriesBecomeVisibleOk (k : Nat) (s : State) : Bool :=
  let x := s.skip k
  match x.marks with
  | (cov, due) :: _ => decide (k < 0x20000) && decide (due ≤ s.skipFc k) && !s.engineStopped k
      && x.fly.all (fun e => if e.seq = 0 then decide (due < e.due + 2) else decide (cov < e.seq)) && s.storesDone k cov
  | [] => false

/-- ENTRIES_BECOME_VISIBLE (R186, R188). -/
def entriesBecomeVisibleDo (k : Nat) (s : State) : State :=
  let fc := s.skipFc k
  let pfc := s.producerFc k
  let s1 := s.modSkip k (fun x => match x.marks with
    | (cov, _) :: r => ({ x with marks := r, covered := max x.covered cov }).markTail.absorb fc pfc
    | [] => x)
  s1.wakeQueues (s1.skipPos k)

def execEntriesBecomeVisible (k : Nat) (s : State) : Result :=
  whenDue (entriesBecomeVisibleOk k s) (entriesBecomeVisibleDo k s)

def creditArrivalOk (k : Nat) (s : State) : Bool :=
  match (s.skip k).creditFly with
  | (_, due) :: _ => decide (due ≤ s.producerFc k)
  | [] => false

/-- Credit of a skip fed from another device goes on in the header of a flit (R358). -/
def State.creditHome (s : State) (k n : Nat) : State :=
  match (s.skip k).cfg.peer with
  | some d => if k < 0x20000 then s.sendFlit d .credit k s.emeel.deviceId.toNat (BitVec.ofNat 512 n) 32 else s
  | none => s

/-- CREDIT_ARRIVAL (R186, R201). -/
def creditArrivalDo (k : Nat) (s : State) : State :=
  let fc := s.producerFc k
  let s := s.creditHome k (((s.skip k).creditFly.head?.map (·.1)).getD 0)
  let s1 := s.modSkip k (fun x => match x.creditFly with
    | (n, _) :: r => { (x.returnCredit n n) with
        creditFly := r, creditFresh := if x.creditAt = fc then x.creditFresh + n else n, creditAt := fc }
    | [] => x)
  match (s1.skip k).cfg.producer with
  | some (id, _) => s1.wakeQueues (s1.physical id)
  | none => s1

def execCreditArrival (k : Nat) (s : State) : Result := whenDue (creditArrivalOk k s) (creditArrivalDo k s)

def discardMarkArrivalOk (k : Nat) (s : State) : Bool :=
  match (s.skip k).discards with
  | (_, due) :: _ => decide (k < 0x20000) && decide (due ≤ s.skipFc k)
  | [] => false

/-- DISCARD_MARK_ARRIVAL (R358): it removes the entries from its count on; their credit goes back. -/
def discardMarkArrivalDo (k : Nat) (s : State) : State :=
  let pfc := s.producerFc k
  s.modSkip k (fun x => match x.discards with
    | (keep, _) :: r =>
      let gone := (x.fly ++ x.tail).filter (fun e => decide (keep < e.seq))
      ({ x with discards := r, fly := x.fly.filter (fun e => decide (e.seq ≤ keep))
                tail := x.tail.filter (fun e => decide (e.seq ≤ keep)) }).sendCredit
        (if x.cfg.zrc then (gone.map Entry.stored).foldl (· + ·) 0 else gone.length) pfc
    | [] => x)

def execDiscardMarkArrival (k : Nat) (s : State) : Result :=
  whenDue (discardMarkArrivalOk k s) (discardMarkArrivalDo k s)

/-- A fetched word reaches the head: none does while the middle engine is stopped (R183, R316). -/
def headRefillOk (k : Nat) (s : State) : Bool :=
  match (s.skip k).fetches with
  | d :: _ => decide (d ≤ s.skipFc k) && !s.engineStopped k
  | [] => false

/-- A word of a block POP reaches the head: its entry moves in the next fc, or after the entry before it (R183). -/
def BlockMove.arrive (m : BlockMove) (fc : Nat) : BlockMove :=
  { m with missing := m.missing - 1, lastAt := if m.startedAt.isSome then max (m.lastAt + 1) (fc + 1) else m.lastAt }

/-- The oldest block POP of a thread that waits for words of skip k gets one. -/
def State.arriveMove (s : State) (t th k : Nat) : State :=
  let fc := s.rowFc t
  match findAt (fun m : BlockMove => !m.push && m.thread == th && decide (0 < m.missing) && s.portSkip t m.port == k) (s.tile t).moves with
  | some (i, m) => s.modTile t (fun x => { x with moves := x.moves.set i (m.arrive fc) })
  | none => s

/-- HEAD_REFILL (R183): the word goes to the oldest POP, PEEK or block POP that waits for it, or into the head. -/
def headRefillDo (k : Nat) (s : State) : State :=
  let fc := s.skipFc k
  let s1 := s.modSkip k (fun x => { x with fetches := x.fetches.tail })
  match (s1.skip k).popWait with
  | (t, th, r, peek) :: rest =>
    let s2 := s1.modSkip k (fun x => ({ x with
      popWait := rest, headWords := if peek then x.headWords + 1 else x.headWords }).refill fc 16)
    if r = 64 then s2.arriveMove t th k else s2.arriveReg t th r
  | [] => s1.modSkip k (fun x => ({ x with headWords := min x.words.length (x.headWords + 1) }).refill fc 16)

def execHeadRefill (k : Nat) (s : State) : Result := whenDue (headRefillOk k s) (headRefillDo k s)

/-- R196: the timer has reached TIMEOUT × 64 fc, and the fc in which it did so has passed without an access (R201). -/
def skipTimerExpiryOk (k : Nat) (s : State) : Bool := (s.skip k).timerOver

/-- Close the tail word that holds committed, invisible bytes (R197). -/
def Skip.forceTail (k : Skip) (fc pfc : Nat) : Skip :=
  if k.tailCommitted = 0 then k
  else
    let w := mkWord k.cfg.zrc (k.tail.take k.tailCommitted) true
    ({ k with tail := k.tail.drop k.tailCommitted, tailCommitted := 0 }).addWord fc pfc w

/-- SKIP_TIMER_EXPIRY (R196, R197). -/
def skipTimerExpiryDo (k : Nat) (s : State) : State :=
  let fc := s.skipFc k
  let pfc := s.producerFc k
  let s1 := ((s.raise Ev.skipTimeout (s.skipEv k)).hit (skipStatus k) 4).count 1 k 3 1
  let s2 := s1.modSkip k (fun x =>
    let y := { x with timeoutBit := true, timer := x.timer - x.activeTimeout * 64, activeTimeout := x.timeout.toNat }
    if x.cfg.forceTail then (y.forceTail fc pfc).refill fc 16 else y)
  s2.wakeQueues (s2.skipPos k)

def execSkipTimerExpiry (k : Nat) (s : State) : Result := whenDue (skipTimerExpiryOk k s) (skipTimerExpiryDo k s)

def deadlineFillPushOk (k : Nat) (s : State) : Bool :=
  decide (0 < (s.skip k).fillDue) && decide (0 < (s.skip k).creditAll)

/-- DEADLINE_FILL_PUSH (R192). -/
def execDeadlineFillPush (k : Nat) (s : State) : Result :=
  whenDue (deadlineFillPushOk k s) (s.placeFills k (s.skip k).fillDue)

end Sys2Proof.Machine
end

