-- ==== Sys2Proof/Machine/Fn.lean ====
section
/-! DEFINITION. F-tile calls (R138 to R142): descriptor checks, the twelve units, and their completion. Where
the reference model alone fixes a result within a bound, the value is free within it. -/

namespace Sys2Proof.Machine

/-- Element sizes of an offset in bytes. -/
def byteSize (code : Nat) : Nat := if codeBits code < 8 then 1 else codeBits code / 8

def inStore (r : Nat × Nat) : Bool := decide (r.1 + r.2 ≤ 65536)

def isPow2 (n : Nat) : Bool := n != 0 && 2 ^ n.log2 == n

/-- Field limits of Table 5.4. -/
def fnLimits (u d : Nat) : Bool :=
  let n := fnField d 8 2
  let k := fnField d 10 2
  let rows := fnField d 14 2
  let p0 := fnField d 16 4
  let p2 := fnField d 24 4
  decide (1 ≤ rows ∧ rows ≤ 4096) &&
  match u with
  | 0 => decide (16 ≤ n ∧ n ≤ 4096) && isPow2 n
  | 6 => decide (n ≤ 4096)
  | 7 => decide (n ≤ 4096) && decide (k ≤ 256)
  | 8 => decide (n ≤ 4096) && decide (k ≤ 32) && decide (1 ≤ p0 ∧ p0 ≤ 8)
  | 9 => decide (n ≤ 4096)
  | 10 => decide (n ≤ 4096) && decide (k ≤ 256)
  | 11 => decide (n ≤ 1024) && decide (p2 % 256 ≤ 32) && decide (p2 / 256 % 256 ≤ 32)
  | _ => true

/-- Input and output formats that a unit takes: INT32 is none of them (R86, R101). -/
def fnTypes (u d : Nat) : Bool :=
  let st := fnField d 12 1
  let dt := fnField d 13 1
  decide (dt ≤ 6) && dt != 2 && (if u = 11 then decide (st ≤ 6) && st != 2 else if u = 9 ∨ u = 10 then st == 6 else st == 5 || st == 6)

/-- Offsets are aligned to their element size (R141). -/
def fnAligned (u d : Nat) : Bool :=
  let src := fnField d 0 4
  let dst := fnField d 4 4
  let p0 := fnField d 16 4
  let sb := byteSize (fnField d 12 1)
  let db := byteSize (fnField d 13 1)
  match u with
  | 7 => decide (src % sb = 0) && decide (dst % 4 = 0)
  | 8 => decide (src % sb = 0) && decide (dst % 2 = 0)
  | 9 => decide (src % 4 = 0) && decide (dst % 4 = 0) && decide (p0 % 4 = 0)
  | 10 => decide (src % 4 = 0) && decide (dst % 4 = 0)
  | 11 => decide (src % 4 = 0) && decide (dst % db = 0) && decide (p0 % sb = 0)
  | _ => decide (src % sb = 0) && decide (dst % db = 0)

/-- The call is not forbidden (R141). -/
def fnAllowed (u d descAddr : Nat) : Bool :=
  let r := fnRanges u d
  inStore (descAddr, 32) && fnLimits u d && fnTypes u d && fnAligned u d && r.1.all inStore && r.2.all inStore

/-- FN (R138): the descriptor is copied at issue; a forbidden call does nothing but its event (R141). -/
def execFn (t th : Nat) (s : State) : Result :=
  s.instr t th 0x03 (fun w s =>
    let a := 8 * fnDesc w
    let d := leNat (s.readBytes (tileAddr t a) 32)
    let fc := s.rowFc t
    let s1 := s.noteTileRead t a 28
    if !fnAllowed (fnUnit w) d a then (s1.raise Ev.fnDescriptorInvalid (s1.tileEv t)).mustMiss t
    else
      let f : FnCall := { unit := fnUnit w, desc := d, descAddr := a, thread := th, issuedAt := fc }
      let s2 := s1.modTile t (fun x => { x with fns := x.fns ++ [f], slots := x.noteSlot th (fnAccess f) })
      (if fnWait w then s2.beginWait t th (.fn (fnUnit w)) else s2).startUnits t fc)

/-! ## Times (Table 5.4) -/

/-- log2 N rounded up. -/
def lgUp (n : Nat) : Nat := if n ≤ 1 then 0 else (n - 1).log2 + 1

/-- Time of a call (Table 5.4). A quotient that is no whole number of fc counts as the next one (DESIGN CHOICE, log 103). -/
def FnCall.time (f : FnCall) : Nat :=
  let d := f.desc
  let n := fnField d 8 2
  let k := fnField d 10 2
  let rows := fnField d 14 2
  let p0 := fnField d 16 4
  let p2 := fnField d 24 4
  match f.unit with
  | 0 => ceilDiv (rows * n * lgUp n) 64 + 16
  | 6 => rows * 3 * ceilDiv n 32 + 16
  | 7 => rows * (ceilDiv n 16 * lgUp n + k + 24)
  | 8 => ceilDiv (n * n * p0) 256 + ceilDiv (n * k) 4 + 32
  | 9 => ceilDiv n 4 + 20
  | 10 => ceilDiv n 16 * lgUp n + n * ceilDiv k 16 + 32
  | 11 => n * (p2 % 256) * (p2 / 256 % 256) * ceilDiv (p2 / 65536) 32 + 32
  | _ => rows * ceilDiv n 32 + 12

/-! ## Units -/

/-- n elements of a code at a byte offset of the local store. -/
def State.fnElems (s : State) (t o code n : Nat) : List Num :=
  let x := leNat (s.readBytes (tileAddr t o) (ceilDiv (n * codeBits code) 8))
  (List.range n).map (fun i => decodeElem code (elemAt (codeBits code) x i))

/-- Results converted once to DTYPE, packed, with saturations. -/
def fnPack (dt : Nat) (xs : List Num) : List Byte × Nat :=
  let ls := xs.map (convertTo dt false)
  (natLE (ceilDiv (xs.length * codeBits dt) 8) (packElems (codeBits dt) (ls.map (·.1))), (ls.map (·.2)).foldl (· + ·) 0)

/-- Element-wise units with the special values of R140; another result lies within its bound. -/
def fnElem (u : Nat) (x : Num) : Num :=
  let pick := Config.fnElement u (BitVec.ofNat 32 (fp32 x))
  let near := within (elementExact u x) pick
  let free := ofFp32 (pick % 2 ^ 32)
  match u, x with
  | _, .nan => .nan
  | 1, .inf true => Num.zero
  | 2, .inf true => .nan
  | 4, .inf true => .nan
  | _, .inf _ => free
  | 2, .fin neg n _ _ => if n = 0 then (if neg then free else .inf true) else if neg then .nan else near
  | 3, .fin neg n _ _ => if n = 0 then .inf neg else near
  | 4, .fin neg n _ _ => if n = 0 then free else if neg then .nan else near
  | _, _ => near

/-- A result that the spec leaves open, as a function of the operands alone: the same call gives the same bits (R66). -/
def openResult (u : Nat) (operands : List Num) (i : Nat) : Nat := Config.fnOpen u (operands.map (fun x => BitVec.ofNat 32 (fp32 x))) i

/-- An exponential rounded once to FP32: that of the box decoder, and those that softmax sums (R140). -/
def boxExp (x : Num) : Num :=
  let pick := Config.fnExp (BitVec.ofNat 32 (fp32 x))
  match x with
  | .nan => .nan
  | .inf true => Num.zero
  | .inf false => ofFp32 (pick % 2 ^ 32)
  | _ => rnd (within (expExact x) pick)

/-- FP32 sum of the exponentials of a softmax row, in ascending index order (R140). -/
def softmaxSum (xs : List Num) : Num :=
  (xs.map (fun x => boxExp (x.sub (softmaxTop xs)))).foldl (fun a x => rnd (a.add x)) Num.zero

/-- Softmax of a row (R140): e^(x_i - max) over the FP32 sum, within the bound. A row with +Inf has free results. -/
def softmaxRow (xs : List Num) : List Num :=
  if xs.any Num.isNan || xs.all (fun x => x == .inf true) then xs.map (fun _ => Num.nan)
  else (List.range xs.length).map (fun i =>
    let pick := Config.fnSoftmax (xs.map (fun x => BitVec.ofNat 32 (fp32 x))) i
    if xs.contains (.inf false) then ofFp32 (pick % 2 ^ 32) else within (softmaxExact (softmaxSum xs) xs i) pick)

/-- x ranks strictly above y: by value, NaN below -Inf (R140). -/
def ranksAbove (x y : Num) : Bool := if y.isNan then !x.isNan else y.lt x

/-- Insert an indexed value behind all that rank at least as high: equal values keep index order. -/
def insertRank (above : Num → Num → Bool) (x : Num × Nat) : List (Num × Nat) → List (Num × Nat)
  | [] => [x]
  | y :: ys => if above x.1 y.1 then x :: y :: ys else y :: insertRank above x ys

def rankAll (above : Num → Num → Bool) (xs : List (Num × Nat)) : List (Num × Nat) :=
  xs.foldl (fun l x => insertRank above x l) []

def indexed (xs : List Num) : List (Num × Nat) := (List.range xs.length).map (fun i => (xs.getD i .zero, i))

/-- k records of a top-k row; records beyond the row have free values. -/
def topkRow (xs : List Num) (k : Nat) : List Byte :=
  let r := rankAll ranksAbove (indexed xs)
  (List.range k).flatMap (fun i => match r[i]? with
    | some p => natLE 4 (fp32 p.1) ++ natLE 2 p.2 ++ [0, 0]
    | none => natLE 6 (openResult 7 xs i) ++ [0, 0])

/-- Squared distance in FP32, coordinates in ascending order (R140). -/
def sqDist (a b : List Num) : Num :=
  (List.range a.length).foldl (fun acc i =>
    let d := rnd ((a.getD i .zero).sub (b.getD i .zero))
    rnd (acc.add (rnd (d.mul d)))) Num.zero

/-- x is nearer than y; NaN is farthest. -/
def nearer (x y : Num) : Bool := if x.isNan then false else if y.isNan then true else x.lt y

/-- k nearest neighbours of every point. -/
def knnAll (pts : List (List Num)) (k : Nat) (excl : Bool) : List Byte :=
  (List.range pts.length).flatMap (fun i =>
    let ds := ((List.range pts.length).filter (fun j => !(excl && i == j))).map (fun j =>
      (sqDist (pts.getD i []) (pts.getD j []), j))
    let r := rankAll nearer ds
    (List.range k).flatMap (fun m => match r[m]? with
      | some p => natLE 2 p.2
      | none => natLE 2 (openResult 8 pts.flatten (i * k + m))))

def numMin (a b : Num) : Num := if a.isNan || b.isNan then .nan else if b.lt a then b else a
def numMax (a b : Num) : Num := if a.isNan || b.isNan then .nan else if a.lt b then b else a

/-- One axis of a box: its two corners (R140). -/
def boxAxis (c w dc dw sxy swh clamp : Num) : Num × Num :=
  let c' := rnd (c.add (rnd ((rnd (dc.mul sxy)).mul w)))
  let w' := rnd (w.mul (boxExp (numMin (rnd (dw.mul swh)) clamp)))
  let h := rnd (w'.mul (.pow2 (-1)))
  (rnd (c'.sub h), rnd (c'.add h))

/-- IoU of two boxes in FP32; a zero union gives 0 (R140). -/
def iou (a b : List Num) : Num :=
  let g (l : List Num) (i : Nat) : Num := l.getD i .zero
  let iw := numMax Num.zero (rnd ((numMin (g a 2) (g b 2)).sub (numMax (g a 0) (g b 0))))
  let ih := numMax Num.zero (rnd ((numMin (g a 3) (g b 3)).sub (numMax (g a 1) (g b 1))))
  let inter := rnd (iw.mul ih)
  let area (l : List Num) : Num := rnd ((rnd ((g l 2).sub (g l 0))).mul (rnd ((g l 3).sub (g l 1))))
  let union := rnd ((rnd ((area a).add (area b))).sub inter)
  if union.isZero then Num.zero else rnd (inter.div union)

/-- Greedy suppression in rank order, at most k kept (R140). -/
def nmsKeep (recs : List (List Num)) (thr : Num) (k : Nat) : List (Num × Nat) → List Nat → List Nat
  | [], kept => kept
  | (_, i) :: rest, kept =>
    if k ≤ kept.length then kept
    else if kept.any (fun j => thr.lt (iou (recs.getD i []) (recs.getD j []))) then nmsKeep recs thr k rest kept
    else nmsKeep recs thr k rest (kept ++ [i])

/-- floor of an exact finite value. -/
def Num.floor : Num → Int
  | .fin s n d e =>
    let p := n * 2 ^ e.toNat
    let q := d * 2 ^ (-e).toNat
    if s then -((ceilDiv p q : Nat) : Int) else ((p / q : Nat) : Int)
  | _ => 0

/-- One sample of crop-and-resize: bilinear over the four nearest pixels, outside ones 0 (R140). -/
def cropSample (pix : Int → Int → Num) (y x : Num) : Num :=
  let y0 := y.floor
  let x0 := x.floor
  let fy := y.sub (.ofInt y0)
  let fx := x.sub (.ofInt x0)
  let one := Num.pow2 0
  let t00 := (pix y0 x0).mul ((one.sub fy).mul (one.sub fx))
  let t01 := (pix y0 (x0 + 1)).mul ((one.sub fy).mul fx)
  let t10 := (pix (y0 + 1) x0).mul (fy.mul (one.sub fx))
  let t11 := (pix (y0 + 1) (x0 + 1)).mul (fy.mul fx)
  ((t00.add t01).add t10).add t11

/-- Sample coordinate i of n over the span a to b: a + (i + 0.5) × (b - a) / n - 0.5 (R140). -/
def cropCoord (a b : Num) (i n : Nat) : Num :=
  let half := Num.pow2 (-1)
  (a.add (((Num.ofInt i).add half).mul ((b.sub a).div (.ofInt n)))).sub half

/-- Split a list into rows of n. -/
def rowsOf {α : Type} (n : Nat) : Nat → List α → List (List α)
  | 0, _ => []
  | k + 1, l => l.take n :: rowsOf n k (l.drop n)

/-- Boxes of one row of deltas and anchors (R140). -/
def boxRow (p1 p2 : Nat) (ds as : List (List Num)) : List Num :=
  let sxy := ofBf16 (p1 % 65536)
  let swh := ofBf16 (p1 / 65536)
  let cl := ofBf16 (p2 % 65536)
  (List.range ds.length).flatMap (fun i =>
    let a := as.getD i []
    let e := ds.getD i []
    let g (l : List Num) (j : Nat) : Num := l.getD j .zero
    let bx := boxAxis (g a 0) (g a 2) (g e 0) (g e 2) sxy swh cl
    let b2 := boxAxis (g a 1) (g a 3) (g e 1) (g e 3) sxy swh cl
    [bx.1, b2.1, bx.2, b2.2])

/-- Records and kept count of one suppression row (R140). -/
def nmsRow (p0 p1 k : Nat) (recs : List (List Num)) : List Byte × Nat :=
  let cands := (indexed (recs.map (fun r => r.getD 4 .zero))).filter (fun c => (ofFp32 p1).lt c.1)
  let kept := nmsKeep recs (ofFp32 p0) k (rankAll ranksAbove cands) []
  ((List.range k).flatMap (fun i => match kept[i]? with
    | some j => natLE 2 j ++ [0, 0] ++ natLE 4 (fp32 ((recs.getD j []).getD 4 .zero))
    | none => natLE 2 0xFFFF ++ [0, 0] ++ natLE 4 0xFF800000), kept.length)

/-- The crop of one box (R140). A sample whose coordinate is NaN or Inf has no stated value: it is free (DESIGN CHOICE,
log 24). -/
def cropBox (map : List Num) (p1 p2 : Nat) (b : List Num) : List Num :=
  let mh := p1 % 65536
  let mw := p1 / 65536
  let ch := p2 % 256
  let cw := p2 / 256 % 256
  let cc := p2 / 65536
  let g (j : Nat) : Num := b.getD j .zero
  (List.range ch).flatMap (fun i => (List.range cw).flatMap (fun j => (List.range cc).map (fun c =>
    let y := cropCoord (g 1) (g 3) i ch
    let x := cropCoord (g 0) (g 2) j cw
    let pix (py px : Int) : Num :=
      if 0 ≤ py ∧ py < mh ∧ 0 ≤ px ∧ px < mw then map.getD ((py.toNat * mw + px.toNat) * cc + c) .zero else Num.zero
    if y.nonFinite || x.nonFinite then ofFp32 (openResult 11 (b ++ map) ((i * cw + j) * cc + c) % 2 ^ 32)
    else cropSample pix y x)))

/-- Output bytes of a call, its RESULT and its saturations (Table 5.4). Rows lie one after another from SRC and from DST;
anchors, map and sign vector serve every row (R139). What the spec states no result for is a free value of the operands
(log 24), so that a call replayed gives the same bytes (R66). -/
def State.fnOutput (s : State) (t : Nat) (f : FnCall) : List Byte × Nat × Nat :=
  let d := f.desc
  let src := fnField d 0 4
  let n := fnField d 8 2
  let k := fnField d 10 2
  let st := fnField d 12 1
  let dt := fnField d 13 1
  let rows := fnField d 14 2
  let p0 := fnField d 16 4
  let p1 := fnField d 20 4
  let p2 := fnField d 24 4
  match f.unit with
  | 0 =>
    let signs := if p0 = 0xFFFFFFFF then 0 else leNat (s.readBytes (tileAddr t p0) (ceilDiv n 8))
    let out := (rowsOf n rows (s.fnElems t src st (rows * n))).flatMap (fun r => hadamard r signs n.log2)
    let p := fnPack dt out
    (p.1, n, p.2)
  | 6 =>
    let p := fnPack dt ((rowsOf n rows (s.fnElems t src st (rows * n))).flatMap softmaxRow)
    (p.1, n, p.2)
  | 7 => ((rowsOf n rows (s.fnElems t src st (rows * n))).flatMap (fun r => topkRow r k), n, 0)
  | 8 => ((rowsOf (n * p0) rows (s.fnElems t src st (rows * n * p0))).flatMap (fun r => knnAll (rowsOf p0 n r) k (bitAt p1 0)), n, 0)
  | 9 =>
    let as := rowsOf 4 n (s.fnElems t p0 6 (4 * n))
    let out := (rowsOf (4 * n) rows (s.fnElems t src 6 (4 * n * rows))).flatMap (fun r => boxRow p1 p2 (rowsOf 4 n r) as)
    ((fnPack 6 out).1, n, 0)
  | 10 =>
    let out := (rowsOf (5 * n) rows (s.fnElems t src 6 (5 * n * rows))).map (fun r => nmsRow p0 p1 k (rowsOf 5 n r))
    (out.flatMap (·.1), (out.map (·.2)).foldl (· + ·) 0, 0)
  | 11 =>
    let map := s.fnElems t p0 st (p1 % 65536 * (p1 / 65536) * (p2 / 65536))
    let p := fnPack dt ((rowsOf 4 (n * rows) (s.fnElems t src 6 (4 * n * rows))).flatMap (cropBox map p1 p2))
    (p.1, n, p.2)
  | u =>
    let p := fnPack dt ((s.fnElems t src st (rows * n)).map (fnElem u))
    (p.1, n, p.2)

/-- The call of a unit that is complete. -/
def State.doneFn (s : State) (t unit : Nat) : Option (Nat × FnCall) :=
  findAt (fun f => f.unit == unit && match f.startedAt with
    | some a => decide (a + f.time ≤ s.rowFc t)
    | none => false) (s.tile t).fns

/-- FN_CALL_COMPLETE (R138): outputs and RESULT are written, a waiting thread goes on. -/
def fnCallCompleteDo (t unit : Nat) (s : State) : State :=
  match s.doneFn t unit with
  | none => s
  | some (i, f) =>
    let o := s.fnOutput t f
    let s1 := ((fnRanges f.unit f.desc).1).foldl (fun s (p : Nat × Nat) => s.noteTileRead t p.1 p.2) s
    let s2 := (s1.writeBytes (tileAddr t (fnField f.desc 4 4)) o.1).writeBytes (tileAddr t (f.descAddr + 28)) (natLE 4 o.2.1)
    let s3 := (s2.countTile t 9 o.2.2).modTile t (fun x => { x with fns := dropAt x.fns i })
    let s4 := s3.startUnits t (s3.rowFc t)
    match (s4.thread t f.thread).wait with
    | .fn u => if u = unit then s4.wakeThread t f.thread else s4
    | _ => s4

def execFnCallComplete (t unit : Nat) (s : State) : Result :=
  whenDue (s.doneFn t unit).isSome (fnCallCompleteDo t unit s)

end Sys2Proof.Machine
end

