-- ==== Sys2Proof/Machine/Mac.lean ====
section
/-! DEFINITION. M-tile instructions: MAC streams, group rescale descriptors, row and output quantise, heavy-unit
tokens and weight-store halves (chapters 2, 3, 5 and 9). -/

namespace Sys2Proof.Machine

/-- GRS (R126). -/
def execGrs (t th : Nat) (s : State) : Result :=
  s.instr t th 0x2A (fun w s =>
    let d : SDesc := { gsize := bits w 55 54, wmode := bits w 53 51, amode := bits w 50 49, wsbase := bits w 48 38
                       abase := bits w 37 27, pitch := bits w 26 18 }
    s.modRegs t th (fun r => { r with sd := put r.sd (bits w 57 56) d }))

/-- An instruction enters its unit: it is in flight from its issue, with a copy of its descriptor (R103, R115). -/
def State.enterMac (s : State) (t th w : Nat) (k : MacKind) (upTo : Nat) : State :=
  let fc := s.rowFc t
  let d := lookD (s.thread t th).regs.sd (mSd w) {}
  let m : MacOp := { kind := k, word := w, desc := d, thread := th, issuedAt := fc, upTo := upTo, after := (s.thread t th).stores }
  s.modTile t (fun x => { x with macs := x.macs ++ [m], slots := x.noteSlot th (macAccess m) })

/-- MMS (R120, R122). -/
def execMms (t th : Nat) (s : State) : Result := s.instr t th 0x28 (fun w s => s.enterMac t th w .mms 0)
/-- WCS (R123, R125). -/
def execWcs (t th : Nat) (s : State) : Result := s.instr t th 0x29 (fun w s => s.enterMac t th w .wcs 0)
/-- RQ (R127, R128). -/
def execRq (t th : Nat) (s : State) : Result :=
  s.instr t th 0x2B (fun w s => let fc := s.rowFc t; (s.enterMac t th w .rq 0).startUnits t fc)

/-- OQ (R129 to R132); with TOPORT = 1 it uses the credits of all its pushes at issue. -/
def execOq (t th : Nat) (s : State) : Result :=
  s.instr t th 0x2C (fun w s =>
    let fc := s.rowFc t
    if !oToport w then (s.enterMac t th w .oq 0).startUnits t fc
    else
      let p := oPort w
      let m := oqPushes w
      let fits := (s.portDests t p).all (fun d =>
        let c := (s.skip d.1).cfg
        decide (c.width = oqWidth w) && decide (c.net ≠ 1))
      if !fits then s.widthMismatch t p
      else
        let s1 := s.portFills t p
        if s1.portCredit t p < m then s1.creditViolation t p
        else
          let n := ((look (s1.tile t).ports p).map Port.pushed).getD 0 + m
          let s2 := (s1.portUse t p m (72 * m)).modPort t p (fun x => { x with pushed := n })
          (s2.enterMac t th w .oq n).startUnits t fc)

/-! ## Operands -/

/-- Array time Ta (R122, R125). -/
def MacOp.arrayFc (m : MacOp) : Nat :=
  ceilDiv (macRows m.word * macK m.word * 32) (macRate (macTypes m.word).1 (macTypes m.word).2)

def macG (m : MacOp) : Nat := 32 * 2 ^ m.desc.gsize

/-- First weight line and first window line. -/
def macWaddr (w : Nat) : Nat := if wOp w = 0x28 then bits w 29 18 else bits w 22 11
def macAaddr (w : Nat) : Nat := if wOp w = 0x28 then bits w 38 30 else bits w 31 23

/-- Element at a bit position of the tile window, counted from a byte offset. -/
def State.elemBits (s : State) (t base bit b : Nat) : Nat :=
  (leNat (s.readBytes (tileAddr t (base + bit / 8)) 5) >>> (bit % 8)) % 2 ^ b

/-- Activation element (r, k) (R117, R123). -/
def State.actElem (s : State) (t : Nat) (m : MacOp) (r k : Nat) : Num :=
  let w := m.word
  let c := (macTypes w).2
  let b := codeBits c
  let a := macAaddr w
  if m.kind = .mms then decodeElem c (s.elemBits t (0x30000 + 64 * (a + r * lrow (macK w) c)) (k * b) b)
  else
    let cin := 32 * (bits w 36 32 + 1)
    let kw := bits w 48 46 + 1
    let tap := k / cin
    let ch := k % cin
    let x := r * (bits w 45 44 + 1) + tap % kw * (bits w 43 42 + 1)
    let y := tap / kw * (bits w 43 42 + 1)
    decodeElem c (s.elemBits t (0x30000 + 64 * (a + y * m.desc.pitch))
      (((x * (bits w 36 32 + 1) + ch / 32) * 32 + ch % 32) * b) b)

/-- Weight element (k, n) (R118). -/
def State.weightElem (s : State) (t : Nat) (m : MacOp) (k n : Nat) : Num :=
  let c := (macTypes m.word).1
  let b := codeBits c
  decodeElem c (s.elemBits t (64 * macWaddr m.word + (32 * (k / 32) + n) * 4 * b) (k % 32 * b) b)

/-- Weight scale of group j, column n (Table 3.6), from the scale file that is active when the stream's results are taken, at
its completion (R77; DESIGN CHOICE, log 100). -/
def State.weightScale (s : State) (t : Nat) (m : MacOp) (j n : Nat) : Num :=
  let c := (macTypes m.word).1
  match m.desc.wmode with
  | 0 => .pow2 0
  | 1 => s.scaleReg t m.desc.wsbase
  | 2 => s.scaleReg t (m.desc.wsbase + n)
  | 3 => s.scaleReg t (m.desc.wsbase + 32 * j + n)
  | _ =>
    let blk := j * macG m / 32
    mxScale c (s.readByte (tileAddr t (64 * macWaddr m.word + macK m.word / 32 * 128 * codeBits c + 32 * blk + n))).toNat

/-- Activation scale of group j, row r (Table 3.6, R119). -/
def State.actScale (s : State) (t : Nat) (m : MacOp) (j r : Nat) : Num :=
  let c := (macTypes m.word).2
  match m.desc.amode with
  | 0 => s.scaleReg t m.desc.abase
  | 1 => (s.tile t).rs (m.desc.abase % 256 + r)
  | _ =>
    let k := macK m.word
    let line := macAaddr m.word + macRows m.word * lrow k c
    mxScale c (s.readByte (tileAddr t (0x30000 + 64 * line + r * (k / 32) + j * macG m / 32))).toNat

/-- Group sum P of group j for result (r, n) (R76). -/
def State.macGroup (s : State) (t : Nat) (m : MacOp) (j r n : Nat) : Num :=
  let g := macG m
  groupSum (macClass (macTypes m.word).1)
    ((List.range g).map (fun i => (s.actElem t m r (j * g + i), s.weightElem t m (j * g + i) n)))

/-- Result (r, n) and its non-finite group results (R78, R81, R120). A group counts by its sum P before the scales: one that
only a scale or the rescaling makes NaN or Inf does not (DESIGN CHOICE, log 99). -/
def State.macResult (s : State) (t : Nat) (m : MacOp) (r n : Nat) : Num × Nat :=
  let acc := if mAcc m.word then s.bankEntry t (mBank m.word) r n else Num.zero
  (List.range (macK m.word / macG m)).foldl (fun a j =>
    let p := s.macGroup t m j r n
    (groupRescale p (s.weightScale t m j n) (s.actScale t m j r) a.1, a.2 + boolNat p.nonFinite)) (acc, 0)

/-! ## Starting -/

/-- State of the weight half that a stream names (R60, R105). -/
def Tile.namedHalf (x : Tile) (w : Nat) : HalfState := if macWaddr w < 1280 then x.halfA else x.halfB

def Tile.setHalf (x : Tile) (b : Bool) (h : HalfState) : Tile := if b then { x with halfB := h } else { x with halfA := h }

/-- The tile holds a token in row fc `fc`: from its stream's first product to its last, whether or not the row limits its
shares then (R246). -/
def Tile.holdsToken (x : Tile) (fc : Nat) : Bool :=
  x.macs.any (fun m => (m.kind == .mms || m.kind == .wcs) && match m.startedAt with
    | some a => decide (fc < a + m.arrayFc)
    | none => false)

/-- Tokens of a claim in use in a row. -/
def State.tokensUsed (s : State) (row claim : Nat) : Nat :=
  let fc := (s.row row).fc
  ((List.range 32).filter (fun c =>
    let x := s.tile (32 * row + c)
    x.enabled && x.claim == claim && x.holdsToken fc)).length

/-- Conditions other than the token and its weight half under which the next stream may start now (R115, R122). -/
def State.streamFree (s : State) (t : Nat) (m : MacOp) : Bool :=
  let x := s.tile t
  let fc := s.rowFc t
  decide (m.issuedAt + 1 ≤ fc) && decide (m.notBefore ≤ fc) && !x.held m.issuedAt (macTouch m)
    && x.macs.all (fun n => match n.startedAt with
        | some a => (n.kind != .mms && n.kind != .wcs) || decide (a + n.arrayFc ≤ fc)
        | none => true)

/-- The weight half that a stream names holds its weights (R61). -/
def Tile.halfReady (x : Tile) (m : MacOp) : Bool :=
  !x.fold || x.namedHalf m.word == .ready || x.namedHalf m.word == .active

/-- Conditions other than the token under which the next stream may start now (R61, R115, R122). -/
def State.streamReady (s : State) (t : Nat) (m : MacOp) : Bool := s.streamFree t m && (s.tile t).halfReady m

/-- Start the next stream in this fc: its half becomes ACTIVE (R60). -/
def State.startStream (s : State) (t : Nat) (m : MacOp) : State :=
  let fc := s.rowFc t
  s.modTile t (fun x =>
    let y := { x with macs := x.macs.map (fun n => if n = m then { n with startedAt := some fc } else n) }
    if x.fold then y.setHalf (decide (1280 ≤ macWaddr m.word)) .active else y)

def macStreamStartOk (t : Nat) (s : State) : Bool :=
  match (s.tile t).nextStream with
  | some m => s.streamReady t m && !(s.row (t / 32)).waiting.any (fun p => p.1 == t)
  | none => false

/-- MAC_STREAM_START (R122, R246): with tokens on and none free in its share, the tile joins the waiting
tiles of its row. -/
def macStreamStartDo (t : Nat) (s : State) : State :=
  match (s.tile t).nextStream with
  | none => s
  | some m =>
    let row := t / 32
    let c := (s.tile t).claim
    let r := s.row row
    if !r.tokensOn then s.startStream t m
    else if s.tokensUsed row c < lookD r.shares c 0 ∧ !(r.waiting.any (fun p => p.2 == c)) then s.startStream t m
    else s.modRow row (fun r => { r with waiting := r.waiting ++ [(t, c)] })

def execMacStreamStart (t : Nat) (s : State) : Result := whenDue (macStreamStartOk t s) (macStreamStartDo t s)

/-- Oldest waiting tile of a claim in a row. -/
def Row.oldest (r : Row) (claim : Nat) : Option Nat := (r.waiting.find? (fun p => p.2 == claim)).map (·.1)

def heavyUnitTokenGrantOk (row claim : Nat) (s : State) : Bool :=
  match (s.row row).oldest claim with
  | some _ => !(s.row row).tokensOn || decide (s.tokensUsed row claim < lookD (s.row row).shares claim 0)
  | none => false

/-- HEAVY_UNIT_TOKEN_GRANT (R246): oldest first; its stream starts. -/
def heavyUnitTokenGrantDo (row claim : Nat) (s : State) : State :=
  match (s.row row).oldest claim with
  | none => s
  | some t =>
    let s1 := s.modRow row (fun r => { r with waiting := r.waiting.filter (fun p => p.1 != t) })
    match (s1.tile t).nextStream with
    | some m => s1.startStream t m
    | none => s1

def execHeavyUnitTokenGrant (row claim : Nat) (s : State) : Result :=
  whenDue (heavyUnitTokenGrantOk row claim s) (heavyUnitTokenGrantDo row claim s)

/-! ## Completion -/

/-- First stream, RQ or OQ of the tile that is complete at row fc `fc`, by the given time. -/
def Tile.doneMac (x : Tile) (fc : Nat) (sel : MacOp → Bool) (time : MacOp → Nat) : Option (Nat × MacOp) :=
  findAt (fun m => sel m && match m.startedAt with
    | some a => decide (a + time m ≤ fc)
    | none => false) x.macs

def MacOp.isStream (m : MacOp) : Bool := m.kind == .mms || m.kind == .wcs

def State.doneStream (s : State) (t : Nat) : Option (Nat × MacOp) :=
  (s.tile t).doneMac (s.rowFc t) MacOp.isStream (fun m => m.arrayFc + 12)

/-- Write result rows 0 to nr - 1 to the bank, with the non-finite count (R79, R120). A stream whose operands a window
write met gives unspecified values (R116). -/
def State.writeBank (s : State) (t : Nat) (m : MacOp) : State :=
  if m.unsure then s.scramble (tileAddr t (bankOffset (mBank m.word) 0 0)) (128 * macRows m.word) else
  let rs := (List.range (macRows m.word)).map (fun r => (List.range 32).map (fun n => s.macResult t m r n))
  let s1 := upTo (macRows m.word) (fun s r =>
    s.writeBytes (tileAddr t (bankOffset (mBank m.word) r 0)) ((rs.getD r []).flatMap (fun x => natLE 4 (fp32 x.1)))) s
  s1.countTile t 10 ((rs.map (fun l => (l.map (·.2)).foldl (· + ·) 0)).foldl (· + ·) 0)

/-- Reads of marked words by an instruction of the tile's own memory (R303). -/
def State.noteTouch (s : State) (t off : Nat) (k : List (Nat × Nat)) : State :=
  k.foldl (fun s p => s.noteTileRead t (off + p.1) (p.2 - p.1)) s

/-- Weight bytes that a stream reads. -/
def macWeights (m : MacOp) : Nat × Nat :=
  let c := (macTypes m.word).1
  let a := 64 * macWaddr m.word
  (a, a + macK m.word / 32 * (128 * codeBits c + (if isMx c then 32 else 0)))

/-- MAC_STREAM_COMPLETE (R79, R122): the bank is written, the stream leaves flight, and REL frees its half (R60). -/
def macStreamCompleteDo (t : Nat) (s : State) : State :=
  match s.doneStream t with
  | none => s
  | some (i, m) =>
    let s1 := ((s.writeBank t m).noteTouch t 0x30000 (macTouch m).reads).noteTouch t 0 [macWeights m]
    let s2 := s1.modTile t (fun x =>
      let y := { x with macs := dropAt x.macs i }
      if x.fold && mRel m.word then 
        let b := decide (1280 ≤ macWaddr m.word)
        let z := y.setHalf b .free
        if b then { z with freedB := some s.now } else { z with freedA := some s.now }
      else y)
    s2.startUnits t (s2.rowFc t - 1)

def execMacStreamComplete (t : Nat) (s : State) : Result :=
  whenDue (s.doneStream t).isSome (macStreamCompleteDo t s)

/-- Tq of an RQ (R128). -/
def rqFc (m : MacOp) : Nat :=
  let k := macK m.word
  let sb := if bits m.word 31 28 = 5 then 2 else 4
  macRows m.word * ceilDiv (k * sb) 64 + ceilDiv k 64 + 6

def State.doneRq (s : State) (t : Nat) : Option (Nat × MacOp) :=
  (s.tile t).doneMac (s.rowFc t) (fun m => m.kind == .rq) rqFc

/-- Quantise row r in place (R84, R127). -/
def State.rqRow (s : State) (t : Nat) (m : MacOp) (r : Nat) : State :=
  let w := m.word
  let st := bits w 31 28
  let dt := bits w 27 24
  let k := macK w
  let a := bits w 49 41
  let row := leNat (s.readBytes (tileAddr t (0x30000 + 64 * (a + r * lrow k st))) (64 * lrow k st))
  let xs := (List.range k).map (fun i => decodeElem st (elemAt (codeBits st) row i))
  let q := rowQuantise xs (if dt = 1 then 127 else 7)
  let out := packElems (codeBits dt) (q.1.map (wrapInt (codeBits dt)))
  let s1 := s.writeBytes (tileAddr t (0x30000 + 64 * (a + r * lrow k dt))) (natLE (64 * lrow k dt) out)
  let s2 := s1.modTile t (fun x => { x with rowScale := put x.rowScale ((bits w 57 50 + r) % 256) (BitVec.ofNat 16 q.2.1) })
  (s2.countTile t 9 q.2.2.1).countTile t 10 q.2.2.2

/-- RQ_COMPLETE (R127, R128). -/
def rqCompleteDo (t : Nat) (s : State) : State :=
  match s.doneRq t with
  | none => s
  | some (i, m) =>
    let s1 := upTo (macRows m.word) (fun s r => s.rqRow t m r) (s.noteTouch t 0x30000 (macTouch m).reads)
    let s2 := s1.modTile t (fun x => { x with macs := dropAt x.macs i })
    (s2.holdStreams t m.issuedAt (macTouch m)).startUnits t (s2.rowFc t)

def execRqComplete (t : Nat) (s : State) : Result := whenDue (s.doneRq t).isSome (rqCompleteDo t s)

/-- Fc after its start at which an OQ is complete (R132). -/
def oqFc (m : MacOp) : Nat := 10 + oqPushes m.word

def State.doneOq (s : State) (t : Nat) : Option (Nat × MacOp) :=
  (s.tile t).doneMac (s.rowFc t) (fun m => m.kind == .oq) oqFc

/-- Write row r of an OQ to the window (R130). -/
def State.oqWriteRow (s : State) (t : Nat) (m : MacOp) (r : Nat) : State :=
  let w := m.word
  let lo := oqRowFc w
  s.writeBytes (tileAddr t (0x30000 + 64 * (bits w 44 36 + r * lo)))
    (natLE (64 * lo) (packElems (codeBits (oDtype w)) ((s.oqRow t m r).map (·.1))))

/-- Rows of a started OQ with TOPORT = 0 whose last fc is over by row fc `fc`: row 0 takes fc i + 2 on, and each row one
fc, or two for FP32 (R132). -/
def MacOp.rowsBy (m : MacOp) (fc : Nat) : Nat :=
  match m.startedAt with
  | some b => if m.kind = .oq ∧ !oToport m.word then min (macRows m.word) ((fc - (b + 2)) / oqRowFc m.word) else 0
  | none => 0

/-- Write the rows of the tile's OQs that are over by now and are not yet in the window (R132). -/
def State.oqAdvance (s : State) (t : Nat) : State :=
  let fc := s.rowFc t
  let ms := (s.tile t).macs.filter (fun m => decide (m.rows < m.rowsBy fc))
  if ms.isEmpty then s
  else (ms.foldl (fun s m => (List.range (m.rowsBy fc - m.rows)).foldl (fun s i => s.oqWriteRow t m (m.rows + i)) s) s).modTile t
    (fun x => { x with macs := x.macs.map (fun m => { m with rows := max m.rows (m.rowsBy fc) }) })

/-- Write what is left of an OQ to the window: its rows, and the scale bytes of an MX destination (R130). -/
def State.oqWrite (s : State) (t : Nat) (m : MacOp) : State :=
  let w := m.word
  let d := bits w 44 36
  let nr := macRows w
  let scales := (List.range nr).map (fun r => BitVec.ofNat 8 (s.oqMxByte t m r))
  let s1 := upTo nr (fun s r => if r < m.rows then s else s.oqWriteRow t m r) s
  if isMx (oDtype w) then s1.writeBytes (tileAddr t (0x30000 + 64 * (d + nr))) (padTo 64 scales) else s1

/-- OQ_COMPLETE (R130, R132), with its saturations counted (R86, R87, R89). -/
def oqCompleteDo (t : Nat) (s : State) : State :=
  match s.doneOq t with
  | none => s
  | some (i, m) =>
    let sat := ((List.range (macRows m.word)).map (fun r => satSum (s.oqRow t m r))).foldl (· + ·) 0
    let s1 := if oToport m.word then s else s.oqWrite t m
    let s2 := (s1.countTile t 9 sat).modTile t (fun x => { x with macs := dropAt x.macs i })
    s2.startUnits t (s2.rowFc t - 1)

def execOqComplete (t : Nat) (s : State) : Result := whenDue (s.doneOq t).isSome (oqCompleteDo t s)

/-! ## Weight fills (R60 to R62) -/

def Tile.half (x : Tile) (b : Bool) : HalfState := if b then x.halfB else x.halfA
def Tile.fillTotal (x : Tile) (b : Bool) : Nat := if b then x.fillTotalB else x.fillTotalA
def Tile.fillCount (x : Tile) (b : Bool) : Nat := if b then x.fillB else x.fillA
/-- Bytes of one weight-store half (R60). -/
def halfSize : Nat := 81920
def halfOffset (b : Bool) : Nat := if b then halfSize else 0

/-- Bytes of a fill that declares `total` bytes reach offset o of a half (R60, R61): the burst is discarded when
the half is READY or ACTIVE. -/
def State.fillHalf (s : State) (t : Nat) (b : Bool) (o total : Nat) (data : List Byte) : State :=
  let x := s.tile t
  if x.half b == .ready || x.half b == .active then s.raise Ev.weightHalfBusy (s.tileEv t)
  else
    let n := x.fillCount b + data.length
    let done := decide (total ≤ n)
    let left := if done then 0 else n
    let want := if done then 0 else total
    let s1 := s.writeBytes (tileAddr t (halfOffset b + o)) data
    s1.modTile t (fun x =>
      let y := if b then { x with fillB := left, fillTotalB := want } else { x with fillA := left, fillTotalA := want }
      y.setHalf b (if done then .ready else .filling))

/-- WEIGHT_FILL_ARRIVAL (R60 to R62): bytes of a fill from a weight image in an S-tile, up to 64 in one fc,
in order. `total` is the byte count that the fill declares, at most one half (R231), the same in each of its
arrivals. -/
def weightFillArrivalOk (t : Nat) (half : Bool) (total : Nat) (data : List Byte) (s : State) : Bool :=
  decide (t < 768) && kindOf t == 3 && (s.tile t).fold && decide (0 < data.length) && decide (data.length ≤ 64)
    && decide ((s.tile t).fillCount half + data.length ≤ total) && decide (total ≤ halfSize)
    && ((s.tile t).half half != .filling || (s.tile t).fillTotal half == total)

def execWeightFillArrival (t : Nat) (half : Bool) (p : FillPart) (s : State) : Result :=
  whenValid (weightFillArrivalOk t half p.total p.bytes s) (s.fillHalf t half ((s.tile t).fillCount half) p.total p.bytes)

end Sys2Proof.Machine
end

