-- ==== Sys2Proof/Machine/Cva.lean ====
section
/-! DEFINITION. Claim memory as a claim sees it: reads and writes of ranges of CVAs by the headframe and by
engines, and what a tile window lets through (R45, R46, R295 to R304). -/

namespace Sys2Proof.Machine

/-! ## Tile windows (R45, R46, R95, Table 2.4) -/

/-- Offset ranges of a tile kind that can be read. -/
def windowRanges : Nat → List (Nat × Nat)
  | 3 => [(0, 0x28000), (0x30000, 0x38000), (0x40000, 0x42000), (0x50000, 0x54000), (0xF0000, 0xF8000)]
  | 2 => [(0, 0x10000), (0xF0000, 0xF8000)]
  | 1 => [(0, 0xA0000), (0xF0000, 0xF8000)]
  | _ => [(0xF0000, 0xF8000)]

def windowReadable (t o : Nat) : Bool := (windowRanges (kindOf t)).any (fun r => decide (r.1 ≤ o) && decide (o < r.2))

/-- A byte that a write of n bytes from address a may change: not the active bank, scales or banks; a
program bank takes whole words only (R46, R95). -/
def Tile.windowWritable (x : Tile) (t a n o : Nat) : Bool :=
  windowReadable t o
    && (if 0xF0000 ≤ o then a % 8 == 0 && n % 8 == 0 && (decide (0xF4000 ≤ o) != x.activeBank)
        else !(kindOf t == 3 && (decide (0x50000 ≤ o) || (decide (0x40000 ≤ o) && decide (o < 0x41000)))))

/-- Where the byte at a window offset is kept: the scale files stand in the window as active and shadow. -/
def Tile.windowPlace (x : Tile) (t o : Nat) : Nat :=
  if kindOf t = 3 ∧ 0x40000 ≤ o ∧ o < 0x42000 ∧ x.activeBank then o ^^^ 0x1000 else o

/-- A MAC stream of the tile uses the accumulator bank or window byte at an offset (R46). -/
def Tile.streamUses (x : Tile) (o : Nat) : Bool :=
  x.macs.any (fun m => m.isStream && m.startedAt.isSome &&
    ((macTouch m).bankW == some ((o - 0x50000) / 0x1000) && decide (0x50000 ≤ o) && decide (o < 0x54000)
      || (macTouch m).reads.any (fun r => decide (0x30000 + r.1 ≤ o) && decide (o < 0x30000 + r.2))))

/-! ## Device addresses -/

def isWindow (a : Nat) : Bool := decide (0x10000000000 ≤ a) && decide (a < 0x10030000000)
def windowTile (a : Nat) : Nat := (a - 0x10000000000) / 0x100000
def windowOff (a : Nat) : Nat := a % 0x100000

/-- The address lies on another device (R361). -/
def isRemote (a : Nat) : Bool := decide (0x800000000000 ≤ a)
def remoteDevice (a : Nat) : Nat := (a - 0x800000000000) / 0x10000000000
def remoteOff (a : Nat) : Nat := a % 0x10000000000

/-- First address of a read at which it meets an unwritten word: the address that the access names (R303). -/
def readPlace (cva a w : Nat) : Nat := cva + (8 * w - a)

/-! ## One run of bytes with one translation -/

/-- First byte of a run that an access of n bytes from address a may not read or write (R46, R95). -/
def State.runBad (s : State) (p : Phys) (len : Nat) (write : Bool) (access : Nat × Nat) : Option Nat :=
  if isWindow p.addr then
    let t := windowTile p.addr
    (((List.range len).map (windowOff p.addr + ·)).find? (fun o =>
      if write then !(s.tile t).windowWritable t access.1 access.2 o else !windowReadable t o)).map (tileAddr t)
  else none

/-- The one violation of an access, with its first forbidden byte (R46). -/
def State.windowViolation (s : State) (claim : Nat) (bad : Option Nat) : State :=
  match bad with
  | none => s
  | some a => s.raise Ev.tileWindowViolation { (s.tileEv (windowTile a)) with claim := claim, addr := a }

/-- A byte of a tile window (R46): 0 where it cannot be read, unspecified while a MAC stream uses it. -/
def State.windowByte (s : State) (t o : Nat) : Byte :=
  let x := s.tile t
  if !windowReadable t o then 0
  else if kindOf t == 3 && x.streamUses o then BitVec.ofNat 8 (Config.freeBits (Nat.pair s.free o))
  else s.readByte (tileAddr t (x.windowPlace t o))

/-- A byte through a translation. What another device's memory holds is not this device's state: it is free. -/
def State.peekPhys (s : State) (p : Phys) : Byte :=
  if isRemote p.addr then BitVec.ofNat 8 (Config.freeBits (Nat.pair s.free p.addr))
  else if isWindow p.addr then s.windowByte (windowTile p.addr) (windowOff p.addr)
  else s.readPhys p

/-- Read a run of bytes, at the address `cva` of the access. -/
def State.takeRun (s : State) (claim cva : Nat) (p : Phys) (n : Nat) : State × List Byte :=
  let bs := (List.range n).map (fun i => s.peekPhys { p with addr := p.addr + i })
  if isRemote p.addr then ((s.draw).emit (.remoteRead (remoteDevice p.addr) (remoteOff p.addr) n), bs)
  else
    ((match s.unwrittenWords p.addr n with
      | [] => s
      | w :: ws => s.uninitRead claim (readPlace cva p.addr w) (ws.length + 1)).draw, bs)

/-- Hazard of R116: a write into memory that a stream in flight reads leaves that stream's results unspecified. The
halves of a folding store are governed by R60 and R61 alone. -/
def State.taintStreams (s : State) (t o n : Nat) : State :=
  let meets (r : Nat × Nat) (base : Nat) : Bool := decide (base + r.1 < o + n) && decide (o < base + r.2)
  s.modTile t (fun x => { x with macs := x.macs.map (fun m =>
    if m.isStream && m.startedAt.isSome && ((macTouch m).reads.any (fun r => meets r 0x30000) || (!x.fold && meets (macWeights m) 0))
    then { m with unsure := true } else m) })

/-- Write bytes of a run into a tile window. Bytes in a weight-store half of a folding tile arrive as fill bytes
(R60). -/
def State.windowWrite (s : State) (claim t o : Nat) (access : Nat × Nat) (noted : Bool) (bs : List Byte) : State :=
  let x := s.tile t
  let ok := ((List.range bs.length).map (fun i => (o + i, bs.getD i 0))).filter (fun p => x.windowWritable t access.1 access.2 p.1)
  let banked := bs.zipIdx.filter (fun p => decide (0x40000 ≤ o + p.2))
  let s1 := match banked with
    | [] => s
    | b :: _ =>
      let old := (ok.filter (fun p => decide (0x40000 ≤ p.1))).map (fun p =>
        let a := tileAddr t (x.windowPlace t p.1)
        (a, s.readByte a))
      let w : WindowWrite := { fc := s.now, claim := claim, first := o + b.2, bytes := banked.map (·.1), access := access, noted := noted, old := old }
      s.modTile t (fun y => { y with landed := y.landed.filter (fun v => v.fc == s.now) ++ [w] })
  let s2 := if kindOf t = 3 then s1.taintStreams t o bs.length else s1
  if kindOf t == 3 && x.fold && decide (o < 0x28000) then
    let a := (ok.filter (fun p => decide (p.1 < 0x14000))).map (·.2)
    let b := (ok.filter (fun p => decide (0x14000 ≤ p.1) && decide (p.1 < 0x28000))).map (·.2)
    let s3 := if a.isEmpty then s2 else s2.fillHalf t false o halfSize a
    if b.isEmpty then s3 else s3.fillHalf t true (max o 0x14000 - 0x14000) halfSize b
  else ok.foldl (fun s p => s.writeBytes (tileAddr t (x.windowPlace t p.1)) [p.2]) s2

/-- Write a run of bytes: both copies of a dual page (R293). -/
def State.putRun (s : State) (claim : Nat) (p : Phys) (access : Nat × Nat) (noted : Bool) (bs : List Byte) : State :=
  if isRemote p.addr then
    let s1 := s.emit (.remoteWrite (remoteDevice p.addr) (remoteOff p.addr) bs)
    if p.dual then s1.emit (.remoteWrite (remoteDevice p.addr) (remoteOff p.addr + 0x2000) bs) else s1
  else if isWindow p.addr then s.windowWrite claim (windowTile p.addr) (windowOff p.addr) access noted bs
  else
    let s1 := s.writeBytes p.addr bs
    if p.dual then s1.writeBytes (p.addr + 0x2000) bs else s1

/-- An access that is one run: a side of a hoist burst. -/
def State.runRead (s : State) (claim cva : Nat) (p : Phys) (n : Nat) : State × List Byte :=
  (s.windowViolation claim (s.runBad p n false (cva, n))).takeRun claim cva p n

def State.runWrite (s : State) (claim : Nat) (p : Phys) (bs : List Byte) : State :=
  let access := (p.addr, bs.length)
  let bad := s.runBad p bs.length true access
  (s.windowViolation claim bad).putRun claim p access bad.isSome bs

/-- A SWAP tick takes the banks of a tile: writes of this fc to memory that it exchanges land after it (R96). The
answer holds those writes, and memory is as before them. -/
def State.unland (s : State) (t : Nat) : State × List WindowWrite :=
  let ws := (s.tile t).landed.filter (fun w => w.fc == s.now)
  ((ws.reverse.foldl (fun s w => w.old.foldl (fun s b => s.writeBytes b.1 [b.2]) s) s).modTile t (fun x => { x with landed := [] }), ws)

def State.reland (s : State) (t : Nat) (ws : List WindowWrite) : State :=
  ws.foldl (fun s w =>
    let p : Phys := { addr := tileAddr t w.first, dual := false, write := true }
    let bad := s.runBad p w.bytes.length true w.access
    (if w.noted then s else s.windowViolation w.claim bad).windowWrite w.claim t w.first w.access (w.noted || bad.isSome) w.bytes) s

/-! ## Ranges of CVAs -/

/-- Every byte of the range is mapped, and writable if asked. Leaves are at least 64 KiB. -/
def State.mapped (s : State) (claim cva n : Nat) (write : Bool) : Bool :=
  n == 0 || (List.range ((cva + n - 1) / 0x10000 - cva / 0x10000 + 1)).all (fun i =>
    (s.translate claim (if i = 0 then cva else (cva / 0x10000 + i) * 0x10000) write).isSome)

/-- Cut a range at page boundaries: leaves are at least 64 KiB, so each piece has one translation. -/
def pieces (cva : Nat) : Nat → Nat → List (Nat × Nat)
  | 0, _ => []
  | _ + 1, 0 => []
  | k + 1, n =>
    let m := min n (0x10000 - cva % 0x10000)
    (cva, m) :: pieces (cva + m) k (n - m)

def piecesOf (cva n : Nat) : List (Nat × Nat) := pieces cva (n / 0x10000 + 2) n

/-- The mapped pieces of a range: CVA, length, translation. -/
def State.runsOf (s : State) (claim cva n : Nat) (write : Bool) : List (Nat × Nat × Phys) :=
  (piecesOf cva n).filterMap (fun p => (s.translate claim p.1 write).map (fun q => (p.1, p.2, q)))

/-- Read n bytes of claim memory, if all are mapped: what is read. -/
def State.readCva (s : State) (claim cva n : Nat) : Option (List Byte) :=
  if s.mapped claim cva n false then
    some ((List.range n).map (fun i => match s.translate claim (cva + i) false with
      | some p => s.peekPhys p
      | none => 0))
  else none

/-- What such a read does: it counts the marked words that it meets (R303), and raises its violation (R46). -/
def State.noteCvaRead (s : State) (claim cva n : Nat) : State :=
  let s1 := s.windowViolation claim ((s.runsOf claim cva n false).findSome? (fun r => s.runBad r.2.2 r.2.1 false (cva, n)))
  let marked := ((List.range (ceilDiv (cva % 8 + n) 8)).map (fun i => if i = 0 then cva else cva / 8 * 8 + 8 * i)).filter
    (fun a => match s.translate claim a false with
      | some p => s.isUnwritten p.addr
      | none => false)
  match marked with
  | [] => s1
  | a :: _ => s1.uninitRead claim a marked.length

/-- An access that reads a range of CVAs, as one access (R46). -/
def State.accessRead (s : State) (claim cva n : Nat) : State × List Byte :=
  let runs := s.runsOf claim cva n false
  let s1 := s.windowViolation claim (runs.findSome? (fun r => s.runBad r.2.2 r.2.1 false (cva, n)))
  runs.foldl (fun (a : State × List Byte) r => let b := a.1.takeRun claim r.1 r.2.2 r.2.1; (b.1, a.2 ++ b.2)) (s1, [])

/-- Write bytes from a CVA where it is mapped, as one access (R46). -/
def State.putCva (s : State) (claim cva : Nat) (bs : List Byte) : State :=
  let runs := s.runsOf claim cva bs.length true
  let bad := runs.findSome? (fun r => s.runBad r.2.2 r.2.1 true (cva, bs.length))
  runs.foldl (fun s r => s.putRun claim r.2.2 (cva, bs.length) bad.isSome ((bs.drop (r.1 - cva)).take r.2.1)) (s.windowViolation claim bad)

/-- Write bytes of claim memory, if all are mapped and writable. -/
def State.writeCva (s : State) (claim cva : Nat) (bs : List Byte) : Option State :=
  if s.mapped claim cva bs.length true then some (s.putCva claim cva bs) else none

end Sys2Proof.Machine
end

