-- ==== Sys2Proof/Machine/Scratch.lean ====
section
/-! DEFINITION. Scratch loads and stores, FENCE, LOCK and UNLOCK (chapter 6). -/

namespace Sys2Proof.Machine

/-- Latency of a route: 1 fc per hop and 2 fc more for each crossing between rows (R159, R204). -/
def RouteRec.latency (r : RouteRec) : Nat :=
  r.hops + 2 * ((List.range r.hops).filter (fun i => bits r.path (2 * i + 1) (2 * i) % 2 == 0)).length

/-- Latency of the scratch route of a thread to an S-tile; 0 where the image declares none. -/
def State.scratchLatency (s : State) (t th stile : Nat) : Nat :=
  let l := (s.tile t).logical
  match (s.image (s.tile t).image).routes.find? (fun r => r.kind == 3 && r.src == l && r.entry == th && r.dest == stile) with
  | some r => r.latency
  | none => 0

/-- Byte address of a scratch word: (g[BASE] + OFFSET) mod 2^32 (R158). -/
def State.scratchAddr (s : State) (t th w : Nat) : Nat := ((s.g t th (xBase w)).toNat + xOffset w) % 2 ^ 32

/-- Size of the access. -/
def scratchSize (w : Nat) : Nat := if wOp w = 0x20 ∨ wOp w = 0x21 then 2 ^ xWidth w else 64

/-- The address is aligned and inside the data SRAM (R158). -/
def scratchOk (a n : Nat) : Bool := a % n == 0 && decide (a + n ≤ 655360)

/-- The thread holds another line, between its LOCK and its UNLOCK: the access is forbidden, and the lock is freed (R162). -/
def State.outsideLock (s : State) (t th st a : Nat) : Bool :=
  match (s.thread t th).lock with
  | some (l, line) => !(l == st && line == a / 64 * 64)
  | none => false

def State.lockSequence (s : State) (t th : Nat) : State :=
  (((s.freeLock t th).raise Ev.lockSequenceInvalid (s.tileEv t))).mustMiss t

/-- Checks shared by scratch words; `body` gets the byte address. -/
def State.scratchAccess (s : State) (t th w : Nat) (body : Nat → State → State) : State :=
  let a := s.scratchAddr t th w
  if !scratchOk a (scratchSize w) then (s.raise Ev.scratchAddressInvalid (s.tileEv t)).mustMiss t
  else if s.outsideLock t th (xStile w) a then s.lockSequence t th
  else body a s

/-- Queue a load (R159). -/
def State.scratchLoad (s : State) (t th w : Nat) (vector : Bool) : State :=
  s.scratchAccess t th w (fun a s =>
    let due := s.rowFc t + 2 * s.scratchLatency t th (xStile w) + 4
    let n := (s.thread t th).accesses + 1
    let r := (if vector then 32 else 0) + xReg w
    let q : Scratch := { load := true, thread := th, order := (s.thread t th).stores, number := n, reg := xReg w, vector := vector
                         size := scratchSize w, signed := xSx w, stile := xStile w, offset := a, due := due }
    ((s.modTile t (fun x => { x with scratch := x.scratch ++ [q] })).modThread t th (fun x => { x.keep r with accesses := n })).awaitReg
      t th r)

/-- What ST (`vector` false) or STV stores. -/
def State.storeData (s : State) (t th w : Nat) (vector : Bool) : Line :=
  if vector then s.v t th (xReg w) else BitVec.ofNat 512 (s.g t th (xReg w)).toNat

/-- The store as the slot notes it: S-tile, offset, size, value. -/
def State.storeRecord (s : State) (t th w : Nat) (vector : Bool) : Nat × Nat × Nat × Nat :=
  (xStile w, s.scratchAddr t th w, scratchSize w, (s.storeData t th w vector).toNat % 2 ^ (8 * scratchSize w))

/-- After a replay, the store is the one that the slot made before it (R375). -/
def State.storeRepeats (s : State) (t th w : Nat) (vector : Bool) : Bool :=
  (lookD (s.tile t).slots th {}).again.head?.all (fun e => e == s.storeRecord t th w vector)

/-- Queue a store (R159). A store that a replay does not repeat, and one of a thread whose results are unspecified, carry
a free value (R190, R375). -/
def State.scratchStore (s : State) (t th w : Nat) (vector : Bool) : State :=
  s.scratchAccess t th w (fun a s =>
    let due := s.rowFc t + s.scratchLatency t th (xStile w) + 2
    let n := (s.thread t th).stores + 1
    let m := (s.thread t th).accesses + 1
    let unsure := (s.thread t th).unsure || !s.storeRepeats t th w vector
    let q : Scratch := { load := false, thread := th, order := n, number := m, reg := 0, vector := vector
                         size := scratchSize w, stile := xStile w, offset := a
                         data := if unsure then BitVec.ofNat 512 s.drawn else s.storeData t th w vector, due := due }
    let u := lookD (s.tile t).slots th {}
    let slot : Slot := { u with stores := u.stores ++ [s.storeRecord t th w vector], again := u.again.drop 1 }
    ((if unsure then s.draw else s).modTile t (fun x => { x with
      scratch := x.scratch ++ [q], slots := put x.slots th slot })).modThread t th
      (fun x => { x with stores := n, accesses := m, unsure := unsure }))

/-- LD (R158). -/
def execLd (t th : Nat) (s : State) : Result := s.instr t th 0x20 (fun w s => s.scratchLoad t th w false)
/-- ST (R158). -/
def execSt (t th : Nat) (s : State) : Result := s.instr t th 0x21 (fun w s => s.scratchStore t th w false)
/-- LDV (R158). -/
def execLdv (t th : Nat) (s : State) : Result := s.instr t th 0x22 (fun w s => s.scratchLoad t th w true)
/-- STV (R158). -/
def execStv (t th : Nat) (s : State) : Result := s.instr t th 0x23 (fun w s => s.scratchStore t th w true)

/-- Accesses of a thread that have not been performed. -/
def Tile.scratchPending (x : Tile) (th : Nat) : Bool := x.scratch.any (fun q => q.thread == th)

/-- FENCE (R160). -/
def execFence (t th : Nat) (s : State) : Result :=
  s.instr t th 0x24 (fun _ s => if (s.tile t).scratchPending th then s.beginWait t th .fence else s)

/-- LOCK asks the S-tile for the line and waits (R161). -/
def execLock (t th : Nat) (s : State) : Result :=
  s.instr t th 0x25 (fun w s => s.scratchAccess t th w (fun a s =>
    let p := s.physical (xStile w)
    let due := s.rowFc p + s.scratchLatency t th (xStile w) + 2
    (s.modTile p (fun x => { x with lockReqs := x.lockReqs ++ [(a, t, th, due)] })).beginWait t th (.lock (xStile w) a)))

/-- UNLOCK frees the line once every access that the thread issued before it is performed (R161). -/
def execUnlock (t th : Nat) (s : State) : Result :=
  s.instr t th 0x26 (fun w s => s.scratchAccess t th w (fun _ s =>
    if (s.tile t).scratchPending th then s.modThread t th (fun x => { x with
      lock := none, unlocks := x.unlocks ++ (x.lock.map (fun l => (l.1, l.2, x.accesses))).toList })
    else s.freeLock t th))

/-! ## Happenings -/

/-- An access of another thread holds the line: the access waits at the S-tile (R161). -/
def State.lineHeld (s : State) (t th st a : Nat) : Bool :=
  (s.tile (s.physical st)).locks.any (fun l => l.1 == a / 64 * 64 && !(l.2.1 == t && l.2.2 == th))

/-- The S-tile is one of the tile's claim; an access elsewhere is unchecked and reaches nothing (Table 4.5). -/
def State.scratchTarget (s : State) (t st : Nat) : Bool :=
  let p := s.physical st
  kindOf p == 1 && (s.tile p).enabled && (s.tile p).claim == (s.tile t).claim

/-- Bytes that a load sees: memory, under the earlier stores of the same thread that are still on their
way (R164 rule 3). -/
def State.loadBytes (s : State) (t : Nat) (q : Scratch) : Nat :=
  let p := s.physical q.stile
  let mine := (s.tile t).scratch.filter (fun r => !r.load && r.thread == q.thread && r.stile == q.stile && decide (r.order ≤ q.order))
  leNat ((List.range q.size).map (fun i =>
    mine.foldl (fun b r => if r.offset ≤ q.offset + i ∧ q.offset + i < r.offset + r.size
      then BitVec.ofNat 8 (r.data.toNat >>> (8 * (q.offset + i - r.offset))) else b)
      (s.readByte (tileAddr p (q.offset + i)))))

/-- A load's register value: zero-extended, or sign-extended with SX = 1 (R158). -/
def Scratch.extend (q : Scratch) (x : Nat) : Nat :=
  if q.signed then wrapInt 32 (signedOf (8 * q.size) x) else x

/-- Complete each UNLOCK of a thread whose earlier accesses are all performed (R161). -/
def State.settleUnlocks (s : State) (t th : Nat) : State :=
  let waits (u : Nat × Nat × Nat) : Bool := (s.tile t).scratch.any (fun q => q.thread == th && decide (q.number ≤ u.2.2))
  let us := (s.thread t th).unlocks
  if us.all waits then s
  else ((us.filter (fun u => !waits u)).foldl (fun s u => s.freeLine t th u.1 u.2.1) s).modThread t th
    (fun x => { x with unlocks := us.filter waits })

/-- A thread whose accesses are all performed passes its FENCE; an UNLOCK needs only those before it (R160, R161). -/
def State.scratchSettled (s : State) (t th : Nat) : State :=
  let s1 := s.settleUnlocks t th
  if (s1.tile t).scratchPending th then s1
  else match (s1.thread t th).wait with
    | .fence => s1.wakeThread t th
    | _ => s1

def scratchLoadReturnOk (t i : Nat) (s : State) : Bool :=
  match (s.tile t).scratch[i]? with
  | some q => q.load && decide (q.due ≤ s.rowFc t) && !s.lineHeld t q.thread q.stile q.offset
  | none => false

/-- SCRATCH_LOAD_RETURN (R158, R159, R303). -/
def scratchLoadReturnDo (t i : Nat) (s : State) : State :=
  match (s.tile t).scratch[i]? with
  | none => s
  | some q =>
    let owned := s.scratchTarget t q.stile
    let x := if owned then q.got.getD (s.loadBytes t q) else s.drawn
    let s1 := if owned then s.noteTileRead (s.physical q.stile) q.offset q.size else s.draw
    let s2 := s1.modTile t (fun y => { y with scratch := dropAt y.scratch i })
    let r := (if q.vector then 32 else 0) + q.reg
    let s3 := if q.vector then s2.setV t q.thread q.reg 0 (BitVec.ofNat 512 x)
      else s2.setG t q.thread q.reg 0 (BitVec.ofNat 32 (q.extend x))
    (s3.arriveReg t q.thread r).scratchSettled t q.thread

def execScratchLoadReturn (t i : Nat) (s : State) : Result :=
  whenDue (scratchLoadReturnOk t i s) (scratchLoadReturnDo t i s)

/-- A thread's stores are performed in program order (R164). -/
def scratchStorePerformedOk (t i : Nat) (s : State) : Bool :=
  match (s.tile t).scratch[i]? with
  | some q => !q.load && decide (q.due ≤ s.rowFc t) && !s.lineHeld t q.thread q.stile q.offset
      && (s.tile t).scratch.all (fun r => r.load || r.thread != q.thread || decide (q.order ≤ r.order))
  | none => false

/-- A store does not overtake an earlier load of its thread: the load has taken its bytes (R164). -/
def State.takeEarlier (s : State) (t : Nat) (q : Scratch) : State :=
  s.modTile t (fun y => { y with scratch := y.scratch.map (fun r =>
    if r.load && r.thread == q.thread && r.stile == q.stile && decide (r.number < q.number) && r.got.isNone
      && decide (r.offset < q.offset + q.size) && decide (q.offset < r.offset + r.size)
    then { r with got := some (s.loadBytes t r) } else r) })

/-- SCRATCH_STORE_PERFORMED (R159, R164, R304). -/
def scratchStorePerformedDo (t i : Nat) (s : State) : State :=
  match (s.tile t).scratch[i]? with
  | none => s
  | some q =>
    let s1 := if s.scratchTarget t q.stile
      then (s.takeEarlier t q).writeBytes (tileAddr (s.physical q.stile) q.offset) ((lineBytes q.data).take q.size) else s
    (s1.modTile t (fun y => { y with scratch := dropAt y.scratch i })).scratchSettled t q.thread

def execScratchStorePerformed (t i : Nat) (s : State) : Result :=
  whenDue (scratchStorePerformedOk t i s) (scratchStorePerformedDo t i s)

/-- The request for the line that reached the S-tile first. -/
def Tile.oldestLock (x : Tile) (line : Nat) : Option (Nat × Nat × Nat × Nat) :=
  (x.lockReqs.filter (fun r => r.1 == line)).foldl (fun b r => match b with
    | none => some r
    | some q => if r.2.2.2 < q.2.2.2 then some r else some q) none

def lockGrantOk (t line : Nat) (s : State) : Bool :=
  let x := s.tile t
  match x.oldestLock line with
  | some r => decide (r.2.2.2 ≤ s.rowFc t) && !(x.locks.any (fun l => l.1 == line)) && decide (x.locks.length < 16)
  | none => false

/-- LOCK_GRANT (R161): the oldest request gets the free line. -/
def lockGrantDo (t line : Nat) (s : State) : State :=
  match (s.tile t).oldestLock line with
  | none => s
  | some r =>
    let s1 := s.modTile t (fun x => { x with lockReqs := x.lockReqs.erase r, locks := x.locks ++ [(line, r.2.1, r.2.2.1)] })
    (s1.modThread r.2.1 r.2.2.1 (fun y => { y with lock := some ((s.tile t).logical, line) })).wakeThread r.2.1 r.2.2.1

def execLockGrant (t line : Nat) (s : State) : Result := whenDue (lockGrantOk t line s) (lockGrantDo t line s)

end Sys2Proof.Machine
end

