-- ==== Sys2Proof/Machine/Start.lean ====
section
/-! DEFINITION. What an image gives its tiles: ports, bells and start values of threads (Table 2.5), the
start of an image on a tile, and which objects belong to an image or a pipeline. -/

namespace Sys2Proof.Machine

/-! ## Objects of an image -/

/-- Skips of an image. -/
def State.imageSkips (s : State) (h : Nat) : List Nat := (s.image h).skips.map SkipRec.id

/-- Pipelines bound to a domain, in ascending id. -/
def State.pipesOf (s : State) (d : Nat) : List Nat := (s.pipes.filter (fun p => p.1 / 32 == d)).map (·.1)

/-- Stages that have a thread, in ascending order. -/
def State.stagesOf (s : State) (h : Nat) : List Nat :=
  (List.range 255).filter (fun g => (s.imageTiles h).any (fun t => (s.tile t).stage == g && (s.tile t).threadsUsed != 0))

/-- Skip of a hardware end that serves a channel (R428): 1 ingest, 2 decision, 3 hold. -/
def State.hwSkip (s : State) (h role ch : Nat) : Option Nat :=
  ((s.image h).skips.find? (fun r => r.role == role && decide (r.hwChannel ≤ ch) && decide (ch < r.hwChannel + r.hwCount))).map
    SkipRec.id

/-! ## Binding of ports and bells (Table 9.5, Table 9.6, R427) -/

/-- Latency of a route as the positions now stand: a replaced end adds 1 fc for each column and, for an
F-tile, 2 fc for each row crossing of the redirect (R379). -/
def State.redirect (s : State) (id : Nat) : Nat :=
  let p := s.physical id
  let dist (a b : Nat) : Nat := (a - b) + (b - a)
  if p = id then 0 else dist (p % 32) (id % 32) + 2 * dist (p / 32) (id / 32)

def State.routeLat (s : State) (r : RouteRec) : Nat :=
  let owner := if r.kind ≤ 1 ∨ r.kind = 4 then r.dest / 80 else r.dest
  r.latency + s.redirect r.src + s.redirect owner

/-- Four-bit record of entry i. -/
def nibble (x i : Nat) : Nat := bits x (4 * i + 3) (4 * i)

/-- Transmit streams stand behind the skips: lanes from 65,536 on, Ethernet ports from 65,600 on (R259). -/
def txStreamSkip (x : Bool × Nat) : Nat := (if x.1 then 65600 else 65536) + x.2

/-- The transmit stream that an A-tile output port feeds. -/
def txSkip (tile p : Nat) : List Nat :=
  if kindOf tile = 0 then ((Config.txStream tile p).map txStreamSkip).toList else []

/-- A record leaves or enters the device (Table 14.1). -/
def Image.meshOf (x : Image) (i : Nat) : Option MeshRec := x.mesh.find? (fun m => m.route == i)
def Image.egress (x : Image) (i : Nat) : Bool := (x.meshOf i).any (fun m => m.direction == 0)

/-- The producer's side of a cross-device skip stands behind the skips: route i of image h (R357). -/
def egressSkip (h i : Nat) : Nat := 0x20000 + 0x10000 * h + i

/-- Ports of a tile; counts of pushes go on over a SWAP. A direct route (KIND 5) reaches no port: the spec names no port and
no instruction that sends or reads data on one (DESIGN CHOICE, log 98). -/
def State.portsFor (s : State) (h : Nat) (x : Image) (r : TileRec) (old : Tab Port) : Tab Port :=
  ((List.range 32).filter (fun p => bitAt (nibble r.ports p) 3)).map (fun p =>
    let n := nibble r.ports p
    let out := bitAt n 2
    let dests := if out
      then (x.routes.zipIdx.filter (fun q => decide (q.1.kind ≤ 1) && q.1.src == r.tile && q.1.entry == p)).map
        (fun q => (if x.egress q.2 then egressSkip h q.2 else q.1.dest, s.routeLat q.1)) ++ (txSkip r.tile p).map (fun k => (k, 0))
      else ((x.skips.filter (fun k => k.id / 80 == r.tile && k.consumerPort == 128 + p)).map (fun k => (k.id, 0))).take 1
    let o := (look old p).getD { thread := 0, output := out }
    (p, { o with thread := n % 4, output := out, dests := dests }))

def State.bellsFor (s : State) (x : Image) (r : TileRec) : Tab Bell :=
  ((List.range 32).filter (fun b => bitAt (nibble r.bells b) 3)).map (fun b =>
    let n := nibble r.bells b
    (b, { thread := n % 4, send := bitAt n 2
          dests := (x.routes.filter (fun q => q.kind == 2 && q.src == r.tile && q.entry == b)).map
            (fun q => (q.dest, q.destEntry, s.routeLat q)) }))

def countersFor (r : TileRec) : Tab Nat :=
  ((List.range 4).filter (fun c => bitAt (nibble r.counters c) 3)).map (fun c => (c, nibble r.counters c % 4))

/-- A thread at the start of an image (Table 2.5); its checkpoint is taken with it (R372). -/
def startThread (x : Image) (r : TileRec) (th fc : Nat) : Thread :=
  let inits := ((x.inits.drop r.initFirst).take r.initCount).filter (fun i => i.1 == th)
  let regs : Regs := { g := inits.foldl (fun (g : Tab Word) i => put g i.2.1 (BitVec.ofNat 32 i.2.2)) []
                       pc := r.starts.getD th 0 }
  { mode := .running, regs := regs, checkpoint := regs, readyAt := fc + 1 }

/-- Start the image on one tile: the banks exchange, threads, counters, ports and bells take the image's
values (R56, Table 2.5), and no tick has reached it yet (R170). -/
def State.startTile (s : State) (h : Nat) (r : TileRec) : State :=
  let x := s.image h
  let t := s.physical r.tile
  let fc := s.rowFc t
  let old := (s.tile t).ports
  let threads := ((List.range 4).filter (fun th => bitAt r.threads th)).map (fun th => (th, startThread x r th fc))
  let ports := s.portsFor h x r old
  let bells := s.bellsFor x r
  s.modTile t (fun y => { y with
    enabled := true, claim := x.claim, group := r.flags / 16, fold := bitAt r.flags 0, threadsUsed := r.threads
    image := h, stage := r.stage, activeBank := !y.activeBank, shadowValid := false, threads := threads
    counters := countersFor r, ports := ports, bells := bells, lastIssued := 3, restart := [], slots := []
    restartAt := none, shiftFc := none, nextSlot := 0, missMark := false, degradedMark := false })

/-- Producer and consumer ends of a skip of an image (R427, R428, Table 9.7). -/
def State.skipEnds (s : State) (h : Nat) (k : SkipRec) : State :=
  let x := s.image h
  let route := (x.routes.zipIdx.find? (fun q => decide (q.1.kind ≤ 1) && q.1.dest == k.id && !x.egress q.2)).map (·.1)
  let peer := (x.routes.zipIdx.findSome? (fun q => if q.1.dest = k.id then x.meshOf q.2 else none)).filter (fun m => m.direction == 1)
  let fetch := x.routes.find? (fun q => q.kind == 4 && q.dest == k.id)
  let lat := (route.map s.routeLat).getD 0
  let flat := (fetch.map (fun q => 2 * s.routeLat q + 4)).getD 0
  s.modSkip k.id (fun y => { y with cfg := { y.cfg with
    image := h, consumer := k.id / 80
    port := if 128 ≤ k.consumerPort then some (k.consumerPort % 32) else none
    producer := route.map (fun q => (q.src, q.entry)), routeLatency := lat, fetchLatency := flat
    peer := peer.map MeshRec.peerDevice } })

/-- Transmit streams of an image: a push width of 64 bytes and 64 KiB (R259). -/
def State.startStreams (s : State) (h : Nat) (r : TileRec) : State :=
  let x := s.image h
  upTo 32 (fun s p => (txSkip r.tile p).foldl (fun s k => s.modSkip k (fun y =>
    if y.cfg.valid && y.cfg.image == h then y
    else { cfg := { valid := true, pushWidth := 6, size := 0x10000, claim := x.claim, consumer := r.tile
                    producer := some (r.tile, p), image := h }, credit := 1024 })) s) s

/-- Start an image on all its tiles (R56, R372). -/
def State.startImage (s : State) (h : Nat) : State :=
  let s1 := (s.image h).tiles.foldl (fun s r => (s.startTile h r).startStreams h r) s
  (s1.image h).skips.foldl (fun s k => s.skipEnds h k) s1

/-! ## Stopping what a thread started (R168, R373) -/

/-- A tile whose next stream is gone waits for no token (R246). -/
def State.leaveTokens (s : State) (t : Nat) (old : Option MacOp) : State :=
  if (s.tile t).nextStream = old then s
  else s.modRow (t / 32) (fun r => { r with waiting := r.waiting.filter (fun w => w.1 != t) })

/-- Stop the streams, calls, block moves and scratch loads of the threads `sel` selects: their destinations
hold unspecified values (R168). -/
def State.stopUnits (s : State) (t : Nat) (sel : Nat → Bool) : State :=
  let x := s.tile t
  let macs := x.macs.filter (fun m => sel m.thread)
  let moves := x.moves.filter (fun m => sel m.thread && !m.push)
  let fns := x.fns.filter (fun f => sel f.thread)
  let loads := x.scratch.filter (fun q => q.load && sel q.thread)
  let off := blockMemory (kindOf t)
  let s1 := s.modTile t (fun x => { x with
    macs := x.macs.filter (fun m => !sel m.thread), moves := x.moves.filter (fun m => !sel m.thread)
    fns := x.fns.filter (fun f => !sel f.thread), scratch := x.scratch.filter (fun q => !(q.load && sel q.thread)) })
  let s2 := macs.foldl (fun s m =>
    let k := macTouch m
    let s1 := k.writes.foldl (fun s (r : Nat × Nat) => s.scramble (tileAddr t (0x30000 + r.1)) (r.2 - r.1)) s
    let s2 := match k.bankW with
      | some b => s1.scramble (tileAddr t (bankOffset b 0 0)) 4096
      | none => s1
    match k.rsW with
    | some (a, b) =>
      ((List.range (b - a)).foldl (fun s i =>
        (s.modTile t (fun x => { x with rowScale := put x.rowScale (a + i) (BitVec.ofNat 16 s.drawn) })).draw) s2)
    | none => s2) s1
  let s3 := moves.foldl (fun s m => s.scramble (tileAddr t (off.2 + m.addr)) (64 * m.count)) s2
  let s4 := fns.foldl (fun s f => ((fnRanges f.unit f.desc).2).foldl
    (fun s (r : Nat × Nat) => s.scramble (tileAddr t r.1) r.2) s) s3
  let s5 := loads.foldl (fun s q =>
    if q.vector then (s.modRegs t q.thread (fun r => { r with v := put r.v q.reg (BitVec.ofNat 512 s.drawn) })).draw
    else (s.modRegs t q.thread (fun r => { r with g := put r.g q.reg (BitVec.ofNat 32 s.drawn) })).draw) s4
  let s6 := upTo 4 (fun s th => if sel th then (s.modThread t th (fun x => { x with await := [], busy := [] })).scratchSettled t th else s) s5
  (s6.leaveTokens t x.nextStream).startUnits t (s6.rowFc t)

end Sys2Proof.Machine
end

