-- ==== Sys2Proof/Machine/Release.lean ====
section
/-! DEFINITION. What a tick does to a pipeline: aborts and misses, missing frames, the rate check, the release
of decision words, the hold and its copies, swaps, starts and stops (chapters 1, 2, 6, 7 and 12). -/

namespace Sys2Proof.Machine

/-! ## Thread aborts (R168) -/

/-- Word of the WAITTICK inside a loop body. -/
def State.waittickOf (s : State) (t : Nat) (f : LoopFrame) : Option Nat :=
  ((List.range (f.last + 1 - f.first)).map (· + f.first)).find? (fun pc => wOp (s.word t pc) == 0x10)

/-- The open frame of the perpetual body, with what is inside it dropped. -/
def Regs.perpetual (r : Regs) : List LoopFrame := r.loops.dropWhile (fun f => f.trip != 0)

/-- Steps 1 to 3 of R168 for one thread. -/
def State.abortClear (s : State) (t th : Nat) : State :=
  let s1 := (s.stopUnits t (fun k => k == th)).breakLock t th
  let s2 := match (s1.thread t th).wait with
    | .lock st _ => s1.modTile (s1.physical st) (fun x => { x with
        lockReqs := x.lockReqs.filter (fun q => !(q.2.1 == t && q.2.2.1 == th)) })
    | _ => s1
  let routes := ((s2.tile t).bells.filter (fun b => b.2.thread == th && !b.2.send)).map (·.1)
  let s3 := s2.modTile t (fun x => { x with inbox := x.inbox.filter (fun b => !routes.contains b.1) })
  let ins := ((s3.tile t).ports.filter (fun p => p.2.thread == th && !p.2.output)).map (·.1)
  let s4 := ins.foldl (fun s p => s.modSkip (s.portSkip t p) (fun k => { k with
    popWait := k.popWait.filter (fun q => !(q.1 == t && q.2.1 == th)) })) s3
  s4.modRegs t th (fun r => { r with loops := r.perpetual })

/-- R168: the thread starts the new shift as if its WAITTICK had returned at this tick; the tick's arrival at
the tile lets it go on. -/
def State.abortThread (s : State) (t th : Nat) : State :=
  let s1 := s.abortClear t th
  let r := (s1.thread t th).regs
  let regs := match r.loops with
    | f :: rest =>
      match s1.waittickOf t f with
      | some wt =>
        let f1 := if wt < r.pc then { f with pass := (f.pass + 1) % 2 ^ 24 } else f
        ({ r with loops := f1 :: rest, pc := wt }).advance
      | none => { r with pc := f.first }
    | [] => r
  let s2 := s1.modTile t (fun x => { x with restart := x.restart.filter (· != th) })
  s2.modThread t th (fun x => { x with regs := regs, wait := .tick, stepping := false })

/-- A thread that the tick aborts: it is issuing or waiting inside its perpetual body, not in WAITTICK. -/
def Thread.abortable (x : Thread) : Bool := x.mode == .running && x.wait != .tick && !x.regs.perpetual.isEmpty

/-- A thread whose stage has not done its work at the tick (R168, R175, R419). -/
def Thread.behind (x : Thread) : Bool :=
  x.mode == .illegal || x.mode == .debug || (x.mode == .running && x.wait != .tick)

/-! ## Deadline misses (R29, R192) -/

/-- Pushes of a port that no commit in effect covers. -/
def State.portTentative (s : State) (t p : Nat) : Bool :=
  match look (s.tile t).ports p with
  | some x => x.output && x.dests.any (fun d => decide ((s.skip d.1).effective < x.pushed))
  | none => false

/-- A tile keeps its stage from having committed all its work. -/
def State.tileLate (s : State) (t : Nat) : Bool :=
  let x := s.tile t
  x.mustMiss || x.lost || x.threads.any (fun p => p.2.behind) || x.ports.any (fun p => s.portTentative t p.1)

/-- The stage has a frame to miss: one of its input skips holds entries or has released some in the ended shift; while
frames come (`run`), also one that has released some before, or the stage has no input skip. -/
def State.stageBusy (s : State) (run : Bool) (tiles : List Nat) : Bool :=
  let ks := tiles.flatMap (fun t => ((s.tile t).ports.filter (fun p => !p.2.output)).map (fun p => s.portSkip t p.1))
  (run && ks.isEmpty) || ks.any (fun k =>
    let x := s.skip k
    !x.words.isEmpty || !x.consumed.isEmpty || !x.tail.isEmpty || x.poppedNow != 0 || (run && (x.popSeen || x.popArmed)))

/-- Entries of a skip that one shift must see on each side (R199). -/
def SkipCfg.pushTarget (c : SkipCfg) : Nat := c.pushRate * c.channels
def SkipCfg.popTarget (c : SkipCfg) : Nat := c.popRate * c.channels

/-- The fills that an output skip of a missed stage owes count in the shift that ends (R192). -/
def State.oweFills (s : State) (k : Nat) : State :=
  let need := (s.skip k).cfg.pushTarget - (s.skip k).pushedNow
  if need = 0 then s
  else (s.modSkip k (fun x => { x with
    fillEnds := if x.fillDue = 0 then [] else (1 :: x.fillEnds).map (· + need)
    fillDue := x.fillDue + need, pushedNow := x.pushedNow + need, pushSeen := true })).placeFills
    k ((s.skip k).fillDue + need)

/-- Release the input words that a missed stage owes: consumed ones, visible ones, and later ones as they
arrive (R192). -/
def State.oweReleases (s : State) (k : Nat) : State :=
  let x := s.skip k
  let need := x.cfg.popTarget - x.poppedNow
  let fromC := min need x.consumed.length
  let fromW := min (need - fromC) x.words.length
  let ws := x.consumed.take fromC ++ x.words.take fromW
  let pfc := s.producerFc k
  let fc := s.skipFc k
  s.modSkip k (fun x =>
    (({ x with consumed := x.consumed.drop fromC, words := x.words.drop fromW
               headWords := x.headWords - fromW, consumedCount := x.consumedCount + fromW
               releasedCount := x.releasedCount + ws.length, poppedNow := x.poppedNow + need
               popSeen := x.popSeen || decide (0 < need)
               releaseDue := x.releaseDue + (need - fromC - fromW), dropping := false }).sendCredit
      ((ws.map x.wordCredit).foldl (· + ·) 0) pfc).refill fc 16)

/-- R29 for one tile of a missed stage. -/
def State.missTile (s : State) (t : Nat) : State :=
  let s1 := s.modTile t (fun x => { x with
    threads := x.threads.map (fun p => (p.1, if p.2.mode == .running && p.2.wait != .tick then { p.2 with late := true } else p.2)) })
  (s.tile t).ports.foldl (fun s p =>
    if p.2.output then
      let keep := listMin (p.2.dests.map (fun d => (s.skip d.1).effective))
      p.2.dests.foldl (fun s d => s.oweFills d.1) (s.discardPort t p.1 keep)
    else s.oweReleases (s.portSkip t p.1)) s1

/-- DEADLINE_MISS of a stage (R29, R384). -/
def State.missStage (s : State) (tiles : List Nat) : State :=
  let cause := tiles.findSome? (fun t => (s.tile t).missCause)
  let s1 := s.raise Ev.deadlineMiss { (s.tileEv (tiles.headD 0)) with cause := cause }
  tiles.foldl (fun s t => s.missTile t) s1

/-- A COMMIT that took effect in the fc of the tick has no effect (R201). -/
def State.uncommitNow (s : State) (h : Nat) : State :=
  (s.imageTiles h).foldl (fun s t => (s.tile t).ports.foldl (fun s q =>
    if q.2.output then q.2.dests.foldl (fun s d => s.modSkip d.1 (fun k => k.uncommit s.now)) s else s) s) s

/-- Aborts and misses of a real-time pipeline at its tick. -/
def State.endShift (s : State) (h : Nat) (run : Bool) : State :=
  let s := s.uncommitNow h
  let missed := ((s.stagesOf h).map (s.stageTiles h)).filter (fun ts => ts.any s.tileLate && s.stageBusy run ts)
  let s1 := (s.imageTiles h).foldl (fun s t =>
    upTo 4 (fun s th => if (s.thread t th).abortable then s.abortThread t th else s) s) s
  let s2 := missed.foldl (fun s ts => s.missStage ts) s1
  (s2.imageTiles h).foldl (fun s t => s.modTile t (fun x => { x with
    mustMiss := false, missCause := none, retryOf := none, restartAt := if x.restart.isEmpty then none else x.restartAt })) s2

/-- Debug-halted threads note the tick (R419). -/
def State.noteTick (s : State) (h : Nat) : State :=
  (s.imageTiles h).foldl (fun s t => s.modTile t (fun x => { x with
    threads := x.threads.map (fun p => (p.1, if p.2.mode == .debug then { p.2 with tickPassed := true } else p.2))
    graceTicks := x.graceTicks - 1 })) s

/-! ## Rate check (R199, R200) -/

/-- One side of the check: armed, last count, error, and whether to report. -/
def rateSide (armed seen : Bool) (now target : Nat) : Bool × Bool := (armed || seen, armed && now != target)

/-- Compare the counts of the shift that ends with the declared rates. What COMMITs of this very fc put in effect counts in
the shift that begins (R201). -/
def State.checkRate (s : State) (k : Nat) : State :=
  let x := s.skip k
  let new := x.committedIn s.now
  if !x.cfg.rateCheck then s.modSkip k (fun x => { x with pushedNow := new, poppedNow := 0 })
  else
    let p := rateSide x.pushArmed x.pushSeen (x.pushedNow - new) x.cfg.pushTarget
    let q := rateSide x.popArmed x.popSeen x.poppedNow x.cfg.popTarget
    let s1 := s.modSkip k (fun x => { x with
      lastPushed := if x.pushArmed then x.pushedNow - new else x.lastPushed
      lastPopped := if x.popArmed then x.poppedNow else x.lastPopped
      pushArmed := p.1, popArmed := q.1, pushedNow := new, poppedNow := 0
      ratePushErr := x.ratePushErr || p.2, ratePopErr := x.ratePopErr || q.2 })
    let s2 := if p.2 then s1.hit (skipStatus k) 6 else s1
    let s3 := if q.2 then s2.hit (skipStatus k) 5 else s2
    if p.2 || q.2 then s3.raise Ev.rateMismatch (s3.skipEv k) else s3

def Skip.disarm (k : Skip) : Skip :=
  { k with pushArmed := false, popArmed := false, pushSeen := false, popSeen := false, pushedNow := 0, poppedNow := 0 }

/-! ## The hold (R25, R182) -/

/-- Where byte o of a hold's ring lies: logical S-tile and window offset. -/
def segmentAt : List (Nat × Nat × Nat) → Nat → Option (Nat × Nat)
  | [], _ => none
  | (t, off, len) :: r, o => if o < len then some (t, off + o) else segmentAt r (o - len)

def State.holdAddr (s : State) (k o : Nat) : Option Nat :=
  let c := (s.skip k).cfg
  (segmentAt c.segments (if c.size = 0 then 0 else o % c.size)).map (fun p => tileAddr (s.physical p.1) p.2)

/-- Write bytes into a hold from ring place lo, 64 at a time. -/
def State.holdWrite (s : State) (k lo : Nat) (bs : List Byte) : State :=
  (List.range (ceilDiv bs.length 64)).foldl (fun s i =>
    match s.holdAddr k (lo + 64 * i) with
    | some a => s.writeBytes a ((bs.drop (64 * i)).take 64)
    | none => s) s

def State.holdRead (s : State) (k lo n : Nat) : List Byte :=
  ((List.range (ceilDiv n 64)).flatMap (fun i =>
    match s.holdAddr k (lo + 64 * i) with
    | some a => s.readBytes a 64
    | none => List.replicate 64 0)).take n

/-- Two stretches of a ring of `size` bytes meet. -/
def ringMeets (size lo n lo' n' : Nat) : Bool :=
  decide (0 < n) && decide (0 < n') && decide (0 < size) &&
    (decide ((lo' + size - lo % size) % size < n) || decide ((lo + size - lo' % size) % size < n'))

def pipeEv (p : Nat) (x : Pipe) : EvArgs := { claim := x.claim, pipe := some p }

/-- Pipeline counter of Table 17.1. -/
def State.countPipe (s : State) (p c n : Nat) : State := s.count 3 p c n

/-- Mark a hold copy that lost its space (R26). -/
def Stream.lose (p k lo n size : Nat) (x : Stream) : Stream :=
  match x.kind with
  | .hold c => if c.pipe = p ∧ c.hold = k ∧ ringMeets size lo n c.lo c.size then { x with kind := .hold { c with lost := true } } else x
  | _ => x

def Stream.losing (p k lo n size : Nat) (x : Stream) : Bool :=
  match x.kind with
  | .hold c => c.pipe == p && c.hold == k && !c.lost && ringMeets size lo n c.lo c.size
  | _ => false

/-! ## The event store (R309) -/

/-- Where a record of len bytes goes: its offset, HEAD after it, and a wrap header's offset. -/
def storePlace (head tail len size : Nat) : Option (Nat × Nat × Option Nat) :=
  if head + len ≤ size then
    let next := if head + len = size then 64 else head + len
    if (decide (tail ≤ head) && next != tail) || (decide (head < tail) && decide (head + len < tail))
    then some (head, next, none) else none
  else if tail ≤ head ∧ 64 + len < tail then some (64, 64 + len, some head) else none

/-- HEAD or TAIL as read; a value that no record can have stands for 64, the start of an empty store. -/
def storeOffset (x size : Nat) : Nat := if x % 64 = 0 ∧ 64 ≤ x ∧ x + 64 ≤ size then x else 64

/-- Event store of an image: its first region of KIND 2. -/
def Image.eventStore (x : Image) : Option RegionRec := x.regions.find? (fun r => r.kind == 2)

/-- Copies of a store that are not yet written, on all hoists, with whether a burst of theirs has been issued. -/
def State.openCopies (s : State) (claim cva : Nat) : List (HoldCopy × Bool) :=
  s.sump.hoists.flatMap (fun h => (h.2.running.toList ++ h.2.rt ++ h.2.aside).filterMap (fun x =>
    match x.kind with
    | .hold c => if c.claim = claim ∧ c.store = cva ∧ !c.lost then some (c, x.next != 0) else none
    | _ => none))

/-- HEAD after the records of a store whose numbers meet a test, the latest of them; HEAD in memory if there is
none. -/
def State.storeHead (s : State) (claim cva size : Nat) (f : Nat → Bool → Bool) : Nat :=
  let open_ := (s.openCopies claim cva).map (fun c => (c.1.order, c.1.newHead, c.2))
  let done := (s.sump.storeDone.filter (fun d => d.1 == claim && d.2.1 == cva)).map (fun d => (d.2.2.1, d.2.2.2, true))
  let last := ((open_ ++ done).filter (fun c => f c.1 c.2.2)).foldl (fun (b : Option (Nat × Nat)) c => match b with
    | some x => if x.1 ≤ c.1 then some (c.1, c.2.1) else b
    | none => some (c.1, c.2.1)) none
  match last with
  | some x => x.2
  | none => storeOffset (leNat ((s.readCva claim cva 8).getD [])) size

/-- TAIL of a store as memory holds it. -/
def State.storeTail (s : State) (claim cva size : Nat) : Nat := storeOffset (leNat ((s.readCva claim (cva + 8) 8).getD [])) size

def Stream.place (n : Nat) (at_ : Nat × Nat × Option Nat) (x : Stream) : Stream :=
  match x.kind with
  | .hold c => if c.order = n ∧ !c.lost then { x with kind := .hold { c with record := at_.1, newHead := at_.2.1, wrapAt := at_.2.2 } } else x
  | _ => x

/-- A copy was lost: the copies behind it of which nothing is written take its place, in their order. -/
def State.replaceCopies (s : State) (claim cva : Nat) : State :=
  let waiting := (s.openCopies claim cva).filter (fun c => !c.2)
  (List.range s.sump.copies).foldl (fun s n =>
    match waiting.find? (fun c => c.1.order == n) with
    | some (c, _) =>
      let head := s.storeHead claim cva c.storeSize (fun m begun => decide (m < n) || begun)
      match storePlace head (s.storeTail claim cva c.storeSize) (64 + 64 * ceilDiv c.length 64) c.storeSize with
      | some at_ => s.modSump (fun x => { x with hoists := x.hoists.map (fun h => (h.1, { h.2 with
          running := h.2.running.map (Stream.place n at_), rt := h.2.rt.map (Stream.place n at_), aside := h.2.aside.map (Stream.place n at_) })) })
      | none => s
    | none => s) s

/-- A new frame takes n bytes of the hold: whatever still lies there is lost to tailings (R26). -/
def State.holdTake (s : State) (p : Nat) (x : Pipe) (k n : Nat) : State × Nat :=
  let size := (s.skip k).cfg.size
  let lo := (s.skip k).holdAt
  let h := s.hoist x.hoist
  let streams := h.rt ++ h.running.toList
  let lostCopies := (streams.filter (Stream.losing p k lo n size)).length
  let hit (f : Frame) : Bool := f.held && s.hwSkip x.image 3 f.channel == some k && ringMeets size lo n f.lo f.size
  let lostFrames := (x.frames.filter hit).length
  let s1 := s.modHoist x.hoist (fun h => { h with
    rt := h.rt.map (Stream.lose p k lo n size), running := h.running.map (Stream.lose p k lo n size) })
  let s2 := s1.modPipe p (fun y => { y with frames := y.frames.map (fun f => if hit f then { f with held := false } else f) })
  let lost := lostCopies + lostFrames
  let s2 := match (s.image x.image).eventStore with
    | some r => if lostCopies = 0 then s2 else s2.replaceCopies x.claim r.cva
    | none => s2
  let s3 := upTo lost (fun s _ => s.raise Ev.holdOverrun (pipeEv p x)) s2
  (((s3.countPipe p 6 lost).countPipe p 2 lost).modSkip k (fun y => { y with
    holdAt := if size = 0 then 0 else (lo + n) % size }), lo)

/-- Queue the hold copy of a kept frame (R25, R26, R309). -/
def State.keepFrame (s : State) (p : Nat) (x : Pipe) (f : Frame) (w : Word) : State :=
  let img := s.image x.image
  let len := 64 + 64 * ceilDiv f.payload.length 64
  let full (s : State) : State :=
    ((s.raise Ev.eventStoreFull (pipeEv p x)).countPipe p 7 1).countPipe p 2 1
  match img.eventStore, s.hwSkip x.image 3 f.channel with
  | some r, some k =>
    let head := s.storeHead x.claim r.cva r.size (fun _ _ => true)
    let s := s.noteCvaRead x.claim r.cva 16
    match storePlace head (s.storeTail x.claim r.cva r.size) len r.size with
    | some (at_, next, wrap) =>
      let c : HoldCopy := { pipe := p, claim := x.claim, channel := f.channel, number := f.number, decision := w
                            length := f.payload.length, hold := k, lo := f.lo, size := f.size, store := r.cva
                            record := at_, newHead := next, wrapAt := wrap, lst := img.shiftFc, storeSize := r.size, order := s.sump.copies }
      (s.modSump (fun y => { y with copies := y.copies + 1 })).modHoist x.hoist (fun h => { h with
        rt := h.rt ++ [{ kind := .hold c, claim := x.claim, readyAt := s.now }] })
    | none => full s
  | _, _ => full s

/-! ## Decision words (R22, R23, R29 to R31) -/

/-- Layout of Table 1.6. -/
def decisionWord (valid degraded miss : Bool) (id ch cls : Nat) : Word :=
  BitVec.ofNat 32 (boolNat valid <<< 31 + boolNat degraded <<< 30 + boolNat miss <<< 29
    + (id % 32) <<< 24 + (ch % 256) <<< 16 + cls % 65536)

/-- Class bits of the pipeline default (R29). -/
def Image.defaultClass (x : Image) : Nat := if bitAt x.flags 1 then 0 else 0xFFFF

/-- The oldest committed entry of a decision skip, wherever it is: class bits, miss mark, and whether a degraded tile
contributed (R22, R23). -/
def Skip.takeDecision (k : Skip) (pfc : Nat) (fillDegraded : Bool) : Option (Nat × Bool × Bool) × Skip :=
  let used (x : Skip) (amount : Nat) : Skip :=
    (({ x with consumedCount := x.consumedCount + 1 }).countReleased 1).sendCredit amount pfc
  match k.words with
  | w :: ws => (some (w.data.toNat % 65536, w.miss, w.degraded),
      used { k with words := ws, headWords := k.headWords - 1 } (k.wordCredit w))
  | [] =>
    match k.tail ++ k.fly with
    | e :: _ =>
      if e.seq ≤ k.effective then
        (some (e.data.toNat % 65536, e.miss, e.degraded),
          used (if k.tail.isEmpty then { k with fly := k.fly.tail }
                else { k with tail := k.tail.tail, tailCommitted := k.tailCommitted - 1 }) 1)
      else (none, k)
    | [] => if 0 < k.fillDue then (some (0, true, fillDegraded), used { k with fillDue := k.fillDue - 1 } 0) else (none, k)

/-- Tenths of fc of one decision word: 50 / rate ns (R267). -/
def wordTenths (rate : BitVec 2) : Nat := if rate = 0 then 1500 else if rate = 1 then 750 else 375

/-- Pass a word to its line at a position (R22, R266, R267): it begins at the pin 40 ns plus i × T after the
tick, and a duplicate line repeats it. -/
def State.queueWord (s : State) (x : Pipe) (tick pos ch : Nat) (w : Word) : State :=
  if x.lineCount = 0 then s
  else
    let l := x.lineBase + ch % x.lineCount
    let at_ := 10 * tick + 480 + pos * wordTenths (s.decLine l).rate
    let s1 := s.modLine l (fun y => { y with queue := y.queue ++ [(at_, w)] })
    if l < 8 ∧ (s.decLine l).duplicate then s1.modLine (l + 8) (fun y => { y with queue := y.queue ++ [(at_, w)] }) else s1

/-- The sump skip of a best-effort pipeline has room for a decision word: its credit alone governs when words leave (R31). -/
def State.sumpRoom (s : State) (x : Pipe) : Bool :=
  match x.sumpSkip with
  | none => true
  | some k => decide (0 < (s.skip k).creditAll)

/-- A decision word of a best-effort pipeline goes to its sump skip, committed (R31). -/
def State.sumpWord (s : State) (x : Pipe) (w : Word) : State :=
  match x.sumpSkip with
  | none => s
  | some k =>
    let fc := s.skipFc k
    s.modSkip k (fun y =>
      if y.creditAll = 0 then y
      else { (y.useCredit 1 4) with fly := y.fly ++ [{ data := BitVec.ofNat 512 w.toNat, bytes := 4, due := fc }]
                                    marks := y.marks ++ [(y.effective, fc + 2)], pushSeen := true })

/-- Release the word of one channel of frame n; `k` frames went before it at this tick. -/
def State.releaseChannel (s : State) (p n k per : Nat) (reset : Bool) (ch : Nat) : State :=
  match s.pipe? p with
  | none => s
  | some x =>
    let img := s.image x.image
    let f := x.frames.find? (fun f => f.channel == ch && f.number == n && !f.released)
    let valid := (f.map Frame.complete).getD false
    let sk := s.hwSkip x.image 2 ch
    let taken := if reset then (none, {}) else match sk with
      | some k => (s.skip k).takeDecision (s.producerFc k)
          (((s.skip k).cfg.producer.map (fun q => (s.tile (s.physical q.1)).degraded)).getD false)
      | none => (none, {})
    let s1 := if reset then s else match sk with
      | some k => s.modSkip k (fun _ => taken.2)
      | none => s
    let miss := img.realtime && (match taken.1 with
      | some e => e.2.1
      | none => true)
    let got := (taken.1.map (·.1)).getD 0
    let cls := if !valid then 0 else if miss then img.defaultClass else got
    let degraded := (taken.1.map (·.2.2)).getD false
    let w := decisionWord valid degraded miss p ch cls
    let s2 := ((s1.countPipe p 0 1).countPipe p 3 (boolNat miss)).countPipe p 4 (boolNat degraded)
    let s3 := if img.realtime then s2.queueWord x (s.dom (p / 32)).lastTick (k * per + ch / max x.lineCount 1) ch w else s2.sumpWord x w
    let keep := !reset && (cls &&& img.keepMask) != 0
    let s4 := match f with
      | some f =>
        if f.held then
          if keep then (s3.countPipe p 1 1).keepFrame p x f w else s3.countPipe p 2 1
        else s3
      | none => s3
    s4.modPipe p (fun y => { y with frames := y.frames.map (fun f =>
      if f.channel == ch && f.number == n then { f with released := true, held := false } else f) })

/-- Words of one position on a line for each frame. -/
def Pipe.perFrame (x : Pipe) (channels : Nat) : Nat := ceilDiv channels (max x.lineCount 1)

def State.releaseFrame (s : State) (p n k : Nat) (reset : Bool) : State :=
  match s.pipe? p with
  | none => s
  | some x =>
    let c := (s.image x.image).channels
    (List.range c).foldl (fun s ch => s.releaseChannel p n k (x.perFrame c) reset ch) s

/-- Best-effort frames of age D are released in order, each once its class entry is committed and the sump skip has credit
for its word (R31). -/
def State.releaseReady (s : State) (p n : Nat) : State :=
  match s.pipe? p with
  | none => s
  | some x =>
    let img := s.image x.image
    let ready (f : Frame) : Bool := !f.released && decide (f.number + img.depth ≤ n)
    let waits (s : State) (ch k : Nat) : Bool :=
      (((s.pipe? p).map Pipe.frames).getD []).any (fun f => f.channel == ch && f.number == k && ready f)
      && (match s.hwSkip x.image 2 ch with
        | some q => ((s.skip q).takeDecision 0 false).1.isSome
        | none => false)
      && s.sumpRoom x
    ((x.frames.filter ready).map Frame.number).eraseDups.foldl (fun s k =>
      (List.range img.channels).foldl (fun s ch => if waits s ch k then s.releaseChannel p k 0 0 false ch else s) s) s

/-- Entries of a channel's ingest skip in one frame (R30, R428). -/
def State.frameEntries (s : State) (h ch : Nat) : Nat :=
  match s.hwSkip h 1 ch with
  | some k => (s.skip k).cfg.pushRate
  | none => 0

/-- Frames whose word has left and whose entries are all pushed are forgotten. -/
def State.dropFrames (s : State) (p : Nat) : State :=
  match s.pipe? p with
  | none => s
  | some x => s.modPipe p (fun y => { y with frames := y.frames.filter (fun f =>
      !(f.released && decide (s.frameEntries x.image f.channel ≤ f.pushed))) })

/-! ## Missing frames (R30) -/

/-- Frame n lies between START and STOP (R32). -/
def Pipe.inRun (x : Pipe) (n : Nat) : Bool :=
  (match x.start with
    | some (a, _) => decide (a ≤ n)
    | none => false)
  && (match x.stop with
    | some (b, _) => decide (n < b)
    | none => true)

/-- The pipeline has started: ticks reach its tiles from the tick of START on (R18, R32). -/
def Pipe.begun (x : Pipe) (n : Nat) : Bool := x.start.any (fun a => decide (a.1 ≤ n))

/-- The pipeline accepts frame n (R32, R33). -/
def Pipe.accepts (x : Pipe) (n : Nat) : Bool := x.inRun n && !x.ending

/-- A frame's entries count in the shift in which they are due (R20, R199). -/
def State.dueEntries (s : State) (h ch : Nat) : State :=
  match s.hwSkip h 1 ch with
  | some k => s.modSkip k (fun x => { x with pushedNow := x.pushedNow + x.cfg.pushRate, pushSeen := true })
  | none => s

def State.countChannel (s : State) (p ch c : Nat) : State := s.count 4 (256 * p + ch) c 1

/-- Entries of a frame still on its way that its channel has pushed in the shift that ends. -/
def State.pushedAhead (s : State) (p ch : Nat) : Nat :=
  ((s.adit.arriving.find? (fun a => a.target == some (p, ch))).map Arriving.pushed).getD 0

/-- At the tick that starts shift n, a channel that delivered no frame has frame n missing. Entries that a frame
of the next number has pushed already stand as entries of frame n, and it pushes its own anew: R21 gives it the
later number, and R30 every frame its whole size (DESIGN CHOICE, log 104). -/
def State.missingFrames (s : State) (p n : Nat) : State :=
  match s.pipe? p with
  | none => s
  | some x =>
    if x.accepts n then
      (List.range (s.image x.image).channels).foldl (fun s ch =>
        if x.seen.contains ch then s
        else
          let early := s.pushedAhead p ch
          let s1 := (s.dueEntries x.image ch).countChannel p ch 0
          let s2 := if early = 0 then s1 else s1.modAdit (fun a => { a with arriving := a.arriving.map (fun b =>
            if b.target == some (p, ch) then { b with pushed := 0, cut := false } else b) })
          s2.modPipe p (fun y => { y with
            frames := y.frames ++ [{ channel := ch, number := n, complete := false, payload := [], fill := true, held := false
                                     pushed := early }] })) s
    else s

/-! ## Unbinding (R32, R33, R256) -/

def State.unbind (s : State) (p : Nat) : State :=
  match s.pipe? p with
  | none => s
  | some x =>
    let s1 := { s with pipes := del s.pipes p }
    let s2 := (s.imageSkips x.image).foldl (fun s k => s.modSkip k Skip.disarm) s1
    let s3 := s2.modImage x.image (fun y => { y with bound := none, started := false })
    s3.modAdit (fun a => { a with
      lines := a.lines.map (fun l => (l.1, if decide (x.lineBase ≤ l.1) && decide (l.1 < x.lineBase + x.lineCount) then
        { l.2 with bound := false, domain := 0, pipeline := 0, words := 0, firstChannel := 0 } else l.2))
      quads := a.quads.map (fun q => (q.1, if q.2.bypassBound && q.2.domain.toNat == p / 32 && q.2.pipeline.toNat == p % 32 then
        { q.2 with bypassBound := false } else q.2)) })

/-! ## Claim reset at the tick (R33, R338) -/

/-- Free the lines whose UNLOCK still waits (R161). -/
def State.freeUnlocks (s : State) (t th : Nat) : State :=
  ((s.thread t th).unlocks.foldl (fun s u => s.freeLine t th u.1 u.2.1) s).modThread t th (fun x => { x with unlocks := [] })

/-- Halt every thread of an image. -/
def State.haltImage (s : State) (h : Nat) : State :=
  (s.imageTiles h).foldl (fun s t =>
    upTo 4 (fun s th => (s.breakLock t th).freeUnlocks t th) ((s.stopUnits t (fun _ => true)).modTile t (fun x => { x with
      threads := x.threads.map (fun q => (q.1, { q.2 with mode := .halted, wait := .none, haltAsked := none, stepping := false }))
      inbox := [], bellFly := [], restart := [], restartAt := none }))) s

/-- R33: default words for every frame in flight, in frame order; the hold goes to tailings. -/
def State.resetRelease (s : State) (p n : Nat) : State :=
  match s.pipe? p with
  | none => s
  | some x =>
    let img := s.image x.image
    let first := max (n - img.depth) ((x.start.map (·.1)).getD (n + 1))
    let last := match x.stop with
      | some (b, _) => min (n + 1) b
      | none => n + 1
    let s1 := if img.realtime then
        (List.range (last - first)).foldl (fun s i => s.releaseFrame p (first + i) i true) s else s
    let held := (((s1.pipe? p).map Pipe.frames).getD []).filter Frame.held
    ((s1.countPipe p 2 held.length).haltImage x.image).unbind p

/-! ## SWAP (R32, R56 to R58) -/

/-- Every thread of the pipeline waits in WAITTICK; a thread halted by HALT counts as waiting, one halted by an illegal
instruction or by the debug port does not (R58, R175). -/
def State.allWaiting (s : State) (h : Nat) : Bool :=
  (s.imageTiles h).all (fun t => (s.tile t).threads.all (fun p =>
    p.2.mode == .idle || p.2.mode == .halted || (p.2.mode == .running && p.2.wait == .tick)))

/-- R57 refuses a switch that includes these tiles (Table 2.11). -/
def State.swapRefused (s : State) (ts : List Nat) : State :=
  ts.foldl (fun s t => (s.modTile t (fun x => { x with swapFailed := true })).hit (tileStatus t) 1) s

def State.swapTick (s : State) (p n : Nat) : State :=
  match s.pipe? p with
  | none => s
  | some x =>
    match x.swap with
    | none => s
    | some (at_, seq, h) =>
      if n < at_ ∨ (!(s.image x.image).realtime ∧ !s.allWaiting x.image) then s
      else if !(s.imageTiles x.image).all (fun t => (s.tile t).shadowValid && (s.tile t).shadowImage == h) then
        ((s.swapRefused (s.imageTiles x.image)).modPipe p (fun y => { y with swap := none })).fail seq Reason.shadowNotReady
      else
        let s1 := ((s.modPipe p (fun y => { y with swap := none, image := h })).modImage x.image
          (fun y => { y with bound := none, started := false })).modImage h (fun y => { y with bound := some p, started := true })
        let tiles := s1.imageTiles h
        let back := tiles.foldl (fun (a : State × List (Nat × List WindowWrite)) t =>
          let r := a.1.unland t
          (r.1, a.2 ++ [(t, r.2)])) (s1, [])
        (back.2.foldl (fun s p => s.reland p.1 p.2) (back.1.startImage h)).complete seq (BitVec.ofNat 128 n)

/-! ## START and STOP (R32) -/

def State.startStopTick (s : State) (p n : Nat) : State :=
  match s.pipe? p with
  | none => s
  | some x =>
    let s1 := match x.start with
      | some (a, seq) => if a = n ∧ !x.accepting then
          (s.modPipe p (fun y => { y with accepting := true })).complete seq (BitVec.ofNat 128 a) else s
      | none => s
    match x.stop with
    | some (b, seq) =>
      if b + (s.image x.image).depth ≤ n + 1 then (s1.unbind p).complete seq (BitVec.ofNat 128 b) else s1
    | none => s1

/-! ## Standing streams, droop, captures (R312, R400, R287) -/

def Stream.isStanding (p i : Nat) (x : Stream) : Bool :=
  match x.kind with
  | .standing q j => q == p && j == i
  | _ => false

/-- Standing streams and hold copies are no commands, so none waits in a ring: of a longer list, the first 32 are the
real-time queue of R308 and the rest follow as it empties (DESIGN CHOICE, log 114). -/
def State.queueStanding (s : State) (p : Nat) : State :=
  match s.pipe? p with
  | none => s
  | some x =>
    (List.range x.standing.length).foldl (fun s i =>
      let h := (x.standing.getD i (0, 0, 0)).1
      let y := s.hoist h
      if (y.running.toList ++ y.rt ++ y.aside).any (Stream.isStanding p i) then
        s.raise Ev.hoistLate { (pipeEv p x) with locKind := 8, loc := h }
      else
        let z : Stream := { kind := .standing p i, claim := x.claim, lists := (x.standing.getD i (0, 0, 0)).2, readyAt := s.now }
        s.modHoist h (fun y => { y with rt := y.rt ++ [z] })) s

/-- Rows that hold a tile of the image. -/
def State.imageRows (s : State) (h : Nat) : List Nat := (List.range 24).filter (fun r => (s.imageTiles h).any (fun t => t / 32 == r))

/-- R400: a row that holds tiles of a pipeline of the domain and completed too few row fc in the ending shift is marked
once, and each such pipeline's claim is told. -/
def State.droopCheck (s : State) (d : Nat) : State :=
  let need := (s.dom d).period.toNat * 7 / 8
  upTo 24 (fun s r =>
    let ps := (s.pipesOf d).filter (fun p => ((s.pipe? p).map (fun x => (s.imageRows x.image).contains r)).getD false)
    match (s.dom d).rowFc[r]? with
    | some a =>
      let n := (s.row r).fc - a
      if ps.isEmpty || decide (need ≤ n) then s
      else ps.foldl (fun s p => s.raise Ev.droopDeep { (((s.pipe? p).map (pipeEv p)).getD {}) with loc := r, data := n })
        (((s.modRow r (fun y => { y with deep := true })).hit (rowStatus r) 31).count 2 r 1 1)
    | none => s) s

/-- Captures of images of the domain arm at their tick (R287), and a snapshot takes its moment (R414). -/
def State.armTick (s : State) (d n : Nat) : State :=
  let s1 := s.modRiddle (fun r => { r with
    blocks := r.blocks.map (fun b =>
      let y := { b.2 with tickPulse := if b.2.tickPulse.contains d then b.2.tickPulse else b.2.tickPulse ++ [d] }
      (b.1, match y.capture with
      | some c => if c.shift = n ∧ !c.armed ∧ ((s.image y.image).bound.map (· / 32)) == some d
          then { y with capture := some { c with armed := true, edges := 0 } } else y
      | none => y)) })
  match s.host.snapshot with
  | some (seq, none) =>
    match s.cmd? seq with
    | some c =>
      if ((s.image (c.arg 16 2)).bound.map (· / 32)) = some d ∧ c.arg 24 8 ≤ n then
        s1.modHost (fun h => { h with snapshot := some (seq, some (n, (s.dom d).lastTick + c.arg 32 4)) })
      else s1
    | none => s1
  | _ => s1

/-! ## A tick in effect -/

/-- What the tick that starts shift n does to pipeline p, in this order: the ended shift is settled, frame n
is completed with missing channels, rates are checked, frame n − D is released, and the new shift begins. -/
def State.tickPipe (s : State) (p n : Nat) : State :=
  match s.pipe? p with
  | none => s
  | some x =>
    let img := s.image x.image
    if x.ending then s.resetRelease p n
    else
      let s1 := if img.realtime && x.begun n then s.endShift x.image (x.inRun (n - 1)) else s
      let s2 := (s1.noteTick x.image).missingFrames p n
      let s3 := (s2.imageSkips x.image).foldl (fun s k => s.checkRate k) s2
      let s4 := if !img.realtime then s3.releaseReady p n
        else if img.depth ≤ n ∧ x.inRun (n - img.depth) then s3.releaseFrame p (n - img.depth) 0 false else s3
      let s5 := ((s4.dropFrames p).modPipe p (fun y => { y with seen := [] })).swapTick p n
      (s5.queueStanding p).startStopTick p n

/-- The tick of fc `at_` takes effect in domain d: the shift count, every bound pipeline, and the tick on its way to the
tiles of every started one, at column 0 of every row after 8 fc (R15, R18). -/
def State.tickEffect (s : State) (d at_ : Nat) : State :=
  let x := s.dom d
  let n := if x.running then x.count.toNat + 1 else x.count.toNat
  let s1 := (s.modDom d (fun x => { x with running := true, count := BitVec.ofNat 64 n, lastTick := at_ })).droopCheck d
  let ps := s1.pipesOf d
  let tiles := ps.flatMap (fun p => match s1.pipe? p with
    | some y => if y.ending || !y.begun n then [] else s1.imageTiles y.image
    | none => [])
  let s2 := (ps.foldl (fun s p => s.tickPipe p n) s1).modDom d (fun x => { x with rowFc := s.power.rows.map Row.fc })
  let s3 := tiles.foldl (fun s t => s.modTile t (fun y => { y with tickIn := y.tickIn ++ [at_ + 8] })) s2
  s3.armTick d n

end Sys2Proof.Machine
end

