-- ==== Sys2Proof/Machine/Tick.lean ====
section
/-! DEFINITION. Ticks of the tick domains: external, inserted, internal, followed; and the tick inputs that
bring them (R11 to R16, R264, R265, R356). -/

namespace Sys2Proof.Machine

/-- Interval bounds of R13. -/
def TickDomain.tooEarly (x : TickDomain) (gap : Nat) : Bool := decide (gap + x.tolerance.toNat < x.period.toNat)
def TickDomain.limit (x : TickDomain) : Nat := x.period.toNat + x.tolerance.toNat

/-- The domain follows the head of an enumerated mesh (R356). -/
def State.follows (s : State) (d : Nat) : Bool := s.emeel.enumerated && s.emeel.follow.getLsbD d

/-- The source of the domain is an LVDS input or a lane. -/
def TickDomain.external (x : TickDomain) : Bool := x.source == 1 || x.source == 2

def tickEv (d : Nat) : EvArgs := { locKind := 10, loc := d }

/-- The other lane of a mirrored pair (R260), and the primary quad of a lane. -/
def State.mirrorOf (s : State) (l : Nat) : Option Nat :=
  if (s.quad ((l % 32) / 4)).mirror then some (if l < 32 then l + 32 else l - 32) else none

/-- An accepted or inserted tick of fc `at_`: it takes effect in that fc, or, in a domain that the mesh follows, the head
stamps it, sends it and applies it TICK_DELAY later (R356). -/
def State.acceptTick (s : State) (d at_ : Nat) : State :=
  let s1 := s.modDom d (fun x => { x with lastArrival := some at_ })
  let t := s.emeel.meshTime - (s.now - at_)
  if s.follows d then
    (s1.modDom d (fun x => { x with followAt := x.followAt ++ [t + s.emeel.tickDelay.toNat] })).emit (.tickSent d false t)
  else s1.tickEffect d at_

/-- The input that a tick on its way comes from is the domain's source: tick input 0 to 7, or a lane or the other lane
of its mirrored pair (R11, R265). -/
def State.tickFrom (s : State) (d key : Nat) : Bool :=
  let x := s.dom d
  if key < 8 then x.source == 1 && x.lvdsInput.toNat == key
  else x.source == 2 && (x.lane.toNat == key - 8 || s.mirrorOf (key - 8) == some x.lane.toNat)

/-- The fc of the next external tick that has arrived in a domain: of its source as it is set now, while it is
enabled, and not in a following member, which ignores its own source (R11, R13, R356). -/
def State.dueTick (s : State) (d : Nat) : Option Nat :=
  if (s.dom d).enable && !(s.follows d && !s.emeel.head) then
    ((s.dom d).dueTicks.find? (fun a => decide (a.2 ≤ s.now) && s.tickFrom d a.1)).map (·.2)
  else none

/-- The fc in which the domain inserts a tick if none arrives (R13). -/
def TickDomain.insertAt (x : TickDomain) : Option Nat := x.lastArrival.map (· + x.limit)

/-- An external tick has arrived, no later than the fc in which the domain would insert one (R13). -/
def tickOk (d : Nat) (s : State) : Bool :=
  decide (d < 8) && match s.dueTick d with
    | some a => (s.dom d).insertAt.all (fun b => decide (a ≤ b))
    | none => false

/-- Ticks up to fc a have arrived and are no longer on their way. -/
def TickDomain.arrived (x : TickDomain) (a : Nat) : TickDomain :=
  { x with dueTicks := x.dueTicks.filter (fun b => decide (a < b.2)) }

/-- TICK (R13): an early tick is ignored; any other is accepted, in the fc in which it arrives. A tick on its way counts by
SOURCE alone: a change of LANE or LVDS_INPUT since it was sampled does not stop it (DESIGN CHOICE, log 97). -/
def tickDo (d : Nat) (s : State) : State :=
  match s.dueTick d with
  | none => s
  | some at_ =>
    let s1 := s.modDom d (fun x => x.arrived at_)
    match (s.dom d).lastArrival with
    | some a =>
      if (s.dom d).tooEarly (at_ - a) then
        ((s1.modDom d (fun x => { x with early := true })).hit (tickStatus d) 2).raise Ev.tickEarly (tickEv d)
      else s1.acceptTick d at_
    | none => s1.acceptTick d at_

def execTick (d : Nat) (s : State) : Result := whenDue (tickOk d s) (tickDo d s)

/-- TICK_INSERTED (R13): PERIOD + TOLERANCE fc have passed since the previous tick, and no tick has arrived. -/
def tickInsertedOk (d : Nat) (s : State) : Bool :=
  let x := s.dom d
  decide (d < 8) && x.enable && x.external && !(s.follows d && !s.emeel.head) && !tickOk d s
    && x.insertAt.any (fun a => decide (a ≤ s.now))

/-- The inserted tick falls exactly PERIOD + TOLERANCE fc after the previous one. -/
def tickInsertedDo (d : Nat) (s : State) : State :=
  (((s.modDom d (fun x => { x with lost := true })).hit (tickStatus d) 1).raise Ev.tickLost (tickEv d)).acceptTick d
    ((s.dom d).insertAt.getD s.now)

def execTickInserted (d : Nat) (s : State) : Result := whenDue (tickInsertedOk d s) (tickInsertedDo d s)

/-- INTERNAL_GENERATOR_TICK (R14). -/
def internalGeneratorTickOk (d : Nat) (s : State) : Bool :=
  let x := s.dom d
  decide (d < 8) && x.enable && x.source == 0 && !s.follows d && decide (x.nextInternal ≤ s.now)

def internalGeneratorTickDo (d : Nat) (s : State) : State :=
  (s.modDom d (fun x => { x with nextInternal := x.nextInternal + x.period.toNat })).tickEffect d (s.dom d).nextInternal

def execInternalGeneratorTick (d : Nat) (s : State) : Result :=
  whenDue (internalGeneratorTickOk d s) (internalGeneratorTickDo d s)

/-- FOLLOWED_TICK (R356): MESH_TIME has reached the next time at which the domain ticks. -/
def followedTickOk (d : Nat) (s : State) : Bool :=
  decide (d < 8) && s.follows d && match (s.dom d).followAt with
    | a :: _ => decide (a ≤ s.emeel.meshTime)
    | [] => false

def followedTickDo (d : Nat) (s : State) : State :=
  (s.modDom d (fun x => match x.followAt with
    | a :: r => { x with followAt := if x.followRepeat then r ++ [a + x.period.toNat] else r }
    | [] => x)).tickEffect d (s.now - (s.emeel.meshTime - (s.dom d).followAt.headD 0))

def execFollowedTick (d : Nat) (s : State) : Result := whenDue (followedTickOk d s) (followedTickDo d s)

/-- TICK_MESSAGE (R356): a start time begins a repeating schedule; a stamped tick is applied at T plus
TICK_DELAY. -/
def tickMessageOk (d : Nat) (s : State) : Bool := decide (d < 8) && s.follows d && !s.emeel.head

def tickMessageDo (d : Nat) (isStart : Bool) (time : Nat) (s : State) : State :=
  s.modDom d (fun x =>
    if isStart then { x with followAt := [time], followRepeat := true }
    else { x with followAt := x.followAt ++ [time + s.emeel.tickDelay.toNat], followRepeat := false })

def execTickMessage (d : Nat) (isStart : Bool) (time : Nat) (s : State) : Result :=
  whenDue (tickMessageOk d s) (tickMessageDo d isStart time s)

/-! ## Tick inputs -/

/-- A tick of input `key` is on its way to every tick domain: which of them take it is settled when it arrives (R11,
R13). -/
def State.scheduleTick (s : State) (key at_ : Nat) : State :=
  upTo 8 (fun s d => s.modDom d (fun x => { x with dueTicks := x.dueTicks ++ [(key, at_)] })) s

/-- An edge at the pin is a tick (R264): seen after INVERT it is a rising edge that follows at least 2 ns low, and the
pin stays high for at least 2 ns after it. `before` and `after` are the times, in ps, for which the pin keeps its level
on the two sides of the edge. -/
def Lvds.seesEdge (x : Lvds) (rising : Bool) (before after : Nat) : Bool :=
  x.enable && (rising != x.invert) && decide (2000 ≤ before) && decide (2000 ≤ after)

/-- Least and greatest delay of a pair in whole fc: taps of 8 ps to 12 ps (R268), 1.2 fc to the ns. -/
def Lvds.delayLow (x : Lvds) : Nat := x.delay.toNat * 96 / 10000
def Lvds.delayHigh (x : Lvds) : Nat := ceilDiv (x.delay.toNat * 144) 10000

/-- LVDS_TICK_EDGE (R264): an edge at the pin, which the pair's delay and INVERT come before. A tick arrives in the
domain 12 to 13 fc after the delayed edge; where in that range is not specified. -/
def lvdsTickEdgeDo (pair : Nat) (rising : Bool) (before after : Nat) (s : State) : State :=
  let x := s.lvds pair
  if x.seesEdge rising before after then
    (s.draw).scheduleTick pair (s.now + 12 + x.delayLow + s.drawn % (x.delayHigh - x.delayLow + 2))
  else s

def execLvdsTickEdge (e : LvdsEdge) (s : State) : Result :=
  whenValid (decide (e.pair < 8)) (lvdsTickEdgeDo e.pair e.rising e.before e.after s)

/-- SKEW of a lane's pair in fc: 8 ns units of 9.6 fc, rounded up to a whole fc. -/
def State.skewFc (s : State) (l : Nat) : Nat := ceilDiv ((s.quad ((l % 32) / 4)).skew.toNat * 96) 10

/-- The lane receives: its quad is enabled in RAW66 mode and the lane is up and not retired. -/
def State.laneLive (s : State) (l : Nat) : Bool :=
  decide (l < 64) && (s.quad (l / 4)).enable && (s.quad (l / 4)).mode == 0 && (s.lane l).up && !(s.lane l).retired

/-- A copy of this TICK block has come on the other lane of the pair. -/
def State.tickCopyCame (s : State) (other : Nat) (seq : Byte) : Bool :=
  s.adit.tickSeqs.any (fun p => p.1 == other && p.2 == seq)

/-- Sequences of first copies that still wait for the other lane's copy: those of the pair that the 8-bit sequence
tells apart from the new one. -/
def State.keepTickSeqs (s : State) (l : Nat) (seq : Byte) : List (Nat × Byte) :=
  s.adit.tickSeqs.filter (fun p => p.1 % 32 != l % 32 || (decide ((seq - p.2).toNat < 128) && p != (l, seq)))

/-- TICK_BLOCK (R265): 190 ns (228 fc) after the last bit of the codeword; for a mirrored pair, 190 ns plus
the window after the first copy to arrive, and the later copy of the same tick sequence is discarded. -/
def tickBlockDo (lane : Nat) (seq : Byte) (s : State) : State :=
  match s.mirrorOf lane with
  | none => s.scheduleTick (8 + lane) (s.now + 228)
  | some other =>
    if s.tickCopyCame other seq then
      s.modAdit (fun a => { a with tickSeqs := a.tickSeqs.filter (fun p => p != (other, seq)) })
    else
      (s.modAdit (fun a => { a with tickSeqs := s.keepTickSeqs lane seq ++ [(lane, seq)] })).scheduleTick
        (8 + lane) (s.now + 228 + s.skewFc lane)

def execTickBlock (lane : Nat) (seq : Byte) (s : State) : Result :=
  whenDue (s.laneLive lane) (tickBlockDo lane seq s)

end Sys2Proof.Machine
end

