-- ==== Sys2Proof/Machine/Track.lean ====
section
/-! DEFINITION. The tracker of fault locations, and the decision that a fault is permanent (R370, R371). -/

namespace Sys2Proof.Machine

def unitCode : TileUnit → Nat
  | .weight => 0 | .window => 1 | .bank => 2 | .scale => 3 | .localStore => 4 | .data => 5 | .config => 6
  | .middle => 7 | .scratch => 8 | .hold => 9

def locKey (kind a b c : Nat) : Nat := ((kind * 2 ^ 12 + a) * 2 ^ 16 + b) * 2 ^ 40 + c

/-- Location of a report: the instance in Table 15.1 that it names; a memory word is a 64-byte line. -/
def reportKey : FaultReport → Nat
  | .residue t c => locKey 1 t c 0
  | .rescale t => locKey 2 t 0 0
  | .sram t u o _ => locKey 3 t (unitCode u) (o / 64)
  | .sramRead t u o _ _ => locKey 3 t (unitCode u) (o / 64)
  | .program t _ w _ => locKey 4 t 0 (w / 8)
  | .seqVote t c => locKey 5 t c 0
  | .skipEnd k tail _ => locKey 6 0 (boolNat tail) k
  | .fnLane t u l => locKey 7 t u l
  | .ucieLane l => locKey 8 0 0 l
  | .emeelLane p l _ => locKey 9 0 p l
  | .sump a _ => locKey 10 0 0 (a / 64)
  | .riddleParity b m w => locKey 11 b m w
  | .detectorLane l => locKey 12 0 0 l
  | .shaftSwitch t => locKey 13 t 0 0

/-- The location is a link lane: its occurrences are intervals of 1 ms (R370). -/
def reportLink : FaultReport → Bool
  | .ucieLane _ => true
  | .emeelLane _ _ _ => true
  | _ => false

/-- Length of the window of R370 in fc. -/
def Faults.window (f : Faults) : Nat := f.recurWindowMs.toNat * msFc

/-- Times of a location that still lie in the window. -/
def Faults.recent (f : Faults) (now : Nat) (ts : List Nat) : List Nat := ts.filter (fun a => decide (now < a + f.window))

/-- An entry can be reused: its window has expired. -/
def Faults.expired (f : Faults) (now : Nat) (e : Track) : Bool := (f.recent now e.times).isEmpty

/-- Put one occurrence into the tracker; the answer says whether it makes the fault permanent by count. -/
def State.track (s : State) (key : Nat) (link : Bool) : State × Bool :=
  let f := s.faults
  let set (ts : List Track) : State := s.modFaults (fun f => { f with tracker := ts })
  match f.tracker.find? (fun e => e.loc == key) with
  | some e =>
    let ts := f.recent s.now e.times
    let same := link && (ts.head?.map (fun a => a / msFc)) == some (s.now / msFc)
    let ts' := if same then ts else s.now :: ts
    (set (f.tracker.map (fun x => if x.loc == key then { x with times := ts' } else x)),
      !same && decide (f.recurCount.toNat ≤ ts'.length))
  | none =>
    let new : Track := { loc := key, times := [s.now] }
    if f.tracker.length < 4096 then (set (f.tracker ++ [new]), false)
    else match findAt (fun e => f.expired s.now e) f.tracker with
      | some (i, _) => (set (f.tracker.set i new), false)
      | none => (((s.modFaults (fun f => { f with trackerFull := true })).hit faultStatus 29).raise Ev.trackerFull {}, false)

/-- Position whose slot boundaries a retirement waits for: none when it can be done at once, as for a tile
on which no image runs. -/
def State.boundaryTile (s : State) (r : FaultReport) : Option Nat :=
  let t := match r with
    | .skipEnd k _ _ => some (s.skipPos k)
    | _ => r.tile
  match t with
  | some t => if (s.tile t).threads.any (fun p => p.2.mode == .running) then some t else none
  | none => none

/-- Decide a retirement (R376). -/
def State.decideRetire (s : State) (r : FaultReport) : State :=
  if s.faults.retires.any (fun x => reportKey x.report == reportKey r) then s
  else
    let t := s.boundaryTile r
    s.modFaults (fun f => { f with retires := f.retires ++ [{ report := r, tile := t, ready := t.isNone, doneAt := s.now + r.effectFc }] })

/-- A retry is under way at the location: a replay it caused, or the second try of what was corrected. -/
def State.inRetry (s : State) (r : FaultReport) : Bool :=
  let key := reportKey r
  s.faults.retrying.any (fun p => p.1 == key && p.2 == s.now)
    || (match r.tile with
      | some t =>
        let x := s.tile t
        x.retryOf == some key && x.restartAt.isNone && !x.restart.isEmpty
      | none => false)

/-- A second report of one location in one fc is the same occurrence (R389). -/
def State.sameReport (s : State) (r : FaultReport) : Bool := s.faults.lastReport == some (reportKey r, s.now)

/-- One occurrence at a location: tracked, and retired if it is permanent (R370). The answer says whether it is
a failed retry. -/
def State.occur (s : State) (r : FaultReport) : State × Bool :=
  let key := reportKey r
  let failed := s.inRetry r
  let s1 := s.track key (reportLink r)
  let s2 := s1.1.modFaults (fun f => { f with lastReport := some (key, s.now) })
  (if failed || s1.2 then s2.decideRetire r else s2, failed)

/-- What was corrected is read, or sent, again in the next fc (R370). -/
def State.retryNext (s : State) (r : FaultReport) : State :=
  s.modFaults (fun f => { f with
    retrying := (reportKey r, s.now + 1) :: f.retrying.filter (fun p => p.1 != reportKey r && decide (s.now ≤ p.2)) })

end Sys2Proof.Machine
end

