-- ==== Sys2Proof/Machine/Adit.lean ====
section
/-! DEFINITION. Detector lanes: blocks, drift frames, mirrored pairs, lane loss, and the way of a frame to the
riddle or to its A-tile (R251 to R256, R260 to R263). Times on the Adit are tenths of fc: 1 ns is 12. -/

namespace Sys2Proof.Machine

/-- A-tile index of a position (R273). -/
def atileIndex (t : Nat) : Nat := 2 * (t / 32) + (if t % 32 = 31 then 1 else 0)
/-- Position of an A-tile. -/
def atilePos (a : Nat) : Nat := a / 2 * 32 + (if a % 2 = 1 then 31 else 0)

/-- Claim of the pipeline that takes a lane's frames, for its events; claim 0 for an unowned lane. -/
def State.laneEv (s : State) (l : Nat) : EvArgs :=
  let q := s.quad (l / 4)
  let p := 32 * q.domain.toNat + q.pipeline.toNat
  let c := if q.bypassBound then ((s.pipe? p).map Pipe.claim).getD 0 else (s.block (l / 4)).claim
  { claim := c, locKind := 4, loc := l }

def State.countLane (s : State) (l c n : Nat) : State := s.count 7 l c n

/-! ## Into the riddle (R278) -/

/-- Give one word to an input FIFO. In a full FIFO the rest of the frame is lost, and its EOF carries ERR. -/
def State.feedWord (s : State) (q port : Nat) (full : Bool) (w : RWordIn) : State :=
  let b := s.block q
  let fifo := lookD b.inFifo port []
  let dropping := b.dropIn.contains port && !w.sof
  let put_ (w : RWordIn) (s : State) : State := s.modBlock q (fun b => { b with
    inFifo := put b.inFifo port (fifo ++ [w]), dropIn := b.dropIn.filter (· != port) })
  if dropping then
    if w.eof then put_ { w with data := 0, valid := 0, err := true } s else s
  else if full then
    let s1 := (((s.modBlock q (fun b => { b with fifoOverflow := true, dropIn := port :: b.dropIn })).hit (blockStatus q) 5).count 9 q 2 1).raise
      Ev.riddleFifoOverflow { claim := b.claim, locKind := 7, loc := q, locSub := port }
    if w.eof then put_ { w with data := 0, valid := 0, err := true } s1 else s1
  else put_ w s

/-- Words that come together. What fills the FIFO is the words before them: a frame that the Adit forwards whole
(R258, R261) goes in as the port takes it (DESIGN CHOICE, log 105). -/
def State.feedWords (s : State) (q port : Nat) (ws : List RWordIn) : State :=
  let full := decide (1024 ≤ (lookD (s.block q).inFifo port []).length)
  ws.foldl (fun s w => s.feedWord q port full w) s

/-- Word i of a payload of which `len` bytes count. -/
def riddleWord (chan : Half) (payload : List Byte) (len i due : Nat) (eof err : Bool) : RWordIn :=
  let n := min 16 (len - 16 * i)
  { data := BitVec.ofNat 128 (leNat (((payload.take len).drop (16 * i)).take 16)), valid := BitVec.ofNat 16 (2 ^ n - 1)
    sof := i == 0, eof := eof, err := err, chid := chan, due := due }

/-- Give the words of a payload from word `sent` on, the last with EOF. `lane` names the port lane of te. -/
def State.feedFrame (s : State) (q port : Nat) (chan : Half) (payload : List Byte) (sent due : Nat) (err : Bool) : State :=
  let n := max (max 1 (sent + 1)) (ceilDiv payload.length 16)
  let s1 := s.feedWords q port ((List.range (n - sent)).map (fun i =>
    riddleWord chan payload payload.length (sent + i) due (sent + i + 1 == n) (err && sent + i + 1 == n)))
  (s1.modBlock q (fun b => { b with eofs := b.eofs ++ [(port, due)] })).count 9 q 0 1

/-! ## To an A-tile (R256, R263) -/

/-- Channel mapping of a quad with RIDDLE_BYPASS = 1. -/
def Quad.channelOf (x : Quad) (chan : Nat) : Option (Nat × Nat) :=
  if x.bypassBound ∧ x.chBase.toNat ≤ chan ∧ chan ≤ x.chBase.toNat + x.chCount.toNat then
    some (32 * x.domain.toNat + x.pipeline.toNat, chan - x.chBase.toNat)
  else none

/-- A frame begins on lane or port l: if it is mapped, its bytes go to the A-tile as they come (R21). The answer
is its number, 0 for none. -/
def State.openArriving (s : State) (l : Nat) (target : Option (Nat × Nat)) : State × Nat :=
  if target.isNone then (s, 0)
  else
    let n := s.adit.opened + 1
    (s.modAdit (fun x => { x with opened := n, arriving := x.arriving ++
      [{ lane := l, target := target, complete := false, payload := [], due := 0, id := n, open_ := true }] }), n)

/-- The bytes of frame `id` so far; the first `sure` of them reach the A-tile `due`. The last block waits for what
follows it, since its bytes past L do not count (R255). -/
def State.streamBytes (s : State) (id due sure : Nat) (payload : List Byte) : State :=
  if id = 0 then s
  else s.modAdit (fun x => { x with arriving := x.arriving.map (fun a =>
    if a.id == id && a.open_ then { a with payload := payload, got := a.got ++ [(due, sure)] } else a) })

/-- A frame has ended, and its last bit reaches the A-tile at a.due. One whose entries have begun to go keeps the
channel that it began with. -/
def State.sendArriving (s : State) (a : Arriving) : State :=
  let l := s.adit.arriving
  let ended (b : Arriving) : Arriving :=
    if b.id = a.id then { b with open_ := false, complete := a.complete, payload := a.payload, due := a.due
                                 target := if b.pushed = 0 then a.target else b.target } else b
  let known := a.id != 0 && l.any (fun b => b.id == a.id)
  s.modAdit (fun x => { x with arriving := if known then l.map ended else l ++ [a] })

/-- A frame leaves the deframer of lane or Ethernet port l, whose last bit came `at10`: through the bypass with
its whole latency, or into the riddle block, of whose words `sent` went before. -/
def State.forwardFrame (s : State) (l : Nat) (chan : Half) (payload : List Byte) (complete : Bool)
    (sent port lat te id : Nat) : State :=
  let q := s.quad (l / 4)
  if q.bypass then
    s.sendArriving { lane := l, target := q.channelOf chan.toNat, complete := complete, payload := payload, due := 10 * s.now + lat, id := id }
  else if (s.block (l / 4)).loaded then s.feedFrame (l / 4) port chan payload sent (10 * s.now + te) !complete
  else s.countLane l 7 1

/-! ## Mirrored pairs (R260, R261) -/

/-- Copy of a frame on the primary or the secondary lane. -/
def Mirror.copy (m : Mirror) (second : Bool) : Option (Bool × List Byte × Word) := if second then m.secondary else m.primary
def Mirror.setCopy (m : Mirror) (second : Bool) (c : Bool × List Byte × Word) : Mirror :=
  if second then { m with secondary := some c } else { m with primary := some c }

/-- The other copy of this frame is not to come: a lane sends the frames of a channel in order, and this one sends
another. -/
def Mirror.stale (m : Mirror) (l chan : Nat) (seq : Word) : Bool :=
  m.closed && m.lane == l % 32 && m.chan == chan && (m.copy (decide (32 ≤ l))).isNone && m.seq != seq

/-- A copy of a mirrored frame is complete or ended: it joins the window of its frame while that lasts, is
discarded when the window is over, or opens the window. A frame whose window closed with one copy is remembered
until its lane sends another frame of the channel (DESIGN CHOICE, log 109). -/
def State.mirrorCopy (s : State) (l : Nat) (chan : Half) (seq : Word) (c : Bool × List Byte × Word) : State :=
  let second := decide (32 ≤ l)
  let known := s.adit.mirrors.filter (fun m => !m.stale l chan.toNat seq)
  let mine (m : Mirror) : Bool := m.lane == l % 32 && m.chan == chan.toNat && m.seq == seq && (m.copy second).isNone
  match findAt mine known with
  | some (i, m) =>
    if m.closed then s.modAdit (fun a => { a with mirrors := dropAt known i })
    else if m.endsAt < s.now then s.modAdit (fun a => { a with mirrors := known.set i { m with lateCopy := true } })
    else s.modAdit (fun a => { a with mirrors := known.set i (m.setCopy second c) })
  | none =>
    let m : Mirror := { lane := l % 32, chan := chan.toNat, seq := seq, endsAt := s.now + s.skewFc l }
    let old (x : Mirror) : Bool := x.closed && x.lane == l % 32 && x.chan == chan.toNat && x.seq == seq
    s.modAdit (fun a => { a with mirrors := known.filter (fun x => !old x) ++ [m.setCopy second c] })

/-- The window of the first frame of a primary lane is over. -/
def mirrorEnds (lane : Nat) (s : State) : Option (Nat × Mirror) :=
  findAt (fun (m : Mirror) => m.lane == lane && !m.closed && decide (m.endsAt ≤ s.now)) s.adit.mirrors

/-- MIRROR_WINDOW_END (R261). -/
def mirrorWindowEndDo (lane : Nat) (s : State) : State :=
  match mirrorEnds lane s with
  | none => s
  | some (i, m) =>
    let s1 := s.modAdit (fun a => { a with mirrors :=
      if (m.primary.isSome && m.secondary.isSome) || m.lateCopy then dropAt a.mirrors i else a.mirrors.set i { m with closed := true } })
    let ok (c : Option (Bool × List Byte × Word)) : Bool := (c.map (·.1)).getD false
    let differ := ok m.primary && ok m.secondary && (m.primary.map (·.2.2)) != (m.secondary.map (·.2.2))
    let pick := if ok m.primary then m.primary else if ok m.secondary then m.secondary else m.primary.orElse (fun _ => m.secondary)
    let c := pick.getD (false, [], 0)
    let s2 := s1.countLane lane 6 (boolNat differ)
    let late := 10 * (s.now - m.endsAt)
    s2.forwardFrame lane (BitVec.ofNat 16 m.chan) c.2.1 c.1 0 (lane % 4) (2160 - late) (1200 - late) 0

def execMirrorWindowEnd (lane : Nat) (s : State) : Result :=
  whenDue (mirrorEnds lane s).isSome (mirrorWindowEndDo lane s)

/-! ## Frames on a lane (R254, R255) -/

/-- SEQ_GAP is set now (R9). -/
def State.noteGap (s : State) (q : Nat) (gap : Bool) : State := if gap then s.hit (quadStatus q) 0 else s

/-- Previous sequence of a channel: per quad, and for a mirrored pair per pair, in the primary quad, where each
of the two lanes also has its own. The answer says whether there is a gap. -/
def State.noteSeq (s : State) (l : Nat) (chan : Half) (seq : Word) : State :=
  match s.mirrorOf l with
  | none =>
    let q := s.quad (l / 4)
    let gap := match look q.prevSeq chan.toNat with
      | some v => seq != v + 1
      | none => false
    (s.modQuad (l / 4) (fun q => { q with prevSeq := put q.prevSeq chan.toNat seq, seqGap := q.seqGap || gap })).noteGap (l / 4) gap
  | some _ =>
    let qi := (l % 32) / 4
    let q := s.quad qi
    let pk := chan.toNat + 65536 * (1 + l % 4)
    let lk := chan.toNat + 65536 * (5 + l % 4 + 4 * (l / 32))
    let own := look q.prevSeq lk
    match look q.prevSeq pk with
    | none => s.modQuad qi (fun q => { q with prevSeq := put (put q.prevSeq pk seq) lk seq })
    | some v =>
      let follows := match own with
        | some u => seq == u + 1
        | none => seq == v
      let gap := seq != v + 1 && !follows
      let ahead := (seq - v).toNat < 2 ^ 31
      (s.modQuad qi (fun q => { q with
        prevSeq := put (if ahead || gap then put q.prevSeq pk seq else q.prevSeq) lk seq, seqGap := q.seqGap || gap })).noteGap qi gap

/-- A frame of lane l has ended. -/
def State.frameDone (s : State) (l : Nat) (f : OpenFrame) (payload : List Byte) (complete : Bool) (crc : Word) : State :=
  let s1 := (s.modLane l (fun x => { x with frame := none })).countLane l (if complete then 0 else 1) 1
  match s.mirrorOf l with
  | some _ => s1.mirrorCopy l (BitVec.ofNat 16 f.chan) f.seq (complete, payload, crc)
  | none => s1.forwardFrame l (BitVec.ofNat 16 f.chan) payload complete f.sent (l % 4) 2160 1200 f.stream

/-- An open frame ends as incomplete. -/
def State.endOpen (s : State) (l : Nat) : State :=
  match (s.lane l).frame with
  | some f => s.frameDone l f f.payload false 0
  | none => s

/-- FRAME_START (R255). -/
def frameStartDo (lane : Nat) (chan : Half) (seq : Word) (s : State) : State :=
  let s1 := (s.endOpen lane).noteSeq lane chan seq
  let q := s1.quad (lane / 4)
  let r := s1.openArriving lane (if q.bypass ∧ (s1.mirrorOf lane).isNone then q.channelOf chan.toNat else none)
  r.1.modLane lane (fun x => { x with frame := some { chan := chan.toNat, seq := seq, stream := r.2 } })

def execFrameStart (lane : Nat) (chan : Half) (seq : Word) (s : State) : Result :=
  whenDue (s.laneLive lane) (frameStartDo lane chan seq s)

/-- Words that can go ahead into the riddle: all whose bytes have come, but for the last so far. -/
def State.feedAhead (s : State) (l : Nat) (f : OpenFrame) : State :=
  let n := (f.payload.length - 1) / 16
  if (s.quad (l / 4)).bypass || (s.mirrorOf l).isSome || !(s.block (l / 4)).loaded || decide (n ≤ f.sent) then s
  else
    let due := 10 * s.now + 1200
    let s1 := s.feedWords (l / 4) (l % 4) ((List.range (n - f.sent)).map (fun i =>
      riddleWord (BitVec.ofNat 16 f.chan) f.payload f.payload.length (f.sent + i) due false false))
    s1.modLane l (fun x => { x with frame := some { f with sent := n } })

/-- DATA_BLOCK (R255). -/
def dataBlockDo (lane : Nat) (data : DWord) (s : State) : State :=
  match (s.lane lane).frame with
  | none => s.countLane lane 2 1
  | some f =>
    let f1 := { f with payload := f.payload ++ natLE 8 data.toNat, blocks := f.blocks + 1 }
    ((s.modLane lane (fun x => { x with frame := some f1 })).feedAhead lane f1).streamBytes f.stream (10 * s.now + 2160)
      f.payload.length f1.payload

def execDataBlock (lane : Nat) (data : DWord) (s : State) : Result :=
  whenDue (s.laneLive lane) (dataBlockDo lane data s)

/-- The checks of R255 on a frame and its FRAME_END. -/
def OpenFrame.completes (f : OpenFrame) (crc : Word) (len : Nat) : Bool :=
  !f.broken && decide (f.blocks = ceilDiv len 8) && decide (0 < len) && decide (crc32 (f.payload.take len) = crc.toNat)

/-- FRAME_END (R255). Bytes past L are ignored. -/
def frameEndDo (lane : Nat) (crc : Word) (len : BitVec 24) (s : State) : State :=
  match (s.lane lane).frame with
  | none => s.countLane lane 2 1
  | some f =>
    let ok := f.completes crc len.toNat
    s.frameDone lane f (if ok then f.payload.take len.toNat else f.payload) ok crc

def execFrameEnd (lane : Nat) (crc : Word) (len : BitVec 24) (s : State) : Result :=
  whenDue (s.laneLive lane) (frameEndDo lane crc len s)

/-- IDLE (R254, R255): the block is removed from the stream, and nothing else happens. -/
def execIdle (lane : Nat) (s : State) : Result := whenValid (decide (lane < 64)) s

/-- ALIGN (R253): the receiver locks its codeword boundaries on the blocks and removes them. Inside a frame an
alignment marker is no control block of the frame. -/
def execAlign (lane : Nat) (_number : Byte) (s : State) : Result := whenValid (decide (lane < 64)) s

/-- UNCORRECTABLE_CODEWORD (R255). -/
def uncorrectableCodewordDo (lane : Nat) (s : State) : State := (s.endOpen lane).countLane lane 4 1

def execUncorrectableCodeword (lane : Nat) (s : State) : Result :=
  whenDue (s.laneLive lane) (uncorrectableCodewordDo lane s)

/-! ## Loss of a lane (R262) -/

/-- Lanes of the Ethernet port that lane l carries. -/
def State.ethPortOf (s : State) (l : Nat) : Option Nat :=
  if (s.quad (l / 4)).mode = 1 then some (l / 4 * 4) else if (s.quad (l / 4)).mode = 2 then some l else none

def State.laneEventDown (s : State) (l : Nat) : State :=
  let s1 := ((s.modQuad (l / 4) (fun q => { q with laneDown := true })).hit (quadStatus (l / 4)) 1).raise Ev.laneDown (s.laneEv l)
  match s.mirrorOf l with
  | some o => if (s.lane o).up ∧ !(s.lane o).retired then s1.raise Ev.mirrorDegraded (s.laneEv l) else s1
  | none => s1

/-- LANE_LOSES_LOCK (R255, R262): the open frame ends, the loss is shown, and it is one occurrence (R370). -/
def laneLosesLockDo (lane : Nat) (s : State) : State :=
  let s1 := s.endOpen lane
  let s2 := match s1.ethPortOf lane with
    | some p => s1.modAdit (fun a => { a with assembly := (match look a.assembly p with
        | some x => put a.assembly p { x with broken := true }
        | none => a.assembly) })
    | none => s1
  (((s2.modLane lane (fun x => { x with up := false })).laneEventDown lane).occur (.detectorLane lane)).1

def execLaneLosesLock (lane : Nat) (s : State) : Result :=
  whenDue (decide (lane < 64) && (s.lane lane).up && (s.quad (lane / 4)).enable) (laneLosesLockDo lane s)

/-- Previous sequences of the quad, and of the pairs of a mirrored one, have no value (R255). -/
def State.forgetSeq (s : State) (q : Nat) : State :=
  let s1 := s.modQuad q (fun x => { x with prevSeq := [] })
  if 8 ≤ q ∧ (s.quad (q - 8)).mirror then s1.modQuad (q - 8) (fun x => { x with prevSeq := [] }) else s1

/-- LANE_REGAINS_LOCK (R262, R255). -/
def laneRegainsLockDo (lane : Nat) (s : State) : State :=
  (s.modLane lane (fun x => { x with up := true })).forgetSeq (lane / 4)

def execLaneRegainsLock (lane : Nat) (s : State) : Result :=
  whenDue (decide (lane < 64) && !(s.lane lane).up && !(s.lane lane).retired && (s.quad (lane / 4)).enable)
    (laneRegainsLockDo lane s)

end Sys2Proof.Machine
end

