-- ==== Sys2Proof/Machine/Ingest.lean ====
section
/-! DEFINITION. A-tile ingest: numbering of frames, the hold, pass-through, space-to-depth and the hit-list
scatter, zero fill, and the decision lines (R21, R30, R31, R267, R269 to R272). -/

namespace Sys2Proof.Machine

/-- A-tile that ingests a channel of an image. -/
def State.ingestTile (s : State) (h ch : Nat) : Nat :=
  match s.hwSkip h 1 ch with
  | some k => (((s.image h).skips.find? (fun r => r.id == k)).map SkipRec.hwTile).getD 0
  | none => 0

def State.channelTile (s : State) (h ch : Nat) : ATile := s.atile (atileIndex (s.ingestTile h ch))

/-! ## Space-to-depth and scatter (R213, R214, R270) -/

def ATile.s2dFactor (x : ATile) : Nat := 2 ^ (x.s2dF.toNat + 1)

/-- The interleaved tensor of R213 and R214 that the payload gives. -/
def ATile.spaceToDepth (x : ATile) (payload : List Byte) : List Byte :=
  let f := x.s2dFactor
  let C := x.c.toNat + 1
  let W := x.w.toNat
  let H := x.h.toNat
  let depth := f * f * C
  let cb := ceilDiv depth 32
  (List.range (H / f)).flatMap (fun y => (List.range (W / f)).flatMap (fun xx => (List.range (32 * cb)).map (fun c =>
    if depth ≤ c then 0
    else
      let p := c / C
      payload.getD (((y * f + p / f) * W + xx * f + p % f) * C + c % C) 0)))

/-- Bytes of an element of the dense tensor. -/
def ATile.elemBytes (x : ATile) : Nat := if x.dtype then 2 else 1

/-- Bytes of the dense tensor (R208). -/
def ATile.denseSize (x : ATile) : Nat := ceilDiv (x.c.toNat + 1) 32 * x.h.toNat * x.w.toNat * 32 * x.elemBytes

/-- A hit's value in DTYPE, and 1 if it saturated. -/
def ATile.hitValue (x : ATile) (v : Nat) : Nat × Nat :=
  let n := if x.valueType then ofBf16 v else Num.ofInt (signedOf 16 v)
  if x.dtype then (bf16 n, 0) else convertInt 8 (-128) 127 n

/-- What a hit leaves in an element already written (R270). -/
def ATile.conflictValue (x : ATile) (old new : Nat) : Nat × Nat :=
  if x.conflict = 1 then
    if x.dtype then (bf16 ((ofBf16 old).add (ofBf16 new)), 0)
    else let r := clampInt (signedOf 8 old + signedOf 8 new) (-128) 127; (wrapInt 8 r.1, r.2)
  else if x.conflict = 2 then
    if x.dtype then (if (ofBf16 old).lt (ofBf16 new) then new else old, 0)
    else (if signedOf 8 old < signedOf 8 new then new else old, 0)
  else (new, 0)

/-- Elements written so far, hits dropped, saturations. -/
structure Hits where
  elems : Tab Nat := []
  dropped : Nat := 0
  saturated : Nat := 0
deriving DecidableEq, Repr

/-- One hit record. CONFLICT = 3 has no meaning in the spec: its result is the free value `free`. -/
def ATile.hit (x : ATile) (free : Nat) (a : Hits) (r : Nat) : Hits :=
  let hx := bits r 15 0
  let hy := bits r 31 16
  let hc := bits r 39 32
  if x.w.toNat ≤ hx ∨ x.h.toNat ≤ hy ∨ x.c.toNat < hc then { a with dropped := a.dropped + 1 }
  else
    let e := ((hc / 32 * x.h.toNat + hy) * x.w.toNat + hx) * 32 + hc % 32
    let v := x.hitValue (bits r 63 48)
    match look a.elems e with
    | none => { a with elems := put a.elems e v.1, saturated := a.saturated + v.2 }
    | some old =>
      let u := if x.conflict = 3 then (free % 2 ^ (8 * x.elemBytes), 0) else x.conflictValue old v.1
      { a with elems := put a.elems e u.1, saturated := a.saturated + v.2 + u.2 }

/-- Records of a hit list. -/
def hitRecords : Nat → List Byte → List Nat
  | 0, _ => []
  | n + 1, bs => leNat (bs.take 8) :: hitRecords n (bs.drop 8)

def ATile.scatter (x : ATile) (free : Nat) (payload : List Byte) : Hits :=
  (hitRecords (payload.length / 8) payload).foldl (x.hit free) {}

/-- Dense bytes of the written elements. -/
def ATile.dense (x : ATile) (a : Hits) : List Byte :=
  (List.range (x.denseSize / x.elemBytes)).flatMap (fun e => natLE x.elemBytes (lookD a.elems e 0))

/-! ## FRAME_ARRIVAL (R21, R25, R256) -/

/-- Number of a frame that arrives now (R21). -/
def State.frameNumber (s : State) (d : Nat) : Nat := if (s.dom d).running then (s.dom d).count.toNat + 1 else 0

/-- The first frame of a lane that has reached its A-tile. -/
def arrivalOf (lane : Nat) (s : State) : Option (Nat × Arriving) :=
  findAt (fun (a : Arriving) => a.lane == lane && !a.open_ && decide (a.due ≤ 10 * s.now)) s.adit.arriving

def State.addFrame (s : State) (p : Nat) (f : Frame) : State := s.modPipe p (fun y => { y with frames := y.frames ++ [f] })

/-- Entries that the frames already here still have to push into the ingest skip of a channel. -/
def State.ingestOwed (s : State) (x : Pipe) (k : Nat) : Nat :=
  ((x.frames.filter (fun f => s.hwSkip x.image 1 f.channel == some k)).map
    (fun f => s.frameEntries x.image f.channel - f.pushed)).foldl (· + ·) 0

/-- Scatter buffers of an A-tile in use: by frames that have arrived, and by frames still coming in (R271). -/
def State.buffersUsed (s : State) (ai : Nat) : Nat :=
  (s.atile ai).buffers.length + (s.adit.arriving.filter (fun a => a.buffer == some true && (match a.target with
    | some (p, ch) => atileIndex (s.ingestTile (((s.pipe? p).map Pipe.image).getD 0) ch) == ai
    | none => false))).length

/-- A scatter frame takes a buffer at its first hit, or finds none free (R271). -/
def State.takeBuffers (s : State) : State :=
  upTo s.adit.arriving.length (fun s i =>
    match s.adit.arriving[i]? with
    | some a =>
      match a.buffer, a.target.bind (fun t => (s.pipe? t.1).map (fun x => atileIndex (s.ingestTile x.image t.2))) with
      | none, some ai =>
        if (s.atile ai).mode = 2 ∧ a.got.any (fun g => decide (g.1 ≤ 10 * s.now) && decide (8 ≤ g.2)) then
          let ok := decide (s.buffersUsed ai < 4)
          s.modAdit (fun x => { x with arriving := x.arriving.set i { a with buffer := some ok } })
        else s
      | _, _ => s
    | none => s) s

/-- An accepted frame of a channel, the first in this shift. In a best-effort pipeline a frame for all of whose
entries there is no credit, with those still owed, is dropped whole at its arrival, and no decision word is
released for it: R31 says neither when credit is looked at nor what is released (DESIGN CHOICE, log 117). -/
def State.acceptFrame (s : State) (p : Nat) (x : Pipe) (ch n : Nat) (a_ : Arriving) : State :=
  let complete := a_.complete && !a_.cut
  let payload := a_.payload
  let img := s.image x.image
  let at_ := s.ingestTile x.image ch
  let ai := atileIndex at_
  let a := s.atile ai
  let fc := s.rowFc (s.physical at_)
  let lacking := match s.hwSkip x.image 1 ch with
    | some k => decide ((s.skip k).creditAll < s.ingestOwed x k + (s.skip k).cfg.pushRate)
    | none => false
  let s0 := s.modPipe p (fun y => { y with seen := ch :: y.seen })
  let partial_ (s : State) : State :=
    (s.countChannel p ch 0).addFrame p
      { channel := ch, number := n, complete := false, payload := [], fill := true, held := false, pushed := a_.pushed
        nextAt := fc + 1 }
  if !img.realtime && lacking then
    ((s0.countPipe p 5 1).countPipe p 2 1).addFrame p
      { channel := ch, number := n, complete := complete, payload := [], released := true, held := false
        pushed := s.frameEntries x.image ch }
  else
    let s1 := s0.dueEntries x.image ch
    if !complete then partial_ s1
    else if a.mode = 2 ∧ payload.length % 8 ≠ 0 then partial_ s1
    else if a.mode = 2 ∧ (a_.buffer = some false ∨ (a_.buffer = none ∧ 4 ≤ s.buffersUsed ai)) then partial_ (s1.count 8 ai 2 1)
    else
      let hs := a.scatter s1.drawn payload
      let s2 := if a.mode = 2 then
          ((((s1.draw).count 8 ai 1 hs.dropped).count 8 ai 3 hs.saturated).countTile (s.physical at_) 9 hs.saturated).modAtile ai
            (fun y => { y with buffers := y.buffers ++ [(p, ch, n, a.dense hs)] })
        else s1
      match s2.hwSkip x.image 3 ch with
      | some k =>
        let size := 64 * ceilDiv payload.length 64
        let r := s2.holdTake p x k size
        (r.1.holdWrite k r.2 (padTo size payload)).addFrame p
          { channel := ch, number := n, complete := true, payload := payload, lo := r.2, size := size, pushed := a_.pushed
            nextAt := fc + 1 }
      | none => s2.addFrame p { channel := ch, number := n, complete := true, payload := payload, held := false, pushed := a_.pushed
                                nextAt := fc + 1 }

/-- FRAME_ARRIVAL (R21): a frame of no pipeline, of a domain that is not enabled, or of an unmapped channel is
counted on its lane; one the pipeline does not accept, or a second one in a shift, goes to tailings. -/
def frameArrivalDo (lane : Nat) (s : State) : State :=
  match arrivalOf lane s with
  | none => s
  | some (i, a) =>
    let s1 := s.modAdit (fun x => { x with arriving := dropAt x.arriving i })
    match a.target with
    | none => s1.countLane lane 7 1
    | some (p, ch) =>
      match s1.pipe? p with
      | none => s1.countLane lane 7 1
      | some x =>
        let n := s1.frameNumber (p / 32)
        if !(s1.dom (p / 32)).enable then s1.countLane lane 7 1
        else if !x.accepts n then s1.countPipe p 2 1
        else if x.seen.contains ch then
          (((s1.raise Ev.frameOverrun (pipeEv p x)).countChannel p ch 1)).countPipe p 2 1
        else s1.acceptFrame p x ch n a

def execFrameArrival (lane : Nat) (s : State) : Result := whenDue (arrivalOf lane s).isSome (frameArrivalDo lane s)

/-! ## Entries of a frame (R30, R269, R272, R428) -/

/-- Frame f goes before frame g in an ingest skip. -/
def Frame.before (f g : Frame) : Bool := decide (f.number < g.number) || (f.number == g.number && decide (f.channel < g.channel))

/-- The frame of the channel whose entries leave next, if its turn has come: every earlier frame of its skip has
all its entries pushed, and no lower channel can still deliver in its shift. -/
def State.ingestTurn (s : State) (p : Nat) (x : Pipe) (ch : Nat) : Option (Nat × Frame) :=
  match s.hwSkip x.image 1 ch with
  | none => none
  | some k =>
    let open_ := x.frames.filter (fun f => s.hwSkip x.image 1 f.channel == some k
      && decide (f.pushed < s.frameEntries x.image f.channel))
    match open_.find? (fun f => f.channel == ch && open_.all (fun g => f == g || f.before g || (g.channel == ch && decide (f.number ≤ g.number)))) with
    | none => none
    | some f =>
      let pending := (List.range ch).any (fun c => s.hwSkip x.image 1 c == some k
        && decide (s.frameNumber (p / 32) = f.number) && !x.seen.contains c)
      if pending then none else some (k, f)

/-- Entry i of a frame's data, in entries of w bytes. -/
def State.frameEntry (s : State) (h ch : Nat) (payload : List Byte) (i w : Nat) : Line :=
  let a := s.channelTile h ch
  let bs := if a.mode = 1 then a.spaceToDepth payload else payload
  bytesLine (padTo 64 ((bs.drop (w * i)).take w))

/-- Push and commit entry i of a frame of a channel. -/
def State.pushIngest (s : State) (p k ch i : Nat) (data : Line) : State :=
  let x := s.skip k
  let h := ((s.pipe? p).map Pipe.image).getD 0
  let ai := atileIndex (s.ingestTile h ch)
  let due := s.skipFc k + x.cfg.routeLatency
  let seq := x.effective + 1
  let e : Entry := { seq := seq, data := data, bytes := x.cfg.width, eop := i + 1 == x.cfg.pushRate, due := due }
  let s1 := s.modSkip k (fun y => { (y.useCredit 1 72) with
    fly := y.fly ++ [e], effective := seq, marks := y.marks ++ [(seq, due + 2)] })
  s1.count 8 ai 0 1

/-- Push and commit the next entry of a frame that has arrived. -/
def State.pushFrameEntry (s : State) (p k : Nat) (f : Frame) (data : Line) : State :=
  let fc := s.rowFc (s.physical (s.ingestTile (((s.pipe? p).map Pipe.image).getD 0) f.channel))
  (s.pushIngest p k f.channel f.pushed data).modPipe p (fun y => { y with frames := y.frames.map (fun g =>
    if g.channel == f.channel && g.number == f.number then { g with pushed := g.pushed + 1, nextAt := fc + 1 } else g) })

/-- A real-time frame that lacks credit for an entry that is due becomes incomplete (R30). -/
def State.ingestOverflow (s : State) (p : Nat) (f : Frame) : State :=
  let h := ((s.pipe? p).map Pipe.image).getD 0
  let ai := atileIndex (s.ingestTile h f.channel)
  let s1 := ((s.countPipe p 5 1).countChannel p f.channel 0).modAtile ai (fun a => { a with
    buffers := a.buffers.filter (fun b => !(b.1 == p && b.2.1 == f.channel && b.2.2.1 == f.number)) })
  s1.modPipe p (fun y => { y with frames := y.frames.map (fun g =>
    if g.channel == f.channel && g.number == f.number then { g with complete := false, fill := true, held := false } else g) })

/-- The frame whose data entry is due on a channel: its own turn, or a real-time frame behind a fill that waits
for credit. -/
def State.dataDue (s : State) (p ch : Nat) (scatter : Bool) : Option (Nat × Frame × Bool) :=
  match s.pipe? p with
  | none => none
  | some x =>
    let fc := s.rowFc (s.physical (s.ingestTile x.image ch))
    if ((s.channelTile x.image ch).mode == 2) != scatter then none
    else match s.ingestTurn p x ch with
      | some (k, f) =>
        let credit := decide (0 < (s.skip k).creditAll)
        if !f.fill then
          if f.nextAt ≤ fc ∧ (credit ∨ (s.image x.image).realtime) then some (k, f, credit) else none
        else match x.frames.find? (fun g => g.channel == ch && !g.fill && decide (f.number < g.number)
            && decide (g.pushed < s.frameEntries x.image ch)) with
          | some g => if !credit && (s.image x.image).realtime && decide (g.nextAt ≤ fc) then some (k, g, false) else none
          | none => none
      | none => none

/-- Bytes of the payload that the first n bytes of the ingest stream need: rows of blocks, in space-to-depth. -/
def ATile.needed (x : ATile) (n : Nat) : Nat :=
  if x.mode = 1 then
    let f := x.s2dFactor
    let band := x.w.toNat / f * (32 * ceilDiv (f * f * (x.c.toNat + 1)) 32)
    if band = 0 then 2 ^ 32 else ceilDiv n band * (f * x.w.toNat * (x.c.toNat + 1))
  else n

/-- The first frame on its way to a channel. -/
def State.comingTo (s : State) (p ch : Nat) : Option (Nat × Arriving) :=
  findAt (fun (a : Arriving) => a.target == some (p, ch)) s.adit.arriving

/-- An entry of a frame that still comes in is due (R21, R30): its bytes are at the A-tile, every earlier frame of
the skip is pushed, and the frame would be accepted. Only a real-time A-tile pushes ahead of the last bit: a
best-effort frame may still be dropped whole (DESIGN CHOICE, log 104). -/
def State.earlyDue (s : State) (p ch : Nat) : Option (Nat × Nat × Arriving × Bool) :=
  match s.pipe? p with
  | none => none
  | some x =>
    match s.hwSkip x.image 1 ch, s.comingTo p ch with
    | some k, some (i, a) =>
      let t := s.channelTile x.image ch
      let fc := s.rowFc (s.physical (s.ingestTile x.image ch))
      let y := s.skip k
      let behind := x.frames.any (fun f => s.hwSkip x.image 1 f.channel == some k && decide (f.pushed < s.frameEntries x.image f.channel))
      let pending := (List.range ch).any (fun c => s.hwSkip x.image 1 c == some k && !x.seen.contains c)
      let have_ := a.got.any (fun g => decide (g.1 ≤ 10 * s.now) && decide (t.needed ((a.pushed + 1) * y.cfg.width) ≤ g.2))
      if (s.image x.image).realtime && (s.dom (p / 32)).enable && x.accepts (s.frameNumber (p / 32)) && !x.seen.contains ch
          && t.mode != 2 && !a.cut && decide (a.pushed < y.cfg.pushRate) && decide (a.nextAt ≤ fc) && !behind && !pending && have_
      then some (k, i, a, decide (0 < y.creditAll)) else none
    | _, _ => none

/-- Push an entry ahead of the frame's last bit; without credit the frame becomes incomplete there (R30). -/
def State.pushEarly (s : State) (p ch : Nat) : State :=
  match s.earlyDue p ch with
  | none => s
  | some (k, i, a, credit) =>
    let h := ((s.pipe? p).map Pipe.image).getD 0
    let set (s : State) (b : Arriving) : State := s.modAdit (fun x => { x with arriving := x.arriving.set i b })
    if credit then
      set (s.pushIngest p k ch a.pushed (s.frameEntry h ch a.payload a.pushed (s.skip k).cfg.width))
        { a with pushed := a.pushed + 1, nextAt := s.rowFc (s.physical (s.ingestTile h ch)) + 1 }
    else set (s.countPipe p 5 1) { a with cut := true }

/-- INGEST_PUSH (R269, R30). -/
def ingestPushDo (d p c : Nat) (s : State) : State :=
  let q := 32 * d + p
  match s.dataDue q c false with
  | some (k, f, true) => s.pushFrameEntry q k f (s.frameEntry (((s.pipe? q).map Pipe.image).getD 0) c f.payload f.pushed (s.skip k).cfg.width)
  | some (_, f, false) => s.ingestOverflow q f
  | none => s.pushEarly q c

def execIngestPush (d p c : Nat) (s : State) : Result :=
  whenDue (decide (p < 32) && ((s.dataDue (32 * d + p) c false).isSome || (s.earlyDue (32 * d + p) c).isSome)) (ingestPushDo d p c s)

/-- The scatter buffer of an A-tile whose next entry is due. -/
def State.drainDue (s : State) (a : Nat) : Option (Nat × Nat × Nat × Frame × Bool × List Byte) :=
  if s.rowFc (atilePos a) < (s.atile a).nextAt then none
  else
    (s.atile a).buffers.findSome? (fun (b : Nat × Nat × Nat × List Byte) =>
      match s.dataDue b.1 b.2.1 true with
      | some (k, f, credit) => if f.number = b.2.2.1 then some (b.1, b.2.1, k, f, credit, b.2.2.2) else none
      | none => none)

/-- SCATTER_DRAIN (R271, R272): one dense entry leaves and its place is zeroed; after the last the buffer is free. -/
def scatterDrainDo (a : Nat) (s : State) : State :=
  match s.drainDue a with
  | none => s
  | some (p, ch, k, f, true, bs) =>
    let w := (s.skip k).cfg.width
    let s1 := s.pushFrameEntry p k f (bytesLine (padTo 64 (bs.take w)))
    let last := decide ((s.skip k).cfg.pushRate ≤ f.pushed + 1)
    s1.modAtile a (fun y => { y with
      nextAt := s.rowFc (atilePos a) + 1
      buffers := if last then y.buffers.filter (fun b => !(b.1 == p && b.2.1 == ch && b.2.2.1 == f.number))
        else y.buffers.map (fun b => if b.1 == p && b.2.1 == ch && b.2.2.1 == f.number then (b.1, b.2.1, b.2.2.1, bs.drop w) else b) })
  | some (p, _, _, f, false, _) => s.ingestOverflow p f

def execScatterDrain (a : Nat) (s : State) : Result := whenDue (decide (a < 48) && (s.drainDue a).isSome) (scatterDrainDo a s)

/-- The frame of a channel whose zero fill can go on. -/
def State.fillDueOf (s : State) (p ch : Nat) : Option (Nat × Frame) :=
  match s.pipe? p with
  | none => none
  | some x => match s.ingestTurn p x ch with
    | some (k, f) =>
      if f.fill ∧ 0 < (s.skip k).creditAll ∧ f.nextAt ≤ s.rowFc (s.physical (s.ingestTile x.image ch)) then some (k, f) else none
    | none => none

/-- ZERO_FILL_PUSH (R30). -/
def zeroFillPushDo (d p c : Nat) (s : State) : State :=
  match s.fillDueOf (32 * d + p) c with
  | some (k, f) => s.pushFrameEntry (32 * d + p) k f 0
  | none => s

def execZeroFillPush (d p c : Nat) (s : State) : Result :=
  whenDue (decide (p < 32) && (s.fillDueOf (32 * d + p) c).isSome) (zeroFillPushDo d p c s)

/-! ## Decision lines (R267) -/

/-- K28.5, which begins a word, and K28.3, which the line sends between words (R267): the characters whose 8b/10b
codes ANSI INCITS 230 gives (log 110). -/
def k28_5 : Byte := 0xBC
def k28_3 : Byte := 0x7C

/-- Characters of a word in the order in which they leave: true marks a K character (R267). -/
def wordChars (w : Word) : List (Bool × Byte) := (true, k28_5) :: (natLE 4 w.toNat).reverse.map (fun b => (false, b))

/-- The next word of a line begins in this fc or has begun. -/
def decisionWordTransmitOk (line : Nat) (s : State) : Bool :=
  match (s.decLine line).queue with
  | (a, _) :: _ => decide (line < 16) && decide (a < 10 * s.now + 10)
  | [] => false

/-- DECISION_WORD_TRANSMIT (R267). -/
def decisionWordTransmitDo (line : Nat) (s : State) : State :=
  match (s.decLine line).queue with
  | (a, w) :: r => (s.modLine line (fun x => { x with queue := r })).emit (.decision line a w (wordChars w))
  | [] => s

def execDecisionWordTransmit (line : Nat) (s : State) : Result :=
  whenDue (decisionWordTransmitOk line s) (decisionWordTransmitDo line s)

end Sys2Proof.Machine
end

