-- ==== Sys2Proof/Machine/Ether.lean ====
section
/-! DEFINITION. Ethernet ports and transmit streams (R257 to R259). Network fields have their first byte most
significant; the fields of AD_ETH_PORT hold MAC and IP addresses with the first byte in the highest bits. -/

namespace Sys2Proof.Machine

/-- Value of network bytes, first byte most significant. -/
def beNat (bs : List Byte) : Nat := bs.foldl (fun a b => 256 * a + b.toNat) 0

def fieldBE (bs : List Byte) (o n : Nat) : Nat := beNat ((bs.drop o).take n)

def natBE (n x : Nat) : List Byte := (natLE n x).reverse

/-- AD_ETH_PORT of a port (Table 10.14): MAX_FRAME is 1,518 at reset. -/
def State.ethPort (s : State) (p : Nat) : Line := lookD s.adit.eth p (BitVec.ofNat 512 (1518 * 2 ^ 384))

def ethField (x : Line) (hi lo : Nat) : Nat := bits x.toNat hi lo

/-- MAX_FRAME, at most 9,216 bytes (Table 10.3). -/
def maxFrame (x : Line) : Nat := min 9216 (ethField x 399 384)

/-- Ones' complement sum of 16-bit network words; an odd last byte is padded with zero. -/
def onesSum : List Byte → Nat
  | [] => 0
  | [b] => 256 * b.toNat
  | a :: b :: r => 256 * a.toNat + b.toNat + onesSum r

/-- The checksum field that makes a string with sum n hold. -/
def sumField (n : Nat) : Nat := if n = 0 then 65535 else 65535 - ((n - 1) % 65535 + 1)

/-- The checksum of a string that contains its own checksum field holds when the folded sum is all ones. -/
def sumHolds (n : Nat) : Bool := n != 0 && n % 65535 == 0

/-- The port is in use: the quad runs the one lane rate that Ethernet supports, 400 GbE is port 4q, and every lane
it needs is up (R257, Tables 10.1 and 10.3). -/
def State.ethLive (s : State) (p : Nat) : Bool :=
  let q := s.quad (p / 4)
  decide (p < 64) && q.enable && q.rate == 3 &&
    ((q.mode == 1 && p % 4 == 0 && (List.range 4).all (fun i => (s.lane (p + i)).up && !(s.lane (p + i)).retired))
      || (q.mode == 2 && (s.lane p).up && !(s.lane p).retired))

/-- What a received frame is. -/
inductive EthRx where
  | pause (quanta : Nat)
  | datagram (bytes : List Byte)
  | dropped
deriving DecidableEq, Repr

/-- UDP checks (Table 10.3): `pseudo` is the sum of the pseudo header but for protocol and length. -/
def checkUdp (x : Line) (udp : List Byte) (pseudo : Nat) (v6 : Bool) : EthRx :=
  let len := fieldBE udp 4 2
  let sum := fieldBE udp 6 2
  if udp.length < 8 ∨ len < 8 ∨ udp.length < len then .dropped
  else if fieldBE udp 2 2 ≠ ethField x 63 48 then .dropped
  else if sum = 0 ∧ v6 then .dropped
  else if sum ≠ 0 ∧ !sumHolds (pseudo + 17 + len + onesSum (udp.take len)) then .dropped
  else .datagram ((udp.take len).drop 8)

/-- IPv4 without options or fragments, header checksum checked. -/
def checkIp4 (x : Line) (ip : List Byte) : EthRx :=
  let total := fieldBE ip 2 2
  if ip.length < 20 ∨ fieldBE ip 0 1 ≠ 0x45 ∨ total < 20 ∨ ip.length < total then .dropped
  else if fieldBE ip 6 2 % 2 ^ 14 ≠ 0 then .dropped
  else if fieldBE ip 9 1 ≠ 17 ∨ !sumHolds (onesSum (ip.take 20)) then .dropped
  else if fieldBE ip 16 4 ≠ ethField x 159 128 then .dropped
  else checkUdp x ((ip.take total).drop 20) (onesSum ((ip.take 20).drop 12)) false

/-- IPv6 with the fixed header only. -/
def checkIp6 (x : Line) (ip : List Byte) : EthRx :=
  let len := fieldBE ip 4 2
  if ip.length < 40 ∨ fieldBE ip 0 1 / 16 ≠ 6 ∨ ip.length < 40 + len then .dropped
  else if fieldBE ip 6 1 ≠ 17 ∨ fieldBE ip 24 16 ≠ ethField x 255 128 then .dropped
  else checkUdp x ((ip.drop 40).take len) (onesSum ((ip.take 40).drop 8)) true

/-- Checks of Table 10.3 on a frame from its destination address to its FCS. -/
def checkEth (x : Line) (bytes : List Byte) : EthRx :=
  let n := bytes.length
  let body := bytes.take (n - 4)
  if n < 64 ∨ maxFrame x < n ∨ crc32 body ≠ leNat (bytes.drop (n - 4)) then .dropped
  else if fieldBE body 12 2 = 0x8808 then
    (if fieldBE body 14 2 = 1 ∧ (fieldBE body 0 6 = 0x0180C2000001 ∨ fieldBE body 0 6 = ethField x 47 0)
      then .pause (fieldBE body 16 2) else .dropped)
  else if fieldBE body 0 6 ≠ ethField x 47 0 then .dropped
  else
    let tagged := ethField x 414 414 = 1
    if tagged ∧ (fieldBE body 12 2 ≠ 0x8100 ∨ fieldBE body 14 2 % 4096 ≠ ethField x 411 400) then .dropped
    else
      let o := if tagged then 16 else 12
      let ty := fieldBE body o 2
      let ip := body.drop (o + 2)
      if ethField x 415 415 = 1 then (if ty = 0x86DD then checkIp6 x ip else .dropped)
      else if ty = 0x0800 then checkIp4 x ip else .dropped

/-- Port lane of a frame on an Ethernet port: with one 400 GbE port, whole frames go to port CHID mod 4 (R278). -/
def State.ethRiddlePort (s : State) (p chan : Nat) : Nat := if (s.quad (p / 4)).mode = 1 then chan % 4 else p % 4

/-- A drift frame put together on a port has ended (R258). -/
def State.assembled (s : State) (p : Nat) (a : Assembly) (complete : Bool) : State :=
  let s1 := (s.modAdit (fun x => { x with assembly := del x.assembly p })).countLane p (if complete then 0 else 1) 1
  s1.forwardFrame p (BitVec.ofNat 16 a.chan) a.payload complete 0 (s.ethRiddlePort p a.chan) 5040 4080 a.stream

/-- One drift datagram (Table 10.4). -/
def State.datagram (s : State) (p : Nat) (bs : List Byte) : State :=
  let chan := fieldLE bs 0 2
  let flags := fieldLE bs 2 1
  let seq : Word := BitVec.ofNat 32 (fieldLE bs 4 4)
  let off := fieldLE bs 8 4
  let crc := fieldLE bs 12 4
  let data := bs.drop 16
  let first := bitAt flags 0
  let last := bitAt flags 1
  let open_ := look s.adit.assembly p
  let s1 := match open_ with
    | some a => if first then s.assembled p a false else s
    | none => s
  let q := s1.quad (p / 4)
  let r := if first ∧ q.bypass then s1.openArriving p (q.channelOf chan) else (s1, 0)
  let s1 := r.1
  let cur := if first then some ({ chan := chan, seq := seq, stream := r.2 } : Assembly) else open_
  match cur with
  | none => s1
  | some a =>
    let bad := a.chan != chan || a.seq != seq || off != a.payload.length
    let a1 := { a with payload := if bad then a.payload else a.payload ++ data, broken := a.broken || bad }
    if last then s1.assembled p a1 (!a1.broken && crc32 a1.payload == crc)
    else (s1.modAdit (fun x => { x with assembly := put x.assembly p a1 })).streamBytes a.stream (10 * s.now + 5040)
      a1.payload.length a1.payload

/-- Time of a number of pause quanta in fc: 512 bit times each. -/
def pauseFc (mode : BitVec 2) (quanta : Nat) : Nat := ceilDiv (quanta * (if mode = 1 then 1536 else 6144)) 1000

/-- ETHERNET_FRAME (R257 to R259): anything outside the supported list is dropped and counted. -/
def ethernetFrameDo (port : Nat) (bytes : List Byte) (s : State) : State :=
  match checkEth (s.ethPort port) bytes with
  | .dropped => s.countLane port 5 1
  | .pause n => s.modLane port (fun x => { x with paused := n != 0, pausedUntil := s.now + pauseFc (s.quad (port / 4)).mode n })
  | .datagram bs => if bs.length < 16 then s.countLane port 5 1 else s.datagram port bs

def execEthernetFrame (port : Nat) (bytes : List Byte) (s : State) : Result :=
  whenDue (s.ethLive port) (ethernetFrameDo port bytes s)

/-- PAUSE_EXPIRY (R259). -/
def pauseExpiryOk (port : Nat) (s : State) : Bool :=
  decide (port < 64) && (s.lane port).paused && decide ((s.lane port).pausedUntil ≤ s.now)

def execPauseExpiry (port : Nat) (s : State) : Result :=
  whenDue (pauseExpiryOk port s) (s.modLane port (fun x => { x with paused := false }))

/-! ## Transmit streams (R259) -/

/-- Words of the first packet of a stream, if all of it is visible. -/
def packetOf : List RWord → Option (List RWord)
  | [] => none
  | w :: ws => if w.eop then some [w] else (packetOf ws).map (w :: ·)

/-- What leaves a stream now: its first packet to the end, or the part that fills the stream, so that a packet
longer than its 64 KiB leaves too (R259). -/
def State.txPart (s : State) (k : Nat) : Option (List RWord × Bool) :=
  match packetOf (s.skip k).words with
  | some ws => some (ws, true)
  | none => if (s.skip k).words.isEmpty ∨ 0 < (s.skip k).creditAll then none else some ((s.skip k).words, false)

/-- Payload bytes of an Ethernet datagram: what MAX_FRAME leaves beside the headers and FCS. -/
def datagramRoom (x : Line) : Nat :=
  maxFrame x - 18 - (if ethField x 414 414 = 1 then 4 else 0) - (if ethField x 415 415 = 1 then 40 else 20) - 8 - 16

/-- Drift datagrams of a frame (R258, R259). -/
def datagrams (chan seq crc room : Nat) (all : List Byte) : Nat → Nat → List (List Byte)
  | 0, _ => []
  | k + 1, off =>
    let part := (all.drop off).take (max room 1)
    let last := all.length ≤ off + part.length
    let flags := (if off = 0 then 1 else 0) + (if last then 2 else 0)
    let head := natLE 2 chan ++ natLE 1 flags ++ [0] ++ natLE 4 seq ++ natLE 4 off ++ natLE 4 (if last then crc else 0)
    (head ++ part) :: (if last then [] else datagrams chan seq crc room all k (off + part.length))

/-- UDP header and payload: `pseudo` is the sum of the pseudo header but for protocol and length. -/
def udpBytes (x : Line) (pseudo : Nat) (data : List Byte) : List Byte :=
  let len := data.length + 8
  let head := natBE 2 (ethField x 63 48) ++ natBE 2 (ethField x 127 112) ++ natBE 2 len
  let c := sumField (pseudo + 17 + len + onesSum (head ++ [0, 0] ++ data))
  head ++ natBE 2 (if c = 0 then 65535 else c) ++ data

def ip4Bytes (x : Line) (free : Nat) (data : List Byte) : List Byte :=
  let ends := natBE 4 (ethField x 159 128) ++ natBE 4 (ethField x 287 256)
  let udp := udpBytes x (onesSum ends) data
  let head := natBE 1 0x45 ++ natBE 1 (free % 256) ++ natBE 2 (20 + udp.length) ++ natBE 2 (free / 2 ^ 8 % 65536)
    ++ natBE 2 (free / 2 ^ 24 % 2 * 2 ^ 14) ++ natBE 1 (free / 2 ^ 25 % 256) ++ natBE 1 17
  head ++ natBE 2 (sumField (onesSum (head ++ [0, 0] ++ ends))) ++ ends ++ udp

def ip6Bytes (x : Line) (free : Nat) (data : List Byte) : List Byte :=
  let ends := natBE 16 (ethField x 255 128) ++ natBE 16 (ethField x 383 256)
  let udp := udpBytes x (onesSum ends) data
  natBE 4 (6 * 2 ^ 28 + free % 2 ^ 28) ++ natBE 2 udp.length ++ natBE 1 17 ++ natBE 1 (free / 2 ^ 28 % 256) ++ ends ++ udp

/-- The Ethernet frame of one drift datagram, from its destination address to its FCS (R257, R259, Table 10.14).
The spec gives no IP identification, lifetime, service class or flow label and no VLAN priority: they are taken
from the free value. The source port is LOCAL_UDP, and a short frame is padded with zeros (log 111). -/
def ethFrameOf (x : Line) (free : Nat) (data : List Byte) : List Byte :=
  let tag := if ethField x 414 414 = 1 then natBE 2 0x8100 ++ natBE 2 (free / 2 ^ 40 % 8 * 2 ^ 13 + ethField x 411 400) else []
  let ip := if ethField x 415 415 = 1 then natBE 2 0x86DD ++ ip6Bytes x free data else natBE 2 0x0800 ++ ip4Bytes x free data
  let body := padTo 60 (natBE 6 (ethField x 111 64) ++ natBE 6 (ethField x 47 0) ++ tag ++ ip)
  body ++ natLE 4 (crc32 body)

/-- 66-bit blocks of a drift frame: true marks a control block (R253, R254, Table 10.2). -/
def driftBlocks (chan seq crc : Nat) (payload : List Byte) : List (Bool × DWord) :=
  (true, BitVec.ofNat 64 (0x78 + chan * 2 ^ 8 + seq * 2 ^ 24))
    :: ((List.range (ceilDiv payload.length 8)).map (fun i => (false, BitVec.ofNat 64 (leNat ((payload.drop (8 * i)).take 8))))
    ++ [(true, BitVec.ofNat 64 (0x87 + crc * 2 ^ 8 + payload.length * 2 ^ 40))])

/-- Send one frame: one RAW66 frame, or Ethernet frames of at most MAX_FRAME bytes (R259). -/
def State.sendFrame (s : State) (eth : Bool) (n : Nat) (bs : List Byte) : State :=
  let chan := fieldLE bs 0 2
  let seq := fieldLE bs 2 4
  let payload := bs.drop 8
  let crc := crc32 payload
  let x := s.ethPort n
  if eth then
    (datagrams chan seq crc (datagramRoom x) payload (payload.length + 1) 0).foldl
      (fun s d => (s.emit (.ethFrame n (ethFrameOf x s.drawn d))).draw) s
  else s.emit (.rawFrame n (BitVec.ofNat 16 chan) (BitVec.ofNat 32 seq) payload (BitVec.ofNat 32 crc) (driftBlocks chan seq crc payload))

def transmitPacketOk (eth : Bool) (n : Nat) (s : State) : Bool :=
  let k := txStreamSkip (eth, n)
  decide (n < 64) && (s.txPart k).isSome
    && (if eth then s.ethLive n && !(s.lane n).paused else (s.quad (n / 4)).enable && (s.quad (n / 4)).mode == 0)

/-- TRANSMIT_PACKET (R259): words leave the stream, and their credit returns; with its EOP the packet is sent. -/
def transmitPacketDo (eth : Bool) (n : Nat) (s : State) : State :=
  let k := txStreamSkip (eth, n)
  match s.txPart k with
  | none => s
  | some (ws, last) =>
    let bs := lookD s.adit.txOpen k [] ++ ws.flatMap (fun w => (lineBytes w.data).take w.valid)
    let fc := s.skipFc k
    let s1 := (s.modSkip k (fun x => x.consume ws.length fc)).releaseWords k ws.length
    if last then (s1.modAdit (fun a => { a with txOpen := del a.txOpen k })).sendFrame eth n bs
    else s1.modAdit (fun a => { a with txOpen := put a.txOpen k bs })

def execTransmitPacket (eth : Bool) (n : Nat) (s : State) : Result :=
  whenDue (transmitPacketOk eth n s) (transmitPacketDo eth n s)

end Sys2Proof.Machine
end

