-- ==== Sys2Proof/Machine/Hoist.lean ====
section
/-! DEFINITION. Hoists: descriptor lists, streams and bursts, page faults, fills and hold copies; the sump
ports with their arbiter and canary; the translation cache and BAR4 (chapter 12). -/

namespace Sys2Proof.Machine

/-! ## Descriptor lists (R305) -/

/-- One 32-byte descriptor, and whether it is the last. -/
def parseDesc (bs : List Byte) : Desc × Bool :=
  let flags := fieldLE bs 24 4
  let addr := fieldLE bs 0 8
  let len := fieldLE bs 8 4
  let count := fieldLE bs 12 4
  let stride := signedOf 64 (fieldLE bs 16 8)
  let bad := addr % 64 != 0 || decide (2 ^ 48 ≤ addr) || len % 64 != 0 || len == 0 || count == 0
    || stride % 64 != 0 || flags / 2 ^ 26 != 0 || fieldLE bs 28 4 != 0
  ({ addr := addr, length := len, count := count, stride := stride, lst := flags % 2 ^ 24, fill := bitAt flags 25, bad := bad },
    bitAt flags 24)

/-- Read a list of up to n descriptors; `none` where it is not mapped, and a bad end where none is LAST. -/
def State.readList (s : State) (claim : Nat) : Nat → Nat → Option (List Desc)
  | 0, _ => some [{ addr := 0, length := 0, count := 0, stride := 0, lst := 0, fill := false, bad := true }]
  | n + 1, cva =>
    match s.readCva claim cva 32 with
    | none => none
    | some bs =>
      let d := parseDesc bs
      if d.2 then some [d.1] else (s.readList claim n (cva + 32)).map (d.1 :: ·)

def Desc.total (d : Desc) : Nat := d.length * d.count
def descTotal (ds : List Desc) : Nat := (ds.map Desc.total).foldl (· + ·) 0

/-- A place in a list: the descriptor, its number, the address, bytes left in the row, and whether it is the
first byte of the descriptor. -/
structure Place where
  desc : Desc
  number : Nat
  addr : Nat
  left : Nat
  first : Bool
deriving DecidableEq, Repr

def placeAt : List Desc → Nat → Nat → Option Place
  | [], _, _ => none
  | d :: r, i, o =>
    if o < d.total then
      let row := o / d.length
      some { desc := d, number := i, addr := (((d.addr : Int) + d.stride * row) % 2 ^ 64).toNat + o % d.length
             left := d.length - o % d.length, first := o == 0 }
    else placeAt r (i + 1) (o - d.total)

/-- Lowest address of a descriptor whose rows follow one another without a gap, upwards or downwards. -/
def Desc.lowest (d : Desc) : Option Nat :=
  if d.count ≤ 1 ∨ d.stride = d.length then some d.addr
  else if d.stride = -d.length ∧ (d.count - 1) * d.length ≤ d.addr then some (d.addr - (d.count - 1) * d.length)
  else none

/-- A destination of a FILL: one whole half of an owned M-tile that folds, each byte of it once (R311). -/
def State.fillTarget (s : State) (claim : Nat) (d : Desc) : Option (Nat × Bool) :=
  match d.lowest.bind (fun a => if d.phys then some ({ addr := a, dual := false, write := true } : Phys) else s.translate claim a true) with
  | some p =>
    let t := windowTile p.addr
    let o := windowOff p.addr
    if isWindow p.addr && kindOf t == 3 && (s.tile t).fold && d.total == halfSize && (o == 0 || o == halfSize)
    then some (t, o != 0) else none
  | none => none

/-! ## Streams (R305 to R310) -/

/-- Real-time streams: hold copies and standing streams (R308). -/
def Stream.realtime (x : Stream) : Bool :=
  match x.kind with
  | .command _ => false
  | _ => true

def Stream.isHold (x : Stream) : Bool :=
  match x.kind with
  | .hold _ => true
  | _ => false

/-- Progress count (R307). -/
def Stream.progress (x : Stream) : Nat := (x.bursts.head?.map Burst.offset).getD x.next

def maxBurstBytes (h : Hoist) : Nat := 64 * 2 ^ h.maxBurst.toNat

/-- A best-effort stream gives way at a burst boundary (R308) to a real-time one that became ready before this fc
(R317): it goes back to the head of its queue. -/
def Hoist.settle (h : Hoist) (now : Nat) : Hoist :=
  match h.running with
  | some x =>
    if !x.realtime && h.rt.any (fun r => decide (r.readyAt < now)) && x.bursts.isEmpty && !h.stopped then
      { h with running := none, be := x :: h.be, waitHalf := false } else h
  | none => h

/-- The next stream starts: real-time ones first. -/
def Hoist.take (h : Hoist) : Hoist :=
  match h.running, h.rt, h.be with
  | none, x :: r, _ => { h with running := some x, rt := r }
  | none, [], x :: r => { h with running := some x, be := r }
  | _, _, _ => h

/-- End the running stream of hoist h; its command completes or fails, a HOIST with the progress count as result. -/
def State.endStream (s : State) (h : Nat) (x : Stream) (ok : Bool) (reason : Nat) : State :=
  let s1 := s.modHoist h (fun y => { y with running := none, waitHalf := false, stopped := false })
  match x.kind with
  | .command seq =>
    let hoisted := ((s1.cmd? seq).map Cmd.opcode).getD 0x0030 == 0x0030
    s1.finish seq ok reason (if hoisted then BitVec.ofNat 128 x.progress else 0)
  | _ => s1

def streamTag (s : State) (x : Stream) : Nat :=
  match x.kind with
  | .command seq => ((s.cmd? seq).map (fun c => c.tag.toNat)).getD 0
  | _ => 0

/-- Set the running stream aside once its outstanding bursts are complete (R310). -/
def Hoist.park (h : Hoist) : Hoist :=
  match h.running with
  | some x => if h.stopped && x.bursts.isEmpty then { h with running := none, aside := h.aside ++ [x], stopped := false, waitHalf := false } else h
  | none => h

/-- R310: a burst at `off` faults in translation on one side. The event names the CVA, the progress count and the
command tag, but the spec does not place them: ADDRESS holds the CVA with tag bits 47..32 above it, and DATA the
progress count in units of 64 bytes with tag bits 31..0 above it (DESIGN CHOICE, log 113). -/
def State.hoistFault (s : State) (h off cva : Nat) (write : Bool) : State :=
  match (s.hoist h).running with
  | none => s
  | some x =>
    let pipe := match x.kind with
      | .hold c => some c.pipe
      | .standing p _ => some p
      | .command _ => none
    let s1 := s.modHoist h (fun y => { y with
      stopped := true, progress := off, faultCva := cva, faultWrite := write, running := some { x with next := off } })
    let tag := streamTag s x
    let s2 := (((s1.modClaim x.claim (fun c => { c with pageFault := true })).hit (sumpClaim x.claim) 1).count 6 h 3 1).raise Ev.hoistPageFault
      { claim := x.claim, pipe := pipe, locKind := 8, loc := h, addr := cva + tag / 2 ^ 32 * 2 ^ 48
        data := off / 64 % 2 ^ 32 + tag % 2 ^ 32 * 2 ^ 32 }
    s2.modHoist h Hoist.park

/-- Read the lists of a stream that starts: the sums are compared before the first burst (R305). -/
def State.beginStream (s : State) (h : Nat) (x : Stream) : State :=
  match s.readList x.claim 4096 x.lists.1, s.readList x.claim 4096 x.lists.2 with
  | some src, some dst =>
    let note (s : State) (a : Nat) (ds : List Desc) : State := s.noteCvaRead x.claim a (32 * min 4096 ds.length)
    let s := note (note s x.lists.1 src) x.lists.2 dst
    if descTotal src ≠ descTotal dst then s.endStream h x false Reason.lengthMismatch
    else s.modHoist h (fun y => { y with running := some { x with started := true, src := src, dst := dst } })
  | none, _ => s.hoistFault h 0 x.lists.1 false
  | _, none => s.hoistFault h 0 x.lists.2 false

/-- State of a weight-store half. -/
def Tile.halfState (x : Tile) (b : Bool) : HalfState := if b then x.halfB else x.halfA

/-- A hoist sees the half FREE: from the fc after the one in which it became so (R317). -/
def Tile.seenFree (x : Tile) (b : Bool) (now : Nat) : Bool := x.halfState b == .free && (if b then x.freedB else x.freedA) != some now

/-! ## Runs at the sump ports (R176, R313, R314) -/

/-- Requests presented to a stack: those pending and the one granted at each of its ports. -/
def State.stackRequests (s : State) (k : Nat) : Nat :=
  ((s.sump.ports.filter (fun p => p.1 / 32 == k)).map (fun p => p.2.pending.length + (if p.2.holder.isSome then 1 else 0))).foldl (· + ·) 0

/-- Run a goes before run b by deadline (R314). -/
def Run.earlier (a b : Run) : Bool :=
  decide (a.deadline < b.deadline) || (a.deadline == b.deadline &&
    (decide (a.since < b.since) || (a.since == b.since && decide (a.requester < b.requester))))

/-- Run a has waited longer than run b. -/
def Run.longer (a b : Run) : Bool :=
  decide (a.since < b.since) || (a.since == b.since && decide (a.requester < b.requester))

/-- First run that no other goes before. -/
def bestRun (before : Run → Run → Bool) : List Run → Option Run
  | [] => none
  | [r] => some r
  | r :: rs => match bestRun before rs with
    | some q => some (if before q r then q else r)
    | none => some r

/-- A grant decision at a port at which runs are pending (R314, R315). The canary limit in force is that of the
register at the decision (R318). -/
def State.portDecide (s : State) (port : Nat) : State :=
  let p := s.sumpPort port
  if p.pending.isEmpty then s
  else
    let n := p.decisions + 1
    let lw := decide (n % s.sump.lwInterval.toNat = 0)
    match bestRun (if lw then Run.longer else Run.earlier) p.pending with
    | none => s
    | some r =>
      ((s.modSumpPort port (fun x => { x with
        holder := some r, pending := x.pending.erase r, grantAt := s.now, decisions := n
        limit := s.sump.canary.toNat * 256, retried := false })).count 11 port 0 1).count
        11 port 1 (boolNat lw)

/-- Present a run: its waiting time and its deadline count from now (R314). At 1,024 requests of the stack the
requester waits (R176). -/
def State.presentRun (s : State) (port : Nat) (r : Run) : State :=
  if 1024 ≤ s.stackRequests (port / 32) then s.modSumpPort port (fun x => { x with waiting := x.waiting ++ [r] })
  else
    let r1 := { r with since := s.now, deadline := (s.dom r.domain).lastTick + r.lst }
    let s1 := s.modSumpPort port (fun x => { x with pending := x.pending ++ [r1] })
    if (s.sumpPort port).holder.isNone then s1.portDecide port else s1

/-- Runs that waited at the bound of their stack are presented as it allows (R176). -/
def State.admitRuns (s : State) : State :=
  (s.sump.ports.filter (fun p => !p.2.waiting.isEmpty)).foldl (fun s p =>
    p.2.waiting.foldl (fun s r => (s.modSumpPort p.1 (fun x => { x with waiting := x.waiting.erase r })).presentRun p.1 r) s) s

/-- Runs of n bytes from a sump address, by port: 256 consecutive bytes lie at one port (R292, R313). -/
def portRuns (a n : Nat) : List (Nat × Nat) :=
  (List.range (ceilDiv (a % 256 + n) 256)).map (fun i =>
    let lo := max a ((a / 256 + i) * 256)
    let hi := min (a + n) ((a / 256 + i + 1) * 256)
    (pseudoChannel lo, ceilDiv (hi - lo) 64))

/-- A hoist presents the runs of one side of a burst; what lies in no sump needs none. -/
def State.presentSide (s : State) (h claim domain offset lst a n : Nat) (write : Bool) : State :=
  if sumpTop ≤ a then s
  else (portRuns a n).foldl (fun s p => s.presentRun p.1
    { requester := h, claim := claim, domain := domain, total := p.2, left := p.2, write := write, since := 0, deadline := 0
      lst := lst, burst := some (h, offset) }) s

/-- Every run of a burst has been served at its port. -/
def State.burstServed (s : State) (h offset : Nat) : Bool :=
  s.sump.ports.all (fun p => (p.2.holder.toList ++ p.2.pending ++ p.2.waiting).all (fun r => r.burst != some (h, offset)))

/-- Tick domain of a stream's requests: a stream of no pipeline uses domain 0 (R314). -/
def Stream.domain (x : Stream) : Nat :=
  match x.kind with
  | .hold c => c.pipe / 32
  | .standing p _ => p / 32
  | .command _ => 0

/-- A burst presents its runs: the source side, then each copy of the destination (R293, R313). -/
def State.presentBurst (s : State) (h : Nat) (x : Stream) (u : Burst) (srcLst dstLst : Nat) : State :=
  let s1 := if x.isHold then s else s.presentSide h x.claim x.domain u.offset srcLst u.src u.length false
  let s2 := s1.presentSide h x.claim x.domain u.offset dstLst u.dst u.length true
  if u.dstDual then s2.presentSide h x.claim x.domain u.offset dstLst (u.dst + 0x2000) u.length true else s2

/-! ## Issue of bursts -/
/-- Issue the next burst of a started stream (R306): cut it, translate both sides, and hold it if it begins a
FILL whose half is not FREE (R311). -/
def State.issueBurst (s : State) (h : Nat) (x : Stream) : State :=
  match placeAt x.src 0 x.next, placeAt x.dst 0 x.next with
  | some a, some b =>
    let badAt (ds : List Desc) (i : Nat) : Bool := (ds.take (i + 1)).any Desc.bad
    let fill := if b.desc.fill then s.fillTarget x.claim b.desc else none
    if badAt x.src a.number || badAt x.dst b.number || (b.desc.fill && fill.isNone) then
      (if x.bursts.isEmpty then s.endStream h x false Reason.descriptorInvalid else s)
    else if b.first && (match fill with
      | some (t, half) => !(s.tile t).seenFree half s.now
      | none => false) then s.modHoist h (fun y => { y with waitHalf := true })
    else
      let n := min (min (maxBurstBytes (s.hoist h)) (min a.left b.left))
        (min (4096 - a.addr % 4096) (4096 - b.addr % 4096))
      match s.translate x.claim a.addr false,
        (if b.desc.phys then some ({ addr := b.addr, dual := false, write := true } : Phys) else s.translate x.claim b.addr true) with
      | none, _ => s.hoistFault h x.next a.addr false
      | _, none => s.hoistFault h x.next b.addr true
      | some p, some q =>
        let u : Burst := { offset := x.next, length := n, src := p.addr, srcDual := p.dual, dst := q.addr
                           dstDual := q.dual, fill := b.desc.fill }
        (s.modHoist h (fun y => { y with running := some { x with next := x.next + n, bursts := x.bursts ++ [u] } })).presentBurst
          h x u a.desc.lst b.desc.lst
  | _, _ =>
    if x.bursts.isEmpty then
      (if x.src.any Desc.bad || x.dst.any Desc.bad then s.endStream h x false Reason.descriptorInvalid
       else s.endStream h x true 0)
    else s

/-- Bytes of a stream: of a hold copy its record, of any other what its lists describe. -/
def Stream.total (x : Stream) : Nat :=
  match x.kind with
  | .hold c => 64 + 64 * ceilDiv c.length 64
  | _ => descTotal x.src

/-- A hold copy whose space was taken, which is written no further (R26). -/
def Stream.lostCopy (x : Stream) : Bool :=
  match x.kind with
  | .hold c => c.lost
  | _ => false

/-- Bursts issued and not complete. -/
def Stream.outstanding (x : Stream) : Nat := (x.bursts.filter (fun b => !b.done)).length

/-- Something is left for the hoist to issue, but for the bound of 256 outstanding bursts (R176, R307). -/
def Stream.more (x : Stream) : Bool := !x.lostCopy && ((!x.isHold && !x.started) || decide (x.next < x.total))

def Stream.canIssue (x : Stream) : Bool := x.more && decide (x.outstanding < 256)

def hoistBurstIssueOk (h : Nat) (s : State) : Bool :=
  let y := (s.hoist h).settle s.now
  decide (h < 32) && y.enable && !y.stopped && !y.waitHalf &&
    match y.running with
    | some x => x.canIssue && (x.realtime || y.rt.all (fun r => decide (s.now ≤ r.readyAt)))
    | none => !y.rt.isEmpty || !y.be.isEmpty

/-- Bytes from a place in a hold to the end of its segment. -/
def holdLeft (segs : List (Nat × Nat × Nat)) (o : Nat) : Nat :=
  match segs with
  | [] => 0
  | g :: r => if o < g.2.2 then g.2.2 - o else holdLeft r (o - g.2.2)

/-- Issue the next burst of a hold copy (R306, R309): of the record header, or of the frame in its hold segment.
The header that sends the reader to offset 64 goes ahead of the record. -/
def State.issueCopy (s : State) (h : Nat) (x : Stream) (c : HoldCopy) : State :=
  let o := x.next
  let cva := c.store + c.record + o
  let cfg := (s.skip c.hold).cfg
  let row := if o < 64 then 64 - o else max 64 (holdLeft cfg.segments (if cfg.size = 0 then 0 else (c.lo + (o - 64)) % cfg.size))
  let n := min (min (maxBurstBytes (s.hoist h)) (min row (x.total - o))) (4096 - cva % 4096)
  match s.translate c.claim cva true with
  | none => s.hoistFault h o cva true
  | some q =>
    let s1 := match c.wrapAt with
      | some w => if o = 0 then s.putCva c.claim (c.store + w) (padTo 64 (natLE 8 0 ++ natLE 4 0 ++ natLE 4 0xFFFFFFFF)) else s
      | none => s
    let u : Burst := { offset := o, length := n, src := 0, dst := q.addr, dstDual := q.dual, fill := false }
    (s1.modHoist h (fun y => { y with running := some { x with next := o + n, bursts := x.bursts ++ [u] } })).presentBurst h x u c.lst c.lst

/-- HOIST_BURST_ISSUE (R305 to R308): the next stream starts, or the running one issues its next burst. -/
def hoistBurstIssueDo (h : Nat) (s : State) : State :=
  let s1 := s.modHoist h (fun y => (y.settle s.now).take)
  match (s1.hoist h).running with
  | none => s1
  | some x =>
    match x.kind with
    | .hold c => if x.canIssue then s1.issueCopy h x c else s1
    | _ =>
    if x.started then s1.issueBurst h x
    else
      let s2 := s1.beginStream h x
      match (s2.hoist h).running with
      | some y => if y.started then s2.issueBurst h y else s2
      | none => s2

def execHoistBurstIssue (h : Nat) (s : State) : Result := whenDue (hoistBurstIssueOk h s) (hoistBurstIssueDo h s)

/-- Address at which a stream's list places the source of a burst. -/
def Stream.sourceOf (x : Stream) (u : Burst) : Nat := ((placeAt x.src 0 u.offset).map Place.addr).getD u.src

/-- Bytes of an event store record. -/
def State.holdRecord (s : State) (c : HoldCopy) : List Byte :=
  padTo 64 (natLE 8 c.number ++ natLE 4 c.decision.toNat ++ natLE 4 c.length ++ natLE 1 (c.pipe / 32))
    ++ padTo (64 * ceilDiv c.length 64) (s.holdRead c.hold c.lo c.length)

/-- Move the bytes of a burst: a fault since its translation cannot stop it (R298). -/
def State.moveBurst (s : State) (x : Stream) (u : Burst) : State :=
  let dest : Phys := { addr := u.dst, dual := u.dstDual, write := true }
  match x.kind with
  | .hold c => if c.lost then s else s.runWrite x.claim dest (((s.holdRecord c).drop u.offset).take u.length)
  | _ =>
    let r := s.runRead x.claim (x.sourceOf u) { addr := u.src, dual := u.srcDual, write := false } u.length
    r.1.runWrite x.claim dest r.2

/-- A burst can complete once its runs are served (R313, R315). -/
def hoistBurstCompleteOk (h i : Nat) (s : State) : Bool :=
  match (s.hoist h).running with
  | some x => match x.bursts[i]? with
    | some u => !u.done && s.burstServed h u.offset
    | none => false
  | none => false

/-- The burst goes to a half of a folding tile that is READY or ACTIVE (R61). -/
def State.halfTaken (s : State) (u : Burst) : Bool :=
  let t := windowTile u.dst
  let st := (s.tile t).halfState (decide (halfSize ≤ windowOff u.dst))
  isWindow u.dst && kindOf t == 3 && (s.tile t).fold && decide (windowOff u.dst < 2 * halfSize)
    && (st == .ready || st == .active)

/-- R61: the hoist stops as it does for a fault, at the burst that was discarded. -/
def State.stopAtHalf (s : State) (h : Nat) (x : Stream) (u : Burst) : State :=
  let cva := ((placeAt x.dst 0 u.offset).map Place.addr).getD 0
  s.modHoist h (fun y => ({ y with
    stopped := true, progress := u.offset, faultCva := cva, faultWrite := true
    running := some { x with next := u.offset } }).park)

/-- HOIST_BURST_COMPLETE (R307): the progress count moves past every completed burst at its head. After the
last burst the stream ends, gives way or is set aside; a bad descriptor behind its last byte fails it (R305). A hold
copy ends with HOLD_COPY_COMPLETE. -/
def hoistBurstCompleteDo (h i : Nat) (s : State) : State :=
  match (s.hoist h).running with
  | none => s
  | some x =>
    match x.bursts[i]? with
    | none => s
    | some u =>
      let s1 := ((s.moveBurst x u).count 6 h 0 (if s.halfTaken u then 0 else u.length)).count 6 h 1 1
      let bursts := (x.bursts.set i { u with done := true }).dropWhile Burst.done
      let x1 := { x with bursts := bursts }
      let s2 := s1.modHoist h (fun y => { y with running := some x1 })
      if s.halfTaken u then s2.stopAtHalf h x1 u
      else if !x.isHold && bursts.isEmpty && !(s2.hoist h).stopped && decide (x.total ≤ x1.next) then
        (if x.src.any Desc.bad || x.dst.any Desc.bad then s2.endStream h x1 false Reason.descriptorInvalid else s2.endStream h x1 true 0)
      else s2.modHoist h (fun y => y.park.settle s.now)

def execHoistBurstComplete (h i : Nat) (s : State) : Result :=
  whenDue (hoistBurstCompleteOk h i s) (hoistBurstCompleteDo h i s)

/-- The half that a waiting hoist needs. -/
def State.waitedHalf (s : State) (h : Nat) : Option (Nat × Bool) :=
  match (s.hoist h).running with
  | some x => match placeAt x.dst 0 x.next with
    | some b => s.fillTarget x.claim b.desc
    | none => none
  | none => none

def waitHalfEndOk (h : Nat) (s : State) : Bool :=
  (s.hoist h).waitHalf && (match s.waitedHalf h with
    | some (t, b) => (s.tile t).seenFree b s.now
    | none => true)

/-- WAIT_HALF_END (R311): the hoist goes on with the fill. -/
def execWaitHalfEnd (h : Nat) (s : State) : Result :=
  whenDue (waitHalfEndOk h s) (s.modHoist h (fun y => { y with waitHalf := false }))

/-! ## Hold copies (R309) -/

/-- All of the record is written, or the copy is lost and its bursts are over. -/
def holdCopyCompleteOk (h : Nat) (s : State) : Bool :=
  match (s.hoist h).running with
  | some x => x.isHold && x.bursts.isEmpty && (x.lostCopy || decide (x.total ≤ x.next))
  | none => false

/-- HEAD of a store moves over the records that are complete with every record before them (R309). -/
def State.advanceHead (s : State) (claim cva : Nat) : State :=
  let before := (s.openCopies claim cva).map (fun c => c.1.order)
  let ready := s.sump.storeDone.filter (fun d => d.1 == claim && d.2.1 == cva && before.all (fun n => decide (d.2.2.1 < n)))
  match ready with
  | [] => s
  | d :: ds =>
    let last := ds.foldl (fun (b : Nat × Nat × Nat × Nat) x => if b.2.2.1 ≤ x.2.2.1 then x else b) d
    (s.modSump (fun x => { x with storeDone := x.storeDone.filter (fun y => !ready.contains y) })).putCva claim cva (natLE 8 last.2.2.2)

/-- HOLD_COPY_COMPLETE (R309): the record is written, and HEAD after it. A copy whose hold space was taken
writes no record (R26). -/
def holdCopyCompleteDo (h : Nat) (s : State) : State :=
  match (s.hoist h).running with
  | none => s
  | some x =>
    match x.kind with
    | .hold c =>
      let s1 := s.modHoist h (fun y => { y with running := none })
      let s2 := if c.lost then s1
        else s1.modSump (fun y => { y with storeDone := y.storeDone ++ [(c.claim, c.store, c.order, c.newHead)] })
      s2.advanceHead c.claim c.store
    | _ => s

def execHoldCopyComplete (h : Nat) (s : State) : Result := whenDue (holdCopyCompleteOk h s) (holdCopyCompleteDo h s)

/-! ## Sump ports (R313 to R316) -/

/-- Requesters of Table 12.4. -/
def requesterOk (r : Nat) : Bool := decide (r ≤ 36) || (decide (40 ≤ r) && decide (r ≤ 87))

/-- Latest-service times of Table 12.4: that of a hoist comes from its descriptor, and that of the walker from the
request that it serves. -/
def lstOk (r lst : Nat) : Bool :=
  if r < 32 ∨ r = 34 then decide (lst < 2 ^ 24) else if r = 33 then lst == 1200 else lst == 0xFFFFFF

/-- Requesters of no pipeline use tick domain 0 (R314): all but hoists, the walker and middle engines. -/
def domainOk (r d : Nat) : Bool := decide (d < 8) && (decide (r < 32) || r == 34 || decide (40 ≤ r) || d == 0)

/-- SUMP_REQUEST (R313): the run's deadline is the domain's last tick plus its latest-service time. -/
def sumpRequestDo (port req claim d len lst : Nat) (write : Bool) (s : State) : State :=
  s.presentRun port { requester := req, claim := claim, domain := d, total := len, left := len, write := write, since := 0
                      deadline := 0, lst := lst }

def execSumpRequest (port req claim d len lst : Nat) (write : Bool) (s : State) : Result :=
  whenValid (decide (port < 64) && requesterOk req && decide (claim < 256) && domainOk req d && decide (1 ≤ len)
    && decide (len ≤ 64) && lstOk req lst) (sumpRequestDo port req claim d len lst write s)

/-- PORT_BURST_COMPLETE (R315): the holder's run moves on or ends, and the next decision is made. With `retry` the
port burst has met an HBM interface error: it is tried again (Table 15.6), and the holder keeps the port. -/
def portBurstCompleteDo (port : Nat) (retry : Bool) (s : State) : State :=
  match (s.sumpPort port).holder with
  | none => s
  | some r =>
    if retry then s.modSumpPort port (fun x => { x with retried := true })
    else
      let s1 := s.modSumpPort port (fun x => { x with
        holder := none, pending := if r.left ≤ 1 then x.pending else x.pending ++ [{ r with left := r.left - 1 }] })
      s1.portDecide port

def execPortBurstComplete (b : PortBurst) (s : State) : Result :=
  whenDue (decide (b.port < 64) && (s.sumpPort b.port).holder.isSome) (portBurstCompleteDo b.port b.retry s)

/-- The canary's count has passed its limit: it stands still during a retry, for at most 256 fc (R316, Table 15.6),
and a port burst that completes in the fc of the limit stands (R317). -/
def canaryCountExpiryOk (port : Nat) (s : State) : Bool :=
  decide (port < 64) && (s.sumpPort port).holder.isSome
    && decide ((s.sumpPort port).grantAt + (s.sumpPort port).limit + (if (s.sumpPort port).retried then 256 else 0) < s.now)

/-- Stop a requester: a hoist ends its stream, a middle engine stops its skip (R316). -/
def State.stopRequester (s : State) (req : Nat) : State :=
  let s1 := upTo 64 (fun s p => s.modSumpPort p (fun x => { x with
    pending := x.pending.filter (fun r => r.requester != req), waiting := x.waiting.filter (fun r => r.requester != req) })) s
  if req < 32 then
    match (s1.hoist req).running with
    | some x => s1.endStream req { x with bursts := [], next := x.progress } false Reason.canary
    | none => s1
  else if 40 ≤ req then s1.modSump (fun x => { x with enginesStopped := req :: x.enginesStopped })
  else s1

/-- CANARY_COUNT_EXPIRY (R316): the canary bites; the next decision is made. -/
def canaryCountExpiryDo (port : Nat) (s : State) : State :=
  match (s.sumpPort port).holder with
  | none => s
  | some r =>
    let hf := decide (32 ≤ r.requester) && decide (r.requester ≤ 36)
    let claim := if hf then 0 else r.claim
    let s1 := s.modSumpPort port (fun x => { x with holder := none })
    let s2 := (((s1.modSump (fun x => { x with
      logValid := true, logPort := port, logRequester := r.requester, logClaim := claim, logHeadframe := hf })).modClaim
      claim (fun c => { c with canary := true })).hit sumpLog 31).hit (sumpClaim claim) 2
    let s3 := ((s2.stopRequester r.requester).count 11 port 2 1).raise Ev.canaryBite
      { claim := claim, locKind := 3, loc := port }
    s3.portDecide port

def execCanaryCountExpiry (port : Nat) (s : State) : Result :=
  whenDue (canaryCountExpiryOk port s) (canaryCountExpiryDo port s)

/-! ## Translation cache (R298) and BAR4 (R299) -/

/-- TRANSLATION_WALK_COMPLETE (R298): the leaf at the end of the walk joins the cache of 4,096. -/
def translationWalkCompleteDo (claim page : Nat) (s : State) : State :=
  match ((s.claim claim).walk claim (page * 0x10000) 4 1).getLast?.filter (fun e => leafValid e && e.getLsbD 2) with
  | some e => s.modSump (fun x => { x with
      cache := ((claim, page, e) :: x.cache.filter (fun c => !(c.1 == claim && c.2.1 == page))).take 4096 })
  | none => s

def execTranslationWalkComplete (claim page : Nat) (s : State) : Result :=
  whenValid (decide (claim < 256) && decide (page < 2 ^ 32)) (translationWalkCompleteDo claim page s)

/-- The function's BAR4 answers: claim 0, or a virtual function that SR-IOV enables (R320). -/
def State.functionOn (s : State) (claim : Nat) : Bool :=
  claim == 0 || (decide (claim < 256) && (s.claim claim).srIov)

/-- A BAR4 access that faults in translation (R299). -/
def State.bar4Fault (s : State) (claim cva : Nat) : State :=
  (((s.modClaim claim (fun c => { c with bar4Fault := true })).hit (sumpClaim claim) 3).count 5 claim 5 1).raise Ev.bar4Fault
    { claim := claim, addr := cva }

/-- BAR4_ACCESS (R299, R407): before READY it is ignored; a read that faults answers all ones, and a write that faults is discarded. -/
def bar4AccessDo (claim : Nat) (write : Bool) (cva len : Nat) (data : List Byte) (s : State) : State :=
  let n := if write then data.length else len
  if !s.host.ready then s else
  match s.mapped claim cva n write with
  | false =>
    let s1 := s.bar4Fault claim cva
    if write then s1 else s1.emit (.readBytes (List.replicate n 0xFF))
  | true =>
    if write then
      s.putCva claim cva data
    else
      let r := s.accessRead claim cva n
      r.1.emit (.readBytes r.2)

/-- The access lies inside BAR4 of an enabled function (R321). -/
def State.inBar4 (s : State) (claim cva n : Nat) : Bool := s.functionOn claim && decide (cva + n ≤ 2 ^ (s.claim claim).bar4Log)

/-- A read takes up to 4 KiB, a write up to the largest payload of 512 B (R319). -/
def execBar4Access (claim : Nat) (write : Bool) (cva len : Nat) (data : List Byte) (s : State) : Result :=
  let n := if write then data.length else len
  if s.inBar4 claim cva n then whenValid (decide (1 ≤ n) && decide (n ≤ (if write then 512 else 4096))) (bar4AccessDo claim write cva len data s)
  else .fault .noAccess

end Sys2Proof.Machine
end

