-- ==== Sys2Proof/Machine/Headframe.lean ====
section
/-! DEFINITION. The headframe: doorbells, the taking and checking of command entries, completions and events in
their rings, and the commands on claims, mappings, rings and the journal (chapter 13). -/

namespace Sys2Proof.Machine

/-! ## Doorbells (R324, R325, R363) -/

def ringEv (c k : Nat) : EvArgs := { claim := c, locKind := 9, loc := 61440 + 16 * c + k }

/-- A PRODUCER write that R324 forbids. -/
def State.ringOverrun (s : State) (c k : Nat) : State :=
  ((((s.modRing c k (fun r => { r with overrun := true })).modClaim c (fun x => { x with ringOverrun := true })).hit
    (ringStatus c k) 1).hit (claimStatus c) 25).raise
    Ev.ringOverrun (ringEv c k)

/-- A PRODUCER write to a command ring that this device serves. -/
def State.setProducer (s : State) (c k : Nat) (v : Word) : State :=
  let r := s.ring c k
  if r.entries = 0 ∨ r.entries < (v - r.consumer).toNat then s.ringOverrun c k
  else s.modRing c k (fun r => { r with producer := v })

/-- DOORBELL_PRODUCER_WRITE (R324, R363, R407): before READY it is ignored; PRODUCER of rings 14 and 15 is
read-only; a ring that a member serves has its doorbell sent there. -/
def doorbellProducerWriteDo (claim ring : Nat) (value : Word) (s : State) : State :=
  if !s.host.ready ∨ 14 ≤ ring then s
  else
    let r := s.ring claim ring
    if r.device ≠ 0 ∧ s.emeel.head then s.emit (.doorbell r.device claim ring value)
    else s.setProducer claim ring value

def execDoorbellProducerWrite (claim ring : Nat) (value : Word) (s : State) : Result :=
  if s.functionOn claim then whenValid (decide (ring < 16)) (doorbellProducerWriteDo claim ring value s)
  else .fault .noAccess

/-- DOORBELL_CONSUMER_WRITE (R325): CONSUMER of rings 0 to 13 is read-only, and a CLOSED claim keeps it 0. -/
def doorbellConsumerWriteDo (claim ring : Nat) (value : Word) (s : State) : State :=
  if !s.host.ready ∨ ring < 14 ∨ (s.ring claim ring).entries = 0 then s
  else s.modRing claim ring (fun r => { r with consumer := value })

def execDoorbellConsumerWrite (claim ring : Nat) (value : Word) (s : State) : Result :=
  if s.functionOn claim then whenValid (decide (ring < 16)) (doorbellConsumerWriteDo claim ring value s)
  else .fault .noAccess

/-- FORWARDED_DOORBELL (R363): a member of a mesh receives the doorbell of a ring that it serves. -/
def execForwardedDoorbell (claim ring : Nat) (value : Word) (s : State) : Result :=
  whenDue (!s.emeel.head && s.emeel.idTaken && decide (claim < 256) && decide (1 ≤ ring) && decide (ring ≤ 13))
    (s.setProducer claim ring value)

/-! ## Command entries (R326, R327, R426) -/

/-- Bytes of the arguments of an opcode (Table 13.6), as (first, count); none for an opcode not listed. -/
def argBytes : Nat → Option (List (Nat × Nat))
  | 0x0001 => some [(16, 1), (20, 6)]
  | 0x0002 => some [(16, 1)]
  | 0x0003 => some [(16, 1)]
  | 0x0010 => some [(16, 24)]
  | 0x0011 => some [(16, 13)]
  | 0x0012 => some [(16, 1), (20, 12)]
  | 0x0020 => some [(16, 18)]
  | 0x0021 => some [(16, 2)]
  | 0x0022 => some [(16, 7), (24, 2)]
  | 0x0023 => some [(16, 2), (24, 8)]
  | 0x0024 => some [(16, 2), (24, 8)]
  | 0x0025 => some [(16, 4), (24, 8)]
  | 0x0026 => some [(16, 12), (32, 8)]
  | 0x0030 => some [(16, 1), (24, 16)]
  | 0x0031 => some [(16, 6)]
  | 0x0040 => some [(16, 25)]
  | 0x0050 => some [(16, 2), (24, 12), (40, 8)]
  | 0x0051 => some [(16, 2), (24, 12), (40, 8)]
  | 0x0060 => some [(16, 2), (20, 8), (32, 8)]
  | 0x0070 => some [(16, 1)]
  | 0x0080 => some [(16, 12), (32, 8)]
  | 0x0090 => some []
  | _ => none

/-- Every byte from 16 on that the opcode does not list is 0. -/
def Cmd.othersZero (c : Cmd) (used : List (Nat × Nat)) : Bool :=
  (List.range 48).all (fun i => used.any (fun u => decide (u.1 ≤ 16 + i) && decide (16 + i < u.1 + u.2)) || c.arg (16 + i) 1 == 0)

def cvaTop : Nat := 2 ^ 48
def pageBytes (big : Bool) : Nat := if big then 0x200000 else 0x10000

/-- Arguments inside the ranges, sizes, alignments and encodings of Table 13.6 and the rules it names. -/
def Cmd.argsOk (c : Cmd) : Bool :=
  match c.opcode with
  | 0x0001 => decide (1 ≤ c.arg 16 1) && decide (c.arg 24 1 ≤ 1)
  | 0x0003 => decide (1 ≤ c.arg 16 1)
  | 0x0010 =>
    let big := bitAt (c.arg 28 1) 0
    let n := c.arg 24 4
    decide (c.arg 28 1 < 8) && decide (c.arg 29 1 ≤ 2) && decide (1 ≤ n) && c.arg 16 8 % pageBytes big == 0
      && decide (c.arg 16 8 + n * pageBytes big ≤ cvaTop)
      && (c.arg 29 1 != 1 || (!big && !bitAt (c.arg 28 1) 1 && decide (c.arg 30 2 < 768) && c.arg 32 8 % 0x10000 == 0
        && decide (c.arg 32 8 + n * 0x10000 ≤ 0x100000)))
      && (c.arg 29 1 != 2 || (decide (1 ≤ c.arg 30 2) && decide (c.arg 30 2 ≤ 63) && c.arg 32 8 % pageBytes big == 0
        && decide (c.arg 32 8 + n * pageBytes big ≤ cvaTop)))
  | 0x0011 =>
    let big := bitAt (c.arg 28 1) 0
    decide (c.arg 28 1 < 2) && decide (1 ≤ c.arg 24 4) && c.arg 16 8 % pageBytes big == 0
      && decide (c.arg 16 8 + c.arg 24 4 * pageBytes big ≤ cvaTop)
  | 0x0012 =>
    let n := c.arg 20 4
    decide (1 ≤ c.arg 16 1) && decide (c.arg 16 1 ≤ 13) && (n == 0 || (decide (64 ≤ n) && decide (n ≤ 4194304)
      && n == 2 ^ log2Fuel 32 n)) && c.arg 24 8 % 4096 == 0 && decide (c.arg 24 8 + 64 * n ≤ cvaTop)
  | 0x0020 => decide (c.arg 16 8 < cvaTop) && decide (c.arg 24 8 < cvaTop)
  | 0x0022 => decide (c.arg 18 1 ≤ 7) && decide (c.arg 19 1 ≤ 31) && decide (c.arg 20 1 + c.arg 21 1 ≤ 16) && decide (c.arg 22 1 ≤ 31)
  | 0x0026 => decide (c.arg 18 2 < 768) && decide (c.arg 32 8 + c.arg 24 4 ≤ cvaTop)
  | 0x0030 => (decide (c.arg 16 1 ≤ 31) || c.arg 16 1 == 0xFF) && decide (c.arg 24 8 < cvaTop) && decide (c.arg 32 8 < cvaTop)
  | 0x0040 => decide (c.arg 40 1 ≤ 1) && decide (c.arg 16 8 + c.arg 24 8 ≤ cvaTop) && decide (c.arg 32 8 + 64 ≤ cvaTop)
  | 0x0050 => decide (c.arg 40 8 < cvaTop)
  | 0x0051 => decide (c.arg 16 1 ≤ 15) && decide (c.arg 17 1 ≤ 7) && decide (1 ≤ c.arg 32 4) && decide (c.arg 32 4 ≤ 16777215)
      && decide (c.arg 40 8 + 0x4100 ≤ cvaTop)
  | 0x0060 => decide (c.arg 16 2 ≤ 11) && decide (1 ≤ c.arg 24 4)
      && decide (c.arg 20 4 + c.arg 24 4 ≤ ctrObjects (c.arg 16 2)) && decide (c.arg 32 8 < cvaTop)
  | 0x0070 => decide (c.arg 16 1 < 8)
  | 0x0080 => decide (1 ≤ c.arg 24 4) && decide (c.arg 24 4 ≤ 16384) && decide (c.arg 32 8 < cvaTop)
  | _ => true

/-- Reason with which an entry that R326 or R327 forbids fails at once. -/
def Cmd.invalid (c : Cmd) : Option Nat :=
  match argBytes c.opcode with
  | none => some Reason.badCommand
  | some used =>
    if c.arg 2 1 ≥ 2 ∨ c.arg 3 1 ≠ 0 ∨ c.arg 5 3 ≠ 0 ∨ c.arg 14 2 ≠ 0 ∨ c.arg 4 1 ≠ c.claim ∨ !c.othersZero used ∨ !c.argsOk
    then some Reason.badCommand
    else if c.claim ≠ 0 ∧ (c.opcode = 0x0001 ∨ c.opcode = 0x0003 ∨ c.opcode = 0x0070
        ∨ (c.opcode = 0x0002 ∧ c.arg 16 1 ≠ c.claim) ∨ (c.opcode = 0x0040 ∧ c.arg 40 1 = 1))
    then some Reason.notPermitted
    else none

/-! ## Taking an entry (R328, R332) -/

/-- Device physical address or translation of entry `index` of a command ring. -/
def State.ringEntry (s : State) (c k : Nat) (index : Word) : BitVec 512 :=
  let r := s.ring c k
  let o := 64 * (index.toNat % r.entries)
  bytesLine (if k = 0 then s.readBytes (ringPhys c 0 + o) 64 else (s.readCva c (r.base + o) 64).getD [])

/-- Commands in flight of a claim under the limit of 16. -/
def State.inflight (s : State) (c : Nat) : Nat := (s.host.cmds.filter (fun x => x.claim == c && !x.extra)).length

/-- Opcodes taken beyond the limit (R328): RESUME, CLAIM_RESET, JOURNAL_READ. -/
def opcodeExempt (op : Nat) : Bool := op == 0x0031 || op == 0x0002 || op == 0x0080

/-- Every best-effort queue that a HOIST names is full: its entry waits in the ring (R308). -/
def State.hoistFull (s : State) (h : Nat) : Bool :=
  if h = 0xFF then (List.range 32).all (fun i => decide (32 ≤ (s.hoist i).be.length)) else decide (32 ≤ (s.hoist h).be.length)

def Stream.forCmd (x : Stream) (seq : Nat) : Bool :=
  match x.kind with
  | .command n => n == seq
  | _ => false

/-- Hoist that has set a command's stream aside. -/
def State.asideAt (s : State) (seq : Nat) : Option (Nat × Stream) :=
  s.sump.hoists.findSome? (fun h => (h.2.aside.find? (fun x => x.forCmd seq)).map (fun x => (h.1, x)))

/-- Stream set aside that a RESUME of a claim names by its command's tag, with its hoist (R310). -/
def State.asideOf (s : State) (c : Cmd) : Option (Nat × Stream) :=
  let tag := BitVec.ofNat 48 (c.arg 16 6)
  (s.host.cmds.filter (fun d => d.claim == c.claim && d.tag == tag && d.duplicateOf.isNone)).findSome? (fun d => s.asideAt d.seq)

/-- The queue to which a RESUME would return its stream is full: its entry waits in the ring (R308). -/
def State.resumeFull (s : State) (c : Cmd) : Bool :=
  match s.asideOf c with
  | some (h, _) => decide (32 ≤ (s.hoist h).be.length)
  | none => false

/-- The headframe may take the next entry of a ring now. -/
def State.takeable (s : State) (c k : Nat) : Bool :=
  let x := s.claim c
  let r := s.ring c k
  if x.state == .closed || r.entries == 0 || r.producer == r.consumer || r.device != s.emeel.deviceId.toNat then false
  else
    let e : Cmd := { seq := 0, claim := c, ring := k, index := r.consumer, entry := s.ringEntry c k r.consumer }
    let op := e.opcode
    decide (s.host.cmds.length < 4096)
      && (decide (s.inflight c < 16) || opcodeExempt op)
      && (x.state == .opened || op == 0x0002 || op == 0x0080)
      && !(op == 0x0030 && e.invalid.isNone && s.hoistFull (e.arg 16 1))
      && !(op == 0x0031 && e.invalid.isNone && s.resumeFull e)

/-- Ring of a claim that round-robin serves next (R328). -/
def State.nextRingOf (s : State) (c : Nat) : Option Nat :=
  if (s.claim c).state == .closed then none
  else ((List.range 14).map (fun i => (i + (s.claim c).nextRing) % 14)).find? (fun k => s.takeable c k)

/-- Claim and ring that round-robin serves next (R328). -/
def State.nextTake (s : State) : Option (Nat × Nat) :=
  ((List.range 256).map (fun i => (i + s.host.nextClaim) % 256)).findSome? (fun c => (s.nextRingOf c).map (fun k => (c, k)))

/-- RING_ENTRY_TAKE (R328, R332): the tag check, the ACCEPTED record, CONSUMER, then the validation. -/
def ringEntryTakeDo (claim ring : Nat) (s : State) : State :=
  let r := s.ring claim ring
  let x := s.claim claim
  let base : Cmd := { seq := s.host.seq, claim := claim, ring := ring, index := r.consumer, entry := s.ringEntry claim ring r.consumer }
  let old := x.tags.find? (fun t => t.1 == base.tag)
  let c : Cmd := { base with
    duplicateOf := old.map (fun t => t.2.1), extra := decide (16 ≤ s.inflight claim) && opcodeExempt base.opcode }
  let s := if ring = 0 then s else s.noteCvaRead claim (r.base + 64 * (r.consumer.toNat % r.entries)) 64
  let s1 := (s.journal claim (s.journalRecord c 1 ((old.map (fun t => t.2.1)).getD 0) 0 0)).modRing claim ring
    (fun r => { r with consumer := r.consumer + 1 })
  let s2 := (s1.modHost (fun h => { h with cmds := h.cmds ++ [c], nextClaim := (claim + 1) % 256 })).modClaim claim
    (fun y => { y with nextRing := (ring + 1) % 14 })
  let s3 := s2.count 5 claim 2 1
  match old with
  | some t =>
    let s4 := s3.count 5 claim 3 1
    match t.2.2 with
    | some (ok, reason, result) => s4.finishOne c (ok == 1) reason result
    | none => s4
  | none =>
    let s4 := s3.modClaim claim (fun y => { y with tags := ((c.tag, c.seq, none) :: y.tags).take 1024 })
    match c.invalid with
    | some reason => ((s4.modClaim claim (fun y => { y with badCommand := true })).hit (claimStatus claim) 24).fail c.seq reason
    | none => s4

def ringEntryTakeOk (claim ring : Nat) (s : State) : Bool := s.host.ready && s.nextTake == some (claim, ring)

def execRingEntryTake (claim ring : Nat) (s : State) : Result :=
  whenDue (ringEntryTakeOk claim ring s) (ringEntryTakeDo claim ring s)

/-! ## Completion and event entries (R325) -/

/-- This device is a member of a mesh. -/
def State.isMember (s : State) : Bool := s.emeel.idTaken && !s.emeel.head

def Cmd.ended (c : Cmd) : Bool :=
  match c.state with
  | .ended _ _ _ => true
  | _ => false

/-- The ended command of a claim whose completion record is the oldest. -/
def State.nextCompletion (s : State) (claim : Nat) : Option Cmd :=
  let ended := s.host.cmds.filter (fun c => c.claim == claim && c.ended)
  ended.find? (fun c => ended.all (fun d => decide (c.record.toNat % 2 ^ 64 ≤ d.record.toNat % 2 ^ 64)))

/-- A member places its completion entries in ring 14 on the head (R363). -/
def State.placeCompletion (s : State) (claim : Nat) (r : Record) : State :=
  if s.isMember then s.sendFlit 0 .command claim (2 + 256 * s.emeel.deviceId.toNat) r 0 else s.placeEntry claim 14 r

/-- COMPLETION_ENTRY_PLACE (R325): the command is in flight no longer. -/
def completionEntryPlaceDo (claim : Nat) (s : State) : State :=
  match s.nextCompletion claim with
  | some c => (s.placeCompletion claim c.record).modHost (fun h => { h with cmds := h.cmds.filter (fun d => d.seq != c.seq) })
  | none => s

def execCompletionEntryPlace (claim : Nat) (s : State) : Result :=
  whenDue ((s.nextCompletion claim).isSome && (s.isMember || decide ((s.ring claim 14).fill < (s.ring claim 14).entries)))
    (completionEntryPlaceDo claim s)

/-- EVENT_RECORD_PLACE (R325). -/
def eventRecordPlaceDo (claim : Nat) (s : State) : State :=
  match (s.claim claim).held with
  | r :: rs => (s.placeEntry claim 15 r).modClaim claim (fun x => { x with held := rs })
  | [] => s

def execEventRecordPlace (claim : Nat) (s : State) : Result :=
  whenDue (!(s.claim claim).held.isEmpty && decide ((s.ring claim 15).fill < (s.ring claim 15).entries))
    (eventRecordPlaceDo claim s)

/-! ## Starting commands (R329) -/

/-- Image handles that a command names. -/
def Cmd.handles (c : Cmd) : List Nat :=
  let op := c.opcode
  if op = 0x0021 ∨ op = 0x0022 ∨ op = 0x0023 ∨ op = 0x0024 ∨ op = 0x0026 ∨ op = 0x0050 then [c.arg 16 2]
  else if op = 0x0025 then [c.arg 16 2, c.arg 18 2]
  else []

/-- The command of this row is accepted, is no duplicate, and may start: ORDERED waits for every earlier one of
its claim to have completed, and commands on one handle start in acceptance order (R329). -/
def State.cmdReady (s : State) (seq op : Nat) : Bool :=
  match s.cmd? seq with
  | none => false
  | some c =>
    c.opcode == op && c.state == .accepted && c.duplicateOf.isNone
      && s.host.cmds.all (fun d => d.claim != c.claim || decide (c.seq ≤ d.seq) || d.ended
        || (!c.ordered && !(d.state == .accepted && d.duplicateOf.isNone && d.handles.any (fun h => c.handles.contains h))))

/-- A host command row: its effect when it can start. -/
def State.hostCmd (s : State) (seq op : Nat) (f : Cmd → State → State) : Result :=
  match s.cmd? seq with
  | some c => whenDue (s.cmdReady seq op) (f c s)
  | none => .fault .notDue

def State.running (s : State) (seq : Nat) : State := s.modCmd seq (fun c => { c with state := .running })

/-! ## Claims (R323, R337) -/

/-- Leaves of the headframe window: rings 0, 14 and 15 and the 16 journal pages (R323, R334). -/
def headframeLeaves (c : Nat) : List (Nat × DWord) :=
  [(0xBF0, leafEntry (ringPhys c 0) false true), (0xBFE, leafEntry (ringPhys c 14) false false),
   (0xBFF, leafEntry (ringPhys c 15) false false)]
  ++ (List.range 16).map (fun p => (0xC00 + p, leafEntry (journalPage c p) true false))

/-- Leaves through which the head of a mesh reads the journals that its members keep for a claim (R362, log 115). -/
def State.memberLeaves (s : State) (c : Nat) : List (Nat × DWord) :=
  if s.emeel.head then
    ((List.range s.emeel.devices).drop 1).flatMap (fun n => (List.range 16).map (fun p =>
      (0xC00 + 16 * n + p, leafEntry (0x800000000000 + n * 0x10000000000 + journalPage c p) true false)))
  else []

/-- Zero a stretch of sump; its words are written. -/
def State.zeroRange (s : State) (a n : Nat) : State :=
  { s with mem := memClear s.mem a n, unwritten := rangeDel s.unwritten (a / 8) ((a + n) / 8) }

/-- A claim becomes OPEN: its rings and journal start empty. -/
def State.openClaim (s : State) (c quota : Nat) (signed : Bool) (mask : Byte) : State :=
  let s1 := s.zeroRange (hfBase c) 0x400000
  let s2 := s1.modClaim c (fun x => { x with
    state := .opened, requireSigned := signed, keyMask := mask, quota := quota, used := 0, journalHead := 0, tags := []
    pages := (headframeLeaves c ++ s.memberLeaves c).foldl (fun (t : Tab DWord) p => put t p.1 p.2) [], bigPages := [], held := [] })
  [0, 14, 15].foldl (fun s k => s.modRing c k (fun r => r.setUp 1024 (ringPhys c k) 0)) s2

/-- CLAIM_OPEN (R337), on every device of a mesh (R362). -/
def claimOpenDo (c : Cmd) (s : State) : State :=
  let t := c.arg 16 1
  if s.isMember ∨ !(s.claim t).srIov then s.fail c.seq Reason.notPermitted
  else if (s.claim t).state != .closed then s.fail c.seq Reason.claimState
  else ((s.openClaim t (c.arg 20 4) (bitAt (c.arg 24 1) 0) (BitVec.ofNat 8 (c.arg 25 1))).tellMembers 0x0001 c.entry).complete c.seq 0

def execClaimOpen (seq : Nat) (s : State) : Result := s.hostCmd seq 0x0001 claimOpenDo

/-! ## Pinned pages (R239, R298) -/

/-- Ranges of a claim's CVAs that are pinned: regions of its loaded images, and its host rings. -/
def State.pinnedRanges (s : State) (c : Nat) : List (Nat × Nat) :=
  (s.images.filter (fun p => p.2.claim == c)).flatMap (fun p => p.2.regions.map (fun r => (r.cva, r.cva + r.size)))
  ++ ((List.range 13).map (· + 1)).filterMap (fun k =>
    let r := s.ring c k
    if r.entries = 0 then none else some (r.base, r.base + 64 * r.entries))

def setPinned (e : DWord) (b : Bool) : DWord := if b then e ||| 8#64 else e &&& ~~~(8#64)

/-- Recompute PINNED of every leaf outside the headframe window. -/
def State.repin (s : State) (c : Nat) : State :=
  let rs := s.pinnedRanges c
  let meets (lo n : Nat) : Bool := rs.any (fun r => decide (r.1 < lo + n) && decide (lo < r.2))
  s.modClaim c (fun x => { x with
    pages := x.pages.map (fun p => (p.1, setPinned p.2 (meets (p.1 * 0x10000) 0x10000)))
    bigPages := x.bigPages.map (fun p => (p.1, setPinned p.2 (meets (p.1 * 0x200000) 0x200000))) })

/-! ## MAP and UNMAP (R302, R298) -/

/-- A range of CVAs meets the headframe window (R323). -/
def inHeadframeWindow (cva n : Nat) : Bool := decide (cva < 0x10000000) && decide (0x0BF00000 < cva + n)

/-- Some page of the range is mapped. -/
def Claim.anyMapped (x : Claim) (cva n : Nat) : Bool :=
  x.pages.any (fun p => decide (p.1 * 0x10000 < cva + n) && decide (cva < p.1 * 0x10000 + 0x10000))
  || x.bigPages.any (fun p => decide (p.1 * 0x200000 < cva + n) && decide (cva < p.1 * 0x200000 + 0x200000))

/-- Pages being mapped by a MAP in flight. -/
def State.anyPlanned (s : State) (claim cva n : Nat) : Bool :=
  s.host.cmds.any (fun d => d.claim == claim && d.plan.any (fun p =>
    let lo := p.1 / 2 * pageBytes (p.1 % 2 == 1)
    decide (lo < cva + n) && decide (cva < lo + pageBytes (p.1 % 2 == 1))))

/-- Lowest free aligned block of n 64 KiB units of the mappable sump. -/
def Sump.alloc (x : Sump) (n : Nat) : Option Nat :=
  match (List.range (x.used.length + 1)).find? (fun i => (List.range n).all (fun j => !x.used.contains (i * n + j))) with
  | some i => if (i + 1) * n ≤ 0xB8000 then some (i * n) else none
  | none => none

/-- Units of one page. -/
def pageUnits (big dual : Bool) : Nat := (if big then 32 else 1) * (if dual then 2 else 1)

/-- Allocate m pages and plan their leaves from a page number on. -/
def State.planPages (s : State) (big dual write : Bool) : Nat → Nat → List (Nat × DWord) → Option (State × List (Nat × DWord))
  | 0, _, acc => some (s, acc)
  | m + 1, page, acc =>
    let n := pageUnits big dual
    match s.sump.alloc n with
    | none => none
    | some u =>
      (s.modSump (fun x => { x with used := x.used ++ (List.range n).map (u + ·) })).planPages big dual write m (page + 1)
        (acc ++ [(2 * page + boolNat big, leafEntry (u * 0x10000) dual write)])

/-- Units that planned or installed leaves of this device's sump hold. -/
def leafUnits (e : DWord) (big : Bool) : List Nat :=
  if leafAddr e < 0xB80000000 then (List.range (pageUnits big (leafDual e))).map (leafAddr e / 0x10000 + ·) else []

/-- Write the leaves of a plan. -/
def State.install (s : State) (c : Nat) (plan : List (Nat × DWord)) : State :=
  s.modClaim c (fun x => plan.foldl (fun x p =>
    if p.1 % 2 = 1 then { x with bigPages := put x.bigPages (p.1 / 2) p.2 } else { x with pages := put x.pages (p.1 / 2) p.2 }) x)

/-- MAP (R302, R323, R337, R361). For remote pages the entry goes to their device, with the command's SEQ in its unused
bytes 55..48. -/
def mapDo (c : Cmd) (s : State) : State :=
  let big := bitAt (c.arg 28 1) 0
  let dual := bitAt (c.arg 28 1) 1
  let write := bitAt (c.arg 28 1) 2
  let n := c.arg 24 4
  let cva := c.arg 16 8
  let len := n * pageBytes big
  let x := s.claim c.claim
  if inHeadframeWindow cva len then s.fail c.seq Reason.notPermitted
  else if c.arg 29 1 = 1 then
    let t := s.physical (c.arg 30 2)
    if !s.claimOwns c.claim t then s.fail c.seq Reason.notPermitted
    else if x.anyMapped cva len || s.anyPlanned c.claim cva len then s.fail c.seq Reason.alreadyMapped
    else (s.install c.claim ((List.range n).map (fun i =>
      (2 * (cva / 0x10000 + i), leafEntry (tileAddr t (c.arg 32 8 + i * 0x10000)) false write)))).complete c.seq 0
  else if x.anyMapped cva len || s.anyPlanned c.claim cva len then s.fail c.seq Reason.alreadyMapped
  else if c.arg 29 1 = 2 then
    if s.isMember then s.fail c.seq Reason.notPermitted
    else if !s.emeel.enumerated ∨ s.emeel.devices ≤ c.arg 30 2 then s.fail c.seq Reason.badCommand
    else (s.running c.seq).sendFlit (c.arg 30 2) .command 0x0010 0 (c.entry ||| BitVec.ofNat 512 (c.seq <<< 384)) 0
  else
    let units := n * pageUnits big dual
    if c.claim ≠ 0 ∧ x.quota < x.used + units then s.fail c.seq Reason.noResource
    else match (if 0xB8000 < units then none else s.planPages big dual write n (cva / pageBytes big) []) with
      | none => s.fail c.seq Reason.noResource
      | some (s1, plan) =>
        ((s1.modClaim c.claim (fun x => { x with used := x.used + units })).running c.seq).modCmd c.seq
          (fun d => { d with plan := plan })

def execMap (seq : Nat) (s : State) : Result := s.hostCmd seq 0x0010 mapDo

/-- MARKING_COMPLETE (R302): every page of a MAP has its leaf, of a remote one from its device's answers; the pages hold the marker, its leaves are written, and it completes. -/
def markingCompleteDo (seq : Nat) (s : State) : State :=
  match s.cmd? seq with
  | none => s
  | some c =>
    let s1 := c.plan.foldl (fun s p =>
      if leafAddr p.2 < 0xB80000000 then s.markRange (leafAddr p.2) (0x10000 * pageUnits (p.1 % 2 == 1) (leafDual p.2)) else s) s
    ((s1.install c.claim c.plan).modCmd seq (fun d => { d with plan := [] })).complete seq 0

def markingCompleteOk (seq : Nat) (s : State) : Bool :=
  match s.cmd? seq with
  | some c => c.opcode == 0x0010 && c.state == .running && c.plan.length == c.arg 24 4
  | none => false

def execMarkingComplete (seq : Nat) (s : State) : Result := whenDue (markingCompleteOk seq s) (markingCompleteDo seq s)

/-- A burst of the claim through pages at these addresses is outstanding (R298). -/
def State.burstsThrough (s : State) (es : List (DWord × Bool)) : Bool :=
  s.sump.hoists.any (fun h => (h.2.running.toList).any (fun x => x.bursts.any (fun b => !b.done && es.any (fun e =>
    let lo := leafAddr e.1
    let n := 0x10000 * pageUnits e.2 (leafDual e.1)
    (decide (lo ≤ b.src) && decide (b.src < lo + n)) || (decide (lo ≤ b.dst) && decide (b.dst < lo + n))))))

/-- Page numbers of an UNMAP, and their leaves where they are mapped with that size. -/
def State.unmapLeaves (s : State) (c : Cmd) : List (Nat × Option DWord) :=
  let big := bitAt (c.arg 28 1) 0
  (List.range (c.arg 24 4)).map (fun i =>
    let p := c.arg 16 8 / pageBytes big + i
    (p, (look (if big then (s.claim c.claim).bigPages else (s.claim c.claim).pages) p).filter leafValid))

/-- Remove leaves of a claim: cached copies go, and the units of this device's sump are free again. -/
def State.removeLeaves (s : State) (claim : Nat) (big : Bool) (ps : List (Nat × DWord)) : State :=
  let units := ps.flatMap (fun p => leafUnits p.2 big)
  let gone (page : Nat) : Bool := ps.any (fun p => page * 0x10000 / pageBytes big == p.1)
  (s.modClaim claim (fun x => { x with
    pages := if big then x.pages else x.pages.filter (fun q => !ps.any (fun p => p.1 == q.1))
    bigPages := if big then x.bigPages.filter (fun q => !ps.any (fun p => p.1 == q.1)) else x.bigPages
    used := x.used - units.length })).modSump (fun x => { x with
      used := x.used.filter (fun u => !units.contains u)
      cache := x.cache.filter (fun e => !(e.1 == claim && gone e.2.1)) })

/-- UNMAP (R298). -/
def unmapDo (c : Cmd) (s : State) : State :=
  let big := bitAt (c.arg 28 1) 0
  let ls := s.unmapLeaves c
  if inHeadframeWindow (c.arg 16 8) (c.arg 24 4 * pageBytes big) then s.fail c.seq Reason.notPermitted
  else if ls.any (fun p => p.2.isNone) then s.fail c.seq Reason.notMapped
  else if ls.any (fun p => (p.2.map leafPinned).getD false) then s.fail c.seq Reason.pinned
  else (s.removeLeaves c.claim big (ls.filterMap (fun p => p.2.map (fun e => (p.1, e))))).complete c.seq 0

/-- An UNMAP acts once no burst through its pages is outstanding. -/
def execUnmap (seq : Nat) (s : State) : Result :=
  match s.cmd? seq with
  | some c =>
    if s.burstsThrough ((s.unmapLeaves c).filterMap (fun p => p.2.map (fun e => (e, bitAt (c.arg 28 1) 0)))) then .fault .notDue
    else s.hostCmd seq 0x0011 unmapDo
  | none => .fault .notDue

/-! ## RING_SETUP (R327, R363) -/

/-- The head tells a device that it serves a ring from now on, or no longer: claim, ring, ENTRIES, and the place of the
ring in the device's memory (R363, log 128). -/
def State.tellRing (s : State) (dev claim ring n addr : Nat) : State :=
  if dev = 0 then s
  else s.sendFlit dev .command 0x0012 0 (BitVec.ofNat 512 (claim <<< 128 + ring <<< 136 + n <<< 160 + addr <<< 192)) 0

def ringSetupDo (c : Cmd) (s : State) : State :=
  let k := c.arg 16 1
  let n := c.arg 20 4
  let cva := c.arg 24 8
  let r := s.ring c.claim k
  if s.isMember then s.fail c.seq Reason.notPermitted
  else if r.producer ≠ r.consumer then s.fail c.seq Reason.busy
  else if n = 0 then (((s.modRing c.claim k (fun r => r.setUp 0 0 0)).repin c.claim).tellRing r.device c.claim k 0 0).complete c.seq 0
  else if !s.mapped c.claim cva (64 * n) true then s.fail c.seq Reason.notMapped
  else
    let addr := ((s.translate c.claim cva true).map Phys.addr).getD 0
    let dev := if isRemote addr then remoteDevice addr else 0
    (((s.modRing c.claim k (fun r => r.setUp n cva dev)).repin c.claim).tellRing dev c.claim k n (remoteOff addr)).complete c.seq 0

def execRingSetup (seq : Nat) (s : State) : Result := s.hostCmd seq 0x0012 ringSetupDo

/-! ## FENCE and JOURNAL_READ -/

/-- FENCE (R329): it completes when every earlier-accepted command of its claim has completed. -/
def execFenceCommand (seq : Nat) (s : State) : Result :=
  match s.cmd? seq with
  | some c =>
    if s.host.cmds.all (fun d => d.claim != c.claim || decide (seq ≤ d.seq) || d.ended)
    then s.hostCmd seq 0x0090 (fun c s => s.complete c.seq 0) else .fault .notDue
  | none => .fault .notDue

/-- JOURNAL_READ (R336). -/
def journalReadDo (c : Cmd) (s : State) : State :=
  let head := (s.claim c.claim).journalHead.toNat
  let first := c.arg 16 8
  let n := min (c.arg 24 4) (head - first)
  if first + 16384 < head then s.fail c.seq Reason.overwritten
  else
    let bs := (List.range n).flatMap (fun i =>
      let a := journalAddr c.claim (first + i)
      (List.range 64).map (fun j => s.readPhys { addr := a + j, dual := true, write := false }))
    match s.writeCva c.claim (c.arg 32 8) bs with
    | some s1 => s1.complete c.seq (BitVec.ofNat 128 n)
    | none => s.fail c.seq Reason.notMapped

def execJournalRead (seq : Nat) (s : State) : Result := s.hostCmd seq 0x0080 journalReadDo

end Sys2Proof.Machine
end

