-- ==== Sys2Proof/Machine/Oadel.lean ====
section
/-! DEFINITION. Oadel images: their sections and records, and the first three load checks, which need the file
alone (chapter 9; R284 and R285 for riddle bitstreams, Table 14.1 for meshes). -/

namespace Sys2Proof.Machine

/-! ## Sections (R236, R237) -/

/-- A section table entry (Table 9.3). -/
structure Sect where
  typ : Nat
  size : Nat
  count : Nat
  off : Nat
  len : Nat
deriving DecidableEq, Repr

/-- Why a load fails: code of Table 9.12, index of the failing record, its section type (R244). -/
structure LoadFail where
  code : Nat
  index : Nat := 0xFFFFFFFF
  sect : Nat := 0
deriving DecidableEq, Repr

/-- Result of a LOAD: handle, index and section type (Table 13.6). -/
def loadResult (h index sect : Nat) : BitVec 128 := BitVec.ofNat 128 (h + index * 2 ^ 32 + sect * 2 ^ 64)

/-- Result of a LOAD that fails at no record: no handle, index 0xFFFF_FFFF, section 0 (R244). -/
def noRecord : BitVec 128 := loadResult 0 0xFFFFFFFF 0

namespace LoadCode
def header : Nat := 1
def part : Nat := 2
def checksum : Nat := 3
def signature : Nat := 4
def ownership : Nat := 5
def route : Nat := 6
def credit : Nat := 7
def rate : Nat := 8
def budget : Nat := 9
def envelope : Nat := 10
def instruction : Nat := 11
def relocation : Nat := 12
def region : Nat := 13
end LoadCode

def sectAt (bs : List Byte) (o : Nat) : Sect :=
  { typ := fieldLE bs o 2, size := fieldLE bs (o + 2) 2, count := fieldLE bs (o + 4) 4
    off := fieldLE bs (o + 8) 8, len := fieldLE bs (o + 16) 8 }

def oadelSects (bs : List Byte) : List Sect :=
  (List.range (fieldLE bs 28 2)).map (fun i => sectAt bs (fieldLE bs 32 8 + 32 * i))

def findSect (ss : List Sect) (ty : Nat) : Option Sect := ss.find? (fun x => x.typ == ty)

/-- Bytes of a section. -/
def rawSect (bs : List Byte) (ty : Nat) : List Byte :=
  match findSect (oadelSects bs) ty with
  | some x => (bs.drop x.off).take x.len
  | none => []

/-- Records of a section. -/
def sectRecs (bs : List Byte) (ty : Nat) : List (List Byte) :=
  match findSect (oadelSects bs) ty with
  | some x => (List.range x.count).map (fun i => (bs.drop (x.off + i * x.size)).take x.size)
  | none => []

/-- Record size of a section type; 0 for raw (Table 9.4, R359). -/
def sectSize : Nat → Option Nat
  | 1 => some 64
  | 2 => some 0
  | 3 => some 8
  | 4 => some 48
  | 5 => some 48
  | 6 => some 16
  | 7 => some 32
  | 8 => some 0
  | 9 => some 0
  | 10 => some 16
  | 11 => some 24
  | 12 => some 32
  | 13 => some 16
  | 14 => some 112
  | 15 => some 32
  | _ => none

/-! ## Records -/

def parseTile (r : List Byte) : TileRec :=
  { tile := fieldLE r 0 2, kind := fieldLE r 2 1, flags := fieldLE r 3 1, threads := fieldLE r 4 1, stage := fieldLE r 5 1
    starts := (List.range 4).map (fun i => fieldLE r (8 + 2 * i) 2), progFirst := fieldLE r 16 4
    progWords := fieldLE r 20 2, counters := fieldLE r 22 2, ports := fieldLE r 24 16, bells := fieldLE r 40 16
    initFirst := fieldLE r 56 4, initCount := fieldLE r 60 2 }

def parseRoute (r : List Byte) : RouteRec :=
  { kind := fieldLE r 0 1, hops := fieldLE r 1 1, src := fieldLE r 2 2, entry := fieldLE r 4 1, dest := fieldLE r 6 2
    destEntry := fieldLE r 8 1, flits := fieldLE r 12 4, path := fieldLE r 16 24 }

def parseSkip (r : List Byte) : SkipRec :=
  { id := fieldLE r 0 2, cfg := fieldLE r 2 2, size := fieldLE r 4 4, middleRef := fieldLE r 8 2, timeout := fieldLE r 10 2
    middleOffset := fieldLE r 12 4, pushRate := fieldLE r 16 4, popRate := fieldLE r 20 4, channels := fieldLE r 24 1
    consumerPort := fieldLE r 25 1, role := fieldLE r 26 1, hwChannel := fieldLE r 28 2, hwCount := fieldLE r 30 2
    hwTile := fieldLE r 32 2 }

def parseOwn (r : List Byte) : OwnRec :=
  { tile := fieldLE r 0 2, use := fieldLE r 2 1, offset := fieldLE r 4 4, length := fieldLE r 8 4, ref := fieldLE r 12 4 }

def parseBlob (r : List Byte) : BlobRec :=
  { target := fieldLE r 0 1, dest := fieldLE r 2 2, offset := fieldLE r 4 4, length := fieldLE r 8 4, data := fieldLE r 16 8 }

def parseRegion (r : List Byte) : RegionRec := { size := fieldLE r 0 8, kind := fieldLE r 8 1 }

def parseReloc (r : List Byte) : RelocRec :=
  { kind := fieldLE r 0 1, region := fieldLE r 2 2, site := fieldLE r 8 8, addend := fieldLE r 16 8 }

def parseBudget (r : List Byte) : BudgetRec :=
  { stage := fieldLE r 0 2, channels := fieldLE r 2 2, slotFc := fieldLE r 4 4, reserveFc := fieldLE r 8 4
    workFc := fieldLE r 12 4, replayFc := fieldLE r 16 4 }

def parseEnv (r : List Byte) : EnvRec :=
  { row := fieldLE r 0 1, peak := fieldLE r 1 1, minTokens := fieldLE r 2 1, streamMw := fieldLE r 4 4, staticMw := fieldLE r 8 4 }

def parseMesh (r : List Byte) : MeshRec :=
  { route := fieldLE r 0 2, direction := fieldLE r 2 1, peerDevice := fieldLE r 3 1, peerTile := fieldLE r 4 2
    peerEntry := fieldLE r 6 1, peerCfg := fieldLE r 7 1, peerSize := fieldLE r 8 4, flits := fieldLE r 12 4
    maxDx := fieldLE r 16 4 }

/-- Frames of a riddle bitstream, by count and offset (R284). -/
def riddleFrames (bs : List Byte) : Nat → Nat → List RiddleFrame
  | 0, _ => []
  | n + 1, o =>
    let len := fieldLE bs (o + 4) 4
    { type := fieldLE bs o 2, target := fieldLE bs (o + 2) 2, payload := (bs.drop (o + 16)).take len }
      :: riddleFrames bs n (o + 16 + (len + 15) / 16 * 16)

def parseRiddle (bs : List Byte) : RiddleBits :=
  { blockMask := fieldLE bs 6 2, treeMask := fieldLE bs 8 1, pairMask := fieldLE bs 9 1, latencyNs := fieldLE bs 10 1
    frames := riddleFrames bs (fieldLE bs 12 4) 32 }

/-- Words of the PROGRAM section. -/
def programWords (bs : List Byte) : List Nat := (List.range (bs.length / 8)).map (fun i => fieldLE bs (8 * i) 8)

/-- An image as its file gives it. -/
def parseImage (bs : List Byte) (claim : Nat) : Image :=
  { claim := claim, flags := fieldLE bs 12 4, shiftFc := fieldLE bs 40 4, depth := fieldLE bs 44 1
    channels := fieldLE bs 46 2, keepMask := fieldLE bs 48 2, reserveQ10 := fieldLE bs 50 2, holdDrain := fieldLE bs 52 2
    swapKey := fieldLE bs 56 8, tiles := (sectRecs bs 1).map parseTile, program := programWords (rawSect bs 2)
    inits := (sectRecs bs 3).map (fun r => (fieldLE r 0 1, fieldLE r 1 1, fieldLE r 4 4))
    routes := (sectRecs bs 4).map parseRoute, skips := (sectRecs bs 5).map parseSkip, owns := (sectRecs bs 6).map parseOwn
    blobs := (sectRecs bs 7).map parseBlob, blobData := rawSect bs 8
    riddle := if (findSect (oadelSects bs) 9).isSome then some (parseRiddle (rawSect bs 9)) else none
    regions := (sectRecs bs 10).map parseRegion, relocs := (sectRecs bs 11).map parseReloc
    budgets := (sectRecs bs 12).map parseBudget, envs := (sectRecs bs 13).map parseEnv, mesh := (sectRecs bs 15).map parseMesh }

/-! ## HEADER: header and section table (R236, R237) -/

def zeroBytes (bs : List Byte) (o n : Nat) : Bool := fieldLE bs o n == 0

/-- NAME is ASCII, zero-padded: after its first zero byte only zeros follow. -/
def nameOk (name : List Byte) : Bool :=
  name.all (fun b => decide (b.toNat < 128)) && (name.dropWhile (fun b => b != 0)).all (fun b => b == 0)

def headerOk (bs : List Byte) : Bool :=
  fieldLE bs 0 4 == 0x4C44414F && fieldLE bs 4 2 == 3 && fieldLE bs 6 2 == 128 && decide (fieldLE bs 12 4 < 32)
    && decide (1 ≤ fieldLE bs 28 2) && decide (fieldLE bs 28 2 ≤ 15) && zeroBytes bs 30 2 && fieldLE bs 32 8 % 64 == 0
    && decide (128 ≤ fieldLE bs 32 8) && decide (fieldLE bs 32 8 + 32 * fieldLE bs 28 2 ≤ fieldLE bs 16 8)
    && decide (120 ≤ fieldLE bs 40 4) && decide (fieldLE bs 40 4 ≤ 12000000) && decide (1 ≤ fieldLE bs 44 1)
    && decide (fieldLE bs 44 1 ≤ 64) && zeroBytes bs 45 1 && decide (1 ≤ fieldLE bs 46 2) && decide (fieldLE bs 46 2 ≤ 256)
    && fieldLE bs 48 2 != 0 && decide (fieldLE bs 50 2 ≤ 512) && zeroBytes bs 54 2
    && nameOk ((bs.drop 64).take 32) && zeroBytes bs 96 32

/-- One section table entry: type, record size, place, and no overlap with the header, the table or an
earlier section. -/
def sectOk (bs : List Byte) (ss : List Sect) (i : Nat) (x : Sect) : Bool :=
  let apart (a n b m : Nat) : Bool := decide (a + n ≤ b) || decide (b + m ≤ a) || n == 0 || m == 0
  (match sectSize x.typ with
    | some n => x.size == n && (if n = 0 then x.count == 0 else x.len == n * x.count)
    | none => false)
  && x.off % 64 == 0 && decide (x.off + x.len ≤ fieldLE bs 16 8) && (x.typ != 2 || x.len % 8 == 0)
  && (x.typ != 14 || x.count == 1)
  && apart x.off x.len 0 128 && apart x.off x.len (fieldLE bs 32 8) (32 * ss.length)
  && (ss.take i).all (fun y => apart x.off x.len y.off y.len)
  && zeroBytes bs (fieldLE bs 32 8 + 32 * i + 24) 8

def requiredSects (flags : Nat) : List Nat :=
  [1, 2, 4, 6, 13] ++ (if bitAt flags 0 then [12] else []) ++ (if bitAt flags 3 then [14] else [])

/-- First failure of the header and of the section table. -/
def checkHeader (bs : List Byte) : Option LoadFail :=
  if bs.length < 128 ∨ !headerOk bs then some { code := LoadCode.header }
  else
    let ss := oadelSects bs
    match findAt (fun (p : Nat × Sect) => !sectOk bs ss p.1 p.2 || (ss.take p.1).any (fun y => y.typ == p.2.typ))
        (ss.zipIdx.map (fun p => (p.2, p.1))) with
    | some (_, _, x) => some { code := LoadCode.header, sect := x.typ }
    | none => ((requiredSects (fieldLE bs 12 4)).find? (fun ty => (findSect ss ty).isNone)).map
        (fun ty => { code := LoadCode.header, sect := ty })

/-! ## HEADER: records -/

/-- First record of a section that a test refuses. -/
def firstBad {α : Type} (code sect : Nat) (ok : α → Bool) (l : List α) : Option LoadFail :=
  (findAt (fun x => !ok x) l).map (fun p => { code := code, index := p.1, sect := sect })

def SkipRec.sump (k : SkipRec) : Bool := bitAt k.cfg 10
def SkipRec.net (k : SkipRec) : Nat := bits k.cfg 9 8
def SkipRec.zrc (k : SkipRec) : Bool := bitAt k.cfg 7
def SkipRec.width (k : SkipRec) : Nat := bits k.cfg 6 4
def SkipRec.realtime (k : SkipRec) : Bool := bitAt k.cfg 0
def SkipRec.count (k : SkipRec) : Nat := k.channels + 1

/-- SIZE and MIDDLE_OFFSET lie where R180 lets a middle be; segments of a hold are under OWNERSHIP. -/
def SkipRec.middleOk (k : SkipRec) : Bool :=
  if k.sump then k.size % 4096 == 0 && decide (4096 ≤ k.size) && decide (k.size ≤ 2 ^ 28) && k.middleOffset % 4096 == 0
  else k.role == 3 || (k.size % 64 == 0 && decide (64 ≤ k.size) && decide (k.size ≤ 65536) && k.middleOffset % 64 == 0)

/-- Fields of the records in the order of Table 9.4; reserved bytes are 0. -/
def checkRecords (bs : List Byte) (x : Image) : Option LoadFail :=
  let h := LoadCode.header
  let nWords := x.program.length
  firstBad h 1 (fun r =>
      let t := parseTile r
      decide (t.tile < 768) && t.kind == kindOf t.tile && bits t.flags 3 2 == 0 && decide (t.threads < 16) && zeroBytes r 6 2
        && decide (1 ≤ t.progWords) && decide (t.progWords ≤ 2048) && decide (t.progFirst + t.progWords ≤ nWords)
        && decide (t.initFirst + t.initCount ≤ x.inits.length) && zeroBytes r 62 2) (sectRecs bs 1)
  <|> firstBad h 3 (fun r => decide (fieldLE r 0 1 < 4) && decide (fieldLE r 1 1 < 32) && zeroBytes r 2 2) (sectRecs bs 3)
  <|> firstBad h 4 (fun r =>
      let q := parseRoute r
      decide (q.kind ≤ 5) && decide (1 ≤ q.hops) && decide (q.hops ≤ 96) && decide (q.src < 768) && zeroBytes r 5 1 && zeroBytes r 9 3
        && zeroBytes r 40 8 && (q.kind == 2 || q.destEntry == 0) && decide (q.destEntry < 32)
        && (if q.kind = 0 then decide (q.entry < 32) || q.entry == 0xFF else if q.kind ≤ 2 then decide (q.entry < 32)
            else q.kind != 3 || decide (q.entry < 4))
        && (if q.kind ≤ 1 ∨ q.kind = 4 then decide (q.dest < 61440) else decide (q.dest < 768))) (sectRecs bs 4)
  <|> firstBad h 5 (fun r =>
      let k := parseSkip r
      decide (k.id < 61440) && decide (k.cfg < 2048) && decide (k.net ≤ 1) && decide (k.width ≤ 6) && k.middleOk
        && (if k.sump then (match x.regions[k.middleRef]? with
            | some g => decide (k.middleOffset + k.size ≤ g.size)
            | none => false) else decide (k.middleRef < 768))
        && decide (k.pushRate < 2 ^ 24) && decide (k.popRate < 2 ^ 24) && bits k.consumerPort 6 5 == 0 && decide (k.role ≤ 3)
        && zeroBytes r 27 1 && decide (k.hwCount ≤ 256) && (k.role == 0 || decide (1 ≤ k.hwCount)) && decide (k.hwTile < 768)
        && zeroBytes r 34 14) (sectRecs bs 5)
  <|> firstBad h 6 (fun r =>
      let o := parseOwn r
      decide (o.tile < 768) && decide (1 ≤ o.use) && decide (o.use ≤ 8) && zeroBytes r 3 1 && decide (1 ≤ o.length)
        && (if o.use = 4 ∨ o.use = 7 then decide (o.ref < 61440) else o.ref == 0)) (sectRecs bs 6)
  <|> firstBad h 7 (fun r =>
      let b := parseBlob r
      decide (1 ≤ b.target) && decide (b.target ≤ 3) && zeroBytes r 1 1 && zeroBytes r 12 4 && zeroBytes r 24 8
        && decide (b.data + b.length ≤ x.blobData.length)
        && (if b.target = 3 then (match x.regions[b.dest]? with
            | some g => decide (b.offset + b.length ≤ g.size)
            | none => false) else decide (b.dest < 768))) (sectRecs bs 7)
  <|> firstBad h 10 (fun r =>
      let g := parseRegion r
      decide (1 ≤ g.size) && g.size % 0x10000 == 0 && decide (1 ≤ g.kind) && decide (g.kind ≤ 5) && zeroBytes r 9 7) (sectRecs bs 10)
  <|> firstBad h 11 (fun r =>
      let l := parseReloc r
      (l.kind == 1 || l.kind == 2) && decide (l.region < x.regions.length) && decide (l.site + 8 ≤ x.blobData.length)
        && zeroBytes r 1 1 && zeroBytes r 4 4) (sectRecs bs 11)
  <|> firstBad h 12 (fun r =>
      let b := parseBudget r
      decide (1 ≤ b.channels) && decide (b.channels ≤ 256) && zeroBytes r 20 12) (sectRecs bs 12)
  <|> firstBad h 13 (fun r =>
      let e := parseEnv r
      (decide (e.row < 24) || e.row == 0xFF) && decide (e.peak ≤ 22) && zeroBytes r 3 1 && zeroBytes r 12 4) (sectRecs bs 13)
  <|> firstBad h 14 (fun r => decide (fieldLE r 0 1 < 8) && zeroBytes r 1 15) (sectRecs bs 14)
  <|> firstBad h 15 (fun r =>
      let m := parseMesh r
      decide (m.direction ≤ 1) && decide (m.peerDevice < 64) && zeroBytes r 20 12 && decide (m.peerCfg < 16)
        && (match x.routes[m.route]? with
            | some q => decide (q.kind ≤ 1)
            | none => false)) (sectRecs bs 15)

/-! ## HEADER: riddle bitstream (R284, R285) -/

/-- A frame that the rules allow: type, payload length, target within the masks. -/
def RiddleFrame.ok (b : RiddleBits) (f : RiddleFrame) : Bool :=
  let n := f.payload.length
  match f.type with
  | 1 => n == 102464 && decide (f.target < 16) && bitAt b.blockMask f.target && decide (((f.payload.getD 102400 0).toNat) < 8)
      && zeroBytes f.payload 102401 63
  | 2 => n == 4112 && decide (f.target < 64) && bitAt b.blockMask (f.target / 4) && decide (fieldLE f.payload 0 1 ≤ 3)
      && decide (fieldLE f.payload 1 1 < 8) && decide (fieldLE f.payload 2 1 < 8) && zeroBytes f.payload 3 13
  | 3 => n == 8 && decide (f.target < 8) && bitAt b.treeMask f.target && decide (fieldLE f.payload 0 1 ≤ 3)
      && decide (1 ≤ fieldLE f.payload 2 2) && decide (fieldLE f.payload 2 2 ≤ 256) && zeroBytes f.payload 4 4
      && (if fieldLE f.payload 0 1 = 0 then fieldLE f.payload 1 1 == 0
          else decide (fieldLE f.payload 1 1 < (if fieldLE f.payload 0 1 = 1 then 16 else 8)))
  | 4 => n % 4 == 0 && f.target == 0 && (List.range (n / 4)).all (fun i => bitAt b.blockMask (fieldLE f.payload (4 * i + 2) 2 / 1024)
      && decide (fieldLE f.payload (4 * i + 1) 1 < 2))
  | 5 => n == 4 && decide (f.target < 8) && bitAt b.pairMask f.target && decide (fieldLE f.payload 0 1 ≤ 1)
      && decide (fieldLE f.payload 1 1 ≤ 1) && decide (fieldLE f.payload 2 1 < 128) && decide (fieldLE f.payload 3 1 ≤ 1)
  | 6 => n == 8 && decide (f.target < 48) && bits (fieldLE f.payload 0 4) 31 30 != 3 && bits (fieldLE f.payload 0 4) 29 28 != 3
      && bits (fieldLE f.payload 0 4) 25 24 != 3 && bits (fieldLE f.payload 0 4) 23 10 == 0
  | _ => false

/-- Frame i of the bitstream, at byte o: header, CRC and padding inside the section. -/
def riddleCrcOk (bs : List Byte) : Nat → Nat → Bool
  | 0, _ => true
  | n + 1, o =>
    let len := fieldLE bs (o + 4) 4
    decide (o + 16 + (len + 15) / 16 * 16 ≤ bs.length) && zeroBytes bs (o + 12) 4
      && fieldLE bs (o + 8) 4 == crc32 ((bs.drop (o + 16)).take len) && riddleCrcOk bs n (o + 16 + (len + 15) / 16 * 16)

def checkRiddleHeader (bs : List Byte) (x : Image) : Option LoadFail :=
  match x.riddle with
  | none => none
  | some b =>
    let r := rawSect bs 9
    if fieldLE r 0 4 == 0x53444452 && fieldLE r 4 2 == 1 && decide (1 ≤ b.latencyNs) && zeroBytes r 11 1 && zeroBytes r 16 16
      && decide (fieldLE r 12 4 ≤ r.length / 16) && riddleCrcOk r (fieldLE r 12 4) 32 && b.frames.all (fun f => f.ok b)
      && (List.range 16).all (fun q => !bitAt b.blockMask q || b.frames.any (fun f => f.type == 1 && f.target == q))
    then none else some { code := LoadCode.header, sect := 9 }

/-! ## PART and CHECKSUM -/

def checkPart (bs : List Byte) : Option LoadFail :=
  if fieldLE bs 8 2 = 0x96 ∧ fieldLE bs 10 1 = 0xB0 ∧ fieldLE bs 11 1 = 3 then none else some { code := LoadCode.part }

/-- The image without its SIGNATURE section (R237). -/
def withoutSignature (bs : List Byte) : List Byte :=
  match findSect (oadelSects bs) 14 with
  | some x => bs.take x.off ++ bs.drop (x.off + x.len)
  | none => bs

/-- The same with the checksum field as zeros: bytes 27..24 lie before any section. -/
def checksumInput (bs : List Byte) : List Byte :=
  let y := withoutSignature bs
  y.take 24 ++ [0, 0, 0, 0] ++ y.drop 28

def checkChecksum (bs : List Byte) : Option LoadFail :=
  if fieldLE bs 24 4 = crc32 (checksumInput bs) then none else some { code := LoadCode.checksum }

end Sys2Proof.Machine
end

