-- ==== Sys2Proof/Machine/Program.lean ====
section
/-! DEFINITION. Load checks of programs: the words that a thread can reach, loop and lock structure, the rows of
Table 4.5 that only the load checks, and the port rates of R113 (chapters 4, 5, 6 and 9). -/

namespace Sys2Proof.Machine

/-! ## Reachable words (R97, R110, R111)

ZT3 has no branch: a thread's words run upwards from its start until HALT, or to the end of its perpetual
body. Each is listed once, with the bodies open at it, innermost first. -/

/-- A reachable word with its open bodies. -/
structure Reach where
  pc : Nat
  word : Nat
  bodies : List LoopFrame
deriving DecidableEq, Repr

/-- Bodies left after the word at pc. -/
def closeBodies (pc : Nat) (bs : List LoopFrame) : List LoopFrame := bs.dropWhile (fun f => f.last == pc)

/-- A LOOP word opens its body legally inside the open ones. -/
def loopOk (w pc : Nat) (bs : List LoopFrame) : Bool :=
  decide (pc < lEnd w) && bs.all (fun f => f.ctr != lCtr w && decide (lEnd w ≤ f.last)) && (lTrip w != 0 || bs.isEmpty)

/-- Walk from pc, by fuel: the reachable words, and whether the loop structure holds. -/
def walkWords (words : List Nat) : Nat → Nat → List LoopFrame → List Reach → List Reach × Bool
  | 0, _, _, acc => (acc, false)
  | n + 1, pc, bs, acc =>
    match words[pc]? with
    | none => (acc, false)
    | some w =>
      let acc1 := acc ++ [{ pc := pc, word := w, bodies := bs }]
      if wOp w = 0x01 then (acc1, true)
      else if wOp w = 0x08 ∧ !loopOk w pc bs then (acc1, false)
      else
        let bs1 := if wOp w = 0x08 then
            { ctr := lCtr w, first := pc + 1, last := lEnd w, trip := lTrip w } :: bs else bs
        if bs1.any (fun f => f.last == pc && f.trip == 0) then (acc1, true)
        else walkWords words n (pc + 1) (closeBodies pc bs1) acc1

/-- Words of a tile. -/
def Image.words (x : Image) (r : TileRec) : List Nat := (x.program.drop r.progFirst).take r.progWords

def Image.walk (x : Image) (r : TileRec) (th : Nat) : List Reach × Bool := walkWords (x.words r) 2049 (r.starts.getD th 0) [] []

def Reach.perpetual (q : Reach) : Bool := q.bodies.any (fun f => f.trip == 0)

/-- One WAITTICK in the perpetual body, at its own level (R111). -/
def waittickOk (rs : List Reach) : Bool :=
  let inBody := rs.filter Reach.perpetual
  inBody.isEmpty || ((inBody.filter (fun q => wOp q.word == 0x10)).length == 1
    && inBody.all (fun q => wOp q.word != 0x10 || q.bodies.length == 1))

/-! ## LOCK and UNLOCK (R112) -/

/-- Opcodes that may not stand between LOCK and UNLOCK. -/
def lockBars (op : Nat) : Bool := op == 0x10 || op == 0x11 || op == 0x13 || op == 0x1D || op == 0x25 || op == 0x08 || op == 0x01

/-- From the words after a LOCK: an UNLOCK comes within n words, at the same level, with nothing forbidden or
the end of a body before it. -/
def unlockComes (bodies : List LoopFrame) : Nat → List Reach → Bool
  | 0, _ => false
  | _ + 1, [] => false
  | n + 1, q :: r =>
    q.bodies == bodies && (wOp q.word == 0x26
      || (!lockBars (wOp q.word) && !q.bodies.any (fun f => f.last == q.pc) && unlockComes bodies n r))

/-- Locks pair up: `held` says a LOCK is open. -/
def locksOk : Bool → List Reach → Bool
  | _, [] => true
  | held, q :: r =>
    if wOp q.word = 0x25 then
      !held && !q.bodies.any (fun f => f.last == q.pc) && unlockComes q.bodies 64 r && locksOk true r
    else if wOp q.word = 0x26 then held && locksOk false r
    else locksOk held r

/-! ## Descriptors that a stream can name (R103, R126) -/

def descOf (w : Nat) : SDesc :=
  { gsize := bits w 55 54, wmode := bits w 53 51, amode := bits w 50 49, wsbase := bits w 48 38, abase := bits w 37 27
    pitch := bits w 26 18 }

def grsWrites (sd : Nat) (q : Reach) : Bool := wOp q.word == 0x2A && bits q.word 57 56 == sd

/-- The last write before the word, and for each repeated body with none before the word in it, the last
write after it. -/
def descsAt (rs : List Reach) (q : Reach) (sd : Nat) : List SDesc :=
  let before := rs.filter (fun p => grsWrites sd p && decide (p.pc < q.pc))
  let d0 := (before.getLast?.map (fun p => descOf p.word)).getD {}
  d0 :: q.bodies.filterMap (fun f =>
    if f.trip = 1 ∨ before.any (fun p => decide (f.first ≤ p.pc)) then none
    else ((rs.filter (fun p => grsWrites sd p && decide (q.pc ≤ p.pc) && decide (p.pc ≤ f.last))).getLast?).map
      (fun p => descOf p.word))

/-! ## Rows of Table 4.5 checked at load only -/

/-- A stream with one of its descriptors (R75, R77, R82, R105, R121, R124). -/
def streamLoadOk (fold : Bool) (w : Nat) (d : SDesc) : Bool :=
  let wcs := wOp w == 0x29
  let m : MacOp := { kind := if wcs then .wcs else .mms, word := w, desc := d, thread := 0, issuedAt := 0 }
  let k := macK w
  let g := macG m
  let ty := macTypes w
  let mx := isMx ty.1 || isMx ty.2
  let wt := macWeights m
  k % g == 0 && (!mx || g == 32) && (isMx ty.1 == (d.wmode == 4)) && (isMx ty.2 == (d.amode == 2))
    && (!wcs || (d.amode == 0 && decide (1 ≤ d.pitch) && !isMx ty.2))
    && (d.wmode != 1 || decide (d.wsbase ≤ 2047)) && (d.wmode != 2 || decide (d.wsbase + 31 ≤ 2047))
    && (d.wmode != 3 || decide (d.wsbase + 32 * (k / g - 1) + 31 ≤ 2047))
    && (d.amode != 1 || (decide (d.abase < 256) && decide (d.abase + macRows w ≤ 256)))
    && (macTouch m).reads.all (fun r => decide (r.2 ≤ 32768)) && decide (wt.2 ≤ 163840)
    && (if fold then decide (wt.2 ≤ 81920) || decide (81920 ≤ wt.1) else !mRel w)

/-- A word's load-only conditions; `channels` of the tile's stage, if it has a BUDGET record; `stile` says
which S-tiles the claim owns. -/
def loadWordOk (fold : Bool) (channels : Option Nat) (stile : Nat → Bool) (rs : List Reach) (q : Reach) : Bool :=
  let w := q.word
  let op := wOp w
  if op = 0x28 ∨ op = 0x29 then (descsAt rs q (mSd w)).all (streamLoadOk fold w)
  else if op = 0x2A then bits w 50 49 != 1 || decide (bits w 37 27 < 256)
  else if op = 0x2B then
    let m : MacOp := { kind := .rq, word := w, thread := 0, issuedAt := 0 }
    (macTouch m).reads.all (fun r => decide (r.2 ≤ 32768)) && decide (bits w 57 50 + macRows w ≤ 256)
  else if op = 0x2C then
    let m : MacOp := { kind := .oq, word := w, thread := 0, issuedAt := 0 }
    decide (bits w 55 45 + 31 ≤ 2047) && (macTouch m).writes.all (fun r => decide (r.2 ≤ 32768))
      && !(oToport w && isMx (oDtype w))
  else if op = 0x09 then q.bodies.any (fun f => f.ctr == lCtr w)
  else if op = 0x11 then (match channels with
    | some c => yNext w || decide (yValue w < c)
    | none => false)
  else if 0x20 ≤ op ∧ op ≤ 0x26 ∧ op ≠ 0x24 then stile (xStile w)
  else if op = 0x3F then vType w != 1 || decide (vImm w < 128) || decide (0xFF80 ≤ vImm w)
  else if 0x30 ≤ op ∧ op ≤ 0x3A then !vI w || vType w != 1 || decide (vImm w < 128) || decide (0xFF80 ≤ vImm w)
  else true

/-- The tile as a record describes it, for the checks that decode makes too. -/
def TileRec.asTile (r : TileRec) : Tile :=
  { threadsUsed := r.threads, fold := bitAt r.flags 0, counters := countersFor r
    ports := ((List.range 32).filter (fun p => bitAt (nibble r.ports p) 3)).map
      (fun p => (p, { thread := nibble r.ports p % 4, output := bitAt (nibble r.ports p) 2 }))
    bells := ((List.range 32).filter (fun b => bitAt (nibble r.bells b) 3)).map
      (fun b => (b, { thread := nibble r.bells b % 4, send := bitAt (nibble r.bells b) 2 })) }

/-! ## Counts on ports (R113, R131, R156, R184, R195) -/

/-- Port and entries that one execution of a word moves. -/
def wordMoves (w : Nat) : Option (Nat × Nat) :=
  if wOp w = 0x18 ∨ wOp w = 0x1A then some (qPort w, if qTk w = 2 then qCount w else 1)
  else if wOp w = 0x2C ∧ oToport w then some (oPort w, oqPushes w)
  else none

/-- Passes of a word in one pass of the perpetual body. -/
def Reach.passes (q : Reach) : Nat := (q.bodies.map (fun f => if f.trip = 0 then 1 else f.trip)).foldl (· * ·) 1

/-- Entries per shift on a port. -/
def portRate (rs : List Reach) (p : Nat) : Nat :=
  (rs.map (fun q => match wordMoves q.word with
    | some (p', n) => if p' = p ∧ q.perpetual then n * q.passes else 0
    | none => 0)).foldl (· + ·) 0

/-- Initial credit of a skip of this width and kind (R184). -/
def creditOf (size width : Nat) (zrc : Bool) : Nat := if zrc then size / 72 else size / 2 ^ width

/-- Most entries that can wait on the consumer side: read words, or zero-run entries of 8 bytes (R156). -/
def SkipRec.entries (k : SkipRec) : Nat := if k.zrc then k.size / 8 else k.size / (if k.net = 1 then 4 else 64)

/-- Largest count that a WAITQ or, on an output port, a block PUSH of a port names. -/
def portCount (rs : List Reach) (p : Nat) (block : Bool) : Nat :=
  (rs.map (fun q =>
    if qPort q.word = p ∧ (wOp q.word = 0x1D ∨ (block ∧ wOp q.word = 0x1A ∧ qTk q.word = 2)) then qCount q.word else 0)).foldl max 0

/-- Threads that a tile uses. -/
def TileRec.used (r : TileRec) : List Nat := (List.range 4).filter (fun th => bitAt r.threads th)

end Sys2Proof.Machine
end

