-- ==== Sys2Proof/Machine/Riddle.lean ====
section
/-! DEFINITION. The riddle array: clusters, routing, ports, memories, clock edges, repair and capture
(chapter 11). In one port cycle the input ports present their words, the output ports hand over theirs, and
the rising edge of the port tree ends the cycle. -/

namespace Sys2Proof.Machine

/-! ## Configuration of a block (R284, Table 11.5) -/

def RBlock.cfgByte (b : RBlock) (o : Nat) : Nat := (b.config.getD o 0).toNat
def RBlock.cfg2 (b : RBlock) (o : Nat) : Nat := b.cfgByte o + 256 * b.cfgByte (o + 1)

def recAt (c : Nat) : Nat := 1536 * c

/-- Mask bits of input j in term p: bit 0 true form, bit 1 complement. -/
def RBlock.literal (b : RBlock) (c p j : Nat) : Nat := bits (b.cfgByte (recAt c + 12 * p + j / 4)) (2 * (j % 4) + 1) (2 * (j % 4))
/-- Macrocell of term p, or 0xFF. -/
def RBlock.alloc (b : RBlock) (c p : Nat) : Nat := b.cfgByte (recAt c + 1152 + p)
def RBlock.select (b : RBlock) (c j : Nat) : Nat := b.cfg2 (recAt c + 1248 + 2 * j)

/-- Macrocell record. -/
structure Macrocell where
  regEn : Bool
  xorEn : Bool
  xorSrc : Bool
  xorConst : Bool
  init : Bool
  resetEn : Bool
  clock : Nat
  xpt : Nat
  cePt : Nat
  rstPt : Nat
deriving DecidableEq, Repr

def RBlock.cell (b : RBlock) (i : Nat) : Macrocell :=
  let o := recAt (i / 16) + 1344 + 8 * (i % 16)
  let f := b.cfgByte o
  { regEn := bitAt f 0, xorEn := bitAt f 1, xorSrc := bitAt f 2, xorConst := bitAt f 3, init := bitAt f 4
    resetEn := bitAt f 5, clock := b.cfgByte (o + 1) % 8, xpt := b.cfgByte (o + 2), cePt := b.cfgByte (o + 3)
    rstPt := b.cfgByte (o + 4) }

/-- Sink table entry i (R276). -/
def RBlock.sinkEntry (b : RBlock) (i : Nat) : Nat := b.cfg2 (64 * 1536 + 2 * i)

/-! ## Values (R275, R276, Table 11.1) -/

def RBlock.reg (b : RBlock) (i : Nat) : Bool := b.q.contains i

/-- Hard signals. -/
def State.hardSignal (s : State) (q i : Nat) : Bool :=
  let b := s.block q
  if i < 1024 then
    let j := i % 256
    let k := i / 256
    if j = 164 then decide (lookD b.outFill k 0 + 64 ≤ 1024)
    else match look b.inNow k with
      | none => false
      | some w =>
        if j < 128 then w.data.getLsbD j else if j < 144 then w.valid.getLsbD (j - 128)
        else if j = 144 then w.sof else if j = 145 then w.eof else if j = 146 then w.err else if j = 147 then true
        else if j < 164 then w.sof && w.chid.getLsbD (j - 148) else false
  else if i < 1280 then
    let m := b.memories.getD ((i - 1024) / 64) {}
    bitAt m.rdata ((i - 1024) % 64)
  else if i < 1296 then s.riddle.pairIn.contains (i - 1280)
  else if i < 1304 then b.tickPulse.contains (i - 1296)
  else false

mutual
/-- The combinational output of macrocell i of block q, by fuel: a path through comb outputs has no cycle (R277). -/
def State.comb (s : State) : Nat → Nat → Nat → Bool
  | 0, _, _ => false
  | n + 1, q, i =>
    let b := s.block q
    let m := b.cell i
    let c := i / 16
    let special (p : Nat) : Bool := p == m.xpt || p == m.cePt || p == m.rstPt
    let sum := (List.range 96).any (fun p => b.alloc c p == i % 16 && !special p && s.term n q c p)
    if m.xorEn then xor sum (if m.xorSrc then s.term n q c m.xpt else m.xorConst) else sum

/-- Product term p of cluster c. -/
def State.term (s : State) : Nat → Nat → Nat → Nat → Bool
  | 0, _, _, _ => false
  | n + 1, q, c, p =>
    let b := s.block q
    (List.range 48).all (fun j =>
      let l := b.literal c p j
      if l = 0 then true
      else if l = 3 then false
      else
        let w := b.select c j
        let v := match w / 0x4000 with
          | 0 => let i := 16 * c + w % 16
                 if bitAt w 4 then b.reg i else s.comb n q i
          | 1 => if bitAt w 10 then b.reg (w % 1024) else s.comb n q (w % 1024)
          | 2 => s.hardSignal q (w % 2048)
          | _ => match look s.riddle.globals (w % 256) with
            | some (gq, gi, true) => (s.block gq).reg gi
            | some (gq, gi, false) => s.comb n gq gi
            | none => false
        if l = 1 then v else !v)
end

/-- Enough for any path without a cycle. -/
def combFuel : Nat := 2 * 16 * 1024 + 2

/-- A hard sink of a block (R276). -/
def State.sink (s : State) (q i : Nat) : Bool :=
  let w := (s.block q).sinkEntry i
  if bitAt w 15 then (if bitAt w 14 then (s.block q).reg (bits w 13 4) else s.comb combFuel q (bits w 13 4)) else false

/-- Value of n sinks from i on. -/
def State.sinks (s : State) (q i n : Nat) : Nat :=
  ((List.range n).map (fun j => boolNat (s.sink q (i + j)) * 2 ^ j)).foldl (· + ·) 0

/-! ## Ports (R278 to R280) -/

/-- A record of the block is under repair (R286). -/
def RBlock.repairing (b : RBlock) : Bool := !b.repairs.isEmpty

def riddleInputWordOk (block port : Nat) (s : State) : Bool :=
  let b := s.block block
  decide (block < 16) && decide (port < 4) && b.loaded && (look b.inNow port).isNone
    && match lookD b.inFifo port [] with
      | w :: _ => decide (w.due ≤ 10 * s.now)
      | [] => false

/-- RIDDLE_INPUT_WORD (R278). -/
def riddleInputWordDo (block port : Nat) (s : State) : State :=
  s.modBlock block (fun b => match lookD b.inFifo port [] with
    | w :: r => { b with inFifo := put b.inFifo port r, inNow := put b.inNow port w }
    | [] => b)

def execRiddleInputWord (block port : Nat) (s : State) : Result :=
  whenDue (riddleInputWordOk block port s) (riddleInputWordDo block port s)

def blockEv (s : State) (q : Nat) : EvArgs :=
  { claim := (s.block q).claim, pipe := (s.image (s.block q).image).bound, locKind := 7, loc := q }

/-- Pass an output frame to the A-tile of its channel: of an image that is not bound nothing is forwarded
(R285), and a TAG beyond the channels goes to tailings (R279). -/
def State.passFrame (s : State) (q : Nat) (f : ROut) (err : Bool) (due : Nat) : State :=
  let img := s.image (s.block q).image
  match img.bound with
  | none => s
  | some p =>
    if img.channels ≤ f.tag then s
    else s.sendArriving { lane := 4 * q + f.src, target := some (p, f.tag), complete := !err, payload := f.payload, due := due, id := f.stream }

/-- An output frame has ended: it waits for its deadline, or, if that has passed, goes at once with ERR. -/
def State.endOutput (s : State) (q : Nat) (f : ROut) (err : Bool) : State :=
  let b := s.block q
  let e := err || f.err || b.errNext || b.repairing
  let s1 := (s.modBlock q (fun b => { b with errNext := false })).count 9 q 1 1
  if b.lateLanes.contains f.src then
    (s1.modBlock q (fun b => { b with lateLanes := b.lateLanes.erase f.src })).passFrame q f true (10 * s.now + 576)
  else s1.modBlock q (fun b => { b with done := b.done ++ [(f.src, { f with err := e, ended := 10 * s.now })] })

/-- End the frame open at an output port with ERR set. -/
def State.abortOutput (s : State) (q port : Nat) : State :=
  match look (s.block q).outOpen port with
  | some f => (s.modBlock q (fun b => { b with outOpen := del b.outOpen port })).endOutput q f true
  | none => s

/-- A frame opens at an output port; a TAG not below CHANNELS is reported (R279). -/
def State.openOutput (s : State) (q port : Nat) : State :=
  let tag := s.sinks q (256 * port + 150) 8
  let f : ROut := { tag := tag, src := s.sinks q (256 * port + 148) 2, payload := [], err := false }
  let img := s.image (s.block q).image
  let s0 := s.abortOutput q port
  let r := s0.openArriving (4 * q + f.src) (if img.channels ≤ tag then none else img.bound.map (fun p => (p, tag)))
  let s1 := r.1.modBlock q (fun b => { b with outOpen := put b.outOpen port { f with stream := r.2 } })
  if img.channels ≤ tag then
    (((s1.modBlock q (fun b => { b with mapInvalid := true })).hit (blockStatus q) 3).count 9 q 3 1).raise Ev.riddleMapInvalid (blockEv s q)
  else s1

def riddleOutputWordOk (block port : Nat) (s : State) : Bool :=
  let b := s.block block
  decide (block < 16) && decide (port < 4) && b.loaded && !b.outTaken.contains port && s.sink block (256 * port + 147)

/-- RIDDLE_OUTPUT_WORD (R279): words outside a frame are dropped. -/
def riddleOutputWordDo (block port : Nat) (s : State) : State :=
  let b := s.block block
  let data := s.sinks block (256 * port) 128
  let n := popcount 16 (s.sinks block (256 * port + 128) 16)
  let sof := s.sink block (256 * port + 144)
  let eof := s.sink block (256 * port + 145)
  let err := s.sink block (256 * port + 146)
  let full := decide (1024 ≤ lookD b.outFill port 0)
  let src := s.sinks block (256 * port + 148) 2
  let s1 := s.modBlock block (fun b => { b with outTaken := port :: b.outTaken })
  let s2 := if sof then s1.openOutput block port else s1
  if full then s2.abortOutput block port
  else
    let s3 := s2.modBlock block (fun b => { b with
      outFill := put b.outFill port (lookD b.outFill port 0 + 1)
      outOpen := match look b.outOpen port with
        | some f => put b.outOpen port { f with src := src, payload := f.payload ++ natLE n data }
        | none => b.outOpen })
    let s3 := match look (s3.block block).outOpen port with
      | some f => s3.streamBytes f.stream (10 * s.now + 576) (f.payload.length - n) f.payload
      | none => s3
    if eof then
      match look (s3.block block).outOpen port with
      | some f => (s3.modBlock block (fun b => { b with outOpen := del b.outOpen port })).endOutput block f err
      | none => s3
    else s3

def execRiddleOutputWord (block port : Nat) (s : State) : Result :=
  whenDue (riddleOutputWordOk block port s) (riddleOutputWordDo block port s)

/-- The first unmatched input EOF of a lane whose 32 ns (384 tenths of fc) are over. -/
def RBlock.eofDue (b : RBlock) (lane now : Nat) : Option (Nat × Nat) :=
  match findAt (fun (e : Nat × Nat) => e.1 == lane) b.eofs with
  | some (i, e) => if e.2 + 384 ≤ 10 * now then some (i, e.2) else none
  | none => none

/-- RIDDLE_EOF_DEADLINE (R280): the matching output EOF, presented by te + 32 ns, is released at te + 32 ns; else
the lane is late, and a frame that has come since goes at once with ERR set. -/
def riddleEofDeadlineDo (block lane : Nat) (s : State) : State :=
  match (s.block block).eofDue lane s.now with
  | none => s
  | some (i, te) =>
    let s1 := s.modBlock block (fun b => { b with eofs := dropAt b.eofs i })
    let late (s : State) : State :=
      (((s.modBlock block (fun b => { b with late := true })).hit (blockStatus block) 2).count 9 block 4 1).raise
        Ev.riddleLate { (blockEv s block) with locSub := lane }
    match findAt (fun (d : Nat × ROut) => d.1 == lane) (s.block block).done with
    | some (j, d) =>
      let s2 := s1.modBlock block (fun b => { b with done := dropAt b.done j })
      if d.2.ended ≤ te + 384 then s2.passFrame block d.2 d.2.err (te + 960)
      else (late s2).passFrame block d.2 true (d.2.ended + 576)
    | none => late (s1.modBlock block (fun b => { b with lateLanes := b.lateLanes ++ [lane] }))

def execRiddleEofDeadline (block lane : Nat) (s : State) : Result :=
  whenDue (decide (block < 16) && ((s.block block).eofDue lane s.now).isSome) (riddleEofDeadlineDo block lane s)

/-! ## Readback, repair and reset (R286, R289) -/

/-- RIDDLE_CONFIG_READBACK (R286): `bad` names the records that differ, by block and record. Each is one
occurrence of a fault at its own place (R370); Table 15.1 has no such place (DEDUCED, log 112). -/
def riddleConfigReadbackDo (bad : List (Nat × Nat)) (s : State) : State :=
  bad.foldl (fun s r => if (s.block r.1).loaded && !(s.block r.1).repairs.contains r.2 then
      ((s.modBlock r.1 (fun b => { b with repairs := b.repairs ++ [r.2] })).track (locKey 14 r.1 0 r.2) false).1 else s)
    (s.modRiddle (fun r => { r with readbackAt := s.now + msFc }))

def execRiddleConfigReadback (bad : List (Nat × Nat)) (s : State) : Result :=
  whenDue (decide (s.riddle.readbackAt ≤ s.now) && bad.all (fun r => decide (r.1 < 16) && decide (r.2 < 64)))
    (riddleConfigReadbackDo bad s)

/-- RIDDLE_REPAIR_COMPLETE (R286): one record is rewritten. A capture whose edge falls in this fc says so (R288). -/
def riddleRepairCompleteDo (block : Nat) (s : State) : State :=
  ((s.modBlock block (fun b => { b with
    repairs := b.repairs.drop 1, configRepaired := true, repairedAt := some s.now
    capture := b.capture.map (fun c => if c.takenAt = some s.now then { c with disturbed := true } else c) })).hit (blockStatus block) 1).raise
    Ev.riddleConfigRepaired (blockEv s block)

def execRiddleRepairComplete (block : Nat) (s : State) : Result :=
  whenDue (decide (block < 16) && (s.block block).repairing) (riddleRepairCompleteDo block s)

/-- RD_BLOCK_RESET (R289): it takes effect at the next port-tree edge. -/
def execRdBlockReset (block : Nat) (s : State) : Result :=
  whenValid (decide (block < 16)) (s.modBlock block (fun b => { b with resetAsked := true }))

/-! ## Clock edges (R275, R283, R287) -/

/-- What macrocell i holds after an edge of its tree. -/
def State.cellNext (s : State) (q i : Nat) : Bool :=
  let b := s.block q
  let m := b.cell i
  let c := i / 16
  if m.resetEn && s.term combFuel q c m.rstPt then m.init
  else if m.cePt == 0xFF || s.term combFuel q c m.cePt then s.comb combFuel q i
  else b.reg i

/-- Registers of a block after an edge of a tree. -/
def State.blockNext (s : State) (q tree : Nat) : List Nat :=
  let b := s.block q
  (List.range 1024).filter (fun i =>
    let m := b.cell i
    if m.regEn && m.clock == tree then s.cellNext q i else b.reg i)

/-- INIT values of a block. -/
def RBlock.initRegs (b : RBlock) : List Nat := (List.range 1024).filter (fun i => (b.cell i).init)

def RMemory.bytes (m : RMemory) : Nat := 2 ^ m.width
def RMemory.depth (m : RMemory) : Nat := 4096 / m.bytes
def RMemory.word (m : RMemory) (a : Nat) : Nat := leNat ((m.data.drop (m.bytes * (a % m.depth))).take m.bytes)
def RMemory.store (m : RMemory) (a x : Nat) : RMemory :=
  let o := m.bytes * (a % m.depth)
  { m with data := m.data.take o ++ natLE m.bytes x ++ m.data.drop (o + m.bytes)
           badParity := m.badParity.filter (· != a % m.depth) }

/-- One memory at an edge: a read takes the old data, and a write the new. The answer says whether the word
read has a parity error. -/
def State.memoryEdge (s : State) (q m tree : Nat) (x : RMemory) : RMemory × Bool :=
  let base := 1024 + 128 * m
  let ra := s.sinks q (base + 76) 12
  let reads := x.readTree == tree
  let x1 := if reads then { x with raddr := ra % x.depth, rdata := x.word ra } else x
  let x2 := if x.writeTree == tree && s.sink q (base + 88) then
      x1.store (s.sinks q (base + 64) 12) (s.sinks q base 64) else x1
  (x2, reads && x.badParity.contains (ra % x.depth))

/-- Capture record of a block (R287). -/
def State.captureRecord (s : State) (q : Nat) (c : RCapture) : List Byte :=
  let b := s.block q
  let d := match (s.image b.image).bound with
    | some p => p / 32
    | none => 0
  let st := s.stamp d
  padTo 64 (natLE 8 st.1 ++ natLE 4 st.2 ++ natLE 4 c.edge ++ natLE 1 q ++ natLE 1 c.tree)
    ++ natLE 128 ((b.q.map (fun i => 2 ^ i)).foldl (· + ·) 0) ++ List.replicate 64 0
    ++ (List.range 4).flatMap (fun m => padTo 4096 (b.memories.getD m {}).data)

/-- An edge seen by one block: `s` is the state before it, and `u` the state so far after it. -/
def State.blockEdge (s u : State) (q tree : Nat) : State :=
  let b := s.block q
  if !b.loaded then u
  else
    let ms := (List.range b.memories.length).map (fun m => s.memoryEdge q m tree (b.memories.getD m {}))
    let bad := (ms.filter (·.2)).length
    let port := b.portTree == tree
    let reset := port && b.resetAsked
    let u1 := u.modBlock q (fun x => { x with
      q := if reset then b.initRegs else s.blockNext q tree, memories := ms.map (·.1)
      parity := x.parity || decide (0 < bad), errNext := x.errNext || decide (0 < bad)
      inNow := if port then [] else x.inNow, outTaken := if port then [] else x.outTaken
      tickPulse := if port then [] else x.tickPulse, resetAsked := x.resetAsked && !reset })
    let u2 := upTo bad (fun u _ => (u.count 9 q 5 1).raise Ev.riddleParity (blockEv s q)) u1
    let u3 := if reset then upTo 4 (fun u k => u.abortOutput q k) u2 else u2
    match b.capture with
    | some c =>
      if c.armed ∧ c.tree = tree ∧ c.record.isEmpty then
        let n := c.edges + 1
        let c1 := { c with edges := n, disturbed := c.disturbed || (n == c.edge && (reset || b.repairedAt == some s.now)) }
        let c2 := if n = c.edge then { c1 with record := u3.captureRecord q c1, takenAt := some s.now } else c1
        u3.modBlock q (fun x => { x with capture := some c2 })
      else u3
    | none => u3

/-- Blocks of the image that holds general pair 24 + i whose ports run on the tree. -/
def State.pairBlocks (s : State) (tree i : Nat) : List Nat :=
  match look s.riddle.pairHeld i with
  | some g => (List.range 16).filter (fun q => (s.block q).loaded && (s.block q).image == g && (s.block q).portTree == tree)
  | none => []

/-- I/O registers of general pair 24 + i at an edge (Tables 10.11, 11.1 and 11.2): an input pair registers the level
at this edge and, with DDR, the one at the falling edge before; an output pair registers its sinks, each the OR over
the blocks that its image holds. The spec gives these registers no clock: they run on the port trees of those
blocks (DESIGN CHOICE, log 108). INVERT swaps what the pins show. -/
def State.pairEdge (s u : State) (tree i : Nat) (rise fall : Bool) : State :=
  let x := s.lvds (24 + i)
  let qs := s.pairBlocks tree i
  if qs.isEmpty || !x.enable then u
  else if x.out then
    let drive (n : Nat) : Bool := qs.any (fun q => s.sink q (n + i))
    u.modRiddle (fun r => { r with pairOut := put r.pairOut i (drive 1536, if x.ddr then drive 1544 else drive 1536, drive 1552) })
  else
    let set (l : List Nat) (n : Nat) (v : Bool) : List Nat := if v then n :: l.erase n else l.erase n
    u.modRiddle (fun r => { r with pairIn := set (set r.pairIn i (rise ^^ x.invert)) (8 + i) (x.ddr && (fall ^^ x.invert)) })

/-- Levels that general pair 24 + i drives in the high and in the low half of a period of its clock; none while its
output enable is 0 (Table 11.2). -/
def State.pairPins (s : State) (i : Nat) : Option (Bool × Bool) :=
  match look s.riddle.pairOut i with
  | some (a, b, true) => some (a ^^ (s.lvds (24 + i)).invert, b ^^ (s.lvds (24 + i)).invert)
  | _ => none

/-- TREE_RISING_EDGE (R275, R283): every block sees the values before the edge. `rise` and `fall` are the levels on
the general pairs at this edge and at the falling edge before it. -/
def treeRisingEdgeDo (tree : Nat) (rise fall : Byte) (s : State) : State :=
  upTo 8 (fun u i => s.pairEdge u tree i (rise.getLsbD i) (fall.getLsbD i)) (upTo 16 (fun u q => s.blockEdge u q tree) s)

def execTreeRisingEdge (e : TreeEdge) (s : State) : Result :=
  whenDue (decide (e.tree < 8) && (s.tree e.tree).enabled) (treeRisingEdgeDo e.tree e.rise e.fall s)

/-! ## Capture (R287, R288) -/

def State.endCapture (s : State) (q : Nat) : State := s.modBlock q (fun b => { b with capture := none, captureBusy := false })

/-- CAPTURE_EDGE (R287): the record taken at the edge is written out, and the command completes. -/
def captureEdgeDo (block : Nat) (s : State) : State :=
  match (s.block block).capture with
  | none => s
  | some c =>
    let s1 := s.endCapture block
    match s1.cmd? c.seq with
    | none => s1
    | some m => match s1.writeCva m.claim c.dest c.record with
      | some s2 => s2.complete c.seq (BitVec.ofNat 128 (boolNat c.disturbed))
      | none => s1.fail c.seq Reason.notMapped

def captureEdgeOk (block : Nat) (s : State) : Bool :=
  match (s.block block).capture with
  | some c => !c.record.isEmpty
  | none => false

def execCaptureEdge (block : Nat) (s : State) : Result := whenDue (captureEdgeOk block s) (captureEdgeDo block s)

/-- CAPTURE_TIMEOUT (R288): the tick that starts shift S + 1 has come without the edge. -/
def captureTimeoutOk (block : Nat) (s : State) : Bool :=
  match (s.block block).capture with
  | some c => c.record.isEmpty && (s.dom c.dom).running && decide (c.shift < (s.dom c.dom).count.toNat)
  | none => false

def captureTimeoutDo (block : Nat) (s : State) : State :=
  match (s.block block).capture with
  | some c => (s.endCapture block).fail c.seq Reason.captureTimeout
  | none => s

def execCaptureTimeout (block : Nat) (s : State) : Result := whenDue (captureTimeoutOk block s) (captureTimeoutDo block s)

/-- TREE_FREQUENCY_UPDATE (R289): the measured output of each tree. -/
def treeFrequencyUpdateDo (kilohertz : List (BitVec 20)) (s : State) : State :=
  s.modRiddle (fun r => { r with trees := (List.range 8).foldl (fun (ts : Tab RTree) t =>
    put ts t { (lookD ts t {}) with freqKhz := kilohertz.getD t 0 }) r.trees })

def execTreeFrequencyUpdate (kilohertz : List (BitVec 20)) (s : State) : Result :=
  whenValid (decide (kilohertz.length = 8)) (treeFrequencyUpdateDo kilohertz s)

end Sys2Proof.Machine
end

