-- ==== Sys2Proof/Machine/Sign.lean ====
section
/-! DEFINITION. SHA-384 and ECDSA over NIST P-384, as the standards that R237 names define them. The round
constants and start values are the fractional bits of roots of primes, which the standard defines them to be. -/

namespace Sys2Proof.Machine

/-! ## SHA-384 -/

/-- The first n primes, by trial division with fuel. -/
def primesFrom : Nat → Nat → List Nat → List Nat
  | 0, _, acc => acc
  | f + 1, k, acc => primesFrom f (k + 1) (if acc.all (fun p => k % p != 0) then acc ++ [k] else acc)

/-- The 80 primes up to 409. -/
def shaPrimes : List Nat := primesFrom 408 2 []

/-- Largest r of `bits` bits with f r ≤ x, bit by bit. -/
def rootBits (f : Nat → Nat) (x : Nat) : Nat → Nat → Nat
  | 0, r => r
  | b + 1, r => rootBits f x b (if f (r + 2 ^ b) ≤ x then r + 2 ^ b else r)

/-- First 64 bits of the fraction of a square and of a cube root. -/
def sqrtFrac (p : Nat) : Nat := rootBits (fun r => r * r) (p * 2 ^ 128) 72 0 % 2 ^ 64
def cbrtFrac (p : Nat) : Nat := rootBits (fun r => r * r * r) (p * 2 ^ 192) 72 0 % 2 ^ 64

def shaK : List (BitVec 64) := shaPrimes.map (fun p => BitVec.ofNat 64 (cbrtFrac p))
def shaStart : List (BitVec 64) := ((shaPrimes.drop 8).take 8).map (fun p => BitVec.ofNat 64 (sqrtFrac p))

def shaBig0 (x : BitVec 64) : BitVec 64 := x.rotateRight 28 ^^^ x.rotateRight 34 ^^^ x.rotateRight 39
def shaBig1 (x : BitVec 64) : BitVec 64 := x.rotateRight 14 ^^^ x.rotateRight 18 ^^^ x.rotateRight 41
def shaSmall0 (x : BitVec 64) : BitVec 64 := x.rotateRight 1 ^^^ x.rotateRight 8 ^^^ (x >>> 7)
def shaSmall1 (x : BitVec 64) : BitVec 64 := x.rotateRight 19 ^^^ x.rotateRight 61 ^^^ (x >>> 6)

def bigEndian (bs : List Byte) : Nat := bs.foldl (fun a b => 256 * a + b.toNat) 0

/-- Message schedule, newest word first. -/
def shaSchedule : Nat → List (BitVec 64) → List (BitVec 64)
  | 0, w => w
  | n + 1, w => shaSchedule n
      ((shaSmall1 (w.getD 1 0) + w.getD 6 0 + shaSmall0 (w.getD 14 0) + w.getD 15 0) :: w)

/-- One round: state a to h, and K + W. -/
def shaRound (s : List (BitVec 64)) (kw : BitVec 64) : List (BitVec 64) :=
  match s with
  | [a, b, c, d, e, f, g, h] =>
    let t1 := h + shaBig1 e + ((e &&& f) ^^^ (~~~e &&& g)) + kw
    let t2 := shaBig0 a + ((a &&& b) ^^^ (a &&& c) ^^^ (b &&& c))
    [t1 + t2, a, b, c, d + t1, e, f, g]
  | _ => s

def shaBlock (h : List (BitVec 64)) (block : List Byte) : List (BitVec 64) :=
  let w0 := ((List.range 16).map (fun i => BitVec.ofNat 64 (bigEndian ((block.drop (8 * i)).take 8)))).reverse
  let w := (shaSchedule 64 w0).reverse
  let r := (List.zipWith (· + ·) shaK w).foldl shaRound h
  List.zipWith (· + ·) h r

def shaPad (bs : List Byte) : List Byte :=
  bs ++ [0x80] ++ List.replicate ((239 - bs.length % 128) % 128) 0 ++ (natLE 16 (8 * bs.length)).reverse

/-- SHA-384 digest as a number, most significant bit first. -/
def sha384 (bs : List Byte) : Nat :=
  let m := shaPad bs
  let h := (List.range (m.length / 128)).foldl (fun h i => shaBlock h ((m.drop (128 * i)).take 128)) shaStart
  (h.take 6).foldl (fun a w => a * 2 ^ 64 + w.toNat) 0

/-! ## NIST P-384 -/

def ecP : Nat := 2 ^ 384 - 2 ^ 128 - 2 ^ 96 + 2 ^ 32 - 1
def ecN : Nat :=
  0xFFFFFFFFFFFFFFFFFFFFFFFFFFFFFFFFFFFFFFFFFFFFFFFFC7634D81F4372DDF581A0DB248B0A77AECEC196ACCC52973
def ecB : Nat :=
  0xB3312FA7E23EE7E4988E056BE3F82D19181D9C6EFE8141120314088F5013875AC656398D8A2ED19D2A85C8EDD3EC2AEF
def ecG : Nat × Nat :=
  (0xAA87CA22BE8B05378EB1C71EF320AD746E1D3B628BA79B9859F741E082542A385502F25DBF55296C3A545E3872760AB7,
   0x3617DE4A96262C6F5D9E98BF9292DC29F8F41DBD289A147CE9DA3113B5F0B8C00A60B1CE1D7E819D7A431D7C90EA0E5F)

/-- b ^ e mod m by squaring, over n bits of e. -/
def powMod (m : Nat) : Nat → Nat → Nat → Nat
  | 0, _, _ => 1 % m
  | n + 1, b, e =>
    let r := powMod m n (b * b % m) (e / 2)
    if e % 2 = 1 then b * r % m else r

/-- Inverse modulo a prime. -/
def invMod (m a : Nat) : Nat := powMod m 384 (a % m) (m - 2)

def ecAdd : Option (Nat × Nat) → Option (Nat × Nat) → Option (Nat × Nat)
  | none, q => q
  | p, none => p
  | some (x1, y1), some (x2, y2) =>
    if x1 = x2 ∧ (y1 + y2) % ecP = 0 then none
    else
      let l := if x1 = x2 then (3 * x1 * x1 + (ecP - 3)) * invMod ecP (2 * y1) % ecP
        else (y2 + ecP - y1) * invMod ecP (x2 + ecP - x1) % ecP
      let x := (l * l + 2 * ecP - x1 - x2) % ecP
      some (x, (l * (x1 + ecP - x) + ecP - y1) % ecP)

/-- k times a point, over n bits of k. -/
def ecMul : Nat → Nat → Option (Nat × Nat) → Option (Nat × Nat)
  | 0, _, _ => none
  | n + 1, k, p =>
    let r := ecMul n (k / 2) (ecAdd p p)
    if k % 2 = 1 then ecAdd p r else r

def ecOn (x y : Nat) : Bool := decide (x < ecP) && decide (y < ecP) && y * y % ecP == (x * x * x + (ecP - 3) * x + ecB) % ecP

/-- The signature (r, s) of a digest verifies under the public key (x, y). -/
def ecdsaVerify (digest r s x y : Nat) : Bool :=
  if r = 0 ∨ ecN ≤ r ∨ s = 0 ∨ ecN ≤ s ∨ !ecOn x y then false
  else
    let w := invMod ecN s
    match ecAdd (ecMul 384 (digest * w % ecN) (some ecG)) (ecMul 384 (r * w % ecN) (some (x, y))) with
    | some (px, _) => px % ecN == r
    | none => false

end Sys2Proof.Machine
end

