-- ==== Sys2Proof/Machine/LoadCheck.lean ====
section
/-! DEFINITION. The load checks of Table 9.12 that need the state of the device or more than one record, in the
order of the table (chapters 3, 7, 9, 11 and 16). -/

namespace Sys2Proof.Machine

/-! ## SIGNATURE (R237, R337) -/

/-- Public key of a slot: X and Y as the standard's byte strings. -/
def HostIf.keyBytes (x : HostIf) (slot : Nat) : List Byte :=
  (List.range 24).flatMap (fun w => natLE 4 (lookD x.keys (32 * slot + w) 0).toNat)

/-- All 24 words of a slot are written. -/
def HostIf.keyValid (x : HostIf) (slot : Nat) : Bool := (List.range 24).all (fun w => (look x.keys (32 * slot + w)).isSome)

def State.checkSignature (s : State) (claim : Nat) (bs : List Byte) : Option LoadFail :=
  let y := s.claim claim
  let must := y.requireSigned || s.host.requireSignedAll
  let r := (sectRecs bs 14).headD []
  let slot := fieldLE r 0 1
  let key := s.host.keyBytes slot
  let ok := s.host.keyEnable.getLsbD slot && (!must || y.keyMask.getLsbD slot) && s.host.keyValid slot
    && ecdsaVerify (sha384 (withoutSignature bs)) (bigEndian ((r.drop 16).take 48)) (bigEndian ((r.drop 64).take 48))
      (bigEndian (key.take 48)) (bigEndian (key.drop 48))
  if !bitAt (fieldLE bs 12 4) 3 then (if must then some { code := LoadCode.signature, sect := 14 } else none)
  else if ok then none else some { code := LoadCode.signature, index := 0, sect := 14 }

/-! ## OWNERSHIP (R63, R177, R182, R238, R243, R285, R381) -/

/-- Images that hold resources now. -/
def State.held (s : State) (pred : Option Nat) : List (Nat × Image) := s.images.filter (fun p => some p.1 != pred)

/-- Window range of a USE on a tile kind (Table 2.4, Table 9.8). -/
def useRange (kind use : Nat) : Option (Nat × Nat) :=
  if kind = 3 then (if use = 1 then some (0, 0x28000) else if use = 2 then some (0x30000, 0x38000) else none)
  else if kind = 2 then (if use = 3 then some (0, 0x10000) else none)
  else if kind = 1 then (if 4 ≤ use then some (0, 0xA0000) else none)
  else none

/-- Bytes of a tile kind that the compiler allocates (Table 2.7). -/
def tileBytes (kind : Nat) : Nat := if kind = 3 then 0x30000 else if kind = 2 then 0x10000 else if kind = 1 then 0xA0000 else 0

def OwnRec.meets (a b : OwnRec) : Bool :=
  a.tile == b.tile && decide (a.offset < b.offset + b.length) && decide (b.offset < a.offset + a.length)

def Image.ownsTile (x : Image) (t : Nat) : Bool := x.tiles.any (fun r => r.tile == t)

/-- Segments of a hold, in record order (R182). -/
def Image.segments (x : Image) (k : Nat) : List OwnRec := x.owns.filter (fun o => o.use == 7 && o.ref == k)

def holdOk (x : Image) (k : SkipRec) : Bool :=
  let g := x.segments k.id
  decide (1 ≤ g.length) && decide (g.length ≤ 32)
    && g.all (fun o => o.length % 64 == 0 && decide (64 ≤ o.length) && decide (o.length ≤ 655360) && o.offset % 64 == 0
      && (g.filter (fun p => p.tile == o.tile)).length == 1)
    && (g.map OwnRec.length).foldl (· + ·) 0 == k.size && decide (k.size ≤ 20 * 2 ^ 20) && !k.sump

/-- A sealed middle lies in a range of use 4 that names its skip (R180). -/
def sealedOk (x : Image) (k : SkipRec) : Bool :=
  x.owns.any (fun o => o.use == 4 && o.ref == k.id && o.tile == k.middleRef && decide (o.offset ≤ k.middleOffset)
    && decide (k.middleOffset + k.size ≤ o.offset + o.length))

def blobOk (x : Image) (b : BlobRec) : Bool :=
  if b.target = 1 then x.owns.any (fun o => o.tile == b.dest && o.use != 4 && o.use != 7 && decide (o.offset ≤ b.offset)
      && decide (b.offset + b.length ≤ o.offset + o.length))
  else if b.target = 2 then kindOf b.dest == 3 && x.ownsTile b.dest && decide (0x41000 ≤ b.offset) && decide (b.offset + b.length ≤ 0x42000)
  else true

/-- Each configuration store range is used in one half only, as CONFIG_HALF says: blobs of the image stay in
their half (R243). -/
def halfOk (x : Image) (b : BlobRec) : Bool :=
  b.target != 1 || x.owns.all (fun o => o.use != 5 || o.tile != b.dest || decide (b.offset + b.length ≤ o.offset)
    || decide (o.offset + o.length ≤ b.offset)
    || (if bitAt x.flags 4 then decide (o.offset + o.length / 2 ≤ b.offset) else decide (b.offset + b.length ≤ o.offset + o.length / 2)))

/-- First record of section `sect` in which `new` differs from `old` (R243, R244). -/
def firstChange {α : Type} [DecidableEq α] (sect : Nat) (old new : List α) : Option LoadFail :=
  firstBad LoadCode.ownership sect (fun (r : α × Nat) => old[r.2]? == some r.1) new.zipIdx
  <|> (if old = new then none else some { code := LoadCode.ownership, sect := sect })

/-- Why an image is no successor of p: the header, the tile set, or a record (R243, R244). -/
def successorFail (p x : Image) : Option LoadFail :=
  if p.swapKey ≠ x.swapKey ∨ x.swapKey = 0 ∨ p.depth ≠ x.depth ∨ p.channels ≠ x.channels ∨ bitAt p.flags 4 = bitAt x.flags 4 then
    some { code := LoadCode.ownership }
  else firstBad LoadCode.ownership 1 (fun (r : TileRec) => p.ownsTile r.tile) x.tiles
    <|> (if p.tiles.all (fun r => x.ownsTile r.tile) then none else some { code := LoadCode.ownership, sect := 1 })
    <|> firstChange 5 p.skips x.skips
    <|> firstChange 6 p.owns x.owns
    <|> firstBad LoadCode.ownership 7 (fun (b : BlobRec) => b.target != 1) x.blobs

/-- The conditions of a successor hold (R243). -/
def successorOk (p x : Image) : Bool := (successorFail p x).isNone

/-- Global lines that a bitstream drives. -/
def RiddleBits.lines (b : RiddleBits) : List (Nat × Nat × Bool) :=
  b.frames.flatMap (fun f => if f.type = 4 then (List.range (f.payload.length / 4)).map (fun i =>
    (fieldLE f.payload (4 * i) 1, fieldLE f.payload (4 * i + 2) 2, bitAt (fieldLE f.payload (4 * i + 1) 1) 0)) else [])

/-- A-tiles that a bitstream configures. -/
def RiddleBits.atiles (b : RiddleBits) : List Nat := (b.frames.filter (fun f => f.type == 6)).map RiddleFrame.target

/-- Two bitstreams hold nothing in common. -/
def RiddleBits.apart (a b : RiddleBits) : Bool :=
  (a.blockMask &&& b.blockMask) == 0 && (a.treeMask &&& b.treeMask) == 0 && (a.pairMask &&& b.pairMask) == 0
    && a.atiles.all (fun t => !b.atiles.contains t) && a.lines.all (fun l => b.lines.all (fun m => l.1 != m.1))

/-- Nothing that the bitstream names is held by another loaded image, by its bitstream or, for an A-tile, by its
TILE record (R285). -/
def State.riddleFree (s : State) (pred : Option Nat) (b : RiddleBits) : Bool :=
  (s.held pred).all (fun p => (match p.2.riddle with
    | some a => a.apart b
    | none => true) && b.atiles.all (fun a => !p.2.ownsTile (atilePos a)))
  && (List.range 8).all (fun q => !(bitAt b.blockMask (q + 8) && (s.quad q).mirror))

/-- A lockstep group holds M-, F- and S-tiles, at most 16 of one row (R53). The code of a larger group is not
stated: DESIGN CHOICE, log 106. -/
def groupOk (x : Image) (r : TileRec) : Bool :=
  r.flags / 16 == 0 || (r.kind != 0
    && decide ((x.tiles.filter (fun q => q.tile / 32 == r.tile / 32 && q.flags / 16 == r.flags / 16)).length ≤ 16))

def State.checkOwnership (s : State) (pred : Option Nat) (x : Image) : Option LoadFail :=
  let code := LoadCode.ownership
  let others := s.held pred
  firstBad code 1 (fun (p : TileRec × Nat) =>
      !isSpare p.1.tile && groupOk x p.1 && !(s.tile (s.physical p.1.tile)).lost && others.all (fun o => !o.2.ownsTile p.1.tile && !(kindOf p.1.tile == 0
          && (o.2.riddle.map RiddleBits.atiles).any (fun l => l.contains (atileIndex p.1.tile)))) && (x.tiles.take p.2).all (fun r => r.tile != p.1.tile)
        && (!bitAt p.1.flags 1 || (bitAt x.flags 2 && !bitAt p.1.flags 0 && (p.1.kind == 3 || p.1.kind == 2)
          && (x.tiles.take p.2).all (fun r => !(bitAt r.flags 1 && r.kind == p.1.kind
            && (if r.kind = 3 then r.tile / 32 == p.1.tile / 32 else r.tile / 96 == p.1.tile / 96)))))) x.tiles.zipIdx
  <|> firstBad code 5 (fun (p : SkipRec × Nat) =>
      others.all (fun o => o.2.skips.all (fun k => k.id != p.1.id)) && (x.skips.take p.2).all (fun k => k.id != p.1.id)
        && x.ownsTile (p.1.id / 80) && (if p.1.role = 3 then holdOk x p.1 else p.1.sump || sealedOk x p.1)) x.skips.zipIdx
  <|> firstBad code 6 (fun (p : OwnRec × Nat) =>
      x.ownsTile p.1.tile && (match useRange (kindOf p.1.tile) p.1.use with
        | some r => decide (r.1 ≤ p.1.offset) && decide (p.1.offset + p.1.length ≤ r.2)
        | none => false)
        && ((p.1.use != 4 && p.1.use != 7) || x.skips.any (fun k => k.id == p.1.ref && (k.role == 3) == (p.1.use == 7)))
        && (x.owns.take p.2).all (fun o => !o.meets p.1)) x.owns.zipIdx
  <|> firstBad code 1 (fun r =>
      ((x.owns.filter (fun o => o.tile == r.tile)).map OwnRec.length).foldl (· + ·) 0 == tileBytes r.kind) x.tiles
  <|> firstBad code 7 (fun b => blobOk x b && halfOk x b) x.blobs
  <|> (match x.riddle with
      | some b => if s.riddleFree pred b then none else some { code := code, sect := 9 }
      | none => none)
  <|> (match pred with
      | some h => successorFail (s.image h) x
      | none => none)

/-! ## ROUTE (R54, R179, R183, R205, R277, R358, R427, R428) -/

/-- Links of a path as 4 × position + direction, and its end; none where it leaves the grid. -/
def pathLinks : Nat → Nat → Nat → Option (List Nat × Nat)
  | 0, t, _ => some ([], t)
  | n + 1, t, path =>
    let d := path % 4
    let next : Option Nat :=
      if d = 0 then (if 32 ≤ t then some (t - 32) else none)
      else if d = 1 then (if t % 32 < 31 then some (t + 1) else none)
      else if d = 2 then (if t + 32 < 768 then some (t + 32) else none)
      else (if 0 < t % 32 then some (t - 1) else none)
    match next with
    | none => none
    | some u => (pathLinks n u (path / 4)).map (fun q => ((4 * t + d) :: q.1, q.2))

/-- Network of a route kind (Table 7.3): 0 haul, 1 signal, 2 bell. -/
def routeNet (kind : Nat) : Nat := if kind = 1 ∨ kind = 3 then 1 else if kind = 2 then 2 else 0

/-- Records that make up one route: a multicast route has one record per destination (Table 9.6). -/
def routeKey (h : Nat) (r : RouteRec) : Nat × Nat × Nat × Nat × Nat :=
  (h, r.kind, r.src, r.entry, if r.kind ≤ 2 ∧ r.entry ≠ 0xFF then 0 else r.dest + 1)

/-- Use of links: link and network, route, flits per shift, limit of its image, and whether it is direct. -/
structure LinkUse where
  link : Nat
  key : Nat × Nat × Nat × Nat × Nat
  flits : Nat
  limit : Nat
  direct : Bool
deriving DecidableEq, Repr

/-- Shift length in fc of the budget clock: floor(shift_ns × 1.05). -/
def Image.budgetFc (x : Image) : Nat := x.shiftFc * 7 / 8

def addUse (l : List LinkUse) (u : LinkUse) : List LinkUse :=
  if l.any (fun v => v.link == u.link && v.key == u.key) then
    l.map (fun v => if v.link == u.link && v.key == u.key then { v with flits := max v.flits u.flits } else v)
  else l ++ [u]

/-- Links that the routes of an image use. -/
def Image.linkUses (x : Image) (h : Nat) : List LinkUse :=
  x.routes.foldl (fun l r =>
    match pathLinks r.hops r.src r.path with
    | none => l
    | some (ks, _) => ks.foldl (fun l k => addUse l { link := 3072 * routeNet r.kind + k, key := routeKey h r, flits := r.flits
                                                      limit := x.budgetFc, direct := r.kind == 5 }) l) []

/-- Skip and tile of the claim that a route may end at: of this image, or of a loaded image of the claim. -/
def State.claimSkip (s : State) (x : Image) (k : Nat) : Option SkipRec :=
  (x.skips.find? (fun r => r.id == k)) <|> ((s.images.filter (fun p => p.2.claim == x.claim)).findSome? (fun p => p.2.skips.find? (fun r => r.id == k)))

def State.claimTile (s : State) (x : Image) (t : Nat) : Bool :=
  x.ownsTile t || s.images.any (fun p => p.2.claim == x.claim && p.2.ownsTile t)

/-- Lockstep group of a tile record of the image; 0 for none. -/
def Image.groupOf (x : Image) (t : Nat) : Nat := ((x.tiles.find? (fun r => r.tile == t)).map (fun r => r.flags / 16)).getD 0

def Image.hasPort (x : Image) (t p : Nat) (out : Bool) : Bool :=
  x.tiles.any (fun r => r.tile == t && bitAt (nibble r.ports p) 3 && bitAt (nibble r.ports p) 2 == out)
def Image.hasBell (x : Image) (t b : Nat) (send : Bool) : Bool :=
  x.tiles.any (fun r => r.tile == t && bitAt (nibble r.bells b) 3 && bitAt (nibble r.bells b) 2 == send)

/-- One route record: its source and its end, and no cycle. -/
def State.routeOk (s : State) (x : Image) (i : Nat) (r : RouteRec) : Bool :=
  match pathLinks r.hops r.src r.path with
  | none => false
  | some (ks, last) =>
    let stops := (ks.map (· / 4)) ++ [last]
    let group := x.routes.filter (fun q => q.kind == r.kind && q.src == r.src && q.entry == r.entry)
    x.ownsTile r.src && stops.eraseDups.length == stops.length
    && (if r.kind ≤ 1 then
          (r.entry == 0xFF || ((x.hasPort r.src r.entry true || (kindOf r.src == 0 && (x.meshOf i).any (fun m => m.direction == 1)))
            && decide (group.length ≤ 8)))
          && (if x.egress i then kindOf last == 0 && group.length == 1
              else last == r.dest / 80 && (match s.claimSkip x r.dest with
                | some k => k.net == r.kind
                | none => false))
        else if r.kind = 2 then
          x.hasBell r.src r.entry true && decide (group.length ≤ 8) && last == r.dest && s.claimTile x r.dest
            && (!x.ownsTile r.dest || x.hasBell r.dest r.destEntry false)
        else if r.kind = 3 then last == r.dest && kindOf r.dest == 1 && s.claimTile x r.dest
        else if r.kind = 4 then x.skips.any (fun k => k.id == r.dest && !k.sump && r.src == k.id / 80 && last == k.middleRef)
        else last == r.dest && x.groupOf r.src != 0 && x.groupOf r.src == x.groupOf r.dest && r.src / 32 == r.dest / 32
          && x.ownsTile r.dest)

/-- Shares of the links of a new route (R205). -/
def sharesOk (all : List LinkUse) (u : LinkUse) : Bool :=
  let on := all.filter (fun v => v.link == u.link)
  decide (on.length ≤ 8) && on.all (fun v => decide ((on.map LinkUse.flits).foldl (· + ·) 0 ≤ v.limit))
    && (on.length == 1 || on.all (fun v => !v.direct))

/-- A skip's ends (R183, R427, R428). -/
def skipEndsOk (x : Image) (k : SkipRec) : Bool :=
  let valid := bitAt k.consumerPort 7
  let port := k.consumerPort % 32
  let t := k.id / 80
  let fetch := (x.routes.filter (fun r => r.kind == 4 && r.dest == k.id)).length
  (k.sump || k.role == 3 || fetch == 1)
    && (if valid then x.hasPort t port false && (x.skips.filter (fun j => j.id / 80 == t && j.consumerPort == k.consumerPort)).length == 1
        else k.consumerPort == 0 && (k.role == 2 || k.role == 3))
    && (if k.role = 0 then k.hwChannel == 0 && k.hwCount == 0 && k.hwTile == 0
        else kindOf k.hwTile == 0 && x.ownsTile k.hwTile && (k.role == 3 || k.hwCount == k.count)
          && (if k.role = 1 then valid && x.routes.any (fun r => r.kind == 0 && r.src == k.hwTile && r.entry == 0xFF && r.dest == k.id)
              else !valid && t == k.hwTile)
          && (k.role != 2 || (k.net == 1 && k.width == 2)))

/-- Every channel has one ingest skip, one decision skip and one hold (R428). -/
def channelsServed (x : Image) : Bool :=
  [1, 2, 3].all (fun role => x.skips.all (fun k => k.role != role || decide (k.hwChannel + k.hwCount ≤ x.channels))
    && (List.range x.channels).all (fun c =>
      (x.skips.filter (fun k => k.role == role && decide (k.hwChannel ≤ c) && decide (c < k.hwChannel + k.hwCount))).length == 1))

/-- Blocks as a bitstream configures them. -/
def RiddleBits.block (b : RiddleBits) (q : Nat) : RBlock :=
  match b.frames.find? (fun f => f.type == 1 && f.target == q) with
  | some f => { config := f.payload }
  | none => {}

/-- Combinational sources that macrocell (q, i) reads, and global lines that block q reads. -/
def RiddleBits.inputs (b : RiddleBits) (q c p : Nat) : List Nat :=
  let k := b.block q
  ((List.range 48).filter (fun j => k.literal c p j != 0)).map (fun j => k.select c j)

/-- Terms on the way to a macrocell's comb output. -/
def RiddleBits.termsOf (b : RiddleBits) (q i : Nat) : List Nat :=
  let k := b.block q
  let m := k.cell i
  (List.range 96).filter (fun p => k.alloc (i / 16) p == i % 16
    && (if m.xorEn && m.xorSrc && p == m.xpt then true else p != m.xpt && p != m.cePt && p != m.rstPt))

/-- Comb outputs a source word leads to, from cluster c of block q. -/
def RiddleBits.combOf (b : RiddleBits) (q c w : Nat) : Option (Nat × Nat) :=
  match w / 0x4000 with
  | 0 => if bitAt w 4 then none else some (q, 16 * c + w % 16)
  | 1 => if bitAt w 10 then none else some (q, w % 1024)
  | 2 => none
  | _ => match b.lines.find? (fun l => l.1 == w % 256) with
    | some (_, d, false) => some (d / 1024, d % 1024)
    | _ => none

def RiddleBits.feeds (b : RiddleBits) (n : Nat × Nat) : List (Nat × Nat) :=
  (b.termsOf n.1 n.2).flatMap (fun p => (b.inputs n.1 (n.2 / 16) p).filterMap (fun w => b.combOf n.1 (n.2 / 16) w))

/-- Take away macrocells whose comb inputs are all gone, n times over: what stays lies on or behind a cycle. -/
def RiddleBits.peel (b : RiddleBits) : Nat → List (Nat × Nat) → List (Nat × Nat)
  | 0, l => l
  | k + 1, l => b.peel k (l.filter (fun n => (b.feeds n).any (fun m => l.contains m)))

def RiddleBits.quads (b : RiddleBits) : List Nat := (List.range 16).filter (fun q => bitAt b.blockMask q)

def RiddleBits.cells (b : RiddleBits) : List (Nat × Nat) := b.quads.flatMap (fun q => (List.range 1024).map (fun i => (q, i)))

def riddleRoutesOk (b : RiddleBits) : Bool :=
  (b.peel 16384 b.cells).isEmpty && b.lines.all (fun l => (b.lines.filter (fun m => m.1 == l.1)).length == 1)
    && b.quads.all (fun q => (List.range 64).all (fun c => (List.range 48).all (fun j =>
      let w := (b.block q).select c j
      !(w / 0x4000 == 3 && (List.range 96).any (fun p => (b.block q).literal c p j != 0)) || b.lines.any (fun l => l.1 == w % 256))))

/-- Names of XPT, CE_PT and RST_PT stay within their macrocell (Table 11.5). -/
def macrocellsOk (b : RiddleBits) : Bool :=
  b.cells.all (fun n =>
    let k := b.block n.1
    let m := k.cell n.2
    let own (p : Nat) : Bool := decide (p < 96) && k.alloc (n.2 / 16) p == n.2 % 16
    (!(m.xorEn && m.xorSrc) || own m.xpt) && (m.cePt == 0xFF || own m.cePt) && (!m.resetEn || own m.rstPt))

def State.checkRoute (s : State) (h : Nat) (x : Image) : Option LoadFail :=
  let code := LoadCode.route
  let mine := x.linkUses h
  let all := s.images.foldl (fun l p => l ++ p.2.linkUses p.1) mine
  let bad := mine.filter (fun u => !sharesOk all u)
  firstBad code 4 (fun (p : RouteRec × Nat) => s.routeOk x p.2 p.1 && !bad.any (fun u => u.key == routeKey h p.1)) x.routes.zipIdx
  <|> firstBad code 5 (skipEndsOk x) x.skips
  <|> firstBad code 1 (fun r => (List.range 32).all (fun p => !(bitAt (nibble r.ports p) 3 && !bitAt (nibble r.ports p) 2)
      || x.skips.any (fun k => k.id / 80 == r.tile && k.consumerPort == 128 + p))) x.tiles
  <|> (if channelsServed x then none else some { code := code, sect := 5 })
  <|> (match x.riddle with
      | some b => if riddleRoutesOk b then none else some { code := code, sect := 9 }
      | none => none)

/-! ## CREDIT (R181, R182, R184) -/

/-- Width and kind of a skip that an output route reaches, with its initial credit. -/
def State.routeEnd (s : State) (x : Image) (i : Nat) (r : RouteRec) : Option (Nat × Bool × Nat) :=
  match x.meshOf i with
  | some m => if m.direction = 0 then some (m.peerCfg % 8, bitAt m.peerCfg 3, creditOf m.peerSize (m.peerCfg % 8) (bitAt m.peerCfg 3))
      else (s.claimSkip x r.dest).map (fun k => (k.width, k.zrc, creditOf k.size k.width k.zrc))
  | none => (s.claimSkip x r.dest).map (fun k => (k.width, k.zrc, creditOf k.size k.width k.zrc))

/-- Ends of an output port of the image. -/
def State.portEnds (s : State) (x : Image) (t p : Nat) : List (Nat × Bool × Nat) :=
  (x.routes.zipIdx.filter (fun q => decide (q.1.kind ≤ 1) && q.1.src == t && q.1.entry == p)).filterMap (fun q => s.routeEnd x q.2 q.1)

def skipCreditOk (x : Image) (k : SkipRec) : Bool :=
  decide (k.pushRate ≤ creditOf k.size k.width k.zrc) && !(k.sump && (bitAt x.flags 0 || k.realtime))
    && (k.role != 3 || decide ((x.depth + 1 + x.holdDrain) * (((List.range k.hwCount).map (fun i =>
        match x.skips.find? (fun j => j.role == 1 && decide (j.hwChannel ≤ k.hwChannel + i) && decide (k.hwChannel + i < j.hwChannel + j.hwCount)) with
        | some j => 64 * ceilDiv (j.pushRate * 2 ^ j.width) 64
        | none => 0)).foldl (· + ·) 0) ≤ k.size))

def State.checkCredit (s : State) (x : Image) : Option LoadFail :=
  let code := LoadCode.credit
  firstBad code 5 (skipCreditOk x) x.skips
  <|> firstBad code 4 (fun (p : RouteRec × Nat) =>
      decide (2 ≤ p.1.kind) || p.1.entry == 0xFF || (match s.routeEnd x p.2 p.1 with
        | some e => (s.portEnds x p.1.src p.1.entry).all (fun f => f.1 == e.1 && f.2.1 == e.2.1)
        | none => true)) x.routes.zipIdx
  <|> firstBad code 1 (fun r => r.used.all (fun th => (List.range 32).all (fun p =>
      !(x.hasPort r.tile p true) || nibble r.ports p % 4 != th
        || (s.portEnds x r.tile p).all (fun e => decide (portCount (x.walk r th).1 p true ≤ e.2.2))))) x.tiles

/-! ## RATE (R113, R272) -/

/-- The dense entries of a scatter frame of a channel's A-tile fit the shift. -/
def scatterOk (x : Image) : Bool :=
  match x.riddle with
  | none => true
  | some b => b.frames.all (fun f =>
    if f.type = 6 then
      let v := fieldLE f.payload 0 4
      let g := fieldLE f.payload 4 4
      let bytes := ceilDiv (v % 1024 + 1) 32 * (g / 65536) * (g % 65536) * 32 * (if bitAt v 26 then 2 else 1)
      bits v 31 30 != 2 || decide (ceilDiv bytes 64 ≤ x.budgetFc)
    else true)

/-- A port's derived entries per shift equal its skip's declaration times its channels. A thread that is not in
THREADS_USED runs no word, and its ports carry none. -/
def State.portRateOk (s : State) (x : Image) (r : TileRec) (p : Nat) : Bool :=
  let n := nibble r.ports p
  if !bitAt n 3 then true
  else
    let rate := if bitAt r.threads (n % 4) then portRate (x.walk r (n % 4)).1 p else 0
    if bitAt n 2 then
      (x.routes.zipIdx.filter (fun q => decide (q.1.kind ≤ 1) && q.1.src == r.tile && q.1.entry == p && !x.egress q.2)).all (fun q =>
        match s.claimSkip x q.1.dest with
        | some k => rate == k.pushRate * k.count
        | none => true)
    else x.skips.all (fun k => k.id / 80 != r.tile || k.consumerPort != 128 + p || rate == k.popRate * k.count)

def State.checkRate9 (s : State) (x : Image) : Option LoadFail :=
  firstBad LoadCode.rate 1 (fun r => (List.range 32).all (fun p => s.portRateOk x r p)) x.tiles
  <|> (if scatterOk x then none else some { code := LoadCode.rate, sect := 9 })

/-! ## BUDGET (R245, R281, Table 9.5) -/

/-- Line rate of a lane in kb/s (Table 10.1). -/
def lineKbps (rate : Nat) : Nat :=
  match rate with
  | 0 => 10312500
  | 1 => 25781250
  | 2 => 53125000
  | 3 => 106250000
  | _ => 112500000

/-- Payload rate per lane of a quad × 17, in kb/s; 100 Gb/s for Ethernet. -/
def Quad.payload17 (x : Quad) : Nat := if x.mode = 0 then lineKbps x.rate.toNat * 16 else 1700000000

/-- Source frequency of a tree × 128 × 17 in kHz; none for a pair input, whose clock comes from outside. -/
def State.treeSource (s : State) (f : RiddleFrame) : Option Nat :=
  match fieldLE f.payload 0 1 with
  | 0 => some (1800000 * 2176)
  | 1 => some (s.quad (fieldLE f.payload 1 1)).payload17
  | 2 => some (1200000 * 2176)
  | _ => none

def State.riddleBudgetOk (s : State) (b : RiddleBits) : Bool :=
  let tree (t : Nat) : Option RiddleFrame := b.frames.find? (fun f => f.type == 3 && f.target == t)
  decide (b.latencyNs ≤ 32)
    && b.frames.all (fun f => f.type != 3 || (match s.treeSource f with
      | some n => decide (n ≤ 900000 * 2176 * fieldLE f.payload 2 2)
      | none => true))
    && b.quads.all (fun q =>
      match tree ((b.block q).cfgByte 102400) with
      | some f => (match s.treeSource f with
        | some n => decide ((s.quad q).payload17 * fieldLE f.payload 2 2 ≤ n)
        | none => true)
      | none => false)

def budgetOk (x : Image) (b : BudgetRec) : Bool :=
  let all := x.budgetFc
  decide (b.channels * b.slotFc + b.reserveFc ≤ all) && decide (b.slotFc ≤ b.reserveFc)
    && decide (ceilDiv (all * x.reserveQ10) 1024 ≤ b.reserveFc) && decide (b.workFc ≤ b.slotFc) && decide (b.replayFc ≤ b.reserveFc)

def State.checkBudget (s : State) (x : Image) : Option LoadFail :=
  let code := LoadCode.budget
  firstBad code 12 (budgetOk x) x.budgets
  <|> firstBad code 1 (fun r => r.threads == 0 || (r.stage != 0xFF && (!x.realtime || (x.budget r.stage).isSome))) x.tiles
  <|> (match x.riddle with
      | some b => if s.riddleBudgetOk b then none else some { code := code, sect := 9 }
      | none => none)

/-! ## ENVELOPE and token shares (R246 to R248) -/

/-- A share: claim, row, peak, least tokens, stream power in mW. -/
structure Share where
  row : Nat
  claim : Nat
  peak : Nat
  least : Nat
  mw : Nat
  now : Nat := 0
deriving DecidableEq, Repr

/-- Baseline power (Table 16.10). -/
def baselineMw : Nat := 140000

/-- Shares of a set of images, in ascending row and then ascending claim. -/
def sharesOf (xs : List Image) : List Share :=
  (List.range 24).flatMap (fun row =>
    (List.range 256).filterMap (fun c =>
      let es := (xs.filter (fun x => x.claim == c)).flatMap (fun x => x.envs.filter (fun e => e.row == row))
      if es.isEmpty then none
      else some { row := row, claim := c, peak := (es.map EnvRec.peak).foldl (· + ·) 0
                  least := (es.map EnvRec.minTokens).foldl (· + ·) 0, mw := (es.map EnvRec.streamMw).foldl max 0 }))

def fixedMw (xs : List Image) : Nat :=
  baselineMw + (xs.flatMap (fun x => (x.envs.filter (fun e => e.row == 0xFF)).map EnvRec.staticMw)).foldl (· + ·) 0

/-- One pass of step 3: power spent, shares, whether a token went out. -/
def tokenPass (limit : Nat) : List Share → Nat → List Share × Nat × Bool
  | [], used => ([], used, false)
  | x :: r, used =>
    let give := decide (x.now < x.peak) && decide (used + x.mw ≤ limit)
    let q := tokenPass limit r (if give then used + x.mw else used)
    ((if give then { x with now := x.now + 1 } else x) :: q.1, q.2.1, give || q.2.2)

/-- Passes until no token fits; 23 suffice for a peak of at most 22 per image, and fuel bounds them all. -/
def tokenPasses (limit : Nat) : Nat → List Share → Nat → List Share
  | 0, l, _ => l
  | n + 1, l, used =>
    let q := tokenPass limit l used
    if q.2.2 then tokenPasses limit n q.1 q.2.1 else l

/-- R248: none when the least tokens exceed the TDP; else whether tokens are on, and the shares. -/
def tokenShares (xs : List Image) (tdpMw : Nat) : Option (Bool × List Share) :=
  let l := sharesOf xs
  let fixed := fixedMw xs
  if fixed + (l.map (fun x => x.peak * x.mw)).foldl (· + ·) 0 ≤ tdpMw then some (false, l)
  else
    let start := l.map (fun x => { x with now := x.least })
    let used := fixed + (start.map (fun x => x.now * x.mw)).foldl (· + ·) 0
    if tdpMw < used then none
    else some (true, tokenPasses tdpMw ((l.map Share.peak).foldl (· + ·) 0 + 1) start used)

def State.tdpMw (s : State) : Nat := s.power.tdpW.toNat * 1000

/-- Write the shares into the rows. -/
def State.setShares (s : State) (on : Bool) (l : List Share) : State :=
  s.modPower (fun p => { p with rows := p.rows.zipIdx.map (fun r =>
    { r.1 with tokensOn := on
               shares := if on then (l.filter (fun x => x.row == r.2)).map (fun x => (x.claim, x.now)) else [] }) })

/-- Recompute the shares of the loaded images (R248). -/
def State.reshare (s : State) : State :=
  match tokenShares (s.images.map (·.2)) s.tdpMw with
  | some (on, l) => s.setShares on l
  | none => s

/-- M-tiles of the image in a row. -/
def Image.rowMtiles (x : Image) (row : Nat) : Nat := (x.tiles.filter (fun r => r.kind == 3 && r.tile / 32 == row)).length

def State.checkEnvelope (s : State) (x : Image) : Option LoadFail :=
  let code := LoadCode.envelope
  if (x.envs.filter (fun e => e.row == 0xFF)).length ≠ 1 then some { code := code, sect := 13 }
  else firstBad code 13 (fun (p : EnvRec × Nat) => p.1.row == 0xFF
      || (decide (p.1.peak ≤ x.rowMtiles p.1.row) && (!x.realtime || p.1.minTokens == p.1.peak)
        && (x.envs.take p.2).all (fun e => e.row != p.1.row))) x.envs.zipIdx
    <|> (if (tokenShares (s.images.map (·.2) ++ [x]) s.tdpMw).isNone then some { code := code, sect := 13 } else none)

/-! ## INSTRUCTION (R109) -/

def State.threadOk (s : State) (x : Image) (r : TileRec) (th : Nat) : Bool :=
  let q := x.walk r th
  let channels := (x.budget r.stage).map BudgetRec.channels
  q.2 && waittickOk q.1 && locksOk false q.1
    && q.1.all (fun c => legalWord r.asTile r.kind th c.word
      && loadWordOk (bitAt r.flags 0) channels (fun t => kindOf t == 1 && decide (t < 768) && s.claimTile x t) q.1 c)
    && (List.range 32).all (fun p => !(x.hasPort r.tile p false) || nibble r.ports p % 4 != th
      || x.skips.all (fun k => k.id / 80 != r.tile || k.consumerPort != 128 + p || decide (portCount q.1 p false ≤ k.entries)))

def State.checkInstruction (s : State) (x : Image) : Option LoadFail :=
  firstBad LoadCode.instruction 1 (fun r => r.used.all (fun th => s.threadOk x r th)) x.tiles

/-! ## RELOCATION and REGION (R239, R240) -/

def checkRelocation (x : Image) : Option LoadFail :=
  firstBad LoadCode.relocation 11 (fun (p : RelocRec × Nat) =>
    p.1.site % 8 == 0 && x.blobs.any (fun b => decide (b.data ≤ p.1.site) && decide (p.1.site + 8 ≤ b.data + b.length))
      && (x.relocs.take p.2).all (fun q => decide (q.site + 8 ≤ p.1.site) || decide (p.1.site + 8 ≤ q.site))
      && (match x.regions[p.1.region]? with
        | some g => decide (p.1.addend < g.size)
        | none => false)) x.relocs.zipIdx

/-- The region is dual-stack where its KIND asks for it (R239, R293): the claim maps the pages, so a KIND 1 region
on single pages breaks R239. DESIGN CHOICE, log 57. -/
def State.regionDual (s : State) (claim : Nat) (g : RegionRec) (cva : Nat) : Bool :=
  g.kind != 1 || (List.range (ceilDiv g.size 0x10000)).all (fun i =>
    ((s.translate claim (cva + 0x10000 * i) true).map Phys.dual).getD false)

/-- The region table gives each region an aligned, mapped and writable range. -/
def State.checkRegion (s : State) (claim count : Nat) (table : Option (List Byte)) (x : Image) : Option LoadFail :=
  if count ≠ x.regions.length then some { code := LoadCode.region, index := min count x.regions.length, sect := 10 }
  else match table with
    | none => some { code := LoadCode.region, index := 0, sect := 10 }
    | some bs => firstBad LoadCode.region 10 (fun (p : RegionRec × Nat) =>
        let cva := fieldLE bs (8 * p.2) 8
        cva % 0x10000 == 0 && decide (cva + p.1.size ≤ cvaTop) && s.mapped claim cva p.1.size true
          && s.regionDual claim p.1 cva) x.regions.zipIdx

/-! ## All checks -/

/-- The image that a LOAD names as its predecessor: a loaded image of the claim with the same nonzero key and
the same tiles. -/
def State.predecessorOf (s : State) (x : Image) : Option Nat :=
  (s.images.find? (fun p => p.2.claim == x.claim && p.2.loaded && x.swapKey != 0 && p.2.swapKey == x.swapKey
    && p.2.tiles.any (fun r => x.ownsTile r.tile))).map (·.1)

/-- The load checks in the order of Table 9.12 for a whole image (R241, R244). -/
def State.loadChecks (s : State) (claim h : Nat) (bs : List Byte) (count : Nat) (table : Option (List Byte)) : Option LoadFail :=
  checkHeader bs <|>
    (let x := parseImage bs claim
     let pred := s.predecessorOf x
     checkRecords bs x <|> checkRiddleHeader bs x
     <|> (match x.riddle with
        | some b => if macrocellsOk b then none else some { code := LoadCode.header, sect := 9 }
        | none => none)
     <|> checkPart bs <|> checkChecksum bs <|> s.checkSignature claim bs <|> s.checkOwnership pred x <|> s.checkRoute h x
     <|> s.checkCredit x <|> s.checkRate9 x <|> s.checkBudget x <|> s.checkEnvelope x <|> s.checkInstruction x
     <|> checkRelocation x <|> s.checkRegion claim count table x)

end Sys2Proof.Machine
end

