-- ==== Sys2Proof/Machine/Load.lean ====
section
/-! DEFINITION. LOAD and UNLOAD: reservation and writing of an image, the shadow copies of its tiles, its start
and its removal (chapters 2, 9, 11, 12 and 13). -/

namespace Sys2Proof.Machine

/-! ## Step 5 of R241: skips -/

/-- Device physical address of a sump middle. -/
def State.middleAddr (s : State) (x : Image) (k : SkipRec) : Nat :=
  match x.regions[k.middleRef]? with
  | some g => ((s.translate x.claim (g.cva + k.middleOffset) true).map Phys.addr).getD 0
  | none => 0

/-- A skip as its record configures it, empty and with its initial credit (Tables 7.5 to 7.11, R184). -/
def State.skipFor (s : State) (h : Nat) (x : Image) (k : SkipRec) : Skip :=
  let segs := (x.segments k.id).map (fun o => (o.tile, o.offset, o.length))
  let base : Nat × Nat :=
    if k.sump then (s.middleAddr x k % 2 ^ 32, s.middleAddr x k / 2 ^ 32)
    else if k.role = 3 then (match segs with
      | g :: _ => (g.2.1, g.1)
      | [] => (0, 0))
    else (k.middleOffset, k.middleRef)
  let cfg : SkipCfg :=
    { valid := true, sump := k.sump, net := BitVec.ofNat 2 k.net, zrc := k.zrc, pushWidth := BitVec.ofNat 3 k.width
      faultUnderrun := bitAt k.cfg 3, forceTail := bitAt k.cfg 2, rateCheck := bitAt k.cfg 1, realtime := k.realtime
      claim := x.claim, consumer := k.id / 80, baseLo := BitVec.ofNat 32 base.1, baseHi := BitVec.ofNat 32 base.2
      size := k.size, channels := k.count, pushRate := k.pushRate, popRate := k.popRate, role := k.role
      hwChannel := k.hwChannel, hwCount := k.hwCount, hwTile := k.hwTile, image := h
      segments := if k.role = 3 then segs else [] }
  { cfg := cfg, timeout := BitVec.ofNat 16 k.timeout, activeTimeout := k.timeout, credit := cfg.initialCredit, free := k.size }

/-- The producer's side of a cross-device skip (R357, Table 14.1). -/
def State.egressFor (s : State) (h i : Nat) (x : Image) (m : MeshRec) : State :=
  match x.routes[m.route]? with
  | some r =>
    let last := ((pathLinks r.hops r.src r.path).map (·.2)).getD r.src
    let th := match x.tiles.find? (fun q => q.tile == r.src) with
      | some q => portRate (x.walk q (nibble q.ports r.entry % 4)).1 r.entry
      | none => 0
    let cfg : SkipCfg :=
      { valid := true, net := BitVec.ofNat 2 r.kind, zrc := bitAt m.peerCfg 3, pushWidth := BitVec.ofNat 3 m.peerCfg
        claim := x.claim, consumer := last, size := m.peerSize, channels := 1, pushRate := th, producer := some (r.src, r.entry)
        routeLatency := s.routeLat r, image := h, peer := some m.peerDevice }
    s.modSkip (egressSkip h i) (fun _ => { cfg := cfg, credit := cfg.initialCredit, free := m.peerSize })
  | none => s

def State.loadSkips (s : State) (h : Nat) (x : Image) : State :=
  let s1 := x.skips.foldl (fun s k => s.modSkip k.id (fun y =>
    { (s.skipFor h x k) with
      underrun := y.underrun, timeoutBit := y.timeoutBit, creditViol := y.creditViol, widthMismatch := y.widthMismatch
      ratePushErr := y.ratePushErr, ratePopErr := y.ratePopErr })) s
  x.mesh.foldl (fun s m => if m.direction = 0 then s.egressFor h m.route x m else s) s1

/-! ## Step 5: memory -/

/-- Blob data with the addresses that relocation records ask for (R240). -/
def patchedData (x : Image) : List Byte :=
  x.relocs.foldl (fun bs l =>
    let a := ((x.regions[l.region]?).map RegionRec.cva).getD 0 + l.addend
    let v := if l.kind = 1 then a % 2 ^ 64 else fieldLE bs (l.site + 6) 2 * 2 ^ 48 + a % 2 ^ 48
    bs.take l.site ++ natLE 8 v ++ bs.drop (l.site + 8)) x.blobData

def blobBytes (data : List Byte) (b : BlobRec) : List Byte := (data.drop b.data).take b.length

/-- Owned tile memory becomes unwritten (R302). -/
def State.markOwned (s : State) (x : Image) : State :=
  x.owns.foldl (fun s o => s.markRange (tileAddr (s.physical o.tile) o.offset) o.length) s

/-- The image's half of a configuration store range holds what the headframe keeps there (R241, R243): how is
not stated. -/
def State.writeStore (s : State) (x : Image) : State :=
  (x.owns.filter (fun o => o.use == 5)).foldl (fun s o =>
    s.scramble (tileAddr (s.physical o.tile) (if bitAt x.flags 4 then o.offset + o.length / 2 else o.offset)) (o.length / 2)) s

def State.writeBlob (s : State) (x : Image) (data : List Byte) (b : BlobRec) : State :=
  let bs := blobBytes data b
  let t := s.physical b.dest
  if b.target = 1 then s.writeBytes (tileAddr t b.offset) bs
  else if b.target = 2 then s.writeBytes (tileAddr t ((s.tile t).windowPlace t b.offset)) bs
  else match x.regions[b.dest]? with
    | some g => s.putCva x.claim (g.cva + b.offset) bs
    | none => s

/-- Address of word 0 of a tile's shadow program bank (R94). -/
def State.shadowBank (s : State) (t : Nat) : Nat := tileAddr t (if (s.tile t).activeBank then 0xF0000 else 0xF4000)

/-- Shadow copies of a tile begin to be written (R55). -/
def State.loadShadow (s : State) (h : Nat) (x : Image) (r : TileRec) : State :=
  let t := s.physical r.tile
  (s.writeBytes (s.shadowBank t) ((x.words r).flatMap (natLE 8))).modTile t (fun y => { y with
    shadowValid := false, shadowLoading := true, shadowImage := h, claim := x.claim, enabled := true
    image := if y.image = 0 then h else y.image })

/-! ## Step 5: the riddle (R284, R285) -/

def riddleMemory (f : RiddleFrame) : RMemory :=
  { width := fieldLE f.payload 0 1, readTree := fieldLE f.payload 1 1, writeTree := fieldLE f.payload 2 1, data := f.payload.drop 16 }

/-- Macrocells whose register starts at 1 (R275). -/
def RBlock.inits (b : RBlock) : List Nat := (List.range 1024).filter (fun i => (b.cell i).init)

/-- Write a BLOCK frame. A memory with no MEMORY frame starts as 4 KiB of zeros with 8-bit words on tree 0: the
spec gives it nothing (DESIGN CHOICE, log 107). -/
def State.loadBlock (s : State) (h : Nat) (x : Image) (b : RiddleBits) (q : Nat) : State :=
  let c := b.block q
  let mems := (List.range 4).map (fun m =>
    ((b.frames.find? (fun f => f.type == 2 && f.target == 4 * q + m)).map riddleMemory).getD { data := List.replicate 4096 0 })
  (s.modBlock q (fun y => { config := c.config, q := c.inits, loaded := true, portTree := c.cfgByte 102400, claim := x.claim
                            image := h, latencyNs := b.latencyNs, memories := mems, fifoOverflow := y.fifoOverflow
                            parity := y.parity, mapInvalid := y.mapInvalid, late := y.late
                            configRepaired := y.configRepaired })).modQuad q (fun y => { y with bypass := false })

/-- AD_ATILE registers from their two words (Table 10.13). -/
def atileOf (old : ATile) (v g : Nat) : ATile :=
  { old with mode := BitVec.ofNat 2 (v / 2 ^ 30), s2dF := BitVec.ofNat 2 (v / 2 ^ 28), valueType := bitAt v 27, dtype := bitAt v 26
             conflict := BitVec.ofNat 2 (v / 2 ^ 24), c := BitVec.ofNat 10 v, h := BitVec.ofNat 16 (g / 65536), w := BitVec.ofNat 16 g }

def State.loadFrame (s : State) (h : Nat) (x : Image) (f : RiddleFrame) : State :=
  match f.type with
  | 3 =>
    let y : RTree := { enabled := true, src := BitVec.ofNat 2 (fieldLE f.payload 0 1), sel := BitVec.ofNat 4 (fieldLE f.payload 1 1)
                       claim := x.claim, div := BitVec.ofNat 8 (fieldLE f.payload 2 2 - 1) }
    s.modRiddle (fun r => { r with trees := put r.trees f.target y })
  | 5 =>
    let y : Lvds := { enable := true, term := bitAt (fieldLE f.payload 3 1) 0, ddr := bitAt (fieldLE f.payload 1 1) 0
                      out := bitAt (fieldLE f.payload 0 1) 0, delay := BitVec.ofNat 7 (fieldLE f.payload 2 1) }
    (s.modRiddle (fun r => { r with pairHeld := put r.pairHeld f.target h })).modAdit (fun a => { a with
      lvds := put a.lvds (24 + f.target) y })
  | 6 => s.modAtile f.target (fun a => atileOf a (fieldLE f.payload 0 4) (fieldLE f.payload 4 4))
  | _ => s

def State.loadRiddle (s : State) (h : Nat) (x : Image) : State :=
  match x.riddle with
  | none => s
  | some b =>
    let s1 := b.quads.foldl (fun s q => s.loadBlock h x b q) s
    let s2 := b.frames.foldl (fun s f => s.loadFrame h x f) s1
    s2.modRiddle (fun r => { r with globals := b.lines.foldl (fun (t : Tab (Nat × Nat × Bool)) l =>
      put t l.1 (l.2.1 / 1024, l.2.1 % 1024, l.2.2)) r.globals })

/-! ## LOAD (R241, R242) -/

/-- Rows in which a loaded image owns a tile. -/
def State.rowsOwned (s : State) : List Nat :=
  (List.range 24).filter (fun r => s.images.any (fun i => i.2.tiles.any (fun t => s.physical t.tile / 32 == r)))

/-- The memory of a row's M-, S- and F-tiles holds zeros. -/
def State.zeroRow (s : State) (r : Nat) : State :=
  let a := tileAddr (32 * r + 1) 0
  { s with mem := memClear s.mem a (30 * 0x100000), unwritten := rangeDel s.unwritten (a / 8) (a / 8 + 30 * 0x20000) }

/-- Row domains follow the images (R397): a row that powers on is filled with zeros, and one that powers off
loses its memory. -/
def State.repower (s : State) : State :=
  let rows := s.rowsOwned
  upTo 24 (fun s r =>
    if rows.contains r && !(s.row r).powered then (s.zeroRow r).modRow r (fun x => { x with powered := true, powering := true })
    else if !rows.contains r && (s.row r).powered then (s.zeroRow r).modRow r (fun x => { x with powered := false, powering := false })
    else s) s

/-- Lowest handle that no image holds. -/
def State.freeHandle (s : State) : Option Nat := ((List.range 65535).map (· + 1)).find? (fun h => (look s.images h).isNone)

/-- Steps 4 and 5 of R241. -/
def State.installImage (s : State) (h : Nat) (x : Image) : State :=
  let data := patchedData x
  let new := x.predecessor.isNone
  let kept := (x.blobs.filter (fun b => decide (b.target ≤ 2))).flatMap (fun b =>
    (blobBytes data b).zipIdx.map (fun p => (b.dest, b.offset + p.2, p.1)))
  let s1 := State.repower { s with images := put s.images h { x with copy := kept } }
  let s2 := if new then s1.markOwned x else s1
  let s3 := if new then s2.loadSkips h x else x.mesh.foldl (fun s m => if m.direction = 0 then s.egressFor h m.route x m else s) s2
  let s4 := x.blobs.foldl (fun s b => s.writeBlob x data b) (s3.writeStore x)
  let s5 := x.tiles.foldl (fun s r => s.loadShadow h x r) s4
  ((s5.loadRiddle h x).repin x.claim).reshare

def State.failLoad (s : State) (seq : Nat) (f : LoadFail) : State := s.finish seq false f.code (loadResult 0 f.index f.sect)

def loadDo (c : Cmd) (s : State) : State :=
  let cva := c.arg 16 8
  let count := c.arg 32 2
  let region : LoadFail := { code := LoadCode.region }
  match (if cva + 128 ≤ cvaTop then s.readCva c.claim cva 128 else none) with
  | none => s.failLoad c.seq region
  | some head =>
    let size := fieldLE head 16 8
    match (if cva + size ≤ cvaTop then s.readCva c.claim cva size else none) with
    | none => s.failLoad c.seq region
    | some bs =>
      let s0 := s.noteCvaRead c.claim cva size
      let s1 := if c.arg 24 8 + 8 * count ≤ cvaTop then s0.noteCvaRead c.claim (c.arg 24 8) (8 * count) else s0
      let table := if count = 0 then some [] else if c.arg 24 8 + 8 * count ≤ cvaTop then s.readCva c.claim (c.arg 24 8) (8 * count) else none
      match s1.freeHandle with
      | none => s1.finish c.seq false Reason.noResource noRecord
      | some h =>
        match s1.loadChecks c.claim h bs count table with
        | some f => s1.failLoad c.seq f
        | none =>
          let x := parseImage bs c.claim
          let regions := x.regions.zipIdx.map (fun p => { p.1 with cva := fieldLE (table.getD []) (8 * p.2) 8 })
          (s1.installImage h { x with regions := regions, predecessor := s1.predecessorOf x, loadSeq := c.seq }).running c.seq

/-- Steps 1 to 4 run for one LOAD at a time, in journal sequence order: an earlier LOAD that may start goes
first (R242). -/
def execLoad (seq : Nat) (s : State) : Result :=
  if s.host.cmds.any (fun d => d.opcode == 0x0020 && decide (d.seq < seq) && s.cmdReady d.seq 0x0020) then .fault .notDue
  else s.hostCmd seq 0x0020 loadDo

/-! ## SHADOW_LOAD_COMPLETE and LOAD_COMPLETE (R55, R241) -/

def shadowLoadCompleteOk (t : Nat) (s : State) : Bool :=
  decide (t < 768) && (s.tile t).shadowLoading && !(s.tile t).spareLoading && !(s.row (t / 32)).powering

def shadowLoadCompleteDo (t : Nat) (s : State) : State :=
  s.modTile t (fun x => { x with shadowLoading := false, shadowValid := true })

def execShadowLoadComplete (t : Nat) (s : State) : Result := whenDue (shadowLoadCompleteOk t s) (shadowLoadCompleteDo t s)

/-- The image that a LOAD in progress writes. -/
def State.loadingImage (s : State) (seq : Nat) : Option Nat := (s.images.find? (fun p => p.2.loadSeq == seq && !p.2.loaded)).map (·.1)

def loadCompleteOk (seq : Nat) (s : State) : Bool :=
  match s.cmd? seq, s.loadingImage seq with
  | some c, some h => c.opcode == 0x0020 && c.state == .running && (s.image h).tiles.all (fun r =>
      let x := s.tile (s.physical r.tile)
      x.shadowImage == h && x.shadowValid)
  | _, _ => false

/-- An image that succeeds no other starts on its tiles at once: its threads take the values of Table 2.5. -/
def loadCompleteDo (seq : Nat) (s : State) : State :=
  match s.loadingImage seq with
  | none => s
  | some h =>
    let s1 := s.modImage h (fun x => { x with loaded := true })
    let s2 := if (s.image h).predecessor.isNone then s1.startImage h else s1
    s2.complete seq (loadResult h 0xFFFFFFFF 0)

def execLoadComplete (seq : Nat) (s : State) : Result := whenDue (loadCompleteOk seq s) (loadCompleteDo seq s)

/-! ## UNLOAD (R302, R327, R285) -/

/-- A tile that no image owns: what stays is what the position itself has. -/
def Tile.clear (x : Tile) : Tile :=
  { x with
    enabled := false, claim := 0, group := 0, fold := false, threadsUsed := 0, image := 0, stage := 0xFF, shadowValid := false
    halfA := .free, halfB := .free, fillA := 0, fillB := 0, threads := [], counters := [], ports := [], bells := [], inbox := []
    bellFly := [], macs := [], rowScale := [], fns := [], moves := [], scratch := [], locks := [], lockReqs := [], tickIn := []
    tickDue := [], shiftFc := none, nextSlot := 0, missMark := false, mustMiss := false, missCause := none, restartAt := none
    restart := [], retryOf := none, shadowLoading := false, shadowImage := 0, graceTicks := 0, degraded := false
    spareLoading := false, spareLoaded := false, degradedMark := false, fillTotalA := 0, fillTotalB := 0 }

def State.clearTile (s : State) (t : Nat) : State :=
  let n := kindOf t
  let s1 := if n = 3 then (s.markRange (tileAddr t 0) 0x28000).markRange (tileAddr t 0x30000) 0x8000
    else s.markRange (tileAddr t 0) (tileBytes n)
  s1.modTile t Tile.clear

/-- A skip that no image allocates keeps its status bits (Table 7.13). -/
def Skip.clear (k : Skip) : Skip :=
  { underrun := k.underrun, timeoutBit := k.timeoutBit, creditViol := k.creditViol, widthMismatch := k.widthMismatch
    ratePushErr := k.ratePushErr, ratePopErr := k.ratePopErr }

/-- Handle and bitstream of a loaded image whose bitstream meets a test: what another image also holds stays with
it when one of them is unloaded. -/
def State.riddleHolder (s : State) (f : RiddleBits → Bool) : Option Nat :=
  (s.images.find? (fun p => (p.2.riddle.map f).getD false)).map (·.1)

/-- Take a bitstream that image h held out of the riddle, but for what another loaded image (a successor, R243)
also holds (R285). -/
def State.clearRiddle (s : State) (h : Nat) (x : Image) : State :=
  match x.riddle with
  | none => s
  | some b =>
    let free (f : RiddleBits → Bool) : Bool := (s.riddleHolder f).isNone
    let s1 := b.quads.foldl (fun s q => match s.riddleHolder (fun a => bitAt a.blockMask q) with
      | some g => s.modBlock q (fun y => if y.image = h then { y with image := g } else y)
      | none => (s.modBlock q (fun y => {
          fifoOverflow := y.fifoOverflow, parity := y.parity, mapInvalid := y.mapInvalid, late := y.late
          configRepaired := y.configRepaired })).modQuad q (fun y => { y with bypass := true })) s
    let s1 := s1.modAdit (fun a => { a with arriving := a.arriving.filter (fun f => !(f.open_ && (b.quads.contains (f.lane / 4)) && !(s1.block (f.lane / 4)).loaded)) })
    let gone := (List.range 8).filter (fun i => bitAt b.pairMask i && free (fun a => bitAt a.pairMask i))
    let s2 := s1.modRiddle (fun r => { r with
      trees := r.trees.filter (fun t => !(bitAt b.treeMask t.1 && free (fun a => bitAt a.treeMask t.1)))
      globals := r.globals.filter (fun g => !(b.lines.any (fun l => l.1 == g.1) && free (fun a => a.lines.any (fun l => l.1 == g.1))))
      pairHeld := r.pairHeld.filter (fun p => !gone.contains p.1), pairOut := r.pairOut.filter (fun p => !gone.contains p.1)
      pairIn := r.pairIn.filter (fun i => !gone.contains (i % 8)) })
    let s3 := gone.foldl (fun s i => s.modAdit (fun a => { a with lvds := put a.lvds (24 + i) { s.lvds (24 + i) with out := false } })) s2
    (b.atiles.filter (fun t => free (fun a => a.atiles.contains t))).foldl (fun s a => s.modAtile a (fun y => atileOf y 0 0)) s3

/-- Remove an image. Tiles and skips that another loaded image also holds stay with it; if they ran this image,
that one starts on them (log 58). The row-scale registers then keep the predecessor's values: R83 gives +0 after a
load only, and such a start is none (DESIGN CHOICE, log 101). -/
def State.unloadImage (s : State) (h : Nat) : State :=
  let x := s.image h
  let s1 := { s with images := del s.images h }
  let shared := s1.images.find? (fun p => p.2.tiles.any (fun r => x.ownsTile r.tile))
  let s2 := match shared with
    | none =>
      let cleared := x.tiles.foldl (fun (s : State) (r : TileRec) => s.clearTile (s.physical r.tile)) s1
      x.skips.foldl (fun (s : State) (k : SkipRec) => s.modSkip k.id Skip.clear) cleared
    | some (g, y) =>
      if x.tiles.any (fun r => (s.tile (s.physical r.tile)).image == h) ∧ y.loaded then
        (s1.startImage g).modImage g (fun z => { z with predecessor := none })
      else x.tiles.foldl (fun (s : State) (r : TileRec) => s.modTile (s.physical r.tile) (fun z =>
        if z.shadowImage = h then { z with shadowValid := false, shadowLoading := false, shadowImage := 0 } else z)) s1
  let s3 := { s2 with skips := s2.skips.filter (fun p => !(decide (65536 ≤ p.1) && p.2.cfg.image == h)) }
  ((s3.clearRiddle h x).repin x.claim).reshare.repower

/-- The handle names a loaded image of the claim. -/
def State.hasImage (s : State) (claim h : Nat) : Bool :=
  match look s.images h with
  | some x => x.claim == claim && x.loaded
  | none => false

def unloadDo (c : Cmd) (s : State) : State :=
  let h := c.arg 16 2
  if !s.hasImage c.claim h then s.fail c.seq Reason.badHandle
  else if (s.image h).bound.isSome then s.fail c.seq Reason.busy
  else (s.unloadImage h).complete c.seq 0

/-- UNLOAD runs once no earlier command on its handle runs (R329). -/
def execUnload (seq : Nat) (s : State) : Result :=
  match s.cmd? seq with
  | some c =>
    if s.host.cmds.any (fun d => d.seq != seq && d.claim == c.claim && d.state == .running && d.handles.contains (c.arg 16 2)
        && decide (0x0025 < d.opcode)) then .fault .notDue
    else s.hostCmd seq 0x0021 unloadDo
  | none => .fault .notDue

end Sys2Proof.Machine
end

