-- ==== Sys2Proof/Machine/Bind.lean ====
section
/-! DEFINITION. BIND, START, STOP and SWAP (R17, R31, R32, R256, R266, R268, R330, R360). -/

namespace Sys2Proof.Machine

/-- TOLERANCE as R17 counts it: 0 for the internal generator. -/
def TickDomain.bindTolerance (x : TickDomain) : Nat := if x.source = 0 then 0 else x.tolerance.toNat

def TickDomain.shiftLength (x : TickDomain) : Nat := x.period.toNat - x.bindTolerance

/-- Words per shift on line i of n for c channels (R266). -/
def lineWords (c n i : Nat) : Nat := ceilDiv (c - i) n

/-- The lines are free, and none repeats another (R266). -/
def State.linesFree (s : State) (base n : Nat) : Bool :=
  (List.range n).all (fun i => !(s.decLine (base + i)).bound && !(decide (8 ≤ base + i) && (s.decLine (base + i - 8)).duplicate))

/-- A quad that BYPASS_QUADS names can be bound (R256). -/
def State.quadBindable (s : State) (channels q : Nat) : Bool :=
  let x := s.quad q
  x.enable && x.bypass && !x.bypassBound && !(s.block q).loaded && decide (x.chCount.toNat + 1 ≤ channels)

/-- Flits per shift that bound images send on a port (R360). -/
def State.portFlits (s : State) (x : Image) (p : Nat) : Nat :=
  let xs := x :: (s.images.filter (fun i => i.2.bound.isSome)).map (·.2)
  ((xs.flatMap (fun i => i.mesh.filter (fun m => m.direction == 0 && s.emeel.portTo m.peerDevice == some p))).map
    MeshRec.flits).foldl (· + ·) 0

/-- The part of R360 that this device can see; what the peers answer is free. -/
def State.meshBindable (s : State) (x : Image) : Bool :=
  x.mesh.isEmpty || (decide (s.drawn % 2 = 1) && (List.range 4).all (fun p => decide (s.portFlits x p ≤ x.shiftFc * 7 / 16)))

/-- Result byte of a refused BIND, in ascending order of the codes of Table 13.6. -/
def State.bindRefusal (s : State) (x : Image) (d id base n quads : Nat) : Option Nat :=
  let t := s.dom d
  if !t.enable then some 1
  else if 64 ≤ s.pipes.length then some 2
  else if t.shiftLength < x.shiftFc then some 3
  else if (s.pipe? (32 * d + id)).isSome then some 4
  else if !s.linesFree base n then some 5
  else if (List.range n).any (fun i => decide (10 * t.shiftLength < lineWords x.channels n i * wordTenths (s.decLine (base + i)).rate))
    then some 6
  else if !x.realtime ∧ 0 < n then some 7
  else if !s.meshBindable x then some 8
  else if (List.range 16).any (fun q => bitAt quads q && !s.quadBindable x.channels q) then some 9
  else none

/-- Sump skip of the image for decision words of a best-effort pipeline: the lowest with HW_ROLE 0 that no port
feeds. R31 says only that the words go to a sump skip, and no record names one: DESIGN CHOICE, log 116. -/
def State.sumpDecision (s : State) (x : Image) : Option Nat :=
  ((x.skips.filter (fun k => k.sump && k.role == 0 && !x.routes.any (fun r => decide (r.kind ≤ 1) && r.dest == k.id))).map SkipRec.id).head?
    |>.filter (fun k => (s.skip k).cfg.valid)

/-- Lines and pairs of a bound pipeline (Table 10.11, Table 10.12). -/
def State.bindLines (s : State) (d id base n channels : Nat) : State :=
  (List.range n).foldl (fun s i =>
    let l := base + i
    let v : Lvds := { s.lvds (8 + l) with enable := true }
    (s.modLine l (fun y => { y with
      bound := true, domain := BitVec.ofNat 3 d, pipeline := BitVec.ofNat 5 id, words := lineWords channels n i
      firstChannel := i })).modAdit (fun a => { a with lvds := put a.lvds (8 + l) v })) s

/-- Quads whose frames the pipeline takes: through the bypass as BYPASS_QUADS says, or through the image's riddle
blocks. Their previous sequences have no value from now on (R255, R256). -/
def State.bindQuads (s : State) (x : Image) (d id quads : Nat) : State :=
  (List.range 16).foldl (fun s q =>
    if bitAt quads q then (s.modQuad q (fun x => { x with
      bypassBound := true, domain := BitVec.ofNat 3 d, pipeline := BitVec.ofNat 5 id })).forgetSeq q
    else if (x.riddle.map (fun b => bitAt b.blockMask q)).getD false then s.forgetSeq q
    else s) s

/-- Bind an image. -/
def State.bindPipe (s : State) (h d id base n hoist quads : Nat) : State :=
  let x := s.image h
  let p := 32 * d + id
  let standing := if x.realtime then ((Config.standing h).take 8).zipIdx.map (fun c => (c.2, c.1.1, c.1.2)) else []
  let pipe : Pipe := { image := h, claim := x.claim, lineBase := base, lineCount := n, hoist := hoist, quads := quads
                       standing := standing, sumpSkip := if x.realtime then none else s.sumpDecision x }
  let s1 := ({ s with pipes := put s.pipes p pipe }).modImage h (fun y => { y with bound := some p, started := false })
  let s2 := x.skips.foldl (fun s k => s.modSkip k.id (fun y => { y with cfg := { y.cfg with pipeline := id, domain := d } })) s1
  (s2.bindLines d id base n x.channels).bindQuads x d id quads

/-- BIND (R17, R31, R256, R266, R268, R360). -/
def bindDo (c : Cmd) (s : State) : State :=
  let h := c.arg 16 2
  if !s.hasImage c.claim h then s.fail c.seq Reason.badHandle
  else if (s.image h).bound.isSome then s.fail c.seq Reason.busy
  else
    let x := s.image h
    let s1 := if x.mesh.isEmpty then s else s.draw
    match s.bindRefusal x (c.arg 18 1) (c.arg 19 1) (c.arg 20 1) (c.arg 21 1) (c.arg 24 2) with
    | some code => s1.finish c.seq false Reason.bindRejected (BitVec.ofNat 128 code)
    | none => (s1.bindPipe h (c.arg 18 1) (c.arg 19 1) (c.arg 20 1) (c.arg 21 1) (c.arg 22 1) (c.arg 24 2)).complete c.seq 0

def execBind (seq : Nat) (s : State) : Result := s.hostCmd seq 0x0022 bindDo

/-- The shift that the next tick of the domain starts. -/
def TickDomain.nextShift (x : TickDomain) : Nat := if x.running then x.count.toNat + 1 else x.count.toNat

/-- A bound shift of a command: 0 means the first tick after execution starts (R327). -/
def TickDomain.boundShift (x : TickDomain) (n : Nat) : Nat := if n = 0 then x.nextShift else n

/-- The tick that starts shift n has come (R330). -/
def TickDomain.past (x : TickDomain) (n : Nat) : Bool := x.running && decide (n ≤ x.count.toNat)

/-- A handle of a bound pipeline: its key, or the reason a command on it fails. -/
def State.boundPipe (s : State) (claim h : Nat) : Option Nat := if s.hasImage claim h then (s.image h).bound else none

/-- START (R32, R330). -/
def startDo (c : Cmd) (s : State) : State :=
  let h := c.arg 16 2
  match s.boundPipe c.claim h with
  | none => s.fail c.seq Reason.badHandle
  | some p =>
    let n := (s.dom (p / 32)).boundShift (c.arg 24 8)
    let busy : Bool := match s.pipe? p with
      | some x => x.start.isSome || x.ending
      | none => true
    if busy then s.fail c.seq Reason.busy
    else if (s.dom (p / 32)).past n then s.fail c.seq Reason.tooLate
    else ((s.modPipe p (fun x => { x with start := some (n, c.seq) })).modImage h (fun x => { x with started := true })).running c.seq

def execStart (seq : Nat) (s : State) : Result := s.hostCmd seq 0x0023 startDo

/-- STOP (R32, R330, Table 13.9). -/
def stopDo (c : Cmd) (s : State) : State :=
  match s.boundPipe c.claim (c.arg 16 2) with
  | none => s.fail c.seq Reason.badHandle
  | some p =>
    let n := (s.dom (p / 32)).boundShift (c.arg 24 8)
    let busy : Bool := match s.pipe? p with
      | some x => x.stop.isSome || x.ending || (x.swap.any (fun w => w.1 == n))
      | none => true
    if busy then s.fail c.seq Reason.busy
    else if (s.dom (p / 32)).past n then s.fail c.seq Reason.tooLate
    else (s.modPipe p (fun x => { x with stop := some (n, c.seq) })).running c.seq

def execStop (seq : Nat) (s : State) : Result := s.hostCmd seq 0x0024 stopDo

/-- SWAP (R32, R57, R58, R243, R330, Table 13.9). -/
def swapDo (c : Cmd) (s : State) : State :=
  let h := c.arg 16 2
  let g := c.arg 18 2
  match s.boundPipe c.claim h with
  | none => s.fail c.seq Reason.badHandle
  | some p =>
    let n := (s.dom (p / 32)).boundShift (c.arg 24 8)
    let busy : Bool := match s.pipe? p with
      | some x => x.swap.isSome || x.ending || (x.stop.any (fun w => w.1 == n))
      | none => true
    if !s.hasImage c.claim g then s.fail c.seq Reason.badHandle
    else if !successorOk (s.image h) (s.image g) then s.fail c.seq Reason.notSwapCompatible
    else if busy then s.fail c.seq Reason.busy
    else if (s.dom (p / 32)).past n then s.fail c.seq Reason.tooLate
    else (s.modPipe p (fun x => { x with swap := some (n, c.seq, g) })).running c.seq

def execSwap (seq : Nat) (s : State) : Result := s.hostCmd seq 0x0025 swapDo

end Sys2Proof.Machine
end

