-- ==== Sys2Proof/Machine/Flow.lean ====
section
/-! DEFINITION. NOP, HALT, BRK, loops, ticks, slots and bells (chapter 6). -/

namespace Sys2Proof.Machine

/-- NOP (R173); a word of no listed opcode issues here and is illegal (R50, R102). -/
def execNop (t th : Nat) (s : State) : Result := s.instr t th 0x00 (fun _ s => s)

/-- HALT (R175). -/
def execHalt (t th : Nat) (s : State) : Result :=
  s.instr t th 0x01 (fun _ s => s.modThread t th (fun x => { x with mode := .halted }))

/-- Bit t mod 32 of DB_BRK_EN_w, by logical tile (R420). -/
def State.breakEnabled (s : State) (t : Nat) : Bool :=
  let l := (s.tile t).logical
  (lookD s.dbg.brkEn (l / 32) 0).getLsbD (l % 32)

/-- Halt a thread for a breakpoint: at once, or after its lock is freed (R418, R420). -/
def State.breakHalt (s : State) (t th data : Nat) : State :=
  let fc := s.rowFc t
  let s1 := s.modThread t th (fun x =>
    if x.lock.isSome then { x with haltAsked := some (fc + 4096) }
    else { x with mode := .debug, tickPassed := false })
  s1.raise Ev.breakpoint { s1.tileEv t with data := data }

/-- BRK (R174, R420). -/
def execBrk (t th : Nat) (s : State) : Result :=
  s.instr t th 0x02 (fun w s => if s.breakEnabled t then s.breakHalt t th (bits w 15 0) else s)

/-- LOOP opens the body from the next word to END (R110, R165). -/
def execLoop (t th : Nat) (s : State) : Result :=
  s.instr t th 0x08 (fun w s => s.modRegs t th (fun r =>
    { r with loops := { ctr := lCtr w, first := r.pc, last := lEnd w, trip := lTrip w } :: r.loops }))

/-- Current pass of a counter (R166). -/
def Regs.passOf (r : Regs) (c : Nat) : Nat :=
  match r.loops.find? (fun f => f.ctr == c) with
  | some f => f.pass
  | none => 0

/-- LIDX: g[RD] := g[RA] + i × STRIDE, written 1 fc after issue (R166). The pass is that of the word
itself, before the body returns. -/
def execLidx (t th : Nat) (s : State) : Result :=
  let i := (s.thread t th).regs.passOf (lCtr (s.pcWord t th))
  s.instr t th 0x09 (fun w s =>
    s.setG t th (lRd w) 1 (BitVec.ofInt 32 ((s.g t th (lRa w)).toNat + (i : Int) * lStride w)))

/-- WAITTICK (R167). -/
def execWaittick (t th : Nat) (s : State) : Result :=
  s.instr t th 0x10 (fun _ s => s.beginWait t th .tick)

/-- SLOT (R170): a mark already passed returns at once and counts as slot-late. -/
def execSlot (t th : Nat) (s : State) : Result :=
  s.instr t th 0x11 (fun w s =>
    let x := s.tile t
    if yNext w then s.beginWait t th .nextMark
    else if x.shiftFc.isSome ∧ yValue w < x.nextSlot then s.countTile t 11 1
    else s.beginWait t th (.slot (yValue w)))

/-! ## Bells (R171, R172) -/

/-- Tokens in an inbox and on their way to it. -/
def Tile.inboxLoad (x : Tile) (route : Nat) : Nat :=
  (lookD x.inbox route []).length + (x.bellFly.filter (fun b => b.1 == route)).length

/-- A destination inbox of a send route is full: 4 tokens (R171). -/
def State.bellFull (s : State) (t route : Nat) : Bool :=
  match look (s.tile t).bells route with
  | some b => b.dests.any (fun d => decide (4 ≤ (s.tile (s.physical d.1)).inboxLoad d.2.1))
  | none => false

/-- Send a token to every destination of a route. -/
def State.bellSend (s : State) (t route : Nat) (v : Byte) : State :=
  match look (s.tile t).bells route with
  | some b => b.dests.foldl (fun s d =>
      let p := s.physical d.1
      let due := s.rowFc p + d.2.2
      s.modTile p (fun x => { x with bellFly := x.bellFly ++ [(d.2.1, v, due)] })) s
  | none => s

/-- BELL (R171). A thread that waits sends in the fc after room has come. -/
def execBell (t th : Nat) (s : State) : Result :=
  s.instr t th 0x12 (fun w s =>
    if s.bellFull t (yRoute w) then s.beginWait t th (.bellSend (yRoute w) (yValue w))
    else s.bellSend t (yRoute w) (BitVec.ofNat 8 (yValue w)))

/-- Threads that wait to send, in tile and thread order, send in the fc that now begins when room has come (R171, R429). -/
def State.retryBells (s : State) (stepped : Nat → Bool) : State :=
  s.tiles.foldl (fun s p => if !stepped (p.1 / 32) then s else upTo 4 (fun s th =>
    match (s.thread p.1 th).wait with
    | .bellSend route v =>
      if s.bellFull p.1 route then s else (s.bellSend p.1 route (BitVec.ofNat 8 v)).wakeThread p.1 th
    | _ => s) s) s

/-- A WAITBELL meets the tokens of its inbox: it takes the oldest; with ANY = 0 it discards those that
differ, each an error (R172). -/
def State.takeBell (s : State) (t th route : Nat) (any : Bool) (value rd : Nat) : Nat → State
  | 0 => s.beginWait t th (.bell route any value rd)
  | n + 1 =>
    match lookD (s.tile t).inbox route [] with
    | [] => s.beginWait t th (.bell route any value rd)
    | b :: bs =>
      let s1 := s.modTile t (fun x => { x with inbox := put x.inbox route bs })
      if any then (s1.setG t th rd 1 (BitVec.ofNat 32 b.toNat)).wakeThread t th
      else if b.toNat = value then s1.wakeThread t th
      else (((s1.raise Ev.bellMismatch (s1.tileEv t)).mustMiss t).takeBell t th route any value rd n)

/-- WAITBELL (R172): with a token present the thread is ready in the next fc. -/
def execWaitbell (t th : Nat) (s : State) : Result :=
  s.instr t th 0x13 (fun w s =>
    let fc := s.rowFc t
    (s.takeBell t th (yRoute w) (yAny w) (yValue w) (yRd w) 4).modThread t th
      (fun x => if x.wait == .none then { x with readyAt := fc + 1 } else x))

/-- BELL_TOKEN_ARRIVAL (R171): the oldest token on its way on the route reaches the inbox, and a waiting
WAITBELL takes it. -/
def bellTokenArrivalDo (t route : Nat) (s : State) : State :=
  match findAt (fun b : Nat × Byte × Nat => b.1 == route) (s.tile t).bellFly with
  | none => s
  | some (i, b) =>
    let s1 := s.modTile t (fun x => { x with
      bellFly := dropAt x.bellFly i, inbox := put x.inbox route (lookD x.inbox route [] ++ [b.2.1]) })
    upTo 4 (fun s th =>
      match (s.thread t th).wait with
      | .bell r any value rd => if r = route then s.takeBell t th r any value rd 4 else s
      | _ => s) s1

def bellTokenArrivalOk (t route : Nat) (s : State) : Bool :=
  match findAt (fun b : Nat × Byte × Nat => b.1 == route) (s.tile t).bellFly with
  | some (_, b) => decide (b.2.2 ≤ s.rowFc t)
  | none => false

def execBellTokenArrival (t route : Nat) (s : State) : Result :=
  whenDue (bellTokenArrivalOk t route s) (bellTokenArrivalDo t route s)

/-! ## Marks (R18, R167, R169, R170) -/

/-- A slot boundary of a tile: what has been decided to retire there takes effect next (R376). -/
def State.boundary (s : State) (t : Nat) : State :=
  s.modFaults (fun f => { f with retires := f.retires.map (fun r =>
    if r.tile == some t && !r.ready then { r with ready := true, doneAt := s.now + r.report.effectFc } else r) })

/-- A mark ends the miss marking of the tile (R191) and the waits it answers; a returning WAITTICK takes
a checkpoint (R372). -/
def State.markArrives (s : State) (t n : Nat) (isTick : Bool) : State :=
  let fc := s.rowFc t
  let s1 := ((s.unmarkMiss t).modTile t (fun x => { x with
    missMark := false, degradedMark := false, restartAt := if x.spareLoaded then some fc else x.restartAt })).boundary t
  upTo 4 (fun s th =>
    match (s.thread t th).wait with
    | .tick => if isTick then ((s.modThread t th (fun x => { x with late := false })).wakeThread t th).takeCheckpoint t th else s
    | .eccWord => if isTick then s.wakeThread t th else s
    | .slot v => if v = n then s.wakeThread t th else s
    | .nextMark => s.wakeThread t th
    | _ => s) s1

/-- TICK_MARK_ARRIVAL (R18): the tick reaches the tile; it is also the mark of slot 0. -/
def tickMarkArrivalDo (t : Nat) (s : State) : State :=
  let fc := s.rowFc t
  (s.modTile t (fun x => { x with tickDue := x.tickDue.tail, shiftFc := some fc, nextSlot := 1 })).markArrives t 0 true

def tickMarkArrivalOk (t : Nat) (s : State) : Bool :=
  match (s.tile t).tickDue with
  | d :: _ => decide (d ≤ s.rowFc t)
  | [] => false

def execTickMarkArrival (t : Nat) (s : State) : Result :=
  whenDue (tickMarkArrivalOk t s) (tickMarkArrivalDo t s)

/-- SLOT_MARK_ARRIVAL (R169): mark n arrives n × slot_fc row fc after the tick; the last is the reserve mark. -/
def slotMarkArrivalDo (t : Nat) (s : State) : State :=
  let n := (s.tile t).nextSlot
  (s.modTile t (fun x => { x with nextSlot := n + 1 })).markArrives t n false

def slotMarkArrivalOk (t : Nat) (s : State) : Bool :=
  let x := s.tile t
  match x.shiftFc, s.tileBudget t with
  | some f, some b => decide (x.nextSlot ≤ b.channels) && decide (f + x.nextSlot * b.slotFc ≤ s.rowFc t)
  | _, _ => false

def execSlotMarkArrival (t : Nat) (s : State) : Result :=
  whenDue (slotMarkArrivalOk t s) (slotMarkArrivalDo t s)

end Sys2Proof.Machine
end

