-- ==== Sys2Proof/Machine/Peek.lean ====
section
/-! DEFINITION. What observation shows: wait causes of threads, tile and skip status registers, the peek layout and
the snapshot record (Table 2.9 to 2.12, Table 7.5 to 7.14, R411, R415, R416). -/

namespace Sys2Proof.Machine

/-! ## Waits (R411) -/

/-- Counter of class 0 to which a wait of a thread adds; none for a thread that does not wait, and for a wait of no
stated cause (a register of a short pipeline). -/
def State.waitCause (s : State) (t th : Nat) : Option Nat :=
  let x := s.thread t th
  if x.mode != .running then none
  else match x.wait with
    | .none =>
      let w := s.pcWord t th
      if !legalWord (s.tile t) (kindOf t) th w then none
      else if (s.nextRegs t w).any (fun r => x.await.contains r) then some 4
      else if (s.tile t).unitFree th w then none
      else if 0x20 ≤ wOp w ∧ wOp w ≤ 0x23 then some 4 else some 7
    | .tick => some 5
    | .slot _ => some 5
    | .nextMark => some 5
    | .eccWord => some 5
    | .queue p _ => some (if ((look (s.tile t).ports p).map Port.output).getD false then 2 else 1)
    | .bell _ _ _ _ => some 1
    | .bellSend _ _ => some 2
    | .fence => some 4
    | .lock _ _ => some 6
    | .fn _ => some 7

/-- THREAD_STATE of Table 2.11. -/
def State.threadState (s : State) (t th : Nat) : Nat :=
  match (s.thread t th).mode with
  | .idle => 0
  | .running => if (s.waitCause t th).isSome then 2 else 1
  | .halted => 3
  | .illegal => 3
  | .debug => 3

/-! ## Tile registers (Table 2.9 to Table 2.12) -/

def halfCode : HalfState → Nat
  | .free => 0
  | .filling => 1
  | .ready => 2
  | .active => 3

def State.tileCfg (s : State) (t : Nat) : Nat :=
  let x := s.tile t
  kindOf t <<< 30 + boolNat (isSpare t) <<< 29 + boolNat x.enabled <<< 28 + (x.claim % 256) <<< 20 + (x.group % 16) <<< 16
    + boolNat x.fold <<< 15 + (x.threadsUsed % 16) <<< 8

def State.tileStatus (s : State) (t : Nat) : Nat :=
  let x := s.tile t
  boolNat x.activeBank <<< 31 + boolNat x.shadowValid <<< 30 + boolNat x.replaced <<< 29 + boolNat x.degraded <<< 28
    + halfCode x.halfA <<< 24 + halfCode x.halfB <<< 20
    + ((List.range 4).map (fun th => s.threadState t th <<< (8 + 2 * th))).foldl (· + ·) 0
    + boolNat x.lockBroken <<< 2 + boolNat x.swapFailed <<< 1 + boolNat x.illegal

def State.tileMap (s : State) (t : Nat) : Nat := boolNat (s.tile t).mapped <<< 31 + (s.tile t).logical % 1024

/-- Columns of the M-tiles of a row that loaded images mark as warm (R381). -/
def State.warmColumns (s : State) (row : Nat) : List Nat :=
  s.images.flatMap (fun p => if bitAt p.2.flags 2 then
    (p.2.tiles.filter (fun r => bitAt r.flags 1 && r.kind == 3 && r.tile / 32 == row)).map (fun r => r.tile % 32) else [])

/-- Spare F-tile of a row's group of three (R36). -/
def fSpareOf (row : Nat) : Nat := (row / 3 * 3 + 2) * 32 + 16

def State.spareRow (s : State) (r : Nat) : Nat :=
  let m := s.tile (r * 32 + 15)
  let warm := s.warmColumns r
  let mFor := if m.mapped then m.logical % 32 else warm.headD 0
  let f := s.tile (r * 32 + 16)
  boolNat m.mapped <<< 31 + boolNat (!warm.isEmpty) <<< 30 + mFor <<< 20
    + (if r % 3 = 2 then boolNat f.mapped <<< 19 + (if f.mapped then f.logical else 0) <<< 9 else 0)

/-! ## Skip registers (Table 7.5 to Table 7.14) -/

/-- A host ring shows as a skip of its claim (R178): its ring is the middle. The rings of a closed claim read as at
reset. -/
def State.ringSkip (s : State) (k : Nat) : Skip :=
  let c := (k - 61440) / 16
  let r := s.ring c ((k - 61440) % 16)
  let base := if r.entries = 0 then 0 else if (k - 61440) % 16 = 0 ∨ 14 ≤ (k - 61440) % 16 then r.base
    else ((s.translate c r.base false).map Phys.addr).getD 0
  let cfg : SkipCfg := { valid := true, sump := true, net := 2, pushWidth := 6, claim := c
                         baseLo := BitVec.ofNat 32 base, baseHi := BitVec.ofNat 32 (base / 2 ^ 32), size := 64 * r.entries }
  { cfg := if (s.claim c).state = .closed then {} else cfg
    credit := r.entries - r.fill
    words := List.replicate (min r.fill 1) { data := 0, valid := 64 }
    timeout := (s.skip k).timeout, lastPushed := 0 }

def State.skipView (s : State) (k : Nat) : Skip := if k < 61440 then s.skip k else s.ringSkip k

def Skip.statusWord (k : Skip) : Nat :=
  let head := k.words.headD { data := 0, valid := 0 }
  (head.valid % 64) <<< 18 + boolNat head.forced <<< 17 + boolNat head.eop <<< 16 + boolNat head.miss <<< 15
    + boolNat k.dropping <<< 7 + boolNat k.ratePushErr <<< 6 + boolNat k.ratePopErr <<< 5 + boolNat k.timeoutBit <<< 4
    + boolNat k.underrun <<< 3 + boolNat k.creditViol <<< 2 + boolNat k.widthMismatch <<< 1 + boolNat k.words.isEmpty

def Skip.cfgWord (k : Skip) : Nat :=
  let c := k.cfg
  boolNat c.valid <<< 31 + boolNat c.sump <<< 30 + c.net.toNat <<< 28 + boolNat c.zrc <<< 27 + c.pushWidth.toNat <<< 24
    + boolNat c.faultUnderrun <<< 23 + boolNat c.forceTail <<< 22 + boolNat c.rateCheck <<< 21 + boolNat c.realtime <<< 20

/-- Register of a skip at byte offset r of its 64. -/
def Skip.reg (k : Skip) (r : Nat) : Nat :=
  let c := k.cfg
  match r with
  | 0x00 => k.cfgWord
  | 0x04 => (c.claim % 256) <<< 24 + (c.pipeline % 32) <<< 19 + (c.domain % 8) <<< 16 + c.consumer % 1024
  | 0x08 => c.baseLo.toNat
  | 0x0C => c.baseHi.toNat
  | 0x10 => c.size % 2 ^ 29 / 64 * 64
  | 0x14 => ((c.channels - 1) % 256) <<< 24 + c.pushRate % 2 ^ 24
  | 0x18 => c.popRate % 2 ^ 24
  | 0x1C => k.timeout.toNat
  | 0x20 => k.creditAll % 2 ^ 29
  | 0x24 => k.statusWord
  | 0x28 => min k.lastPushed 0xFFFFFFFF
  | 0x2C => min k.lastPopped 0xFFFFFFFF
  | _ => 0

/-! ## The peek layout (Table 17.3) -/

def zeros (n : Nat) : List Byte := List.replicate n 0

/-- GRS bits 55..18 of a descriptor, in bits 37..0 (Table 17.3, R126). -/
def SDesc.bits38 (d : SDesc) : Nat := 
  d.gsize * 2 ^ 36 + d.wmode * 2 ^ 33 + d.amode * 2 ^ 31 + d.wsbase * 2 ^ 20 + d.abase * 2 ^ 9 + d.pitch

def State.peekThread (s : State) (t th : Nat) : List Byte :=
  let x := s.thread t th
  let cause := if x.mode = .debug then 0xF else (s.waitCause t th).getD 0
  let pc := x.regs.pc % 2048 + s.threadState t th <<< 16 + cause <<< 24
  let fc := s.rowFc t
  (List.range 32).flatMap (fun r => natLE 4 (x.shown fc r).toNat) ++ natLE 8 pc ++ natLE 8 x.checkpoint.pc ++ zeros 16
    ++ (List.range 4).flatMap (fun i => natLE 8 (lookD x.regs.sd i {}).bits38) ++ natLE 8 (x.shown fc 48).toNat ++ zeros 56
    ++ (List.range 16).flatMap (fun r => lineBytes (x.shown fc (32 + r))) ++ zeros 0x300

/-- Pass that a loop counter holds. -/
def Tile.passOf (x : Tile) (c : Nat) : Nat :=
  match look x.counters c with
  | some th => (x.thread th).regs.passOf c
  | none => 0

/-- What a POP with TK = 0 would write now; 0 for an empty or output port. -/
def State.peekPort (s : State) (t p : Nat) : Line :=
  match look (s.tile t).ports p with
  | some x =>
    if x.output ∨ s.poppable t p = 0 then 0 else ((s.skip (s.portSkip t p)).words.head?.map RWord.data).getD 0
  | none => 0

/-- Lines locked by the threads of a tile, in thread order. -/
def State.peekLocks (s : State) (t : Nat) : List Byte :=
  padTo 16 (((List.range 4).filterMap (fun th => (s.thread t th).lock)).flatMap (fun l =>
    natLE 4 (2 ^ 31 + l.1 % 1024 * 2 ^ 20 + l.2 % 2 ^ 20)))

/-- Bytes 0x0000 to 0x310F of the layout of the tile at a position. -/
def State.peekBytes (s : State) (t : Nat) : List Byte :=
  (List.range 4).flatMap (fun th => s.peekThread t th)
    ++ (List.range 4).flatMap (fun c => natLE 4 ((s.tile t).passOf c)) ++ zeros 0x30
    ++ (List.range 32).flatMap (fun p => natLE 4 (s.portStatus t p)) ++ zeros 0x740
    ++ (List.range 32).flatMap (fun p => lineBytes (s.peekPort t p))
    ++ (List.range 32).flatMap (fun r => padTo 4 (lookD (s.tile t).inbox r []))
    ++ (List.range 32).map (fun r => BitVec.ofNat 8 (lookD (s.tile t).inbox r []).length) ++ zeros 0x60 ++ s.peekLocks t

/-- Some loaded image owns the logical tile. -/
def State.imageOwns (s : State) (id : Nat) : Bool := s.images.any (fun p => p.2.loaded && p.2.tiles.any (fun r => r.tile == id))

/-- Word of the peek window at a byte offset (R416). -/
def State.peekWord (s : State) (o : Nat) : Nat :=
  let id := s.dbg.peekTile.toNat
  if s.imageOwns id then fieldLE (s.peekBytes (s.physical id)) (o / 4 * 4) 4 else 0

/-! ## The snapshot record (R415) -/

def State.snapTile (s : State) (id : Nat) : List Byte :=
  let t := s.physical id
  padTo 64 (natLE 2 id ++ natLE 2 t ++ natLE 4 (s.tileCfg t) ++ natLE 4 (s.tileStatus t) ++ natLE 4 (s.row (t / 32)).k)
    ++ (s.peekBytes t).take 0x3000
    ++ (if kindOf t = 3 then (List.range 256).flatMap (fun r => natLE 2 (lookD (s.tile t).rowScale r 0).toNat) else zeros 512)

/-- Read words of the tail, from the entries that have reached it. -/
def Skip.tailBytes (k : Skip) : List Byte := padTo 128 (natLE 128 (packData k.tail))

def State.snapSkip (s : State) (id : Nat) : List Byte :=
  let k := s.skip id
  let head := (k.words.take (min k.headWords 2))
  let tags := (head.zipIdx.map (fun w => (w.1.valid % 64) * 2 ^ (8 * w.2))).foldl (· + ·) 0
  padTo 128 (head.flatMap (fun w => lineBytes w.data)) ++ k.tailBytes ++ natLE 4 k.statusWord ++ natLE 4 (k.creditAll % 2 ^ 29)
    ++ natLE 4 (sumBytes k.tail) ++ natLE 4 ((k.words.map RWord.bytes).foldl (· + ·) 0)
    ++ natLE 4 ((k.consumed.map RWord.bytes).foldl (· + ·) 0) ++ natLE 2 tags ++ zeros 42

/-- Insert a number into a rising list. -/
def insertNat (n : Nat) : List Nat → List Nat
  | [] => [n]
  | m :: r => if n ≤ m then n :: m :: r else m :: insertNat n r

def sortNat (l : List Nat) : List Nat := l.foldr insertNat []

def Image.tileIds (x : Image) : List Nat := sortNat (x.tiles.map TileRec.tile)
def Image.skipIds (x : Image) : List Nat := sortNat (x.skips.map SkipRec.id)

def Image.snapshotLength (x : Image) : Nat := 64 + x.tiles.length * 12864 + x.skips.length * 320

/-- The record, from what the rows took. -/
def State.snapshotRecord (s : State) (h shift fc pipe : Nat) : List Byte :=
  let x := s.image h
  natLE 4 1 ++ natLE 4 x.tiles.length ++ natLE 4 x.skips.length ++ zeros 4 ++ natLE 8 shift ++ natLE 4 fc ++ natLE 1 (pipe / 32)
    ++ natLE 1 (pipe % 32) ++ natLE 2 h ++ zeros 32
    ++ x.tileIds.flatMap (fun i => lookD s.host.snapped (2 * i) []) ++ x.skipIds.flatMap (fun i => lookD s.host.snapped (2 * i + 1) [])

end Sys2Proof.Machine
end

