-- ==== Sys2Proof/Machine/RegView.lean ====
section
/-! DEFINITION. What a read of register space returns: every register of the HF, SH, ST, AD, RD, SP, EM, PW and DB
blocks, at its offset (chapters 1, 2, 7, 10 to 17). Offsets that no table lists read 0. -/

namespace Sys2Proof.Machine

def bitsOf (f : Nat → Bool) (n : Nat) : Nat := ((List.range n).map (fun i => boolNat (f i) <<< i)).foldl (· + ·) 0

/-! ## HF (Tables 1.1 to 1.5, 13.10 to 13.12, 15.2 to 15.4) -/

def TickDomain.reg (x : TickDomain) (r : Nat) : Nat :=
  match r with
  | 0x00 => boolNat x.enable <<< 31 + x.source.toNat <<< 24 + x.lane.toNat <<< 16 + x.lvdsInput.toNat <<< 8
  | 0x04 => x.period.toNat
  | 0x08 => x.tolerance.toNat
  | 0x0C => boolNat x.early <<< 2 + boolNat x.lost <<< 1 + boolNat x.running
  | 0x10 => x.count.toNat % 2 ^ 32
  | 0x14 => x.countHi.toNat
  | _ => 0

def claimCode : ClaimState → Nat
  | .closed => 0
  | .opened => 1
  | .draining => 2

def State.claimReg (s : State) (c r : Nat) : Nat :=
  let x := s.claim c
  match r with
  | 0x00 => claimCode x.state <<< 30 + boolNat x.requireSigned <<< 29 + x.keyMask.toNat <<< 16
  | 0x04 => (s.inflight c % 32) <<< 27 + boolNat x.eventsLost <<< 26 + boolNat x.ringOverrun <<< 25 + boolNat x.badCommand <<< 24
  | 0x08 => x.journalHead.toNat % 2 ^ 32
  | 0x0C => x.journalHi.toNat
  | 0x10 => x.quota % 2 ^ 32
  | 0x14 => x.used % 2 ^ 32
  | _ => 0

def State.hfReg (s : State) (o : Nat) : Nat :=
  let h := s.host
  let f := s.faults
  if 0x10000 ≤ o ∧ o < 0x10200 then (s.dom ((o - 0x10000) / 0x40)).reg (o % 0x40)
  else if 0x20000 ≤ o ∧ o < 0x24000 then s.claimReg ((o - 0x20000) / 0x40) (o % 0x40)
  else if 0x100 ≤ o ∧ o < 0x500 then
    (if o % 0x80 < 0x60 then (lookD h.keys (32 * ((o - 0x100) / 0x80) + o % 0x80 / 4) 0).toNat else 0)
  else match o with
    | 0x00 => 0xFF10100A
    | 0x04 => boolNat h.ready <<< 31 + boolNat h.secureBootOk <<< 30 + (h.cmds.filter (fun c => c.ring != 0xFF)).length % 8192
    | 0x0C => h.lockState.toNat
    | 0x10 => h.lockViol.toNat
    | 0x14 => h.lockViolAddr.toNat
    | 0x20 => h.seq % 2 ^ 32
    | 0x24 => h.seqHi.toNat
    | 0x40 => boolNat h.requireSignedAll <<< 31 + h.keyEnable.toNat
    | 0x500 => bitsOf h.keyValid 8
    | 0x30000 => f.recurCount.toNat <<< 28 + f.recurWindowMs.toNat <<< 16 + boolNat f.patrolEn <<< 15
    | 0x30004 => boolNat f.selfTestDone <<< 31 + boolNat f.selfTestFail <<< 30 + boolNat f.trackerFull <<< 29 + f.tracker.length
    | 0x30008 => f.eventSeq % 2 ^ 32
    | 0x3000C => f.eventSeqHi.toNat
    | _ => 0

/-! ## SH and ST -/

def State.shReg (s : State) (o : Nat) : Nat :=
  if o = 0 then 0x5010F000
  else if 0x400000 ≤ o ∧ o < 0x800000 then (s.skipView ((o - 0x400000) / 0x40)).reg (o % 0x40) else 0

def State.stReg (s : State) (o : Nat) : Nat :=
  if o = 0 then 0xB0036200
  else if 0x100 ≤ o ∧ o < 0x160 then s.spareRow ((o - 0x100) / 4)
  else if 0x10000 ≤ o ∧ o < 0x40000 then
    let t := (o - 0x10000) / 0x100
    match o % 0x100 with
    | 0 => s.tileCfg t
    | 4 => s.tileStatus t
    | 8 => s.tileMap t
    | _ => 0
  else 0

/-! ## AD (Tables 10.7 to 10.14) -/

def State.quadReg (s : State) (q r : Nat) : Nat :=
  let x := s.quad q
  let lane (i : Nat) : Lane := s.lane (4 * q + i)
  match r with
  | 0x00 => boolNat x.enable <<< 31 + x.mode.toNat <<< 29 + x.rate.toNat <<< 26 + boolNat (x.mirror && decide (q < 8)) <<< 25
      + boolNat x.bypass <<< 24 + x.skew.toNat <<< 16
  | 0x04 => x.chBase.toNat <<< 16 + x.chCount.toNat <<< 8
      + x.domain.toNat <<< 5 + x.pipeline.toNat
  | 0x08 =>
    let eth := x.mode == 1 || x.mode == 2
    bitsOf (fun i => (lane i).up) 4 <<< 28 + bitsOf (fun i => (lane i).retired) 4 <<< 24 + boolNat x.bypassBound <<< 23
      + boolNat (eth && (List.range 4).any (fun i => s.ethLive (4 * q + i))) <<< 3
      + boolNat ((List.range 4).any (fun i => (lane i).paused)) <<< 2 + boolNat x.laneDown <<< 1 + boolNat x.seqGap
  | _ => 0

def State.lvdsReg (s : State) (i : Nat) : Nat :=
  let x := s.lvds i
  boolNat x.enable <<< 31 + boolNat x.invert <<< 30 + boolNat (x.term && (decide (i < 8) || (decide (24 ≤ i) && !x.out))) <<< 29
    + boolNat (x.ddr && decide (24 ≤ i)) <<< 28 + x.delay.toNat

def State.lineReg (s : State) (l : Nat) : Nat :=
  let x := s.decLine l
  boolNat x.bound <<< 31 + x.domain.toNat <<< 28 + x.pipeline.toNat <<< 23 + x.rate.toNat <<< 18
    + boolNat (x.duplicate && decide (l < 8)) <<< 17 + (x.words % 512) <<< 8 + x.firstChannel % 256

def State.atileReg (s : State) (a r : Nat) : Nat :=
  let x := s.atile a
  match r with
  | 0 => x.mode.toNat <<< 30 + x.s2dF.toNat <<< 28 + boolNat x.valueType <<< 27 + boolNat x.dtype <<< 26
      + x.conflict.toNat <<< 24 + x.c.toNat
  | 4 => x.h.toNat <<< 16 + x.w.toNat
  | _ => 0

def State.adReg (s : State) (o : Nat) : Nat :=
  if o = 0 then 0x40102030
  else if 0x1000 ≤ o ∧ o < 0x1400 then s.quadReg ((o - 0x1000) / 0x40) (o % 0x40)
  else if 0x2000 ≤ o ∧ o < 0x2200 then (if o % 0x10 = 0 then s.lvdsReg ((o - 0x2000) / 0x10) else 0)
  else if 0x3000 ≤ o ∧ o < 0x3100 then (if o % 0x10 = 0 then s.lineReg ((o - 0x3000) / 0x10) else 0)
  else if 0x4000 ≤ o ∧ o < 0x4300 then s.atileReg ((o - 0x4000) / 0x10) (o % 0x10)
  else if 0x8000 ≤ o ∧ o < 0x9000 then
    let i := o % 0x40 / 4
    ethField (s.ethPort ((o - 0x8000) / 0x40)) (32 * i + 31) (32 * i)
  else 0

/-! ## RD (Tables 11.6 to 11.9) -/

def State.rdReg (s : State) (o : Nat) : Nat :=
  if o = 0 then 0x10401008
  else if 0x1000 ≤ o ∧ o < 0x1200 then
    let b := s.block ((o - 0x1000) / 0x20)
    match o % 0x20 with
    | 0 => boolNat b.loaded <<< 31 + (b.portTree % 8) <<< 28 + (b.claim % 256) <<< 20 + (b.latencyNs % 64) <<< 10
    | 4 => boolNat b.captureBusy <<< 31 + boolNat b.fifoOverflow <<< 5 + boolNat b.parity <<< 4 + boolNat b.mapInvalid <<< 3
        + boolNat b.late <<< 2 + boolNat b.configRepaired <<< 1
    | _ => 0
  else if 0x2000 ≤ o ∧ o < 0x2080 then
    let t := s.tree ((o - 0x2000) / 0x10)
    match o % 0x10 with
    | 0 => boolNat t.enabled <<< 31 + t.src.toNat <<< 29 + t.sel.toNat <<< 25 + (t.claim % 256) <<< 16 + t.div.toNat
    | 4 => t.freqKhz.toNat
    | _ => 0
  else 0

/-! ## SP (Tables 12.6 to 12.12) -/

/-- STATE of Table 12.11. -/
def Hoist.stateCode (h : Hoist) : Nat :=
  match h.running with
  | none => 0
  | some x =>
    if h.waitHalf then 3
    else if h.stopped ∨ (!x.realtime ∧ !h.rt.isEmpty) then 4
    else if x.realtime then 1 else 2

def Hoist.outstanding (h : Hoist) : Nat :=
  match h.running with
  | some x => (x.bursts.filter (fun b => !b.done)).length
  | none => 0

/-- Progress count of the running, or the last faulted, stream. -/
def Hoist.progressNow (h : Hoist) : Nat :=
  match h.running with
  | some x => x.progress
  | none => h.progress

def Hoist.reg (h : Hoist) (r : Nat) : Nat :=
  match r with
  | 0x00 => boolNat h.enable <<< 31 + h.maxBurst.toNat
  | 0x04 => h.stateCode <<< 29 + (((h.running.map Stream.claim).getD 0) % 256) <<< 21 + (h.outstanding % 512) <<< 12
      + (min 32 h.rt.length) <<< 6 + min 32 h.be.length
  | 0x08 => h.progressNow % 2 ^ 32
  | 0x0C => h.progressNow / 2 ^ 32 % 2 ^ 16
  | 0x10 => h.faultCva % 2 ^ 32
  | 0x14 => boolNat h.faultWrite <<< 31 + h.faultCva / 2 ^ 32 % 2 ^ 16
  | _ => 0

def State.spClaimReg (s : State) (c r : Nat) : Nat :=
  let x := s.claim c
  let live := x.state != .closed
  let root := if live then tableAddr c 1 0 else 0
  match r with
  | 0x0 => root % 2 ^ 32 + boolNat live
  | 0x4 => root / 2 ^ 32
  | 0x8 => boolNat x.bar4Fault <<< 3 + boolNat x.canary <<< 2 + boolNat x.pageFault <<< 1 + boolNat x.uninit
  | _ => 0

def State.spReg (s : State) (o : Nat) : Nat :=
  let x := s.sump
  if 0x1000 ≤ o ∧ o < 0x2000 then s.spClaimReg ((o - 0x1000) / 0x10) (o % 0x10)
  else if 0x4000 ≤ o ∧ o < 0x4800 then (s.hoist ((o - 0x4000) / 0x40)).reg (o % 0x40)
  else match o with
    | 0x00 => 0x02402008
    | 0x04 => x.canary.toNat <<< 16 + x.lwInterval.toNat
    | 0x08 => boolNat x.logValid <<< 31 + (x.logPort % 64) <<< 24 + (x.logRequester % 256) <<< 16 + (x.logClaim % 256) <<< 8
        + boolNat x.logHeadframe
    | 0x10 => boolNat (x.online.getD 0 false) <<< 31 + boolNat (x.retired.getD 0 false) <<< 30 + (x.temp.getD 0 0).toNat <<< 16
    | 0x14 => boolNat (x.online.getD 1 false) <<< 31 + boolNat (x.retired.getD 1 false) <<< 30 + (x.temp.getD 1 0).toNat <<< 16
    | _ => 0

/-! ## EM (Tables 14.3 to 14.6) -/

def EmPort.reg (x : EmPort) (r : Nat) : Nat :=
  match r with
  | 0 => boolNat x.enable <<< 31
  | 4 => boolNat x.up <<< 31 + x.lanesUp.toNat <<< 27 + x.retired.toNat <<< 23 + boolNat x.degraded <<< 22
      + boolNat x.neighbour.isSome <<< 21 + ((x.neighbour.getD 0) % 64) <<< 15 + boolNat x.retryLate <<< 1 + boolNat x.linkDown
  | 8 => (x.lFixed % 2 ^ 16) <<< 16 + x.lMeas % 2 ^ 16
  | _ => 0

def State.emReg (s : State) (o : Nat) : Nat :=
  let x := s.emeel
  if 0x1000 ≤ o ∧ o < 0x1100 then (s.emPort ((o - 0x1000) / 0x40)).reg (o % 0x40)
  else match o with
    | 0x00 => 0x04040000
    | 0x04 => boolNat x.head <<< 31 + x.xMinus1.toNat <<< 27 + x.yMinus1.toNat <<< 24 + x.deviceId.toNat <<< 18
    | 0x08 => boolNat x.enumerated <<< 31 + boolNat x.timeLocked <<< 30 + boolNat x.wiringError <<< 29
        + x.lastCorrection.toNat <<< 8 + x.devices % 128
    | 0x0C => x.tickDelay.toNat <<< 8 + x.follow.toNat
    | 0x10 => x.meshTime % 2 ^ 32
    | 0x14 => x.timeHi.toNat
    | 0x20 => boolNat x.rwinEnable <<< 31 + x.rwinDevice.toNat <<< 24 + x.rwinPage.toNat
    | _ => 0

/-! ## PW (Tables 16.9 to 16.13) -/

/-- PW_DOMAIN_STATUS (Table 16.3); lane quadrants power on from READY, when their ports train (R405). -/
def State.domainOn (s : State) : Nat :=
  let p := s.power
  let quadrant (k : Nat) : Bool := !p.thermtrip && ((List.range 4).any (fun i => (s.quad (4 * k + i)).enable) || (s.emPort k).enable)
  bitsOf (fun r => (s.row r).powered) 24 + 2 ^ 24
    + bitsOf (fun k => s.host.ready && quadrant k) 4 <<< 25
    + boolNat (!p.thermtrip && s.riddle.blocks.any (fun b => b.2.loaded)) <<< 29
    + bitsOf (fun k => !p.thermtrip && !s.sump.retired.getD k false) 2 <<< 30

/-- Tokens of a row that are shared out, and held now. -/
def Row.tokensTotal (r : Row) : Nat := (r.shares.map (·.2)).foldl (· + ·) 0
def State.tokensHeld (s : State) (r : Nat) : Nat :=
  ((List.range 32).filter (fun c => (s.tile (32 * r + c)).holdsToken (s.row r).fc)).length

def State.rowReg (s : State) (r : Nat) : Nat :=
  let x := s.row r
  boolNat x.deep <<< 31 + boolNat x.sensor <<< 30 + boolNat x.tokensOn <<< 29 + (min x.tokensTotal 31) <<< 21
    + (min (s.tokensHeld r) 31) <<< 16 + x.k % 32

def State.pwReg (s : State) (o : Nat) : Nat :=
  let p := s.power
  if 0x100 ≤ o ∧ o < 0x160 then s.rowReg ((o - 0x100) / 4)
  else match o with
    | 0x00 => 0x20401800
    | 0x04 => p.phase.toNat <<< 28 + p.error.toNat
    | 0x08 => p.tdpW.toNat
    | 0x0C => 140000
    | 0x10 => p.powerMw.toNat
    | 0x14 => p.warnC.toNat
    | 0x18 => boolNat p.warning <<< 31 + boolNat p.tripped <<< 30 + boolNat p.throttled <<< 29 + p.tjC.toNat
    | 0x1C => s.domainOn
    | 0x20 => p.stepUpFc.toNat <<< 8 + p.thresholdMv.toNat
    | _ => 0

/-! ## DB (Tables 17.1 to 17.3) -/

/-- UNLOCKED and SCOPE: a device without the PRODUCTION fuse is unlocked with both bits (R421). -/
def State.unlocked (s : State) : Bool := !Config.production || s.dbg.unlocked
def State.scope (s : State) : Nat := if Config.production then s.dbg.scope.toNat else 3

/-- Counter word at a DB offset: class, object and counter exist (R412). -/
def ctrExists (o : Nat) : Bool :=
  (List.range 12).any (fun k => decide (ctrBase k ≤ o) && decide (o < ctrBase k + ctrObjects k * ctrPer k * 8))

/-- Debug-halted threads of a logical tile. -/
def State.haltedThreads (s : State) (id : Nat) : Nat :=
  bitsOf (fun th => (s.thread (s.physical id) th).mode == .debug) 4

def State.haltPending (s : State) (id : Nat) : Bool :=
  (List.range 4).any (fun th => (s.thread (s.physical id) th).haltAsked.isSome)

def State.dbReg (s : State) (jtag : Bool) (o : Nat) : Nat :=
  let d := s.dbg
  if 0x100000 ≤ o then
    (if !ctrExists (o / 8 * 8) then 0
     else
       let x := lookD d.counters (o / 8 * 8) {}
       if o % 8 < 4 then x.value % 2 ^ 32
       else boolNat x.ovf <<< 31 + (if jtag then d.latchJtag else d.latchBar0).toNat)
  else if 0x4000 ≤ o ∧ o < 0x8000 then s.peekWord (o - 0x4000)
  else if 0x10 ≤ o ∧ o < 0x30 then (d.nonce.getD ((o - 0x10) / 4) 0).toNat
  else if 0xC0 ≤ o ∧ o < 0xD0 then (Config.serial ((o - 0xC0) / 4)).toNat
  else if 0x200 ≤ o ∧ o < 0x260 then (lookD d.brkEn ((o - 0x200) / 4) 0).toNat
  else if 0x300 ≤ o ∧ o < 0x320 then
    let b := lookD d.pcBrk ((o - 0x300) / 4) (false, 0, 0, 0)
    boolNat b.1 <<< 31 + (b.2.1 % 4) <<< 28 + (b.2.2.1 % 1024) <<< 16 + b.2.2.2 % 2048
  else match o with
    | 0x00 => 12 <<< 24 + 8 <<< 16 + boolNat Config.production <<< 15
    | 0x04 => boolNat s.unlocked <<< 31 + s.scope <<< 29 + boolNat d.busy <<< 28 + d.attempts.toNat
    | 0x100 => d.haltThreads.toNat <<< 16 + d.haltTile.toNat
    | 0x104 => boolNat (s.haltPending d.haltTile.toNat) <<< 31 + s.haltedThreads d.haltTile.toNat <<< 16 + boolNat d.forced
    | 0x108 => d.peekTile.toNat
    | _ => 0

/-! ## Register space -/

/-- Value that a read of register space returns, on the BAR0 or the JTAG path. -/
def State.regView (s : State) (jtag : Bool) (o : Nat) : Word :=
  let r := o % 0x1000000 / 4 * 4
  BitVec.ofNat 32 (match o / 0x1000000 with
    | 0 => s.hfReg r
    | 1 => s.shReg r
    | 2 => s.stReg r
    | 3 => s.adReg r
    | 4 => s.rdReg r
    | 5 => s.spReg r
    | 6 => s.emReg r
    | 7 => s.pwReg r
    | 8 => s.dbReg jtag r
    | _ => 0)

/-- A word of the doorbell page of a ring (Table 13.4). The journal head has one latch, whichever way it is read. -/
def State.doorbellView (s : State) (claim ring o : Nat) : Word :=
  let g := s.ring claim ring
  let x := s.claim claim
  match o / 4 * 4 with
  | 0x00 => g.producer
  | 0x04 => g.consumer
  | 0x08 => BitVec.ofNat 32 g.entries
  | 0x0C => BitVec.ofNat 32 (boolNat g.overrun <<< 1 + boolNat (g.eventsLost && ring == 15))
  | 0x10 => if ring = 0 then BitVec.ofNat 32 x.journalHead.toNat else 0
  | 0x14 => if ring = 0 then x.journalHi else 0
  | 0x18 => if ring = 0 then BitVec.ofNat 32 (claimCode x.state) else 0
  | _ => 0

/-- What a read latches (R15, R345, R367, R371, R410). -/
def State.regLatch (s : State) (jtag : Bool) (o : Nat) : State :=
  let hi (n : Nat) : Word := BitVec.ofNat 32 (n / 2 ^ 32)
  let r := o / 4 * 4
  if 0x10000 ≤ r ∧ r < 0x10200 ∧ r % 0x40 = 0x10 then
    s.modDom ((r - 0x10000) / 0x40) (fun x => { x with countHi := hi x.count.toNat })
  else if 0x20000 ≤ r ∧ r < 0x24000 ∧ r % 0x40 = 0x08 then
    s.modClaim ((r - 0x20000) / 0x40) (fun x => { x with journalHi := hi x.journalHead.toNat })
  else if r = 0x20 then s.modHost (fun h => { h with seqHi := hi h.seq })
  else if r = 0x30008 then s.modFaults (fun f => { f with eventSeqHi := hi f.eventSeq })
  else if r = 0x6000010 then s.modEmeel (fun e => { e with timeHi := hi e.meshTime })
  else if 0x8100000 ≤ r ∧ r < 0x9000000 ∧ r % 8 = 0 ∧ ctrExists (r - 0x8000000) then
    s.modDebug (fun d =>
      let v : Half := BitVec.ofNat 16 ((lookD d.counters (r - 0x8000000) {}).value / 2 ^ 32)
      if jtag then { d with latchJtag := v } else { d with latchBar0 := v })
  else s

/-- A read by host software through BAR0: before READY only three registers answer (R407). -/
def State.bar0Read (s : State) (o : Nat) : Word :=
  if s.host.ready ∨ o = 0x4 ∨ o = 0x7000004 ∨ o = 0x7000018 then s.regView false o else 0

def State.readBar0 (s : State) (o : Nat) : State :=
  (if s.host.ready then s.regLatch false o else s).emit (.readValue (s.bar0Read o))

end Sys2Proof.Machine
end

