-- ==== Sys2Proof/Machine/Debug.lean ====
section
/-! DEFINITION. Halts, breakpoints and the debug unlock (R417 to R421). -/

namespace Sys2Proof.Machine

/-! ## Halts (R417 to R419) -/

/-- Halts and breakpoints are open: the device is unlocked, and SCOPE bit 0 gives them (R421, Table 17.2). -/
def State.debugOpen (s : State) : Bool := s.unlocked && bitAt s.scope 0

def State.unlockRejected (s : State) : State := s.raise Ev.debugUnlockRejected {}

/-- A halt of a thread takes effect (R417). -/
def State.haltNow (s : State) (t th : Nat) (broken : Bool) : State :=
  let s1 := s.modThread t th (fun x => { x with mode := .debug, haltAsked := none, stepping := false })
  s1.raise Ev.debugHalt { s1.tileEv t with data := bitsOf (fun k => (s1.thread t k).mode == .debug) 4 + 256 * boolNat broken }

/-- Break the lock of a thread for a halt, and halt it (R163, R418). -/
def State.haltForced (s : State) (t th : Nat) : State :=
  if (s.thread t th).lock.isSome then
    (((s.breakLock t th).modDebug (fun d => { d with forced := true })).hit haltStatus 0).haltNow t th true
  else s.haltNow t th false

/-- CMD 1 for one thread. -/
def State.askHalt (s : State) (t th : Nat) : State :=
  let fc := s.rowFc t
  s.modThread t th (fun x => if x.mode == .running then { x with haltAsked := some (fc + 4096) } else x)

/-- CMD 2 for one thread: a real-time thread that a tick has passed waits for the next tick at its WAITTICK (R419). -/
def State.resumeThread (s : State) (t th : Nat) : State :=
  let x := s.thread t th
  if x.mode == .debug then
    let s1 := if x.tickPassed && s.tileRealtime t then s.abortThread t th else s
    s1.modThread t th (fun y => { y with mode := .running, tickPassed := false, passBreak := true })
  else s.modThread t th (fun y => { y with haltAsked := none })

/-- CMD 3 for one thread. -/
def State.stepThread (s : State) (t th : Nat) : State :=
  s.modThread t th (fun x => if x.mode == .debug then { x with mode := .running, stepping := true, passBreak := true } else x)

/-- CMD 4 for one thread. -/
def State.forceThread (s : State) (t th : Nat) : State :=
  if (s.thread t th).mode == .running then s.haltForced t th else s

/-- A write of DB_HALT_CTRL (Table 17.2, R421). -/
def State.writeHaltCtrl (s : State) (v : Word) : State :=
  let id := bits v.toNat 9 0
  let ths := bits v.toNat 19 16
  let cmd := bits v.toNat 26 24
  let s1 := s.modDebug (fun d => { d with haltThreads := BitVec.ofNat 4 ths, haltTile := BitVec.ofNat 10 id })
  let t := s.physical id
  let act (f : State → Nat → Nat → State) : State := upTo 4 (fun s th => if bitAt ths th then f s t th else s) s1
  if cmd = 0 ∨ 4 < cmd ∨ 768 ≤ t then s1
  else if !s.debugOpen then s1.unlockRejected
  else if cmd = 1 then act State.askHalt
  else if cmd = 2 then act State.resumeThread
  else if cmd = 3 then act State.stepThread
  else act State.forceThread

/-- Before READY, BAR0 writes are ignored (R407). -/
def State.bar0 (s : State) (t : State) : State := if s.host.ready then t else s

def execDbHalt (value : Word) (s : State) : Result := whenValid (bits value.toNat 26 24 == 1) (s.bar0 (s.writeHaltCtrl value))
def execDbResume (value : Word) (s : State) : Result := whenValid (bits value.toNat 26 24 == 2) (s.bar0 (s.writeHaltCtrl value))
def execDbStep (value : Word) (s : State) : Result := whenValid (bits value.toNat 26 24 == 3) (s.bar0 (s.writeHaltCtrl value))
def execDbForce (value : Word) (s : State) : Result := whenValid (bits value.toNat 26 24 == 4) (s.bar0 (s.writeHaltCtrl value))

/-- A tick that the tile has yet to take is due in this fc: it acts before a halt does (R423). -/
def State.tickFirst (s : State) (t : Nat) : Bool := (s.tile t).tickDue.any (fun a => decide (a ≤ s.rowFc t))

/-- HALT_TAKES_EFFECT (R417, R418): before the thread's next issue, and, while it holds or asks for a lock, after
its UNLOCK. -/
def haltTakesEffectOk (t th : Nat) (s : State) : Bool :=
  let x := s.thread t th
  decide (t < 768) && decide (th < 4) && !s.tickFirst t && x.mode == .running && x.haltAsked.isSome && x.lock.isNone
    && (match x.wait with
      | .lock _ _ => false
      | _ => true)

def execHaltTakesEffect (t th : Nat) (s : State) : Result := whenDue (haltTakesEffectOk t th s) (s.haltNow t th false)

/-- HALT_LOCK_TIMEOUT (R418): 4,096 fc have passed with the lock held. -/
def haltLockTimeoutOk (t th : Nat) (s : State) : Bool :=
  let x := s.thread t th
  decide (t < 768) && decide (th < 4) && !s.tickFirst t && x.mode == .running && x.lock.isSome && (match x.haltAsked with
    | some a => decide (a ≤ s.rowFc t)
    | none => false)

def execHaltLockTimeout (t th : Nat) (s : State) : Result := whenDue (haltLockTimeoutOk t th s) (s.haltForced t th)

/-! ## Comparators (R420) -/

/-- Position, thread and word of comparator n. -/
def State.comparator (s : State) (n : Nat) : Bool × Nat × Nat × Nat :=
  let b := lookD s.dbg.pcBrk n (false, 0, 0, 0)
  (b.1, s.physical b.2.2.1, b.2.1, b.2.2.2)

def pcBreakpointMatchOk (n : Nat) (s : State) : Bool :=
  let b := s.comparator n
  let x := s.thread b.2.1 b.2.2.1
  decide (n < 8) && b.1 && x.mode == .running && x.wait == .none && x.haltAsked.isNone && !x.passBreak
    && x.regs.pc == b.2.2.2

/-- PC_BREAKPOINT_MATCH: the thread halts before it issues the word; with a lock held it goes on to its UNLOCK. -/
def pcBreakpointMatchDo (n : Nat) (s : State) : State :=
  let b := s.comparator n
  (s.breakHalt b.2.1 b.2.2.1 (0x10000 + n)).modThread b.2.1 b.2.2.1 (fun x => { x with passBreak := x.lock.isSome })

def execPcBreakpointMatch (n : Nat) (s : State) : Result := whenDue (pcBreakpointMatchOk n s) (pcBreakpointMatchDo n s)

/-! ## Unlock (R421) -/

/-- Draw a new nonce. -/
def State.newNonce (s : State) : State :=
  (s.modDebug (fun d => { d with nonce := (List.range 8).map (fun i => BitVec.ofNat 32 (Config.freeBits (Nat.pair s.free i))) })).draw

def State.tokenWord (s : State) (w : Nat) : Nat := (lookD s.dbg.token w 0).toNat

/-- r and s of the token: words 1 to 24 are their 96 bytes, in the standard's byte order. -/
def State.tokenBytes (s : State) : List Byte := (List.range 24).flatMap (fun i => natLE 4 (s.tokenWord (i + 1)))

/-- Serial, nonce and scope, as the signature covers them. -/
def State.unlockMessage (s : State) : List Byte :=
  (List.range 4).flatMap (fun w => natLE 4 (Config.serial w).toNat)
    ++ (List.range 8).flatMap (fun w => natLE 4 (s.dbg.nonce.getD w 0).toNat) ++ natLE 4 (s.tokenWord 0)

def State.tokenValid (s : State) : Bool :=
  ecdsaVerify (sha384 s.unlockMessage) (bigEndian (s.tokenBytes.take 48)) (bigEndian (s.tokenBytes.drop 48))
    Config.debugKey.1 Config.debugKey.2

/-- A write of 1 to SUBMIT. -/
def State.submit (s : State) : State :=
  if s.dbg.attempts = 0 ∨ s.dbg.busy then s else s.modDebug (fun d => { d with busy := true })

/-- UNLOCK_SUBMIT (R421). -/
def execUnlockSubmit (s : State) : Result := .next (s.bar0 s.submit)

/-- UNLOCK_CHECK_COMPLETE (R421). -/
def unlockCheckCompleteDo (s : State) : State :=
  let s1 := s.modDebug (fun d => { d with busy := false })
  if s.tokenValid then s1.modDebug (fun d => { d with unlocked := true, scope := BitVec.ofNat 2 (s.tokenWord 0) })
  else (s1.unlockRejected.modDebug (fun d => { d with attempts := d.attempts - 1 })).newNonce

def execUnlockCheckComplete (s : State) : Result := whenDue s.dbg.busy (unlockCheckCompleteDo s)

end Sys2Proof.Machine
end

