-- ==== Sys2Proof/Machine/RegWrite.lean ====
section
/-! DEFINITION. What a write of register space does, by the access type of each field (Table 0.4) and the rule of each
register, and the rows that write or read one register. -/

namespace Sys2Proof.Machine

/-- A W1C bit after a write (Table 0.4). -/
def w1c (b : Bool) (v : Word) (i : Nat) : Bool := b && !v.getLsbD i

/-! ## Tick domains (R14) -/

def State.domainBound (s : State) (d : Nat) : Bool := !(s.pipesOf d).isEmpty

def State.tickRejected (s : State) (d : Nat) : State := s.raise Ev.tickConfigRejected (tickEv d)

/-- The head of an enumerated mesh copies a register to every member (R356). -/
def State.copyToMembers (s : State) (offset : Nat) (v : Word) : State :=
  if s.emeel.head && s.emeel.enumerated then
    (List.range (s.emeel.devices - 1)).foldl (fun s i =>
      s.sendFlit (i + 1) .register offset 5 (BitVec.ofNat 512 v.toNat) 0) s
  else s

/-- Start or stop a domain: a write of 1 to ENABLE while it is 0 clears the shift count (Table 1.1, R14, R356). -/
def State.enableDomain (s : State) (d : Nat) (on : Bool) : State :=
  let x := s.dom d
  if on && !x.enable then
    let start := s.emeel.meshTime + s.emeel.tickDelay.toNat
    let own := s.follows d && s.emeel.head && x.source == 0
    let s1 := s.modDom d (fun x => { x with
      enable := true, running := false, count := 0, lastArrival := none, nextInternal := s.now + x.period.toNat
      followAt := if own then [start] else [], followRepeat := own, rowFc := []
      dueTicks := x.dueTicks.filter (fun a => decide (s.now < a.2)) })
    if own then s1.emit (.tickSent d true start) else s1
  else if !on && x.enable then
    s.modDom d (fun x => { x with enable := false, running := false, lastArrival := none, followAt := [] })
  else s

def State.writeTickCfg (s : State) (d : Nat) (v : Word) : State :=
  let src : BitVec 2 := v.extractLsb' 24 2
  if s.domainBound d || src == 3 then s.tickRejected d
  else
    let s1 := s.modDom d (fun x => { x with
      source := src, lane := v.extractLsb' 16 6, lvdsInput := v.extractLsb' 8 3
      lastArrival := if x.source == src then x.lastArrival else if x.running then some x.lastTick else none
      nextInternal := if x.source == src then x.nextInternal else s.now + x.period.toNat })
    let s2 := s1.enableDomain d (v.getLsbD 31)
    if s2.follows d then s2.copyToMembers (0x10000 + 0x40 * d) v else s2

def State.writeTickPeriod (s : State) (d : Nat) (v : Word) : State :=
  let p : BitVec 24 := v.extractLsb' 0 24
  if s.domainBound d || decide (p.toNat < 120) || decide (12000000 < p.toNat) then s.tickRejected d
  else
    let s1 := s.modDom d (fun x => { x with period := p })
    if s1.follows d then s1.copyToMembers (0x10004 + 0x40 * d) v else s1

def State.writeTickTol (s : State) (d : Nat) (v : Word) : State :=
  if s.domainBound d then s.tickRejected d
  else
    let s1 := s.modDom d (fun x => { x with tolerance := v.extractLsb' 0 16 })
    if s1.follows d then s1.copyToMembers (0x10008 + 0x40 * d) v else s1

/-! ## HF (R344, R371, Table 13.11) -/

def State.writeLockSet (s : State) (v : Word) : State := s.modHost (fun h => { h with lockState := h.lockState ||| v })

def State.writeSecure (s : State) (v : Word) : State :=
  if s.locked 1 then s.lockViolation 1 0x40 v
  else s.modHost (fun h => { h with requireSignedAll := v.getLsbD 31, keyEnable := v.extractLsb' 0 8 })

/-- A key word is written once, and not while its group is locked (R344). -/
def State.writeKey (s : State) (o : Nat) (v : Word) : State :=
  let i := 32 * ((o - 0x100) / 0x80) + o % 0x80 / 4
  if o % 0x80 < 0x60 then
    (if (look s.host.keys i).isSome || s.locked 0 then s.lockViolation 0 o v
     else s.modHost (fun h => { h with keys := put h.keys i v }))
  else s

def State.writeFaultCfg (s : State) (v : Word) : State :=
  let n : BitVec 4 := v.extractLsb' 28 4
  let w : BitVec 12 := v.extractLsb' 16 12
  if n.toNat < 2 ∨ w = 0 then s
  else s.modFaults (fun f => { f with recurCount := n, recurWindowMs := w, patrolEn := v.getLsbD 15 })

def State.hfWrite (s : State) (o : Nat) (v : Word) : State :=
  if 0x10000 ≤ o ∧ o < 0x10200 then
    let d := (o - 0x10000) / 0x40
    match o % 0x40 with
    | 0x00 => s.writeTickCfg d v
    | 0x04 => s.writeTickPeriod d v
    | 0x08 => s.writeTickTol d v
    | 0x0C => s.modDom d (fun x => { x with early := w1c x.early v 2, lost := w1c x.lost v 1 })
    | _ => s
  else if 0x20000 ≤ o ∧ o < 0x24000 then
    (if o % 0x40 = 4 then s.modClaim ((o - 0x20000) / 0x40) (fun x => { x with
      eventsLost := w1c x.eventsLost v 26, ringOverrun := w1c x.ringOverrun v 25, badCommand := w1c x.badCommand v 24 })
     else s)
  else if 0x100 ≤ o ∧ o < 0x500 then s.writeKey o v
  else match o with
    | 0x08 => s.writeLockSet v
    | 0x10 => s.modHost (fun h => { h with lockViol := h.lockViol &&& ~~~v })
    | 0x40 => s.writeSecure v
    | 0x30000 => s.writeFaultCfg v
    | 0x30004 => s.modFaults (fun f => { f with selfTestFail := w1c f.selfTestFail v 30, trackerFull := w1c f.trackerFull v 29 })
    | _ => s

/-! ## SH and ST -/

def State.shWrite (s : State) (o : Nat) (v : Word) : State :=
  if 0x400000 ≤ o ∧ o < 0x800000 then
    let k := (o - 0x400000) / 0x40
    if o % 0x40 = 0x1C then s.modSkip k (fun x => { x with timeout := v.extractLsb' 0 16 })
    else if o % 0x40 = 0x24 then s.modSkip k (fun x => { x with
      ratePushErr := w1c x.ratePushErr v 6, ratePopErr := w1c x.ratePopErr v 5, timeoutBit := w1c x.timeoutBit v 4
      underrun := w1c x.underrun v 3, creditViol := w1c x.creditViol v 2, widthMismatch := w1c x.widthMismatch v 1 })
    else s
  else s

def State.stWrite (s : State) (o : Nat) (v : Word) : State :=
  if 0x10000 ≤ o ∧ o < 0x40000 ∧ o % 0x100 = 4 then
    s.modTile ((o - 0x10000) / 0x100) (fun x => { x with
      lockBroken := w1c x.lockBroken v 2, swapFailed := w1c x.swapFailed v 1, illegal := w1c x.illegal v 0 })
  else s

/-! ## AD (R252, R256, R260, R266) -/

def State.quadRejected (s : State) (addr : Nat) : State := s.raise Ev.quadConfigRejected { addr := addr }

/-- A loaded image, by its block or a transmit stream, a bound pipeline or a tick domain source uses the quad; the
quads of a mirrored pair are used together (R252, R259, R260). -/
def State.quadUsed (s : State) (q : Nat) : Bool :=
  let one (q : Nat) : Bool := (s.block q).loaded || (s.quad q).bypassBound
    || (List.range 4).any (fun i => [false, true].any (fun e => (s.skip (txStreamSkip (e, 4 * q + i))).cfg.valid))
    || (List.range 8).any (fun d => (s.dom d).source == 2 && (s.dom d).lane.toNat / 4 == q)
  one q || (decide (8 ≤ q) && (s.quad (q - 8)).mirror && one (q - 8)) || (decide (q < 8) && (s.quad q).mirror && one (q + 8))

/-- Fields of AD_QUAD_CFG_q as a write gives them. -/
def Quad.written (x : Quad) (q : Nat) (v : Word) : Quad :=
  { x with enable := v.getLsbD 31, mode := v.extractLsb' 29 2, rate := v.extractLsb' 26 3
           mirror := v.getLsbD 25 && decide (q < 8), bypass := v.getLsbD 24, skew := v.extractLsb' 16 8 }

/-- A mirrored pair of quads runs RAW66 at one rate (R260). -/
def mirrorOk (a b : Quad) : Bool := !a.mirror || (a.mode == 0 && b.mode == 0 && a.rate == b.rate)

/-- A retrained quad: its lanes lose their frames and retired lanes return (R252, R255, R371). -/
def State.retrainQuad (s : State) (q : Nat) : State :=
  ((List.range 4).foldl (fun s i => (s.endOpen (4 * q + i)).modLane (4 * q + i) (fun l => { l with up := false, retired := false })) s).forgetSeq q

def State.writeQuadCfg (s : State) (q : Nat) (v : Word) : State :=
  let x := s.quad q
  let y := x.written q v
  let pair := if q < 8 then mirrorOk y (s.quad (q + 8)) else mirrorOk (s.quad (q - 8)) y
  if s.quadUsed q then (if y = x then s else s.quadRejected 0)
  else if y.mode == 3 || decide (5 ≤ y.rate.toNat) || !pair then s.quadRejected 0
  else (s.modQuad q (fun _ => y)).retrainQuad q

def State.writeChmap (s : State) (q : Nat) (v : Word) : State :=
  if (s.quad q).bypassBound then s.quadRejected 0
  else s.modQuad q (fun x => { x with chBase := v.extractLsb' 16 16, chCount := v.extractLsb' 8 8 })

def State.writeDecLine (s : State) (l : Nat) (v : Word) : State :=
  let x := s.decLine l
  let dup := v.getLsbD 17 && decide (l < 8)
  if dup != x.duplicate && (x.bound || (s.decLine (l + 8)).bound) then s.quadRejected (0x3003000 + 0x10 * l)
  else s.modLine l (fun x => { x with rate := if x.bound then x.rate else v.extractLsb' 18 2, duplicate := dup })

def State.writeLvds (s : State) (i : Nat) (v : Word) : State :=
  let x : Lvds := { s.lvds i with enable := v.getLsbD 31, invert := v.getLsbD 30, term := v.getLsbD 29, ddr := v.getLsbD 28, delay := v.extractLsb' 0 7 }
  s.modAdit (fun a => { a with lvds := put a.lvds i x })

/-- Writable bits of word i of AD_ETH_PORT_p (Table 10.14). -/
def ethMask (i : Nat) : Nat := if i < 12 then 0xFFFFFFFF else if i = 12 then 0xCFFFFFFF else 0

def State.writeEth (s : State) (p i : Nat) (v : Word) : State :=
  let old := (s.ethPort p).toNat
  let x := old - bits old (32 * i + 31) (32 * i) * 2 ^ (32 * i) + (v.toNat &&& ethMask i) * 2 ^ (32 * i)
  s.modAdit (fun a => { a with eth := put a.eth p (BitVec.ofNat 512 x) })

def State.adWrite (s : State) (o : Nat) (v : Word) : State :=
  if 0x1000 ≤ o ∧ o < 0x1400 then
    let q := (o - 0x1000) / 0x40
    match o % 0x40 with
    | 0 => s.writeQuadCfg q v
    | 4 => s.writeChmap q v
    | 8 => s.modQuad q (fun x => { x with laneDown := w1c x.laneDown v 1, seqGap := w1c x.seqGap v 0 })
    | _ => s
  else if 0x2000 ≤ o ∧ o < 0x2200 then (if o % 0x10 = 0 then s.writeLvds ((o - 0x2000) / 0x10) v else s)
  else if 0x3000 ≤ o ∧ o < 0x3100 then (if o % 0x10 = 0 then s.writeDecLine ((o - 0x3000) / 0x10) v else s)
  else if 0x8000 ≤ o ∧ o < 0x9000 then s.writeEth ((o - 0x8000) / 0x40) (o % 0x40 / 4) v
  else s

/-! ## RD and SP (R289, R318) -/

def State.rdWrite (s : State) (o : Nat) (v : Word) : State :=
  if 0x1000 ≤ o ∧ o < 0x1200 then
    let q := (o - 0x1000) / 0x20
    match o % 0x20 with
    | 0 => if v.getLsbD 0 then s.modBlock q (fun b => { b with resetAsked := true }) else s
    | 4 => s.modBlock q (fun b => { b with
        fifoOverflow := w1c b.fifoOverflow v 5, parity := w1c b.parity v 4, mapInvalid := w1c b.mapInvalid v 3
        late := w1c b.late v 2, configRepaired := w1c b.configRepaired v 1 })
    | _ => s
  else s

def State.spRejected (s : State) : State := s.raise Ev.spConfigRejected {}

def State.writeArbCfg (s : State) (v : Word) : State :=
  let c : Half := v.extractLsb' 16 16
  let n : BitVec 7 := v.extractLsb' 0 7
  if c = 0 ∨ n.toNat < 4 ∨ 64 < n.toNat then s.spRejected
  else s.modSump (fun x => { x with canary := c, lwInterval := n })

def State.writeHoistCfg (s : State) (h : Nat) (v : Word) : State :=
  let m : BitVec 3 := v.extractLsb' 0 3
  if m = 7 then s.spRejected else s.modHoist h (fun y => { y with enable := v.getLsbD 31, maxBurst := m })

def State.spWrite (s : State) (o : Nat) (v : Word) : State :=
  if 0x1000 ≤ o ∧ o < 0x2000 then
    (if o % 0x10 = 8 then s.modClaim ((o - 0x1000) / 0x10) (fun x => { x with
      bar4Fault := w1c x.bar4Fault v 3, canary := w1c x.canary v 2, pageFault := w1c x.pageFault v 1, uninit := w1c x.uninit v 0 })
     else s)
  else if 0x4000 ≤ o ∧ o < 0x4800 then (if o % 0x40 = 0 then s.writeHoistCfg ((o - 0x4000) / 0x40) v else s)
  else match o with
    | 0x04 => s.writeArbCfg v
    | 0x08 => s.modSump (fun x => { x with logValid := w1c x.logValid v 31 })
    | _ => s

/-! ## EM (R354, R356, R364, R367) -/

/-- Send an id token on the east and the south port of a device at (x, y) (R354). -/
def State.forwardToken (s : State) (x y : Nat) : State :=
  let xs := s.emeel.xSize
  let ys := s.emeel.ySize
  let s1 := if 1 < xs then s.emit (.idToken 0 x y xs ys) else s
  if 1 < ys then s1.emit (.idToken 2 x y xs ys) else s1

/-- The write of ENUMERATE on the head (R354). -/
def State.enumerateMesh (s : State) : State :=
  if s.emeel.head then
    (s.modEmeel (fun e => { e with
      deviceId := 0, idTaken := true, enumerating := true, enumerated := false, devices := 1, reported := [], locked := [] })).forwardToken 0 0
  else s

/-- A write of EM_MESH_CFG: X and Y are read-only on members. -/
def State.writeMeshCfg (s : State) (v : Word) : State :=
  if s.emeel.head then
    let s1 := s.modEmeel (fun e => { e with xMinus1 := v.extractLsb' 27 3, yMinus1 := v.extractLsb' 24 3 })
    if v.getLsbD 30 then s1.enumerateMesh else s1
  else s

def State.writeTickFollow (s : State) (v : Word) : State :=
  if s.emeel.head then
    let s1 := s.modEmeel (fun e => { e with follow := v.extractLsb' 0 8 })
    s1.copyToMembers 0x600000C (BitVec.ofNat 32 (s1.emReg 0x0C))
  else s

/-- A route of a bound image uses the port, in either direction (Table 14.6). -/
def State.portInUse (s : State) (p : Nat) : Bool :=
  s.images.any (fun i => i.2.bound.isSome && i.2.mesh.any (fun m =>
    (if m.direction = 0 then s.emeel.portTo m.peerDevice else s.emeel.portFrom m.peerDevice) == some p))

/-- A port that trains anew is down until its training ends (R349). -/
def State.portDown (s : State) (p : Nat) : State :=
  s.modEmPort p (fun x => { x with up := false, lanesUp := 0, neighbour := none })

/-- A write of 1 to RETRAIN (R367). -/
def State.retrainPort (s : State) (p : Nat) : State :=
  if s.portInUse p then s.raise Ev.emConfigRejected {} else s.portDown p

def State.writePortCfg (s : State) (p : Nat) (v : Word) : State :=
  let s1 := s.modEmPort p (fun x => { x with enable := v.getLsbD 31 })
  let s2 := if v.getLsbD 31 then s1 else s1.portDown p
  if v.getLsbD 30 then s2.retrainPort p else s2

/-- End a window access without an answer (R364). -/
def State.windowFails (s : State) (write : Bool) : State :=
  let s1 := (s.modEmeel (fun e => { e with window := none })).raise Ev.emRemoteTimeout {}
  if write then s1 else s1.emit (.readValue 0xFFFFFFFF)

/-- An access of the remote window at offset o of its 4 MiB (R364). -/
def State.windowAccess (s : State) (write : Bool) (o : Nat) (v : Word) : State :=
  let e := s.emeel
  if !e.rwinEnable then (if write then s else s.emit (.readValue 0))
  else
    let dev := e.rwinDevice.toNat
    let at_ := e.rwinPage.toNat * 0x400000 + o
    match e.portTo dev with
    | none => s.windowFails write
    | some p =>
      if !(s.emPort p).up then s.windowFails write
      else
        let s1 := s.modEmeel (fun e => { e with window := some (write, dev, at_, v, s.now) })
        (s1.emit (.windowAccess dev write at_ v)).sendFlit dev .register at_ (boolNat write) (BitVec.ofNat 512 v.toNat) 0

def State.emWrite (s : State) (o : Nat) (v : Word) : State :=
  if 0x1000 ≤ o ∧ o < 0x1100 then
    let p := (o - 0x1000) / 0x40
    match o % 0x40 with
    | 0 => s.writePortCfg p v
    | 4 => s.modEmPort p (fun x => { x with retryLate := w1c x.retryLate v 1, linkDown := w1c x.linkDown v 0 })
    | _ => s
  else if 0x400000 ≤ o ∧ o < 0x800000 then s.windowAccess true (o - 0x400000) v
  else match o with
    | 0x04 => s.writeMeshCfg v
    | 0x08 => s.modEmeel (fun e => { e with wiringError := w1c e.wiringError v 29 })
    | 0x0C => s.writeTickFollow v
    | 0x20 => s.modEmeel (fun e => { e with rwinEnable := v.getLsbD 31, rwinDevice := v.extractLsb' 24 6, rwinPage := v.extractLsb' 0 6 })
    | _ => s

/-! ## PW (R401, R403, R409) -/

def State.pwRejected (s : State) : State := s.raise Ev.pwConfigRejected {}

def State.writeTdp (s : State) (v : Word) : State :=
  let w := bits v.toNat 9 0
  if s.locked 2 then s.lockViolation 2 0x7000008 v
  else if w < 300 ∨ 850 < w ∨ (tokenShares (s.images.map (·.2)) (w * 1000)).isNone then s.pwRejected
  else (s.modPower (fun p => { p with tdpW := BitVec.ofNat 10 w })).reshare

def State.writeThermal (s : State) (v : Word) : State :=
  let w := bits v.toNat 7 0
  if w < 60 ∨ 100 < w then s.pwRejected
  else s.modPower (fun p => { p with warnC := BitVec.ofNat 8 w, aboveWarn := false })

def State.writeDroop (s : State) (v : Word) : State :=
  let n := bits v.toNat 15 8
  let m := bits v.toNat 7 0
  if n < 16 ∨ m < 10 ∨ 100 < m then s.pwRejected
  else s.modPower (fun p => { p with stepUpFc := BitVec.ofNat 8 n, thresholdMv := BitVec.ofNat 8 m })

def State.pwWrite (s : State) (o : Nat) (v : Word) : State :=
  if 0x100 ≤ o ∧ o < 0x160 then s.modRow ((o - 0x100) / 4) (fun r => { r with deep := w1c r.deep v 31 })
  else match o with
    | 0x08 => s.writeTdp v
    | 0x14 => s.writeThermal v
    | 0x18 => s.modPower (fun p => { p with warning := w1c p.warning v 31, tripped := w1c p.tripped v 30 })
    | 0x20 => s.writeDroop v
    | _ => s

/-! ## DB (R410, R420, R421, Table 17.2) -/

/-- A write of a counter's low word (R410). -/
def State.counterSet (s : State) (jtag : Bool) (o : Nat) (v : Word) : State :=
  s.modDebug (fun d =>
    let stage := if jtag then d.stageJtag else d.stageBar0
    let x := lookD d.counters o {}
    let d1 := { d with counters := put d.counters o (x.written (stage.toNat * 2 ^ 32 + v.toNat)) }
    if jtag then { d1 with stageJtag := 0 } else { d1 with stageBar0 := 0 })

/-- A write of a counter's high word (R410). -/
def State.counterStage (s : State) (jtag : Bool) (o : Nat) (v : Word) : State :=
  s.modDebug (fun d =>
    let x := lookD d.counters o {}
    let d1 := { d with counters := put d.counters o { x with ovf := x.ovfNow || w1c x.ovf v 31 } }
    if jtag then { d1 with stageJtag := v.extractLsb' 0 16 } else { d1 with stageBar0 := v.extractLsb' 0 16 })

/-- A write that needs the unlock (R421). -/
def State.whenOpen (s t : State) : State := if s.debugOpen then t else s.unlockRejected

def State.dbWrite (s : State) (jtag : Bool) (o : Nat) (v : Word) : State :=
  if 0x100000 ≤ o then
    (if !ctrExists (o / 8 * 8) then s
     else if o % 8 < 4 then s.counterSet jtag (o / 8 * 8) v else s.counterStage jtag (o / 8 * 8) v)
  else if 0x40 ≤ o ∧ o < 0xA4 then s.modDebug (fun d => { d with token := put d.token ((o - 0x40) / 4) v })
  else if 0x200 ≤ o ∧ o < 0x260 then s.whenOpen (s.modDebug (fun d => { d with brkEn := put d.brkEn ((o - 0x200) / 4) v }))
  else if 0x300 ≤ o ∧ o < 0x320 then
    s.whenOpen (s.modDebug (fun d => { d with
      pcBrk := put d.pcBrk ((o - 0x300) / 4) (v.getLsbD 31, bits v.toNat 29 28, bits v.toNat 25 16, bits v.toNat 10 0) }))
  else match o with
    | 0xB0 => if v.getLsbD 0 then s.submit else s
    | 0x100 => s.writeHaltCtrl v
    | 0x104 => s.modDebug (fun d => { d with forced := w1c d.forced v 0 })
    | 0x108 => s.modDebug (fun d => { d with peekTile := v.extractLsb' 0 10 })
    | _ => s

/-! ## Register space -/

/-- A write of register space on the BAR0 or the JTAG path. A W1C bit that hardware has set in this fc stays (R9). -/
def State.regWrite (s : State) (jtag : Bool) (o : Nat) (w : Word) : State :=
  let r := o % 0x1000000 / 4 * 4
  let v := s.unhit (o / 4 * 4) w
  match o / 0x1000000 with
  | 0 => s.hfWrite r v
  | 1 => s.shWrite r v
  | 2 => s.stWrite r v
  | 3 => s.adWrite r v
  | 4 => s.rdWrite r v
  | 5 => s.spWrite r v
  | 6 => s.emWrite r v
  | 7 => s.pwWrite r v
  | 8 => s.dbWrite jtag r v
  | _ => s

/-- Doorbell page of a ring through BAR2 (Table 13.4): beside PRODUCER and CONSUMER, which have rows of their own,
only the W1C bits of +0x0C can be written. -/
def State.bar2Write (s : State) (claim ring o : Nat) (w : Word) : State :=
  let v := s.unhit (ringStatus claim ring) w
  if s.host.ready ∧ o = 0xC then
    s.modRing claim ring (fun r => { r with overrun := w1c r.overrun v 1, eventsLost := w1c r.eventsLost v 0 })
  else s

/-- PCIe configuration of function f (R319 to R321, R325), in the places that log 72 gives it: the number of virtual
functions (function 0 alone), the masks of the MSI-X vectors, the size of BAR4. -/
def State.pcieWrite (s : State) (f o : Nat) (w : Word) : State :=
  if !s.power.linkUp then s else
  match o with
  | 0 => if f = 0 ∧ w.toNat < 256 then upTo 255 (fun s i => s.modClaim (i + 1) (fun x => { x with srIov := decide (i + 1 ≤ w.toNat) })) s else s
  | 4 =>
    let m : BitVec 2 := w.setWidth 2
    let due := (s.claim f).msixPending &&& ~~~m
    let s1 := s.modClaim f (fun x => { x with msixMask := m, msixPending := x.msixPending &&& m })
    upTo 2 (fun s v => if due.getLsbD v then s.emit (.msix f v) else s) s1
  | 8 => if 28 ≤ w.toNat ∧ w.toNat ≤ 38 then s.modClaim f (fun x => { x with bar4Log := w.toNat }) else s
  | _ => s

/-- REGISTER_WRITE (R8, R407): an aligned word of register space through BAR0; of the doorbell pages of claim c through
BAR2, which the operand places at 0x1000_0000 + 0x1_0000 c; or of the PCIe configuration of function f, which it
places at 0x1100_0000 + 0x1000 f. -/
def execRegisterWrite (offset : Nat) (value : Word) (s : State) : Result :=
  if offset < 0x10000000 then whenValid (offset % 4 == 0) (s.bar0 (s.regWrite false offset value))
  else if 0x11000000 ≤ offset then
    if s.functionOn (offset / 0x1000 % 256) then
      whenValid (offset % 4 == 0 && decide (offset < 0x11100000)) (s.pcieWrite (offset / 0x1000 % 256) (offset % 0x1000) value)
    else .fault .noAccess
  else if s.functionOn (offset / 0x10000 % 256) then
    whenValid (offset % 4 == 0 && decide (offset < 0x11000000) && decide (8 ≤ offset % 0x1000))
      (s.bar2Write (offset / 0x10000 % 256) (offset / 0x1000 % 16) (offset % 0x1000) value)
  else .fault .noAccess

def execHfTickCfgWrite (d : Nat) (value : Word) (s : State) : Result := whenValid (decide (d < 8)) (s.bar0 (s.writeTickCfg d value))
def execHfTickPeriodWrite (d : Nat) (value : Word) (s : State) : Result := whenValid (decide (d < 8)) (s.bar0 (s.writeTickPeriod d value))
def execHfTickTolWrite (d : Nat) (value : Word) (s : State) : Result := whenValid (decide (d < 8)) (s.bar0 (s.writeTickTol d value))
def execHfLockSetWrite (value : Word) (s : State) : Result := .next (s.bar0 (s.writeLockSet value))
def execHfFaultCfgWrite (value : Word) (s : State) : Result := .next (s.bar0 (s.writeFaultCfg value))
def execAdQuadCfgWrite (q : Nat) (value : Word) (s : State) : Result := whenValid (decide (q < 16)) (s.bar0 (s.writeQuadCfg q value))
def execAdQuadChmapWrite (q : Nat) (value : Word) (s : State) : Result := whenValid (decide (q < 16)) (s.bar0 (s.writeChmap q value))
def execAdDecLineWrite (line : Nat) (value : Word) (s : State) : Result := whenValid (decide (line < 16)) (s.bar0 (s.writeDecLine line value))
def execSpArbCfgWrite (value : Word) (s : State) : Result := .next (s.bar0 (s.writeArbCfg value))
def execSpHoistCfgWrite (h : Nat) (value : Word) (s : State) : Result := whenValid (decide (h < 32)) (s.bar0 (s.writeHoistCfg h value))
def execPwTdpCfgWrite (value : Word) (s : State) : Result := .next (s.bar0 (s.writeTdp value))
def execPwThermalCfgWrite (value : Word) (s : State) : Result := .next (s.bar0 (s.writeThermal value))
def execPwDroopCfgWrite (value : Word) (s : State) : Result := .next (s.bar0 (s.writeDroop value))

/-! Reads that latch (R15, R345, R371, R367). -/

def execHfTickCountLoRead (d : Nat) (s : State) : Result := whenValid (decide (d < 8)) (s.readBar0 (0x10010 + 0x40 * d))
def execJournalHeadLoRead (claim : Nat) (s : State) : Result := whenValid (decide (claim < 256)) (s.readBar0 (0x20008 + 0x40 * claim))
def execHfSeqLoRead (s : State) : Result := .next (s.readBar0 0x20)
def execHfEventSeqLoRead (s : State) : Result := .next (s.readBar0 0x30008)
def execEmTimeLoRead (s : State) : Result := .next (s.readBar0 0x6000010)

/-! Counters by the DB offset of their low word (R410, R412). -/

/-- A low word of a counter. -/
def ctrLow (o : Nat) : Bool := o % 8 == 0 && decide (0x100000 ≤ o) && ctrExists o

def counterLowReadDo (jtag : Bool) (offset : Nat) (s : State) : State :=
  if jtag then
    (s.regLatch true (0x8000000 + offset)).modDebug (fun d => { d with
      jtagData := s.regView true (0x8000000 + offset), jtagRefused := false })
  else s.readBar0 (0x8000000 + offset)

def execCounterLowRead (jtag : Bool) (offset : Nat) (s : State) : Result := whenValid (ctrLow offset) (counterLowReadDo jtag offset s)

def execCounterHighWrite (jtag : Bool) (offset : Nat) (value : Word) (s : State) : Result :=
  whenValid (ctrLow offset) (if jtag then s.counterStage true offset value else s.bar0 (s.counterStage false offset value))

def execCounterLowWrite (jtag : Bool) (offset : Nat) (value : Word) (s : State) : Result :=
  whenValid (ctrLow offset) (if jtag then s.counterSet true offset value else s.bar0 (s.counterSet false offset value))

/-! ## JTAG (R422) -/

/-- Without SCOPE bit 1, DBACC reaches only the first 256 bytes of the DB block. -/
def State.dbaccOk (s : State) (o : Nat) : Bool :=
  (s.unlocked && bitAt s.scope 1) || (decide (0x8000000 ≤ o) && decide (o < 0x8000100))

/-- One DBACC update: bit 63 WRITE, bits 59 to 32 the offset, bits 31 to 0 the data. A refused read shifts out a
free value. -/
def dbaccDo (value : DWord) (s : State) : State :=
  let o := bits value.toNat 59 32
  let v : Word := value.extractLsb' 0 32
  let w := value.getLsbD 63
  if s.dbaccOk o then
    (if w then (s.regWrite true o v).modDebug (fun d => { d with jtagData := v, jtagRefused := false })
     else (s.regLatch true o).modDebug (fun d => { d with jtagData := s.regView true o, jtagRefused := false }))
  else (s.modDebug (fun d => { d with jtagData := if w then v else BitVec.ofNat 32 s.drawn, jtagRefused := true })).draw

def execDbacc (value : DWord) (s : State) : Result := whenValid (bits value.toNat 33 32 == 0) (dbaccDo value s)

end Sys2Proof.Machine
end

