-- ==== Sys2Proof/Machine/Fault.lean ====
section
/-! DEFINITION. Faults: reports of checkers and what answers them, slot replay, retirements, the replacement and
the loss of a tile (chapter 15, R52, R98, R262, R294, R352, R383). -/

namespace Sys2Proof.Machine

/-! ## Slot replay (R189, R373) -/

/-- A thread that a replay restores: it has issued since its checkpoint. One that an illegal instruction halted
stays halted (R175). -/
def Thread.replayed (x : Thread) : Bool := x.issued && (x.mode == .running || x.mode == .halted || x.mode == .debug)

/-- Pushes of a port that stay: those its last COMMIT covers, but none of a stopped unit. -/
def Tile.keptPushes (x : Tile) (p : Nat) (port : Port) : Nat :=
  let moves := (x.moves.filter (fun m => m.push && m.port == p)).map (fun m => m.upTo - m.count)
  let oqs := (x.macs.filter (fun m => m.kind == .oq && m.upTo != 0 && oPort m.word == p)).map (fun m => m.upTo - oqPushes m.word)
  (moves ++ oqs).foldl min port.committed

/-- A unit that a COMMIT already covers is stopped: the thread does not repeat it, so the stage misses. -/
def Tile.losesCommitted (x : Tile) : Bool :=
  x.ports.any (fun q => decide (x.keptPushes q.1 q.2 < q.2.committed))
    || x.moves.any (fun m => !m.push && (match look x.ports m.port with
      | some q => decide (m.upTo ≤ q.committed)
      | none => false))

/-- R189 on one port. -/
def State.rewindPort (s : State) (t p keep : Nat) (port : Port) : State :=
  if port.output then s.discardPort t p keep
  else
    let k := s.portSkip t p
    let fc := s.rowFc t
    s.modSkip k (fun y => y.rewind port.committed fc)

/-- A lock request of a thread that no longer waits is withdrawn. -/
def State.dropRequests (s : State) (t th : Nat) : State :=
  match (s.thread t th).wait with
  | .lock st _ => s.modTile (s.physical st) (fun x => { x with
      lockReqs := x.lockReqs.filter (fun q => !(q.2.1 == t && q.2.2.1 == th)) })
  | _ => s

/-- Restore one thread from its checkpoint, with its ports. Where a COMMIT on one port since then stays in force, or the
slot overwrote what it had read, what the thread does from now on has unspecified results (R190, R375). -/
def State.restoreThread (s : State) (t th fc : Nat) : State :=
  let u := lookD (s.tile t).slots th {}
  let s1 := ((s.breakLock t th).dropRequests t th).modTile t (fun x => { x with
    slots := put x.slots th { again := u.stores ++ u.again } })
  s1.modThread t th (fun x => { x with
    mode := if x.mode = .debug then .debug else .running, wait := .none, regs := x.checkpoint, issued := false
    readyAt := fc, busy := [], await := [], passBreak := false, unsure := x.unsure || x.midCommit || u.broken, midCommit := false })

/-- Steps 1 and 2 of R373 on one tile; the threads it restores wait in `restart`. -/
def State.stopTile (s : State) (t : Nat) : State :=
  let x := s.tile t
  let ths := (List.range 4).filter (fun th => (x.thread th).replayed)
  let s1 := s.stopUnits t (fun _ => true)
  let s2 := x.ports.foldl (fun s q =>
    if ths.contains q.2.thread || decide (x.keptPushes q.1 q.2 < q.2.committed)
    then s.rewindPort t q.1 (x.keptPushes q.1 q.2) q.2 else s) s1
  let s3 := ths.foldl (fun s th => s.restoreThread t th (s.rowFc t + 16)) s2
  let s4 := if x.losesCommitted then s3.mustMiss t else s3
  s4.modTile t (fun y => { y with restart := ths })

/-- A tick of the tile's real-time pipeline takes effect in this very fc (R389). -/
def State.tickNow (s : State) (t : Nat) : Bool :=
  match s.tilePipe t with
  | some p => s.tileRealtime t && (s.dom (p / 32)).running && (s.dom (p / 32)).lastTick == s.now
  | none => false

/-- Slot replay of a tile, or of its lockstep group (R373): step 3 makes due retirements ready. A claim that
drains replays nothing (R389). -/
def State.replay (s : State) (t key cause : Nat) : State :=
  if !(s.tile t).enabled || s.tickNow t || (s.claim (s.tile t).claim).state == .draining then s
  else
    (s.groupOf t).foldl (fun s u =>
      let fc := s.rowFc u
      ((s.stopTile u).modTile u (fun x => { x with
        restartAt := some (fc + 16), retryOf := some key, replayFc := fc, missCause := some cause })).boundary u) s

def replayRestartOk (t : Nat) (s : State) : Bool :=
  let x := s.tile t
  decide (t < 768) && !x.spareLoading && !x.spareLoaded && (match x.restartAt with
    | some d => decide (d ≤ s.rowFc t)
    | none => false)

/-- REPLAY_RESTART (R373): the restored threads of the tile and of its group issue again. -/
def replayRestartDo (t : Nat) (s : State) : State :=
  let s1 := (s.groupOf t).foldl (fun s u => (s.modTile u (fun x => { x with restartAt := none })).boundary u) s
  ((s1.countTile t 13 1).raise Ev.slotReplayed { (s1.tileEv t) with cause := none })

def execReplayRestart (t : Nat) (s : State) : Result := whenDue (replayRestartOk t s) (replayRestartDo t s)

/-! ## Loss and replacement of a tile (R377 to R382) -/

/-- TILE_LOST (R378). -/
def State.loseTile (s : State) (t : Nat) : State :=
  if (s.tile t).lost then s
  else (s.raise Ev.tileLost (s.tileEv t)).modTile t (fun x => { x with lost := true })

/-- Position of the spare that covers a position (R36). -/
def spareFor (t : Nat) : Option Nat :=
  if isSpare t then none
  else if kindOf t = 3 then some (t / 32 * 32 + 15)
  else if kindOf t = 2 then some (fSpareOf (t / 32))
  else none

/-- A skip's times on its consumer's side, moved from one row clock to another. -/
def Skip.retime (k : Skip) (a b : Nat) : Skip :=
  let f (d : Nat) : Nat := d + b - a
  { k with fly := k.fly.map (fun e => { e with due := f e.due }), marks := k.marks.map (fun m => (m.1, f m.2))
           discards := k.discards.map (fun m => (m.1, f m.2)), fetches := k.fetches.map f, freshAt := f k.freshAt }

/-- A skip's times on its producer's side. -/
def Skip.retimeCredit (k : Skip) (a b : Nat) : Skip :=
  { k with creditFly := k.creditFly.map (fun c => (c.1, c.2 + b - a)), creditAt := k.creditAt + b - a }

def Thread.retime (x : Thread) (a b : Nat) : Thread := { x with readyAt := x.readyAt + b - a, busy := [] }

/-- Copy n bytes at window offset o of a position to the same offset of another. -/
def State.copyWindow (s : State) (t p o n : Nat) : State := s.writeBytes (tileAddr p o) (s.readBytes (tileAddr t o) n)

/-- Step 3 of R379 on memory: what the headframe's copy covers is written, the rest is marked unwritten. -/
def State.loadSpare (s : State) (t p id : Nat) (h : Nat) : State :=
  let s1 := s.copyWindow t p 0xF0000 0x8000
  let s2 := if kindOf p = 3 then
      ((s1.copyWindow t p 0x40000 0x2000).markRange (tileAddr p 0) 0x28000).markRange (tileAddr p 0x30000) 0x8000
    else s1.markRange (tileAddr p 0) 0x10000
  ((s.image h).copy.filter (fun c => c.1 == id && decide (c.2.1 < 0x40000))).foldl
    (fun s c => s.writeBytes (tileAddr p c.2.1) [c.2.2]) s2

/-- The leaf of a tile window, moved to the spare's window (R380). -/
def moveLeaf (t p : Nat) (e : DWord) : DWord :=
  let a := leafAddr e
  if isWindow a && windowTile a == t then BitVec.ofNat 64 (e.toNat - a + tileAddr p (windowOff a)) else e

/-- First byte of the descriptor in which offset o of a list lies. -/
def descStart : List Desc → Nat → Nat → Nat
  | [], _, at_ => at_
  | d :: r, o, at_ => if o < d.total then at_ else descStart r (o - d.total) (at_ + d.total)

/-- A running stream after the move of a window (R380): its bursts reach the spare, and a FILL into the replaced
tile resumes from the first byte of its descriptor. -/
def State.moveStream (s : State) (t p : Nat) (x : Stream) : Stream :=
  let move (a : Nat) : Nat := if isWindow a && windowTile a == t then tileAddr p (windowOff a) else a
  let x1 := { x with bursts := x.bursts.map (fun b => { b with src := move b.src, dst := move b.dst })
                     dst := x.dst.map (fun d => if d.phys then { d with addr := move d.addr } else d) }
  match placeAt x.dst 0 x.progress with
  | some b =>
    let hit := match (if b.desc.phys then some b.desc.addr else (s.translate x.claim b.desc.addr true).map Phys.addr) with
      | some a => isWindow a && windowTile a == t
      | none => false
    if b.desc.fill && hit then
      let o := descStart x.dst x.progress 0
      { x1 with next := o, bursts := x1.bursts.filter (fun b => decide (b.offset < o)) }
    else x1
  | none => x1

/-- R380: translations, cached copies and hoist streams follow the tile. -/
def State.moveWindow (s : State) (t p : Nat) : State :=
  let s1 := s.modSump (fun x => { x with
    hoists := x.hoists.map (fun h => (h.1, { h.2 with running := h.2.running.map (s.moveStream t p) }))
    cache := x.cache.filter (fun c => !(isWindow (leafAddr c.2.2) && windowTile (leafAddr c.2.2) == t)) })
  s1.modHost (fun h => { h with claims := h.claims.map (fun c => (c.1, { c.2 with
    pages := c.2.pages.map (fun q => (q.1, moveLeaf t p q.2)), bigPages := c.2.bigPages.map (fun q => (q.1, moveLeaf t p q.2)) })) })

/-- Step 2 of R379: the logical id maps to the spare, which takes over what the tile was doing; retirements and
sticky bits stay with their positions. -/
def State.moveTile (s : State) (t p : Nat) (warm : Bool) : State :=
  let x := s.tile t
  let y := s.tile p
  let a := s.rowFc t
  let b := s.rowFc p
  let depth := (s.image x.image).depth
  let new : Tile := { x with
    activeBank := x.activeBank, degraded := x.enabled && !warm, halfA := .free, halfB := .free, fillA := 0, fillB := 0, fillTotalA := 0, fillTotalB := 0
    lockBroken := y.lockBroken, swapFailed := y.swapFailed, illegal := y.illegal
    threads := x.threads.map (fun q => (q.1, q.2.retime a b)), issueFc := b, bellFly := x.bellFly.map (fun q => (q.1, q.2.1, q.2.2 + b - a))
    rowScale := [], scratch := x.scratch.map (fun q => { q with due := q.due + b - a })
    tickDue := x.tickDue.map (· + b - a), shiftFc := x.shiftFc.map (· + b - a), restartAt := none
    columnRetired := y.columnRetired, copiesMasked := y.copiesMasked, lanesRetired := y.lanesRetired, bankReplaced := y.bankReplaced
    remaps := y.remaps, skipEndsMoved := y.skipEndsMoved, spareLoading := true, spareLoaded := false, graceTicks := depth }
  let old : Tile := { mapped := false, logical := x.logical, replaced := true, activeBank := x.activeBank, lockBroken := x.lockBroken
                      swapFailed := x.swapFailed, illegal := x.illegal, columnRetired := x.columnRetired
                      copiesMasked := x.copiesMasked, lanesRetired := x.lanesRetired, bankReplaced := x.bankReplaced
                      remaps := x.remaps, skipEndsMoved := x.skipEndsMoved }
  let s1 := (s.setTile p new).setTile t old
  { s1 with skips := s1.skips.map (fun q =>
      let k1 := if q.2.cfg.valid && q.2.cfg.consumer == x.logical then q.2.retime a b else q.2
      (q.1, if (q.2.cfg.producer.map (·.1)) == some x.logical then k1.retimeCredit a b else k1)) }

/-- Ports, bells and routes of an image, as its positions now stand. -/
def State.rebind (s : State) (h : Nat) : State :=
  let x := s.image h
  let s1 := x.tiles.foldl (fun (s : State) (r : TileRec) =>
    let t := s.physical r.tile
    let bells := s.bellsFor x r
    let ports := s.portsFor h x r (s.tile t).ports
    if (s.tile t).image = h then s.modTile t (fun y => { y with ports := ports, bells := bells }) else s) s
  x.skips.foldl (fun (s : State) (k : SkipRec) => if (s.skip k.id).cfg.image = h then s.skipEnds h k else s) s1

/-- The replacement needs no degraded flag: the image keeps the spare warm for this tile (R381). -/
def Image.warmFor (x : Image) (id : Nat) : Bool := bitAt x.flags 2 && x.tiles.any (fun r => r.tile == id && bitAt r.flags 1)

/-- Replace a failed tile by a spare (R379, R380). -/
def State.replaceTile (s : State) (t p : Nat) : State :=
  let x := s.tile t
  let cause := s.faults.eventSeq
  let s0 := s.raise Ev.tileReplaced (s.tileEv t)
  let s1 := s0.stopTile t
  let s2 := s1.moveWindow t p
  let s3 := ((s2.moveTile t p ((s.image x.image).warmFor x.logical)).loadSpare t p x.logical x.image).rebind x.image
  let s4 := s3.modRow (t / 32) (fun r => { r with waiting := r.waiting.filter (fun w => w.1 != t) })
  (s4.modTile p (fun y => { y with missCause := some cause })).repower

/-- A tile fails: its spare takes over, or it is lost (R377, R378). -/
def State.failTile (s : State) (t : Nat) : State :=
  if (s.tile t).replaced then s
  else
    let s1 := s.modFaults (fun f => { f with retires := f.retires.filter (fun r => r.tile != some t) })
    match spareFor t with
    | some p => if (s.tile p).mapped || (s.tile p).lost || (s.tile t).lost then s1.loseTile t else s1.replaceTile t p
    | none => s1.loseTile t

def spareLoadCompleteOk (t : Nat) (s : State) : Bool :=
  decide (t < 768) && (s.tile t).spareLoading && !(s.row (t / 32)).powering

/-- SPARE_LOAD_COMPLETE (R379): the spare is loaded; its threads wait for the next slot boundary. -/
def execSpareLoadComplete (t : Nat) (s : State) : Result :=
  whenDue (spareLoadCompleteOk t s) (s.modTile t (fun x => { x with spareLoading := false, spareLoaded := true, restartAt := none }))

def spareRestartOk (t : Nat) (s : State) : Bool :=
  decide (t < 768) && (s.tile t).spareLoaded && (s.tile t).restartAt.isSome

/-- SPARE_RESTART (R379): a slot mark or tick has come since the load; the threads issue again. -/
def execSpareRestart (t : Nat) (s : State) : Result :=
  whenDue (spareRestartOk t s) ((s.modTile t (fun x => { x with spareLoaded := false, restartAt := none })).boundary t)

/-! ## Retirements (R376, R377) -/

/-- Remap table of a tile memory word: its key, and its entries (Table 15.1). Memories without spare lines have
none. -/
def remapTable (t : Nat) (u : TileUnit) (o : Nat) : TileUnit × Nat × Nat :=
  if kindOf t = 1 then (.data, bits o 8 6, 16)
  else if kindOf t = 3 ∧ u = .weight then (.weight, 0, 8)
  else if kindOf t = 3 ∧ u = .window then (.window, 0, 8)
  else if kindOf t = 2 ∧ u = .localStore then (.localStore, 0, 8)
  else (u, 0, 0)

def State.startCopy (s : State) (r : FaultReport) (n : Nat) : State :=
  s.modFaults (fun f => { f with retires := f.retires.map (fun x =>
    if reportKey x.report == reportKey r then { x with copying := true, doneAt := s.now + n } else x) })

/-- Remap one line of a table of n entries, or escalate (R377). -/
def State.remapLine (s : State) (r : FaultReport) (t : Nat) (u : TileUnit) (b n line : Nat) (full : State → State) : State :=
  let used := ((s.tile t).remaps.filter (fun q => q.1 == u && q.2.1 == b)).length
  if n ≤ used then full s
  else ((s.modTile t (fun x => { x with remaps := x.remaps ++ [(u, b, line)] })).raise Ev.lineRemapped
    { (s.tileEv t) with locSub := line % 4096 }).startCopy r 8

/-- A failed S-tile bank goes to the spare bank; a second one fails the tile. -/
def State.replaceBank (s : State) (r : FaultReport) (t b : Nat) : State :=
  if (s.tile t).bankReplaced.isSome then s.failTile t
  else ((s.modTile t (fun x => { x with
      bankReplaced := some b, remaps := x.remaps.filter (fun q => !(q.1 == .data && q.2.1 == b)) })).raise Ev.bankReplaced
    { (s.tileEv t) with locSub := b }).startCopy r 1280

def State.retireWord (s : State) (r : FaultReport) (t : Nat) (u : TileUnit) (o : Nat) : State :=
  let k := remapTable t u o
  s.remapLine r t k.1 k.2.1 k.2.2 (o / 64) (fun s =>
    if kindOf t = 1 then s.replaceBank r t k.2.1 else s.failTile t)

/-- Leaves of a claim that map single pages of the sump, as first CVAs. -/
def Claim.singlePages (x : Claim) : List Nat :=
  let single (e : DWord) : Bool := leafValid e && !leafDual e && decide (leafAddr e < sumpTop)
  (x.pages.filter (fun p => single p.2)).map (fun p => p.1 * 0x10000)
    ++ (x.bigPages.filter (fun p => single p.2)).map (fun p => p.1 * 0x200000)

/-- Retire a stack (R294, R377): every single page of the sump has bytes in it. -/
def State.retireStack (s : State) (k pc : Nat) : State :=
  if s.sump.retired.getD k false then s
  else
    let ev (c a : Nat) : EvArgs := { claim := c, locKind := 3, loc := pc, addr := a }
    let first (c : Nat) : Option Nat := (match (s.claim c).singlePages with
      | a :: r => some (r.foldl min a)
      | [] => none)
    let s1 := (s.modSump (fun x => { x with retired := x.retired.set k true })).raise
      Ev.stackRetired (ev 0 ((first 0).getD 0))
    (List.range 255).foldl (fun s i => match first (i + 1) with
      | some a => s.raise Ev.stackRetired (ev (i + 1) a)
      | none => s) s1

/-- Retire a sump line, or its pseudo-channel's stack when its table of 64 is full. -/
def State.retireSumpLine (s : State) (a : Nat) : State :=
  let pc := pseudoChannel a
  if 64 ≤ (s.sump.remaps.filter (fun l => pseudoChannel (64 * l) == pc)).length then s.retireStack (stackOf a) pc
  else ((s.modSump (fun x => { x with remaps := x.remaps ++ [a / 64] })).count 11 pc 4 1).raise Ev.sumpLineRemapped
    { locKind := 3, loc := pc }

/-- Retire a lane of an Emeel port (R352): three-lane mode, or, for a second lane, the port goes down. -/
def State.retireEmeelLane (s : State) (p l : Nat) : State :=
  let x := s.emPort p
  let ev : EvArgs := { locKind := 6, locSub := l, loc := p }
  let bit : BitVec 4 := BitVec.ofNat 4 (2 ^ l)
  if x.retired.getLsbD l then s
  else
    let s1 := s.modEmPort p (fun x => { x with retired := x.retired ||| bit, lanesUp := x.lanesUp &&& ~~~bit, degraded := true })
    if x.retired = 0 then s1.raise Ev.emeelLaneRetired ev
    else (((s1.portDown p).modEmPort p (fun x => { x with linkDown := true })).hit (emPortStatus p) 0).raise Ev.emeelLinkDown ev

/-- Retire a detector lane (R262). -/
def State.retireLane (s : State) (l : Nat) : State :=
  if (s.lane l).retired then s
  else ((s.endOpen l).modLane l (fun x => { x with retired := true, up := false })).laneEventDown l

/-- What one retirement does (Table 15.1, R376, R377). -/
def State.retireUnit (s : State) (r : FaultReport) : State :=
  match r with
  | .residue t c =>
    match (s.tile t).columnRetired with
    | some d => if c = d then s else s.failTile t
    | none => (s.modTile t (fun x => { x with columnRetired := some c })).raise Ev.columnRetired { (s.tileEv t) with locSub := c }
  | .rescale t => s.failTile t
  | .sram t u o _ => s.retireWord r t u o
  | .sramRead t u o _ _ => s.retireWord r t u o
  | .program t _ w _ => s.remapLine r t .config (boolNat (s.tile t).activeBank) 8 (w / 8) (fun s => s.failTile t)
  | .seqVote t c =>
    if (s.tile t).copiesMasked.contains c then s
    else if !(s.tile t).copiesMasked.isEmpty then s.failTile t
    else (s.modTile t (fun x => { x with copiesMasked := [c] })).raise Ev.seqCopyRetired { (s.tileEv t) with locSub := c }
  | .skipEnd k tail _ =>
    let t := s.skipPos k
    if 2 ≤ (s.tile t).skipEndsMoved then s.failTile t
    else (s.modTile t (fun x => { x with skipEndsMoved := x.skipEndsMoved + 1 })).raise Ev.skipEndRetired
      { (s.skipEv k) with locSub := boolNat tail }
  | .fnLane t u l =>
    if (s.tile t).lanesRetired.contains (4096 * u + l) then s
    else if (s.tile t).lanesRetired.any (fun x => x / 4096 == u) then s.failTile t
    else (s.modTile t (fun x => { x with lanesRetired := x.lanesRetired ++ [4096 * u + l] })).raise Ev.fnLaneRetired
      { (s.tileEv t) with locSub := l }
  | .ucieLane l => (s.modAdit (fun a => { a with ucieRepaired := l :: a.ucieRepaired, ucieRetry := a.ucieRetry.filter (· != l) })).raise
      Ev.ucieLaneRepaired { locKind := 5, loc := l }
  | .emeelLane p l _ => s.retireEmeelLane p l
  | .sump a _ => s.retireSumpLine a
  | .riddleParity _ _ _ => s
  | .detectorLane l => s.retireLane l
  | .shaftSwitch t => s.loseTile t

def Retire.effectDue (r : Retire) (now : Nat) : Bool := r.ready && !r.copying && decide (r.doneAt ≤ now)
def Retire.copyDue (r : Retire) (now : Nat) : Bool := r.copying && decide (r.doneAt ≤ now)

/-- Forget the retirement of a location, unless its copy goes on. -/
def State.settleRetire (s : State) (key : Nat) : State :=
  s.modFaults (fun f => { f with retires := f.retires.filter (fun x => x.copying || reportKey x.report != key) })

/-- RETIREMENT_EFFECT (R376): the oldest decided retirement whose slot boundary has come takes effect. -/
def retirementEffectDo (s : State) : State :=
  match s.faults.retires.find? (fun r => r.effectDue s.now) with
  | some r => (s.retireUnit r.report).settleRetire (reportKey r.report)
  | none => s

def execRetirementEffect (s : State) : Result :=
  whenDue (s.faults.retires.any (fun r => r.effectDue s.now)) (retirementEffectDo s)

/-- RETIREMENT_COPY_COMPLETE (R376): the oldest copy that is due ends. -/
def retirementCopyCompleteDo (s : State) : State :=
  match findAt (fun r => r.copyDue s.now) s.faults.retires with
  | some (i, _) => s.modFaults (fun f => { f with retires := dropAt f.retires i })
  | none => s

def execRetirementCopyComplete (s : State) : Result :=
  whenDue (s.faults.retires.any (fun r => r.copyDue s.now)) (retirementCopyCompleteDo s)

/-! ## Uncorrectable data (R383) -/

/-- A line of the weight store is rewritten from the headframe's copy; a fold half is filled by its streams. -/
def State.restoreLine (s : State) (t o : Nat) : State :=
  let x := s.tile t
  if x.fold then s
  else
    let lo := o / 64 * 64
    ((s.image x.image).copy.filter (fun c => c.1 == x.logical && decide (lo ≤ c.2.1) && decide (c.2.1 < lo + 64))).foldl
      (fun s c => s.writeBytes (tileAddr t c.2.1) [c.2.2]) s

/-- Place of a window offset of an S-tile in a hold's ring. -/
def ringPlace : List (Nat × Nat × Nat) → Nat → Nat → Nat → Option Nat
  | [], _, _, _ => none
  | (t, off, len) :: r, id, o, at_ =>
    if t = id ∧ off ≤ o ∧ o < off + len then some (at_ + (o - off)) else ringPlace r id o (at_ + len)

/-- Copies behind n lost ones of a pipeline take their places in its event store. -/
def State.replaceLost (s : State) (x : Pipe) (n : Nat) : State :=
  match (s.image x.image).eventStore with
  | some r => if n = 0 then s else s.replaceCopies x.claim r.cva
  | none => s

/-- A frame in the hold, or one being copied from it, loses a word: it goes to tailings and is counted, and its
decision word is not changed. -/
def State.loseHeld (s : State) (t o : Nat) : State :=
  let id := (s.tile t).logical
  s.pipes.foldl (fun s q =>
    let hold (k : Nat) : Option Nat := ringPlace (s.skip k).cfg.segments id (o / 8 * 8) 0
    let hit (f : Frame) : Bool := f.held && (match s.hwSkip q.2.image 3 f.channel with
      | some k => (match hold k with
        | some a => ringMeets (s.skip k).cfg.size f.lo f.size a 8
        | none => false)
      | none => false)
    let n := (q.2.frames.filter hit).length
    let s1 := (s.modPipe q.1 (fun x => { x with frames := x.frames.map (fun f => if hit f then { f with held := false } else f) })).countPipe
      q.1 2 n
    (s.imageSkips q.2.image).foldl (fun s k => match hold k with
      | some a =>
        let size := (s.skip k).cfg.size
        let h := s.hoist q.2.hoist
        let m := ((h.rt ++ h.running.toList).filter (Stream.losing q.1 k a 8 size)).length
        ((s.modHoist q.2.hoist (fun h => { h with
          rt := h.rt.map (Stream.lose q.1 k a 8 size), running := h.running.map (Stream.lose q.1 k a 8 size) })).replaceLost q.2 m).countPipe q.1 2 m
      | none => s) s1) s

/-- Table 15.5 for a word of tile SRAM that no thread was reading. -/
def State.lostTileWord (s : State) (t : Nat) (u : TileUnit) (o key cause : Nat) : State :=
  match u with
  | .weight => (s.mustMiss t).restoreLine t o
  | .scale => s.mustMiss t
  | .window => s.replay t key cause
  | .bank => s.replay t key cause
  | .localStore => s.replay t key cause
  | .data => s.replay t key cause
  | .config => s
  | .middle => s
  | .scratch => s
  | .hold => s.loseHeld t o

/-- The claim that maps a sump address, and whether the page is dual. -/
def State.sumpOwner (s : State) (a : Nat) : Nat × Bool :=
  if 0xB80000000 ≤ a then (0, true)
  else
    let covers (big : Bool) (e : DWord) : Bool :=
      leafValid e && decide (leafAddr e ≤ a) && decide (a < leafAddr e + pageBytes big * (if leafDual e then 2 else 1))
    match s.host.claims.findSome? (fun c =>
      ((c.2.pages.find? (fun p => covers false p.2)) <|> (c.2.bigPages.find? (fun p => covers true p.2))).map (fun p => (c.1, leafDual p.2))) with
    | some x => x
    | none => (0, false)

/-- An uncorrectable sump word (R294): a dual page rewrites it from its other copy. What a single page, or a
surviving copy alone, held is lost, and so is a word whose two copies are both reported in one fc. -/
def State.lostSumpWord (s : State) (a : Nat) (dual : Bool) : State :=
  let w := a / 8 * 8
  let other := w ^^^ 0x2000
  let s1 := s.modSump (fun x => { x with badWords := (w, s.now) :: x.badWords.filter (fun b => b.2 == s.now && b.1 != w) })
  if dual && s.sump.badWords.contains (other, s.now) then (s1.scramble w 8).scramble other 8
  else if dual && !s.sump.retired.getD (stackOf other) false then
    (s1.writeBytes w (s1.readBytes other 8)).count 11 (pseudoChannel w) 3 1
  else s1.scramble w 8

/-! ## Links -/

/-- A UCIe packet fails its CRC (R368, R370): it is retransmitted, and an error of the retransmission is a failed
retry. -/
def State.ucieError (s : State) (l : Nat) : State :=
  let r : FaultReport := .ucieLane l
  let again := s.adit.ucieRetry.contains l
  let s1 := (s.occur r).1.raise Ev.ucieRetry { locKind := 5, loc := l, retry := again }
  let s2 := s1.modAdit (fun a => { a with ucieRetry := l :: a.ucieRetry.filter (· != l) })
  if again then s2.decideRetire r else s2

/-- UCIE_PACKET_RECEIVED (R368). -/
def uciePacketReceivedDo (lane : Nat) (crcOk : Bool) (s : State) : State :=
  if crcOk then s.modAdit (fun a => { a with ucieRetry := a.ucieRetry.filter (· != lane) }) else s.ucieError lane

def execUciePacketReceived (lane : Nat) (crcOk : Bool) (s : State) : Result :=
  whenValid (decide (lane < 65536)) (uciePacketReceivedDo lane crcOk s)

/-- A retransmission is attributed to an Emeel lane, or the lane loses lock, which is a failed retry (R370). -/
def State.emeelLaneError (s : State) (p l : Nat) (lostLock : Bool) : State :=
  let r : FaultReport := .emeelLane p l lostLock
  let s1 := (s.occur r).1
  if lostLock then s1.decideRetire r else s1

/-! ## FAULT_DETECTION (R368 to R371, R373, R383) -/

/-- Event of a report at a tile. -/
def State.faultEv (s : State) (t sub : Nat) (failed : Bool) : EvArgs := { (s.tileEv t) with locSub := sub % 4096, retry := failed }

/-- A corrected word or copy: counted at its tile and reported folded (R391). -/
def State.corrected (s : State) (r : FaultReport) (t : Nat) (k : EvKind) (e : EvArgs) : State :=
  ((s.countTile t 14 1).raiseFolded (reportKey r) k e).retryNext r

/-- Window offset of a word of the active program bank (R94). -/
def Tile.programOffset (x : Tile) (w : Nat) : Nat := (if x.activeBank then 0xF4000 else 0xF0000) + 8 * w

/-- The response of Table 15.1 and Table 15.5 to one occurrence. -/
def State.respond (s : State) (r : FaultReport) (failed : Bool) : State :=
  let key := reportKey r
  let cause := s.faults.eventSeq
  match r with
  | .residue t c => (s.raise Ev.residueError (s.faultEv t c failed)).replay t key cause
  | .rescale t => (s.raise Ev.rescaleMismatch (s.faultEv t 0 failed)).replay t key cause
  | .sram t u o double =>
    if double then (s.raise Ev.sramEccUncorrectable { (s.faultEv t (o / 64) failed) with addr := tileAddr t o }).lostTileWord t u o key cause
    else s.corrected r t Ev.sramEccCorrected (s.faultEv t (o / 64) failed)
  | .sramRead t _ o reader _ =>
    (s.raise Ev.sramEccUncorrectable { (s.faultEv t (o / 64) failed) with addr := tileAddr t o }).mustMiss reader
  | .program t th w double =>
    if double then
      ((s.raise Ev.programEccUncorrectable { (s.faultEv t (w / 8) failed) with addr := tileAddr t ((s.tile t).programOffset w) }).mustMiss t).modThread
        t th (fun x => if x.mode = .running then { x with wait := .eccWord } else x)
    else (s.corrected r t Ev.programEccCorrected (s.faultEv t (w / 8) failed)).modThread t th (fun x => { x with
      readyAt := max (x.readyAt + 1) (s.rowFc t + 1) })
  | .seqVote t c =>
    if (s.tile t).copiesMasked.contains c then s
    else if (s.tile t).copiesMasked.isEmpty then s.corrected r t Ev.seqVoteCorrected (s.faultEv t c failed)
    else s.replay t key cause
  | .skipEnd k tail double =>
    let e : EvArgs := { (s.skipEv k) with locSub := boolNat tail, retry := failed }
    if !double then s.corrected r (s.skipPos k) Ev.skipEndCorrected e
    else
      let s1 := s.raise Ev.skipEndUncorrectable e
      if tail then (match (s.skip k).cfg.producer with
        | some q => s1.replay (s.physical q.1) key cause
        | none => s1)
      else
        let fc := s.skipFc k
        s1.modSkip k (fun x => { x with headWords := 0, fetches := [] }.refill fc 16)
  | .fnLane t _ l => (s.raise Ev.fnLaneError (s.faultEv t l failed)).replay t key cause
  | .sump a double =>
    let o := s.sumpOwner a
    let e : EvArgs := { claim := o.1, locKind := 3, loc := pseudoChannel a, retry := failed }
    if double then (s.raise Ev.sumpEccUncorrectable { e with addr := a }).lostSumpWord a o.2
    else ((s.count 11 (pseudoChannel a) 3 1).raiseFolded key Ev.sumpEccCorrected e).retryNext r
  | .ucieLane l => s.ucieError l
  | .emeelLane _ _ _ => s
  | .riddleParity _ _ _ => s
  | .detectorLane _ => s
  | .shaftSwitch t => s.loseTile t

/-- A parity error of a riddle memory (R283). -/
def State.parityError (s : State) (q : Nat) : State :=
  (((s.modBlock q (fun x => { x with parity := true, errNext := true })).hit (blockStatus q) 4).count 9 q 5 1).raise Ev.riddleParity (blockEv s q)

def faultDetectionDo (f : FaultReport) (s : State) : State :=
  if s.sameReport f then s
  else match f with
    | .riddleParity q _ _ => s.parityError q
    | .detectorLane l => if (s.lane l).up then laneLosesLockDo l s else (s.occur f).1
    | .ucieLane l => s.ucieError l
    | .emeelLane p l lost => s.emeelLaneError p l lost
    | _ =>
      let o := s.occur f
      o.1.respond f o.2

/-- The report names a unit that the device has. -/
def faultNames (f : FaultReport) : Bool :=
  match f with
  | .residue t c => decide (t < 768) && kindOf t == 3 && decide (c < 33)
  | .rescale t => decide (t < 768) && kindOf t == 3
  | .sram t _ o _ => decide (t < 768) && decide (o < 0x100000)
  | .sramRead t _ o u th => decide (t < 768) && decide (o < 0x100000) && decide (u < 768) && decide (th < 4)
  | .program t th w _ => decide (t < 768) && decide (th < 4) && decide (w < 2048)
  | .seqVote t c => decide (t < 768) && decide (c < 3)
  | .skipEnd k _ _ => decide (k < 61440)
  | .fnLane t u l => decide (t < 768) && kindOf t == 2 && decide (u < 16) && decide (l < 4096)
  | .ucieLane l => decide (l < 65536)
  | .emeelLane p l _ => decide (p < 4) && decide (l < 4)
  | .sump a _ => decide (a < sumpTop)
  | .riddleParity q m w => decide (q < 16) && decide (m < 4) && decide (w < 4096)
  | .detectorLane l => decide (l < 64)
  | .shaftSwitch t => decide (t < 768)

def execFaultDetection (f : FaultReport) (s : State) : Result := whenValid (faultNames f) (faultDetectionDo f s)

/-- PATROL_SCRUB (R388): the patrol reads a word. The state holds no wrong bits, so it finds nothing to correct; a
checker's report of a word it reads is a FAULT_DETECTION. -/
def execPatrolScrub (addr : Nat) (s : State) : Result :=
  whenDue (s.faults.patrolEn && (decide (addr < sumpTop) || isWindow addr)) s

end Sys2Proof.Machine
end

