-- ==== Sys2Proof/Machine/HostCmd.lean ====
section
/-! DEFINITION. WEIGHT_UPDATE, HOIST, RESUME, SCRUB, SNAPSHOT, CAPTURE and COUNTER_READ (R287, R305, R310, R342, R387,
R413, R414). -/

namespace Sys2Proof.Machine

/-! ## HOIST and RESUME -/

def Hoist.queued (h : Hoist) : Nat := h.rt.length + h.be.length + (if h.running.isSome then 1 else 0)

/-- The hoist with the fewest queued streams; the lowest of several. -/
def State.leastHoist (s : State) : Nat :=
  (List.range 32).foldl (fun b h => if (s.hoist h).queued < (s.hoist b).queued then h else b) 0

/-- HOIST (R305, R308): the stream joins the best-effort queue. -/
def hoistDo (c : Cmd) (s : State) : State :=
  let h := if c.arg 16 1 = 0xFF then s.leastHoist else c.arg 16 1
  (s.modHoist h (fun y => { y with
    be := y.be ++ [{ kind := .command c.seq, claim := c.claim, lists := (c.arg 24 8, c.arg 32 8), readyAt := s.now }] })).running c.seq

/-- A HOIST starts when its queue has room (R308). -/
def execHoist (seq : Nat) (s : State) : Result :=
  match s.cmd? seq with
  | some c => if s.hoistFull (c.arg 16 1) then .fault .notDue else s.hostCmd seq 0x0030 hoistDo
  | none => .fault .notDue

/-- RESUME (R310): the stream goes to the head of its queue. -/
def resumeDo (c : Cmd) (s : State) : State :=
  match s.asideOf c with
  | some (h, x) => (s.modHoist h (fun y => { y with aside := y.aside.erase x, be := x :: y.be })).complete c.seq 0
  | none => s.fail c.seq Reason.notFaulted

/-- A RESUME starts when the queue of its hoist has room (R308). -/
def execResume (seq : Nat) (s : State) : Result :=
  match s.cmd? seq with
  | some c => if s.resumeFull c then .fault .notDue else s.hostCmd seq 0x0031 resumeDo
  | none => .fault .notDue

/-! ## WEIGHT_UPDATE (R342) -/

/-- The range lies inside one OWNERSHIP range of use 1 of the image's tile (R426). -/
def Image.weightRange (x : Image) (tile offset length : Nat) : Bool :=
  x.owns.any (fun o => o.tile == tile && o.use == 1 && decide (o.offset ≤ offset) && decide (offset + length ≤ o.offset + o.length))

/-- Bytes that the headframe keeps for a replacement (R379). -/
def State.keepCopy (s : State) (h tile offset : Nat) (bs : List Byte) : State :=
  s.modImage h (fun x => { x with
    copy := x.copy.filter (fun c => !(c.1 == tile && decide (offset ≤ c.2.1) && decide (c.2.1 < offset + bs.length)))
      ++ bs.zipIdx.map (fun b => (tile, offset + b.2, b.1)) })

/-- A whole half of a folding tile is filled through the hoist with the fewest streams (R311). -/
def State.fillByHoist (s : State) (c : Cmd) (t : Nat) : State :=
  let h := s.leastHoist
  if 32 ≤ (s.hoist h).be.length then s.fail c.seq Reason.noResource
  else
    let src : Desc := { addr := c.arg 32 8, length := c.arg 24 4, count := 1, stride := 0, lst := 0xFFFFFF, fill := false }
    let dst : Desc := { addr := tileAddr t (c.arg 20 4), length := c.arg 24 4, count := 1, stride := 0, lst := 0xFFFFFF, fill := true
                        phys := true }
    (s.modHoist h (fun y => { y with
      be := y.be ++ [{ kind := .command c.seq, claim := c.claim, src := [src], dst := [dst], started := true, readyAt := s.now }] })).running c.seq

def weightUpdateDo (c : Cmd) (s : State) : State :=
  let h := c.arg 16 2
  let tile := c.arg 18 2
  let off := c.arg 20 4
  let n := c.arg 24 4
  let x := s.image h
  let t := s.physical tile
  if !s.hasImage c.claim h then s.fail c.seq Reason.badHandle
  else if !x.weightRange tile off n then s.fail c.seq Reason.notPermitted
  else if (s.tile t).fold then
    (if n = halfSize ∧ (off = 0 ∨ off = halfSize) then s.fillByHoist c t else s.fail c.seq Reason.notPermitted)
  else if x.started then s.fail c.seq Reason.busy
  else match s.readCva c.claim (c.arg 32 8) n with
    | none => s.fail c.seq Reason.notMapped
    | some bs => (((s.noteCvaRead c.claim (c.arg 32 8) n).writeBytes (tileAddr t off) bs).keepCopy h tile off bs).complete c.seq 0

def execWeightUpdate (seq : Nat) (s : State) : Result := s.hostCmd seq 0x0026 weightUpdateDo

/-! ## SCRUB (R387) -/

/-- Device physical address of a byte of the range of a SCRUB, where it is mapped or exists. -/
def State.scrubAddr (s : State) (claim : Nat) (physical : Bool) (a : Nat) : Option Nat :=
  if physical then (if a < sumpTop ∨ isWindow a then some a else none)
  else (s.translate claim a false).map Phys.addr

/-- 64 KiB pages, or parts of one, that a range touches: first byte and length. -/
def pagesOf (a n : Nat) : List (Nat × Nat) :=
  if n = 0 then []
  else (List.range ((a + n - 1) / 0x10000 - a / 0x10000 + 1)).map (fun i =>
    let lo := max a ((a / 0x10000 + i) * 0x10000)
    (lo, min (a + n) ((a / 0x10000 + i + 1) * 0x10000) - lo))

/-- Entries in use, and free entries, of the remap tables that cover n bytes from a physical address: 64 for each
pseudo-channel, 16 for each S-tile bank and 8 for any other unit (Table 15.1). -/
def State.remapTables (s : State) (a n : Nat) : List (Nat × Nat) :=
  if isWindow a then
    let t := windowTile a
    let used (u : TileUnit) (b : Nat) : Nat := ((s.tile t).remaps.filter (fun r => r.1 == u && r.2.1 == b)).length
    let table (u : TileUnit) (b m : Nat) : Nat × Nat := (used u b, m - used u b)
    if kindOf t = 1 then (List.range 8).map (fun b => table .data b 16)
    else if kindOf t = 2 then [table .localStore 0 8]
    else if kindOf t = 3 then (if windowOff a < 0x28000 then [table .weight 0 8] else [table .window 0 8]) else []
  else
    let pcs := ((List.range (n / 256 + 2)).map (fun i => pseudoChannel (a + 256 * i))).eraseDups
    pcs.map (fun pc => let u := (s.sump.remaps.filter (fun l => pseudoChannel (64 * l) == pc)).length; (u, 64 - u))

/-- Words of a range that can no longer be read: single pages of a retired stack (R294). -/
def State.lostWords (s : State) (a n : Nat) : List Nat :=
  ((List.range (ceilDiv n 8)).map (fun i => a + 8 * i)).filter (fun w => s.lostByte w)

/-- The state holds no wrong bits: a scrub finds only what is lost for good. -/
def State.scrubSummary (s : State) (claim : Nat) (physical : Bool) (a n : Nat) : List Byte :=
  let parts := pagesOf a n
  let here := parts.filterMap (fun p => (s.scrubAddr claim physical p.1).map (fun q => (p.1, q, p.2)))
  let lost := here.flatMap (fun p => (s.lostWords p.2.1 p.2.2).map (fun w => p.1 + (w - p.2.1)))
  let tables := (here.flatMap (fun p => s.remapTables p.2.1 p.2.2))
  natLE 8 ((here.map (fun p => p.2.2)).foldl (· + ·) 0) ++ natLE 8 0 ++ natLE 8 lost.length
    ++ natLE 8 (lost.headD (2 ^ 64 - 1)) ++ natLE 4 ((tables.eraseDups.map (·.1)).foldl (· + ·) 0)
    ++ natLE 4 (listMin (tables.map (·.2))) ++ natLE 4 0 ++ natLE 4 (parts.length - here.length) ++ zeros 16

def scrubDo (c : Cmd) (s : State) : State :=
  match s.writeCva c.claim (c.arg 32 8) (s.scrubSummary c.claim (bitAt (c.arg 40 1) 0) (c.arg 16 8) (c.arg 24 8)) with
  | some s1 => s1.complete c.seq 0
  | none => s.fail c.seq Reason.notMapped

def execScrub (seq : Nat) (s : State) : Result := s.hostCmd seq 0x0040 scrubDo

/-! ## SNAPSHOT (R414) -/

def snapshotDo (c : Cmd) (s : State) : State :=
  let h := c.arg 16 2
  match s.boundPipe c.claim h with
  | none => s.fail c.seq Reason.badHandle
  | some p =>
    if s.host.snapshot.isSome then s.fail c.seq Reason.busy
    else if (s.dom (p / 32)).past ((s.dom (p / 32)).boundShift (c.arg 24 8)) then s.fail c.seq Reason.tooLate
    else if !s.mapped c.claim (c.arg 40 8) (s.image h).snapshotLength true then s.fail c.seq Reason.notMapped
    else (s.modHost (fun x => { x with snapshot := some (c.seq, none), snapped := [] })).running c.seq

def execSnapshot (seq : Nat) (s : State) : Result := s.hostCmd seq 0x0050 snapshotDo

/-- At the end of an fc, the rows that complete a row fc with it and have not yet done so take the state of their tiles
and of the skips that end there, once the snapshot's moment has come. -/
def State.takeSnapshot (s : State) (stepped : Nat → Bool) : State :=
  match s.host.snapshot with
  | some (seq, some (_, at_)) =>
    match s.cmd? seq with
    | some c =>
      if s.now < at_ then s else
      let x := s.image (c.arg 16 2)
      let new (k row : Nat) : Bool := stepped row && (look s.host.snapped k).isNone
      s.modHost (fun h => { h with snapped := h.snapped
        ++ (x.tileIds.filter (fun i => new (2 * i) (s.physical i / 32))).map (fun i => (2 * i, s.snapTile i))
        ++ (x.skipIds.filter (fun i => new (2 * i + 1) (s.skipPos i / 32))).map (fun i => (2 * i + 1, s.snapSkip i)) })
    | none => s
  | _ => s

/-- Every row of the image has taken its state. -/
def State.snapTaken (s : State) (seq : Nat) : Bool :=
  ((s.cmd? seq).map (fun c =>
    let x := s.image (c.arg 16 2)
    x.tileIds.all (fun i => (look s.host.snapped (2 * i)).isSome) && x.skipIds.all (fun i => (look s.host.snapped (2 * i + 1)).isSome))).getD true

def snapshotLatchOk (s : State) : Bool :=
  match s.host.snapshot with
  | some (seq, some (_, at_)) => decide (at_ ≤ s.now) && s.snapTaken seq
  | _ => false

/-- SNAPSHOT_LATCH (R414, R415). -/
def snapshotLatchDo (s : State) : State :=
  match s.host.snapshot with
  | some (seq, some (n, _)) =>
    let s1 := s.modHost (fun x => { x with snapshot := none, snapped := [] })
    match s.cmd? seq with
    | none => s1
    | some c =>
      let h := c.arg 16 2
      match s1.writeCva c.claim (c.arg 40 8) (s.snapshotRecord h n (c.arg 32 4) ((s.image h).bound.getD 0)) with
      | some s2 => s2.complete seq 0
      | none => s1.fail seq Reason.notMapped
  | _ => s

def execSnapshotLatch (s : State) : Result := whenDue (snapshotLatchOk s) (snapshotLatchDo s)

/-! ## CAPTURE (R287, R288) -/

def captureDo (c : Cmd) (s : State) : State :=
  let q := c.arg 16 1
  let b := s.block q
  match (if b.loaded ∧ b.claim = c.claim then (s.image b.image).bound else none) with
  | none => s.fail c.seq Reason.notPermitted
  | some p =>
    if b.capture.isSome then s.fail c.seq Reason.captureBusy
    else if (s.dom (p / 32)).past ((s.dom (p / 32)).boundShift (c.arg 24 8)) then s.fail c.seq Reason.tooLate
    else if !s.mapped c.claim (c.arg 40 8) 0x4100 true then s.fail c.seq Reason.notMapped
    else
      let n := (s.dom (p / 32)).boundShift (c.arg 24 8)
      let x : RCapture := { seq := c.seq, tree := c.arg 17 1, shift := n, edge := c.arg 32 4, dest := c.arg 40 8, dom := p / 32 }
      (s.modBlock q (fun b => { b with capture := some x, captureBusy := true })).running c.seq

def execCapture (seq : Nat) (s : State) : Result := s.hostCmd seq 0x0051 captureDo

/-! ## COUNTER_READ (R412, R413) -/

/-- Quads that feed a bound pipeline of a claim: by the bypass, by a riddle block, or as the mirror of one (R256, R260). -/
def State.feeds (s : State) (claim q : Nat) : Bool :=
  let one (q : Nat) : Bool :=
    ((s.quad q).bypassBound && ((s.pipe? (32 * (s.quad q).domain.toNat + (s.quad q).pipeline.toNat)).map Pipe.claim) == some claim)
    || ((s.block q).loaded && (s.block q).claim == claim && (s.image (s.block q).image).bound.isSome)
  one q || (decide (8 ≤ q) && (s.quad (q - 8)).mirror && one (q - 8))

/-- Logical tile of A-tile index a (R273). -/
def atileId (a : Nat) : Nat := a / 2 * 32 + 31 * (a % 2)

/-- A loaded image of the claim that satisfies a test. -/
def State.someImage (s : State) (claim : Nat) (f : Image → Bool) : Bool := s.images.any (fun p => p.2.claim == claim && p.2.loaded && f p.2)

/-- Column "Claim may read" of Table 17.1. -/
def State.mayRead (s : State) (claim k i : Nat) : Bool :=
  match k with
  | 0 => s.someImage claim (fun x => x.tiles.any (fun r => r.tile == i))
  | 1 => if 61440 ≤ i then (i - 61440) / 16 == claim else s.someImage claim (fun x => x.skips.any (fun r => r.id == i))
  | 2 => s.someImage claim (fun x => x.tiles.any (fun r => s.physical r.tile / 32 == i))
  | 3 => ((s.pipe? i).map Pipe.claim) == some claim
  | 4 => ((s.pipe? (i / 256)).map Pipe.claim) == some claim
  | 5 => i == claim
  | 7 => s.feeds claim (i / 4)
  | 8 => s.someImage claim (fun x => x.bound.isSome && x.tiles.any (fun r => r.tile == atileId i))
  | 9 => (s.block i).loaded && (s.block i).claim == claim
  | _ => false

/-- Counters of objects i to i + n − 1 of a class, 8 bytes each. -/
def State.counterBytes (s : State) (k i n : Nat) : List Byte :=
  (List.range n).flatMap (fun j => (List.range (ctrPer k)).flatMap (fun c =>
    let x := lookD s.dbg.counters (ctrOff k (i + j) c) {}
    natLE 8 (x.value + boolNat x.ovf * 2 ^ 63)))

def counterReadDo (c : Cmd) (s : State) : State :=
  let k := c.arg 16 2
  let i := c.arg 20 4
  let n := c.arg 24 4
  if c.claim ≠ 0 ∧ !(List.range n).all (fun j => s.mayRead c.claim k (i + j)) then s.fail c.seq Reason.notPermitted
  else match s.writeCva c.claim (c.arg 32 8) (s.counterBytes k i n) with
    | some s1 => s1.complete c.seq 0
    | none => s.fail c.seq Reason.notMapped

def execCounterRead (seq : Nat) (s : State) : Result := s.hostCmd seq 0x0060 counterReadDo

end Sys2Proof.Machine
end

