-- ==== Sys2Proof/Machine/Claims.lean ====
section
/-! DEFINITION. Claim reset, claim close, function-level resets and the self-test command (R33, R202, R337 to R341,
R362, R386). -/

namespace Sys2Proof.Machine

/-! ## Step 1 and step 2 of R338 -/

/-- A command that a reset ends, without its streams. -/
def State.cancel (s : State) (c : Cmd) : State :=
  let units := c.plan.flatMap (fun p => leafUnits p.2 (p.1 % 2 == 1))
  let s1 : State := (s.modSump (fun x => { x with used := x.used.filter (fun u => !units.contains u) })).modClaim c.claim
    (fun x => { x with used := x.used - units.length })
  let s2 : State := match s1.loadingImage c.seq with
    | some h => s1.unloadImage h
    | none => s1
  let s3 : State := s2.modHost (fun h => { h with snapshot := if (h.snapshot.map (·.1)) == some c.seq then none else h.snapshot })
  let s4 : State := upTo 16 (fun s q => if ((s.block q).capture.map RCapture.seq) == some c.seq then s.endCapture q else s) s3
  (s4.modCmd c.seq (fun d => { d with plan := [] })).finish c.seq false Reason.claimReset
    (if c.opcode = 0x0020 then noRecord else 0)

/-- A command that resets the claim: it goes on while the claim drains. -/
def Cmd.resets (c : Cmd) (claim : Nat) : Bool := c.opcode == 0x0002 && c.arg 16 1 == claim

/-- Commands in flight of a claim that its reset ends. -/
def State.toCancel (s : State) (claim : Nat) : List Cmd :=
  s.host.cmds.filter (fun c => c.claim == claim && !c.ended && c.duplicateOf.isNone && !c.resets claim)

/-- A queued or set-aside stream is removed; its command fails with its progress. -/
def State.dropQueued (s : State) (x : Stream) : State :=
  match x.kind with
  | .command seq =>
    let hoisted := ((s.cmd? seq).map Cmd.opcode).getD 0 == 0x0030
    s.finish seq false Reason.claimReset (if hoisted then BitVec.ofNat 128 x.progress else 0)
  | _ => s

/-- Step 2 of R338 on one hoist: outstanding bursts complete, and the claim's streams go. -/
def State.drainHoist (s : State) (claim h : Nat) : State :=
  let y := s.hoist h
  let s1 : State := match y.running with
    | some x =>
      if x.claim = claim then
        let moved := (x.bursts.filter (fun b => !b.done)).foldl (fun (s : State) (u : Burst) =>
          ((s.moveBurst x u).count 6 h 0 u.length).count 6 h 1 1) s
        moved.endStream h { x with bursts := [] } false Reason.claimReset
      else s
    | none => s
  let gone := (y.be ++ y.aside).filter (fun x => x.claim == claim)
  (gone.foldl State.dropQueued s1).modHoist h (fun y => { y with
    rt := y.rt.filter (fun x => x.claim != claim), be := y.be.filter (fun x => x.claim != claim)
    aside := y.aside.filter (fun x => x.claim != claim) })

/-- Requests at the sump ports are withdrawn at the next port-burst boundary. -/
def State.drainPorts (s : State) (claim : Nat) : State :=
  upTo 64 (fun s p => s.modSumpPort p (fun x => { x with
    pending := x.pending.filter (fun r => r.claim != claim || (decide (32 ≤ r.requester) && decide (r.requester ≤ 36)))
    waiting := x.waiting.filter (fun r => r.claim != claim || (decide (32 ≤ r.requester) && decide (r.requester ≤ 36)))
    holder := x.holder.map (fun r => if r.claim = claim then { r with left := 1 } else r) })) s

/-- A claim action for claim t as its entry bytes: the claim at byte 16. -/
def claimEntry (t : Nat) : BitVec 512 := BitVec.ofNat 512 (t <<< 128)

/-- A claim becomes DRAINING (R338): commands fail, streams end, and its pipelines stop at their next tick. An
image that is not bound has no tick to wait for. -/
def State.beginReset (s : State) (t : Nat) : State :=
  let s1 : State := s.modClaim t (fun x => { x with state := .draining, resetAt := s.now })
  let s2 : State := ((upTo 32 (fun s h => s.drainHoist t h) s1).modSump (fun x => { x with
    storeDone := x.storeDone.filter (fun d => d.1 != t) })).drainPorts t
  let s3 : State := (s2.toCancel t).foldl State.cancel s2
  let s4 : State := { s3 with pipes := s3.pipes.map (fun p => (p.1, if p.2.claim = t then { p.2 with ending := true } else p.2)) }
  let loose := (s4.images.filter (fun i => i.2.claim == t && i.2.bound.isNone)).map (·.1)
  let s5 : State := loose.foldl (fun s h => s.haltImage h) s4
  let s6 : State := s5.tellMembers 0x0002 (claimEntry t)
  if s.emeel.head && s.emeel.enumerated then
    s6.modEmeel (fun e => { e with awaiting := e.awaiting ++ (List.range (e.devices - 1)).map (fun i => (t, i + 1)) })
  else s6

/-- Reset a claim that is OPEN; one that already drains goes on draining. -/
def State.resetClaim (s : State) (t : Nat) : State := if (s.claim t).state = .opened then s.beginReset t else s

/-- CLAIM_RESET (R337, R338). -/
def claimResetDo (c : Cmd) (s : State) : State :=
  let t := c.arg 16 1
  if (s.claim t).state = .closed then s.fail c.seq Reason.claimState else (s.resetClaim t).running c.seq

def execClaimReset (seq : Nat) (s : State) : Result := s.hostCmd seq 0x0002 claimResetDo

/-! ## CLAIM_CLOSE (R340) -/

/-- Unmap every page, free rings and journal, empty the tag window: the claim is CLOSED. -/
def State.closeClaim (s : State) (t : Nat) : State :=
  let x := s.claim t
  let units := x.pages.flatMap (fun p => leafUnits p.2 false) ++ x.bigPages.flatMap (fun p => leafUnits p.2 true)
  let s1 : State := s.modSump (fun y => { y with used := y.used.filter (fun u => !units.contains u), cache := y.cache.filter (fun e => e.1 != t) })
  let s2 : State := s1.modClaim t (fun x => { x with
    state := .closed, used := 0, pages := [], bigPages := [], tags := [], held := [], journalHead := 0, nextRing := 0 })
  let s3 : State := upTo 16 (fun s k => s.modRing t k (fun r => r.setUp 0 0 0)) s2
  s3.modHost (fun h => { h with cmds := h.cmds.filter (fun c => c.claim != t) })

/-- CLAIM_CLOSE: an OPEN claim is reset first; one that drains closes when its reset completes. -/
def claimCloseDo (c : Cmd) (s : State) : State :=
  let t := c.arg 16 1
  if s.isMember then s.fail c.seq Reason.notPermitted
  else if (s.claim t).state = .closed then s.fail c.seq Reason.claimState
  else (s.resetClaim t).running c.seq

def execClaimClose (seq : Nat) (s : State) : Result := s.hostCmd seq 0x0003 claimCloseDo

/-! ## CLAIM_RESET_COMPLETE (R202, R338) -/

/-- Remove every entry of a skip; status bits stay (R202). -/
def Skip.flush (k : Skip) : Skip :=
  { k with
    credit := k.cfg.initialCredit, free := k.cfg.size, fly := [], tail := [], tailCommitted := 0, marks := [], discards := []
    words := [], headWords := 0, fetches := [], popWait := [], consumed := [], creditFly := [], dropping := false, fresh := 0, dropNew := false, fillEnds := []
    creditFresh := 0, fillDue := 0, releaseDue := 0, holdAt := 0, timer := 0 }

def claimResetCompleteOk (claim : Nat) (s : State) : Bool :=
  decide (claim < 256) && (s.claim claim).state == .draining && s.pipes.all (fun p => p.2.claim != claim)
    && s.emeel.awaiting.all (fun a => a.1 != claim)

/-- The reset that a function-level reset asked for has no ring entry, and no completion entry (R335). -/
def Cmd.isFlr (c : Cmd) : Bool := c.ring == 0xFF

/-- Indices of every ring of a claim are 0, and untaken entries are gone (R341). -/
def State.clearIndices (s : State) (claim : Nat) : State :=
  upTo 16 (fun s k => s.modRing claim k (fun r => { r with producer := 0, consumer := 0 })) s

/-- CLAIM_RESET_COMPLETE: skips are flushed, images unloaded, and the claim is OPEN again; a CLAIM_CLOSE that waits
for it goes on. -/
def claimResetCompleteDo (claim : Nat) (s : State) : State :=
  let s1 : State := { s with skips := s.skips.map (fun k => (k.1, if k.2.cfg.valid && k.2.cfg.claim == claim then k.2.flush else k.2)) }
  let s2 : State := ((s1.images.filter (fun i => i.2.claim == claim)).map (·.1)).foldl (fun s h => s.unloadImage h) s1
  let s3 : State := (s2.repin claim).reshare
  let took := s3.now - (s3.claim claim).resetAt
  let resets := s3.host.cmds.filter (fun c => c.resets claim && !c.ended && c.duplicateOf.isNone)
  let s4 : State := (resets.filter (fun c => !c.isFlr)).foldl (fun s c => s.complete c.seq (BitVec.ofNat 128 (took % 2 ^ 32))) s3
  let s5 : State := s4.modClaim claim (fun x => { x with state := .opened })
  let s6 : State := if resets.any Cmd.isFlr then
      (((resets.filter Cmd.isFlr).foldl (fun s c => s.journal claim (s.journalRecord c 2 c.seq 0 (BitVec.ofNat 128 (took % 2 ^ 32))))
        s5).clearIndices claim).modHost (fun h => { h with cmds := h.cmds.filter (fun c => !(c.isFlr && c.resets claim)) })
    else s5
  let s7 : State := if s6.isMember then s6.sendFlit 0 .command 0x0002 (1 + 256 * s6.emeel.deviceId.toNat) (claimEntry claim) 0 else s6
  let closes := s7.host.cmds.filter (fun c => c.opcode == 0x0003 && c.arg 16 1 == claim && c.state == .running)
  if closes.isEmpty then s7
  else
    let s8 : State := (s7.closeClaim claim).tellMembers 0x0003 (claimEntry claim)
    closes.foldl (fun s c => s.complete c.seq 0) s8

def execClaimResetComplete (claim : Nat) (s : State) : Result :=
  whenDue (claimResetCompleteOk claim s) (claimResetCompleteDo claim s)

/-! ## Function-level resets (R341) -/

/-- FLR of one claim: its reset has an ACCEPTED record, its untaken entries are discarded, and it resets (R335,
R341). A claim whose FLR is under way goes on with it. -/
def State.flrClaim (s : State) (claim : Nat) : State :=
  if (s.claim claim).state = .closed then s
  else if s.host.cmds.any (fun d => d.isFlr && d.resets claim) then (s.clearIndices claim).resetClaim claim
  else
    let c : Cmd := { seq := s.host.seq, claim := claim, ring := 0xFF, index := 0
                     entry := BitVec.ofNat 512 (0x0002 + claim <<< 128), state := .running, extra := true }
    let s1 : State := (s.journal claim (s.journalRecord c 1 0 0 0)).modHost (fun h => { h with cmds := h.cmds ++ [c] })
    (s1.clearIndices claim).resetClaim claim

/-- FLR: of the physical function, every open claim from 1 to 255 and then claim 0. -/
def flrDo (claim : Nat) (s : State) : State :=
  if claim = 0 then (upTo 255 (fun s i => s.flrClaim (i + 1)) s).flrClaim 0 else s.flrClaim claim

def execFlr (claim : Nat) (s : State) : Result := whenValid (s.functionOn claim) (flrDo claim s)

/-! ## SELF_TEST (R386) -/

def selfTestDo (c : Cmd) (s : State) : State :=
  if (List.range 255).any (fun i => (s.claim (i + 1)).state != .closed) then s.fail c.seq Reason.claimState
  else if s.images.any (fun i => i.2.claim == 0) then s.fail c.seq Reason.busy
  else (upTo 24 (fun s r => s.modRow r (fun x => { x with powered := true })) s).running c.seq

def execSelfTest (seq : Nat) (s : State) : Result := s.hostCmd seq 0x0070 selfTestDo

end Sys2Proof.Machine
end

