-- ==== Sys2Proof/Machine/Mesh.lean ====
section
/-! DEFINITION. Emeel ports, flits, enumeration, mesh time and the remote register window (chapter 14). A flit that
a port accepts waits in order for its delivery time. The producer's side of a cross-device skip sends its
entries and marks as flits when they reach the egress A-tile. -/

namespace Sys2Proof.Machine

/-! ## Ports (R348, R349, R352) -/

/-- Send again everything from a sequence on that the replay buffer still holds. -/
def State.resend (s : State) (p : Nat) (fs : List Flit) : State := fs.foldl (fun s f => (s.emit (.flit p f)).countPort p 0) s

/-- PORT_TRAINING_COMPLETE (R349): a link longer than 1,000 fc, or one with two retired lanes, stays down. What
waited for the port leaves. -/
def portTrainingCompleteDo (port lMeas : Nat) (neighbour : Option Nat) (s : State) : State :=
  let x := s.emPort port
  if 1000 < lMeas ∨ 1 < popcount 4 x.retired.toNat then s
  else
    let s1 : State := s.modEmPort port (fun x => { x with
      up := true, lanesUp := ~~~x.retired, degraded := x.retired != 0, neighbour := neighbour, lMeas := lMeas, lFixed := 3 * lMeas + 24 })
    s1.resend port x.replay

def execPortTrainingComplete (port lMeas : Nat) (neighbour : Option Nat) (s : State) : Result :=
  if port < 4 ∧ lMeas < 65536 ∧ neighbour.all (fun n => decide (n < 64)) then
    whenDue (s.host.ready && (s.emPort port).enable && !(s.emPort port).up) (portTrainingCompleteDo port lMeas neighbour s)
  else .fault .badOperand

/-- A flit is late: its delivery time has passed (R351). -/
def State.flitLate (s : State) (p : Nat) (f : Flit) : Bool := decide (f.stamp + (s.emPort p).lFixed < s.emeel.meshTime)

/-- A NAK asks for a sequence again. -/
def State.nak (s : State) (p : Nat) : State :=
  ((s.emit (.nak p (s.emPort p).expect.toNat)).countPort p 3).modEmPort p (fun x => { x with nakAt := x.nakAt <|> some s.now })

/-- FLIT_RECEIVED (R348): the next sequence is accepted, an earlier one is a copy, and a gap or a failed CRC is
asked for again. -/
def flitReceivedDo (port : Nat) (f : Flit) (corrected : Nat) (crcOk : Bool) (s : State) : State :=
  let s1 : State := if 0 < corrected then s.countPort port 2 else s
  let x := s.emPort port
  if !crcOk then s1.nak port
  else if f.seq = x.expect then
    (s1.modEmPort port (fun y => { y with
      expect := y.expect + 1, nakAt := none, accepted := y.accepted ++ [(f, s.flitLate port f)] })).countPort port 1
  else if (f.seq - x.expect).toNat < 2048 then s1.nak port
  else s1

def execFlitReceived (port : Nat) (f : Flit) (corrected : Nat) (crcOk : Bool) (s : State) : Result :=
  if port < 4 ∧ corrected ≤ 3 then whenDue (s.emPort port).up (flitReceivedDo port f corrected crcOk s) else .fault .badOperand

/-- NAK_RECEIVED (R348): the flits from that sequence on are sent again. -/
def nakReceivedDo (port seq : Nat) (s : State) : State :=
  s.resend port ((s.emPort port).replay.dropWhile (fun f => f.seq.toNat != seq))

def execNakReceived (port seq : Nat) (s : State) : Result :=
  if port < 4 ∧ seq < 4096 then whenDue (s.emPort port).up (nakReceivedDo port seq s) else .fault .badOperand

/-! ## Cross-device skips (R357, R358) -/

/-- Header bits that go with an entry: EOP, miss, zero-run flag, mask, bytes, degraded flag and number of the push. -/
def entryTag (e : Entry) : Nat :=
  boolNat e.eop + 2 * boolNat e.miss + 4 * boolNat e.zrc + e.mask.toNat <<< 3 + (e.bytes % 128) <<< 67
    + boolNat e.degraded <<< 74 + e.seq <<< 75

def tagEntry (f : Flit) (due : Nat) : Entry :=
  { data := f.payload, bytes := bits f.tag 73 67, eop := bitAt f.tag 0, miss := bitAt f.tag 1, zrc := bitAt f.tag 2
    mask := BitVec.ofNat 64 (f.tag >>> 3), degraded := bitAt f.tag 74, seq := f.tag >>> 75, due := due }

/-- What the egress A-tile hands to the port next: its time there, and the flit. -/
def Skip.nextEgress (k : Skip) (dest : Nat) : Option (Nat × Flit) :=
  let flit (kind : FlitKind) (tag n : Nat) : Flit :=
    { kind := kind, device := k.cfg.peer.getD 0, stream := dest, seq := 0, stamp := 0, tag := tag, payload := BitVec.ofNat 512 n }
  let a := (k.fly.head?).map (fun e => (e.due, flit .data (entryTag e) e.data.toNat))
  let b := (k.marks.head?).map (fun m => (m.2 - 2, flit .commitMark 0 m.1))
  let c := (k.discards.head?).map (fun m => (m.2, flit .discardMark 0 m.1))
  [a, b, c].foldl (fun best x => match best, x with
    | some u, some v => if v.1 < u.1 then some v else some u
    | none, v => v
    | u, none => u) none

/-- Route of an egress skip, by image and record number. -/
def State.egressDest (s : State) (k : Nat) : Nat :=
  (((s.image ((k - 0x20000) / 0x10000)).routes[(k - 0x20000) % 0x10000]?).map RouteRec.dest).getD 0

/-- One flit that has reached the egress A-tile of skip k leaves; 32 fc take it to the port. A commit mark waits until the
scratch stores that its entries release are performed (R153). -/
def State.sendEgress (s : State) (k : Nat) : State :=
  let x := s.skip k
  match x.nextEgress (s.egressDest k) with
  | some (due, f) =>
    if s.skipFc k < due ∨ (f.kind = .commitMark ∧ !s.storesBefore k x.sentAfter) then s
    else
      let s1 : State := s.modSkip k (fun y => match f.kind with
        | .data => { y with fly := y.fly.tail, sentAfter := max y.sentAfter ((y.fly.head?.map Entry.after).getD 0) }
        | .commitMark => { y with marks := y.marks.tail }
        | _ => { y with discards := y.discards.tail })
      s1.sendFlit f.device f.kind f.stream f.tag f.payload 32
  | none => s

/-- Everything due at an egress A-tile leaves, in order. -/
def State.drainEgress (s : State) (k : Nat) : State :=
  let x := s.skip k
  upTo (x.fly.length + x.marks.length + x.discards.length) (fun s _ => s.sendEgress k) s

/-- fc from the Emeel port to the skip: 32 to the A-tile and the haul route. -/
def State.ingressDue (s : State) (k : Nat) : Nat := s.skipFc k + 32 + (s.skip k).cfg.routeLatency

/-- A data flit, a commit mark or a discard mark reaches the consumer's device. Entries that a discard mark removes
are told from later ones of the same number. -/
def State.deliverSkip (s : State) (f : Flit) : State :=
  let k := f.stream
  let due := s.ingressDue k
  let n := f.payload.toNat
  match f.kind with
  | .data =>
    let e := tagEntry f due
    s.modSkip k (fun x => { (x.useCredit 1 e.stored) with fly := x.fly ++ [e] })
  | .commitMark => s.modSkip k (fun x => { x with
      effective := max x.effective n, pushedNow := x.pushedNow + (n - x.effective), pushSeen := true
      marks := x.marks ++ [(n, due + 2)] })
  | .discardMark =>
    let doom (e : Entry) : Entry := if n < e.seq then { e with seq := 2 ^ 64 + e.seq } else e
    s.modSkip k (fun x => { x with fly := x.fly.map doom, tail := x.tail.map doom, discards := x.discards ++ [(2 ^ 64, due)] })
  | _ => s

/-- Credit comes back to the producer's side of a skip on device `dev`. -/
def State.deliverCredit (s : State) (dest dev n : Nat) : State :=
  match s.skips.find? (fun q => decide (0x20000 ≤ q.1) && q.2.cfg.peer == some dev && s.egressDest q.1 == dest) with
  | some q => s.modSkip q.1 (fun x => { x with creditFly := x.creditFly ++ [(n, s.producerFc q.1 + 32 + x.cfg.routeLatency)] })
  | none => s

/-! ## Registers and commands between devices (R354, R356, R361 to R364) -/

/-- A copy of the head's configuration reaches a member. -/
def State.copyWrite (s : State) (o : Nat) (v : Word) : State :=
  if o = 0x6000004 then s.modEmeel (fun e => { e with
      xMinus1 := v.extractLsb' 27 3, yMinus1 := v.extractLsb' 24 3, enumerated := true
      devices := (bits v.toNat 29 27 + 1) * (bits v.toNat 26 24 + 1) })
  else if o = 0x600000C then s.modEmeel (fun e => { e with follow := v.extractLsb' 0 8, tickDelay := v.extractLsb' 8 16 })
  else if 0x10000 ≤ o ∧ o < 0x10200 then
    let d := (o - 0x10000) / 0x40
    match o % 0x40 with
    | 0 => s.enableDomain d (v.getLsbD 31)
    | 4 => s.modDom d (fun x => { x with period := v.extractLsb' 0 24 })
    | 8 => s.modDom d (fun x => { x with tolerance := v.extractLsb' 0 16 })
    | _ => s
  else s

/-- Every member has told that its time is locked. -/
def Emeel.allLocked (e : Emeel) : Bool := e.enumerated && (List.range (e.devices - 1)).all (fun i => e.locked.contains (i + 1))

/-- A member's mesh status reaches the head: its time is locked, or its wiring is wrong. -/
def State.memberStatus (s : State) (v : Nat) : State :=
  let s1 : State := if bitAt v 30 then s.modEmeel (fun e => { e with locked := if e.locked.contains (v / 2 ^ 32) then e.locked else v / 2 ^ 32 :: e.locked })
    else s
  let s2 : State := s1.modEmeel (fun e => { e with timeLocked := e.timeLocked || e.allLocked })
  if bitAt v 29 then (s2.modEmeel (fun e => { e with enumerating := false })).raise Ev.meshWiringError {} else s2

/-- A member reports its status bits to the head. -/
def State.reportStatus (s : State) (v : Nat) : State :=
  s.sendFlit 0 .register 0x6000008 9 (BitVec.ofNat 512 (v + s.emeel.deviceId.toNat * 2 ^ 32)) 0

/-- A register flit: a copy of the head's configuration, a member's status, an access of the head's window, or the
answer to one. -/
def State.deliverRegister (s : State) (f : Flit) : State :=
  let v : Word := f.payload.setWidth 32
  if bitAt f.tag 3 then s.memberStatus f.payload.toNat
  else if bitAt f.tag 2 then s.copyWrite f.stream v
  else if bitAt f.tag 1 then
    match s.emeel.window with
    | some (w, dev, o, _, _) =>
      if dev = f.tag / 256 ∧ o = f.stream ∧ w = bitAt f.tag 0 then
        let s1 : State := s.modEmeel (fun e => { e with window := none })
        if w then s1 else s1.emit (.readValue v)
      else s
    | none => s
  else
    let reply : Nat := 2 + f.tag % 2 + 256 * s.emeel.deviceId.toNat
    if bitAt f.tag 0 then (s.regWrite false f.stream v).sendFlit 0 .register f.stream reply 0 0
    else (s.regLatch false f.stream).sendFlit 0 .register f.stream reply ((s.regView false f.stream).setWidth 512) 0

/-- The MAP entry of a head reaches the device that holds the pages (R361): it allocates and marks them at the CVA named,
from the claim's quota here, and answers with the place of each, or with the reason why not. -/
def State.remoteMap (s : State) (entry : BitVec 512) : State :=
  let c : Cmd := { seq := 0, claim := 0, ring := 0, index := 0, entry := entry }
  let t := c.arg 4 1
  let big := bitAt (c.arg 28 1) 0
  let n := c.arg 24 4
  let cva := c.arg 32 8
  let units := n * pageUnits big (bitAt (c.arg 28 1) 1)
  let x := s.claim t
  let answer (s : State) (i addr reason : Nat) : State :=
    s.sendFlit 0 .command 0x0010 (3 + 256 * s.emeel.deviceId.toNat)
      (BitVec.ofNat 512 (i + addr <<< 64 + reason <<< 128 + (c.arg 48 8) <<< 384)) 0
  if x.state ≠ .opened then answer s 0 0 Reason.claimState
  else if inHeadframeWindow cva (n * pageBytes big) then answer s 0 0 Reason.notPermitted
  else if x.anyMapped cva (n * pageBytes big) || s.anyPlanned t cva (n * pageBytes big) then answer s 0 0 Reason.alreadyMapped
  else if (t ≠ 0 ∧ x.quota < x.used + units) ∨ 0xB8000 < units then answer s 0 0 Reason.noResource
  else match s.planPages big (bitAt (c.arg 28 1) 1) (bitAt (c.arg 28 1) 2) n (cva / pageBytes big) [] with
    | none => answer s 0 0 Reason.noResource
    | some (s1, plan) =>
      let s2 : State := plan.foldl (fun s p => s.markRange (leafAddr p.2) (0x10000 * pageUnits big (leafDual p.2)))
        ((s1.install t plan).modClaim t (fun x => { x with used := x.used + units }))
      (plan.zipIdx).foldl (fun s p => answer s p.2 (leafAddr p.1.2) 0) s2

/-- The answer of a device to a MAP of its pages reaches the head. -/
def State.mapAnswer (s : State) (dev : Nat) (p : BitVec 512) : State :=
  let seq := bits p.toNat 447 384
  match s.cmd? seq with
  | none => s
  | some c =>
    let big := bitAt (c.arg 28 1) 0
    let reason := bits p.toNat 143 128
    if c.opcode ≠ 0x0010 ∨ c.state ≠ .running then s
    else if reason ≠ 0 then s.fail seq reason
    else s.modCmd seq (fun d => { d with
      plan := d.plan ++ [(2 * (c.arg 16 8 / pageBytes big + bits p.toNat 63 0) + boolNat big
        , leafEntry (0x800000000000 + dev * 0x10000000000 + bits p.toNat 127 64) (bitAt (c.arg 28 1) 1) (bitAt (c.arg 28 1) 2))] })

/-- CVA of a claim that its pages place at an address of this device. -/
def Claim.cvaOf (x : Claim) (addr : Nat) : Option Nat :=
  match x.pages.find? (fun p => leafValid p.2 && leafAddr p.2 == addr / 0x10000 * 0x10000) with
  | some p => some (p.1 * 0x10000 + addr % 0x10000)
  | none => (x.bigPages.find? (fun p => leafValid p.2 && leafAddr p.2 == addr / 0x200000 * 0x200000)).map
      (fun p => p.1 * 0x200000 + addr % 0x200000)

/-- The head has set up a ring that this device serves, at the CVA at which the device's own pages show it, or has disabled
it (R363, log 128). -/
def State.serveRing (s : State) (claim ring n addr : Nat) : State :=
  let base := if n = 0 then 0 else ((s.claim claim).cvaOf addr).getD 0
  (s.modRing claim ring (fun r => r.setUp n base (if n = 0 then 0 else s.emeel.deviceId.toNat))).repin claim

/-- A command flit: a claim action of the head (R362), a member's answer, or a completion entry of a member (R363). -/
def State.deliverCommand (s : State) (f : Flit) : State :=
  let t := bits f.payload.toNat 135 128
  match f.tag % 256 with
  | 0 =>
    if f.stream = 0x0001 then s.openClaim t (bits f.payload.toNat 191 160) (bitAt f.payload.toNat 192) (BitVec.ofNat 8 (f.payload.toNat >>> 200))
    else if f.stream = 0x0002 then
      (if (s.claim t).state = .closed then s.sendFlit 0 .command 0x0002 (1 + 256 * s.emeel.deviceId.toNat) (claimEntry t) 0
       else s.resetClaim t)
    else if f.stream = 0x0010 then s.remoteMap f.payload
    else if f.stream = 0x0012 then
      s.serveRing t (bits f.payload.toNat 143 136) (bits f.payload.toNat 191 160) (bits f.payload.toNat 255 192)
    else s.closeClaim t
  | 3 => s.mapAnswer (f.tag / 256) f.payload
  | 1 => s.modEmeel (fun e => { e with awaiting := e.awaiting.filter (fun a => a != (t, f.tag / 256)) })
  | _ =>
    let r : Record := f.payload
    let c : Cmd := { seq := 2 ^ 64 * (f.tag / 256) + bits r.toNat 63 0, claim := f.stream, ring := bits r.toNat 151 144
                     index := BitVec.ofNat 32 (r.toNat >>> 160), entry := 0, state := .ended true 0 0, extra := true, record := r }
    s.modHost (fun h => { h with cmds := h.cmds ++ [c] })

/-- A memory flit: another device reads or writes 64 bytes of the mappable sump (R361). -/
def State.deliverMemory (s : State) (f : Flit) : State :=
  let a := 64 * f.stream
  if bitAt f.tag 1 ∨ 0xB80000000 ≤ a then s
  else if bitAt f.tag 0 then s.writeBytes a (lineBytes f.payload)
  else s.sendFlit (f.tag / 256) .memory f.stream (3 + 256 * s.emeel.deviceId.toNat) (bytesLine (s.readBytes a 64)) 0

/-- What a flit for this device does. -/
def State.deliverHere (s : State) (f : Flit) : State :=
  match f.kind with
  | .data => s.deliverSkip f
  | .commitMark => s.deliverSkip f
  | .discardMark => s.deliverSkip f
  | .credit => s.deliverCredit f.stream f.tag f.payload.toNat
  | .tick => if tickMessageOk f.stream s then tickMessageDo f.stream (bitAt f.tag 0) f.payload.toNat s else s
  | .memory => s.deliverMemory f
  | .register => s.deliverRegister f
  | .command => s.deliverCommand f

/-- A flit for another device is relayed within 16 fc (R354). -/
def State.deliver1 (s : State) (f : Flit) : State :=
  if f.device = s.emeel.deviceId.toNat then s.deliverHere f
  else s.sendFlit f.device f.kind f.stream f.tag f.payload 16

def flitDeliveryOk (port : Nat) (s : State) : Bool :=
  match (s.emPort port).accepted with
  | (f, _) :: _ => decide (port < 4) && decide (f.stamp + (s.emPort port).lFixed ≤ s.emeel.meshTime)
  | [] => false

/-- FLIT_DELIVERY (R350, R351): the oldest accepted flit is handed on; a late one is counted and reported. -/
def flitDeliveryDo (port : Nat) (s : State) : State :=
  match (s.emPort port).accepted with
  | [] => s
  | (f, late) :: r =>
    let s1 : State := s.modEmPort port (fun x => { x with accepted := r })
    if late then
      let cause := s1.faults.eventSeq
      let s2 : State := (((s1.modEmPort port (fun x => { x with retryLate := true })).hit (emPortStatus port) 1).countPort port 4).raise Ev.emeelRetryLate
        { locKind := 6, loc := port }
      let s3 : State := if f.kind = .data ∧ f.device = s.emeel.deviceId.toNat then
          s2.modTile (s2.skipPos f.stream) (fun x => { x with missCause := some cause }) else s2
      s3.deliver1 f
    else s1.deliver1 f

def execFlitDelivery (port : Nat) (s : State) : Result := whenDue (flitDeliveryOk port s) (flitDeliveryDo port s)

/-! ## Enumeration (R354) -/

/-- ENUMERATE: a write of EM_MESH_CFG with bit 30 set. -/
def execEnumerate (value : Word) (s : State) : Result := .next (s.bar0 (s.writeMeshCfg (value ||| 0x40000000#32)))

/-- The coordinates that a token gives on a port. -/
def tokenPlace (port x y xSize ySize : Nat) : Nat × Nat := if port = 1 then ((x + 1) % xSize, y) else (x, (y + 1) % ySize)

/-- ID_TOKEN_RECEIVED: a member takes its id, forwards the token and reports; a second, different id is a wiring
error. A token that comes again on the port of its id belongs to a new enumeration. -/
def idTokenReceivedDo (port x y xSize ySize : Nat) (s : State) : State :=
  let c := tokenPlace port x y xSize ySize
  let id := c.2 * xSize + c.1
  if s.emeel.idTaken && s.emeel.deviceId.toNat != id then
    let s1 : State := (s.modEmeel (fun e => { e with wiringError := true })).hit meshStatus 29
    if s.emeel.head then (s1.modEmeel (fun e => { e with enumerating := false })).raise Ev.meshWiringError {}
    else s1.reportStatus (2 ^ 29)
  else if s.emeel.head ∨ (s.emeel.idTaken ∧ s.emeel.idPort ≠ some port) then s
  else
    let s1 : State := s.modEmeel (fun e => { e with
      deviceId := BitVec.ofNat 6 id, idTaken := true, idPort := some port, xMinus1 := BitVec.ofNat 3 (xSize - 1)
      yMinus1 := BitVec.ofNat 3 (ySize - 1) })
    ((s1.modPower (fun p => { p with linkUp := false })).forwardToken c.1 c.2).emit (.report id (s.emPort port).lFixed)

def execIdTokenReceived (port x y xSize ySize : Nat) (s : State) : Result :=
  if (port = 1 ∨ port = 3) ∧ xSize ≤ 8 ∧ ySize ≤ 8 ∧ x < xSize ∧ y < ySize then
    whenDue (!s.power.porAsserted) (idTokenReceivedDo port x y xSize ySize s)
  else .fault .badOperand

/-- DEVICE_REPORT (R354, R356): the head has heard of a member; with the last one the mesh is enumerated, TICK_DELAY
is known, and the members get their copies. -/
def deviceReportDo (id latency : Nat) (s : State) : State :=
  let s1 : State := s.modEmeel (fun e => { e with reported := (id, latency) :: e.reported.filter (fun r => r.1 != id) })
  let n := s1.emeel.xSize * s1.emeel.ySize
  if s1.emeel.reported.length + 1 = n then
    let s2 : State := s1.modEmeel (fun e => { e with
      enumerated := true, enumerating := false, devices := n
      tickDelay := BitVec.ofNat 16 ((e.reported.map (·.2)).foldl max 0 + 16) })
    (s2.copyToMembers 0x6000004 (BitVec.ofNat 32 (s2.emReg 0x04))).copyToMembers 0x600000C (BitVec.ofNat 32 (s2.emReg 0x0C))
  else s1

def execDeviceReport (id latency : Nat) (s : State) : Result :=
  whenDue (s.emeel.head && s.emeel.enumerating && decide (1 ≤ id) && decide (id < s.emeel.xSize * s.emeel.ySize))
    (deviceReportDo id latency s)

/-! ## Mesh time (R355) -/

/-- MESH_TIME_CORRECTION: the member will slew by the offset it measured; within 1 fc its time is locked. -/
def meshTimeCorrectionDo (offset : Int) (s : State) : State :=
  let s1 : State := s.modEmeel (fun e => { e with slew := offset, lastCorrection := BitVec.ofInt 8 offset })
  if offset.natAbs ≤ 1 ∧ !s.emeel.timeLocked then
    (s1.modEmeel (fun e => { e with timeLocked := true })).reportStatus (2 ^ 30)
  else s1

def execMeshTimeCorrection (offset : Int) (s : State) : Result := whenDue s.isMember (meshTimeCorrectionDo offset s)

/-- MESH_TIME after one fc of the tick domain clock: at most one fc of a correction for each 4,096 fc. -/
def Emeel.advance (e : Emeel) : Emeel :=
  if e.slew = 0 ∨ e.slewWait < 4095 then { e with meshTime := e.meshTime + 1, slewWait := min (e.slewWait + 1) 4095 }
  else if 0 < e.slew then { e with meshTime := e.meshTime + 2, slew := e.slew - 1, slewWait := 0 }
  else { e with slew := e.slew + 1, slewWait := 0 }

/-! ## The remote register window (R364) -/

/-- REMOTE_WINDOW_ACCESS: it waits for an access outstanding. -/
def execRemoteWindowAccess (write : Bool) (offset : Nat) (value : Word) (s : State) : Result :=
  if offset % 4 = 0 ∧ offset < 0x400000 then
    whenDue s.emeel.window.isNone (s.bar0 (s.windowAccess write offset value))
  else .fault .badOperand

def remoteAccessTimeoutOk (s : State) : Bool :=
  match s.emeel.window with
  | some (_, _, _, _, start) => decide (start + 65536 ≤ s.now)
  | none => false

/-- REMOTE_ACCESS_TIMEOUT. -/
def remoteAccessTimeoutDo (s : State) : State :=
  match s.emeel.window with
  | some (w, _, _, _, _) => s.windowFails w
  | none => s

def execRemoteAccessTimeout (s : State) : Result := whenDue (remoteAccessTimeoutOk s) (remoteAccessTimeoutDo s)

/-- RETRAIN: a write of EM_PORT_CFG with bit 30 set. -/
def execRetrain (port : Nat) (value : Word) (s : State) : Result :=
  whenValid (decide (port < 4)) (s.bar0 (s.writePortCfg port (value ||| 0x40000000#32)))

end Sys2Proof.Machine
end

