-- ==== Sys2Proof/Machine/Power.lean ====
section
/-! DEFINITION. Pins, bring-up, row clocks, thermal limits and power status (chapter 16, R386). -/

namespace Sys2Proof.Machine

/-! ## Resets (R396) -/

/-- POR_N_ASSERT: all state of the device ends. The draws of free values go on, and the PERST_N pin keeps its level. -/
def porNAssertDo (s : State) : State :=
  { State.reset with
    pending := s.pending, free := s.free + 1, out := s.out
    power := { State.reset.power with perstAsserted := s.power.perstAsserted } }

def execPorNAssert (s : State) : Result := whenDue (!s.power.porAsserted) (porNAssertDo s)

/-- POR_N_DEASSERT (R354, R405, R421): MESH_HEAD is sampled, the boot ROM starts, and a nonce is drawn. -/
def porNDeassertDo (meshHead : Bool) (s : State) : State :=
  ((s.modPower (fun p => { p with porAsserted := false })).modEmeel (fun e => { e with head := meshHead })).newNonce

def execPorNDeassert (meshHead : Bool) (s : State) : Result := whenDue s.power.porAsserted (porNDeassertDo meshHead s)

/-- PERST_N_ASSERT (R396, R408, R423): the link goes down, and a submission under way is discarded; once the device is
ready, the physical function is reset. -/
def perstNAssertDo (s : State) : State :=
  let s0 : State := if s.dbg.busy then (s.modDebug (fun d => { d with busy := false })).newNonce else s
  let s1 : State := s0.modPower (fun p => { p with perstAsserted := true, linkUp := false })
  if s1.host.ready then flrDo 0 s1 else s1

def execPerstNAssert (s : State) : Result := whenDue (!s.power.perstAsserted) (perstNAssertDo s)

/-- PERST_N_DEASSERT: the link may train. -/
def execPerstNDeassert (s : State) : Result :=
  whenDue s.power.perstAsserted (s.modPower (fun p => { p with perstAsserted := false }))

/-- PCIE_LINK_UP (R354, R405): a member of a mesh has its PCIe port disabled. -/
def execPcieLinkUp (s : State) : Result :=
  whenDue (!s.power.porAsserted && !s.power.perstAsserted && !s.power.linkUp && !s.isMember)
    (s.modPower (fun p => { p with linkUp := true }))

/-! ## Bring-up (R300, R386, R405, R406) -/

/-- PHASE of PW_BOOT_STATUS as far as bring-up has come. -/
def Power.phaseOf (p : Power) (ready : Bool) : BitVec 4 :=
  if ready then 4 else if p.sumpFilled && p.firmwareOk then 3 else if p.sumpTested && p.checkersDone then 2 else if p.pllLocked then 1 else 0

/-- A bring-up step: PHASE follows it. -/
def State.bringUp (s : State) (f : Power → Power) : State :=
  s.modPower (fun p => { (f p) with phase := (f p).phaseOf s.host.ready })

/-- PLL_LOCK: the firmware read, HBM initialisation and the tile SRAM fill start; the rows are on for the tests. The
phase of each row clock against the tick domain clock is not specified (R425): a free value. -/
def pllLockDo (s : State) : State :=
  (upTo 24 (fun u r => u.modRow r (fun x => { x with powered := true, acc := Config.freeBits (Nat.pair s.free r) % 16 }))
    (s.bringUp (fun p => { p with pllLocked := true }))).draw

def execPllLock (s : State) : Result := whenDue (!s.power.porAsserted && !s.power.pllLocked) (pllLockDo s)

/-- Zeros with valid check bits in all tile SRAM. -/
def State.zeroTiles (s : State) : State := s.zeroRange (tileAddr 0 0) (768 * 0x100000)

/-- TILE_SRAM_FILL_COMPLETE. -/
def tileSramFillCompleteDo (s : State) : State := s.zeroTiles.bringUp (fun p => { p with sramFilled := true })

def execTileSramFillComplete (s : State) : Result :=
  whenDue (s.power.pllLocked && !s.power.sramFilled) (tileSramFillCompleteDo s)

/-- Each failure of a self-test counts as a permanent fault of its unit, and is spared at once (R386). -/
def State.spareFailures (s : State) (fs : List FaultReport) : State :=
  fs.foldl (fun s f => (s.retireUnit f).settleRetire (reportKey f)) s

/-- A failure that no spare took over: a tile is lost or a stack retired. -/
def State.unspared (s : State) (fs : List FaultReport) : Bool :=
  fs.any (fun f => match f with
    | .sump a _ => s.sump.retired.getD (stackOf a) false
    | .skipEnd k _ _ => (s.tile (s.skipPos k)).lost
    | _ => match f.tile with
      | some t => (s.tile t).lost
      | none => false)

/-- SELF_TEST_FAIL is set by a test that found failures (R386). -/
def State.noteFailures (s : State) (fs : List FaultReport) : State :=
  if fs.isEmpty then s else (s.modFaults (fun f => { f with selfTestFail := true })).hit faultStatus 30

def State.testsDone (s : State) : State :=
  s.modFaults (fun f => { f with selfTestDone := f.selfTestDone || (s.power.checkersDone && s.power.sumpTested) })

/-- Failures found at start-up: SELF_TEST_FAILED waits for READY. -/
def State.startFailures (s : State) (fs : List FaultReport) : State :=
  (((s.spareFailures fs).modFaults (fun f => { f with found := f.found ++ fs })).noteFailures fs).testsDone

def State.selfTestEvents (s : State) (fs : List FaultReport) : State :=
  fs.foldl (fun s f => s.raise Ev.selfTestFailed (match f.tile with
    | some t => { locKind := 1, loc := (s.tile t).logical }
    | none => {})) s

/-- The running SELF_TEST. -/
def State.selfTest? (s : State) : Option Cmd := s.host.cmds.find? (fun c => c.opcode == 0x0070 && c.state == .running)

/-- A SELF_TEST ends: the marches leave zeros in what they tested, and the command's result counts the failures. -/
def State.endSelfTest (s : State) (c : Cmd) (fs : List FaultReport) : State :=
  let scope := c.arg 16 1
  let s1 : State := if bitAt scope 1 then s.zeroTiles else s
  let s2 : State := if bitAt scope 2 then s1.zeroRange 0 0xB80000000 else s1
  let s3 : State := (((s2.spareFailures fs).noteFailures fs).selfTestEvents fs).repower
  let n : BitVec 128 := BitVec.ofNat 128 fs.length
  if s3.unspared fs then s3.finish c.seq false Reason.selfTestFailed n else s3.complete c.seq n

/-- CHECKER_SELF_TEST_COMPLETE: at start-up, or for the running SELF_TEST. -/
def checkerSelfTestCompleteDo (fs : List FaultReport) (s : State) : State :=
  if s.power.checkersDone then
    match s.selfTest? with
    | some c => s.endSelfTest c fs
    | none => s
  else ((s.bringUp (fun p => { p with checkersDone := true })).startFailures fs).repower

def execCheckerSelfTestComplete (fs : List FaultReport) (s : State) : Result :=
  if fs.all faultNames then
    whenDue ((s.power.sramFilled && !s.power.checkersDone) || s.selfTest?.isSome) (checkerSelfTestCompleteDo fs s)
  else .fault .badOperand

/-- HBM_TRAINED. -/
def execHbmTrained (s : State) : Result :=
  whenDue (s.power.pllLocked && !s.power.hbmTrained) (s.bringUp (fun p => { p with hbmTrained := true }))

/-- SUMP_ADDRESS_TEST_COMPLETE. -/
def execSumpAddressTestComplete (fs : List FaultReport) (s : State) : Result :=
  if fs.all faultNames then
    whenDue (s.power.hbmTrained && !s.power.sumpTested) ((s.bringUp (fun p => { p with sumpTested := true })).startFailures fs)
  else .fault .badOperand

/-- FIRMWARE_VERIFIED (R406): 0, or the ERROR of PW_BOOT_STATUS, after which the device never sets READY. -/
def firmwareVerifiedDo (error : Nat) (s : State) : State :=
  if error = 0 then (s.bringUp (fun p => { p with firmwareOk := true })).modHost (fun h => { h with secureBootOk := true })
  else s.bringUp (fun p => { p with error := BitVec.ofNat 8 error })

def execFirmwareVerified (error : Nat) (s : State) : Result :=
  if error ≤ 4 then whenDue (s.power.pllLocked && !s.power.firmwareOk && s.power.error == 0) (firmwareVerifiedDo error s)
  else .fault .badOperand

/-- SUMP_FILL_COMPLETE (R300): ONLINE is set for both stacks. -/
def sumpFillCompleteDo (s : State) : State :=
  ((s.zeroRange 0 sumpTop).modSump (fun x => { x with online := [true, true] })).bringUp (fun p => { p with sumpFilled := true })

def execSumpFillComplete (s : State) : Result := whenDue (s.power.sumpTested && !s.power.sumpFilled) (sumpFillCompleteDo s)

/-- HEADFRAME_READY (R386, R405): READY is set; claim 0 is open from now on, and the start-up failures are raised. -/
def headframeReadyDo (s : State) : State :=
  let s1 : State := ((s.modHost (fun h => { h with ready := true })).bringUp id).openClaim 0 0 false 0
  (s1.selfTestEvents s1.faults.found).modFaults (fun f => { f with found := [] })

def headframeReadyOk (s : State) : Bool :=
  !s.host.ready && s.power.checkersDone && s.power.firmwareOk && s.power.sumpFilled && s.power.error == 0 && !s.power.thermtrip

def execHeadframeReady (s : State) : Result := whenDue (headframeReadyOk s) (headframeReadyDo s)

/-! ## Rows (R397, R399) -/

/-- ROW_POWER_READY (R397). -/
def execRowPowerReady (row : Nat) (s : State) : Result :=
  whenDue (decide (row < 24) && (s.row row).powering) (s.modRow row (fun r => { r with powering := false }))

/-- DROOP_SENSOR_TRIP (R399): the first step comes 2 row fc after the trip. -/
def execDroopSensorTrip (row : Nat) (s : State) : Result :=
  whenDue (decide (row < 24) && !(s.row row).sensor) (s.modRow row (fun r => { r with sensor := true, stepAt := r.fc + 2 }))

/-- DROOP_SENSOR_CLEAR (R399): steps up count from this fc. -/
def execDroopSensorClear (row : Nat) (s : State) : Result :=
  whenDue (decide (row < 24) && (s.row row).sensor)
    (s.modRow row (fun r => { r with sensor := false, stepAt := r.fc + s.power.stepUpFc.toNat }))

/-- ROW_CLOCK_STEP_DOWN (R399, R403). -/
def execRowClockStepDown (row : Nat) (s : State) : Result :=
  let x := s.row row
  whenDue (decide (row < 24) && !s.power.throttled && x.sensor && decide (12 < x.k) && decide (x.stepAt ≤ x.fc))
    (s.modRow row (fun r => { r with k := r.k - 1, stepAt := r.fc + 2 }))

/-- ROW_CLOCK_STEP_UP (R399, R403). -/
def execRowClockStepUp (row : Nat) (s : State) : Result :=
  let x := s.row row
  whenDue (decide (row < 24) && !s.power.throttled && !x.sensor && decide (x.k < 16) && decide (x.stepAt ≤ x.fc))
    (s.modRow row (fun r => { r with k := r.k + 1, stepAt := r.fc + s.power.stepUpFc.toNat }))

/-! ## Temperature and power (R403, R409, Table 12.9) -/

/-- One second in fc. -/
def secondFc : Nat := 1200000000

/-- Step 1 of R403: the warning, raised at an upward crossing at most once a second. -/
def State.thermalWarn (s : State) (c : Nat) : State :=
  let p := s.power
  let above := decide (p.warnC.toNat ≤ c)
  let s0 : State := s.modPower (fun p => { p with tjC := BitVec.ofNat 8 c, warning := p.warning || above, aboveWarn := above })
  let s1 : State := if above then s0.hit thermalStatus 31 else s0
  if above && !p.aboveWarn then
    let recent := (match p.warnAt with
      | some a => decide (s.now < a + secondFc)
      | none => false)
    if recent then s1.modPower (fun p => { p with warnFolded := p.warnFolded + 1 })
    else (s1.raise Ev.thermalWarning { count := p.warnFolded + 1 }).modPower (fun p => { p with warnAt := some s.now, warnFolded := 0 })
  else s1

/-- Every row clock at k = 12. -/
def State.holdRows (s : State) : State := upTo 24 (fun s r => s.modRow r (fun x => { x with k := 12 })) s

/-- THROTTLED clears: each row starts from k = 12, and steps up count from now. -/
def State.releaseRows (s : State) : State :=
  upTo 24 (fun s r => s.modRow r (fun x => { x with k := 12, stepAt := x.fc + s.power.stepUpFc.toNat })) s

def State.thermalThrottle (s : State) (c : Nat) : State :=
  if 105 ≤ c then
    (if s.power.throttled then s
     else ((s.modPower (fun p => { p with tripped := true, throttled := true })).hit thermalStatus 30).holdRows.raise Ev.thermalTrip {})
  else if c < 100 ∧ s.power.throttled then (s.modPower (fun p => { p with throttled := false })).releaseRows
  else s

/-- THERMTRIP_N (R403): every domain but the headframe is off; the device stays off until POR_N. -/
def State.thermalOff (s : State) : State :=
  { (s.emit .thermtrip) with
    tiles := [], skips := [], mem := [], unwritten := [], images := [], pipes := [], adit := {}, riddle := {}, sump := {}
    host := { s.host with ready := false, cmds := [], snapshot := none }
    emeel := { s.emeel with ports := s.emeel.ports.map (fun p => (p.1, { p.2 with up := false, lanesUp := 0 })) }
    power := { s.power with thermtrip := true, linkUp := false, rows := s.power.rows.map (fun r => { r with powered := false, powering := false }) } }

/-- THERMAL_SENSOR_READ: the hottest of the 64 sensors. -/
def thermalSensorReadDo (c : Nat) (s : State) : State :=
  let s1 : State := (s.thermalWarn c).thermalThrottle c
  if 115 ≤ c then s1.thermalOff else s1

def execThermalSensorRead (c : Nat) (s : State) : Result :=
  if c < 256 then whenDue (!s.power.porAsserted && !s.power.thermtrip) (thermalSensorReadDo c s) else .fault .badOperand

/-- STACK_TEMPERATURE_UPDATE (Table 12.9). -/
def execStackTemperatureUpdate (temps : List Byte) (s : State) : Result :=
  whenValid (temps.length == 2) (s.modSump (fun x => { x with temp := temps }))

/-- PACKAGE_POWER_UPDATE (Table 16.10). -/
def execPackagePowerUpdate (mw : BitVec 20) (s : State) : Result := .next (s.modPower (fun p => { p with powerMw := mw }))

end Sys2Proof.Machine
end

