-- ==== Sys2Proof/Machine/Clock.lean ====
section
/-! DEFINITION. One fc of the tick domain clock, which passes when no command waits: time, mesh time, row clocks, ticks
entering rows, skip timers, counters of waiting, and what leaves an egress A-tile (R12, R18, R196, R198, R311, R355,
R357, R399, R411). -/

namespace Sys2Proof.Machine

/-! ## Row clocks (R12, R399, R403) -/

/-- One fc of nominal time is k sixteenths of a row fc. -/
def Row.advance (r : Row) : Row :=
  if r.acc + r.k < 16 then { r with acc := r.acc + r.k } else { r with acc := r.acc + r.k - 16, fc := r.fc + 1 }

/-- The row completes a row fc in this fc of nominal time. -/
def Row.steps (r : Row) : Bool := decide (16 ≤ r.acc + r.k)

/-- Every row clock advances; stretched fc and fc of the thermal hold are counted (Table 17.1). -/
def State.advanceRows (s : State) : State :=
  let s1 : State := upTo 24 (fun s r =>
    let x := s.row r
    if x.steps && decide (x.k < 16) then (s.count 2 r 0 1).count 2 r 2 (boolNat s.power.throttled) else s) s
  s1.modPower (fun p => { p with rows := p.rows.map Row.advance })

/-! ## Ticks on their way (R18) -/

/-- A tick that has reached column 0 of its row enters at the row clock's next rising edge, which this fc brings, and
arrives at column c after c row fc. -/
def Tile.enterRow (x : Tile) (now fc column : Nat) : Tile :=
  { x with tickIn := x.tickIn.filter (fun a => decide (now < a))
           tickDue := x.tickDue ++ (x.tickIn.filter (fun a => decide (a ≤ now))).map (fun _ => fc + column) }

/-- Ticks enter the rows whose clock has a rising edge in this fc (R18, R425). -/
def State.enterRows (s : State) (stepped : Nat → Bool) : State :=
  { s with tiles := s.tiles.map (fun p => (p.1,
      if p.2.tickIn.isEmpty || !stepped (p.1 / 32) then p.2 else p.2.enterRow s.now (s.rowFc p.1) (p.1 % 32))) }

/-! ## Counters of a row fc (R411, Table 17.1) -/

/-- A stream or an OQ that leaves flight with the fc that ends now. -/
def MacOp.leaves (fc : Nat) (m : MacOp) : Bool :=
  m.startedAt.any (fun a => (m.isStream && decide (a + m.arrayFc + 12 ≤ fc)) || (m.kind == .oq && decide (a + oqFc m ≤ fc)))

/-- The tile without what has left its units by the fc: a word that waits for it no longer waits then. -/
def Tile.afterLeaving (x : Tile) (fc : Nat) : Tile :=
  { x with macs := x.macs.filter (fun m => !m.leaves fc)
           fns := x.fns.filter (fun f => !f.startedAt.any (fun a => decide (a + f.time ≤ fc)))
           moves := x.moves.filter (fun m => !m.due.any (fun d => decide (d ≤ fc)))
           scratch := x.scratch.filter (fun q => decide (fc < q.due)) }

/-- Registers of a thread that scratch loads and head refills write by this fc: a word that reads one no longer waits. -/
def State.arrivingRegs (s : State) (t th : Nat) : List Nat :=
  ((s.tile t).scratch.filter (fun q => q.load && q.thread == th && decide (q.due ≤ s.rowFc t))).map
      (fun q => (if q.vector then 32 else 0) + q.reg)
    ++ ((s.tile t).portsOf th).filterMap (fun p =>
      let k := s.portSkip t p
      match (s.skip k).popWait with
      | (u, uth, r, _) :: _ => if u = t ∧ uth = th ∧ headRefillOk k s then some r else none
      | [] => none)

/-- The cause for which a thread waits in the fc whose number its row clock now shows (R411). -/
def State.waitsFor (s : State) (t th : Nat) : Option Nat :=
  if (s.thread t th).mode != .running then none
  else ((s.modTile t (fun x => x.afterLeaving (s.rowFc t))).modThread t th (fun y =>
    if y.await.isEmpty then y else { y with await := y.await.filter (fun r => !(s.arrivingRegs t th).contains r) })).waitCause t th

/-- Instructions that the interlocks of R83, R115 and R149 hold in the units of a tile. -/
def Tile.interlocks (x : Tile) (fc : Nat) : Nat :=
  let y := { x with macs := x.macs.filter (fun m => !m.leaves fc) }
  (y.macs.filter (fun m => m.startedAt.isNone && y.held m.issuedAt (macTouch m))).length
    + (y.moves.filter (fun m => m.startedAt.isNone && y.held m.issuedAt (moveTouch m))).length
    + (y.fns.filter (fun f => f.startedAt.isNone && y.held f.issuedAt (fnTouch f))).length

/-- A MAC stream waits for a weight half that is not READY: the half alone holds it (R61). -/
def State.halfWait (s : State) (t : Nat) : Bool :=
  let x := s.tile t
  match x.nextStream with
  | some m => s.streamFree t m && !x.halfReady m
  | none => false

/-- The array holds products, or a function unit runs (R122). -/
def Tile.arrayBusy (x : Tile) (fc : Nat) : Bool :=
  x.macs.any (fun m => m.isStream && m.startedAt.any (fun a => decide (fc ≤ a + m.arrayFc))) || x.fns.any (fun f => f.startedAt.isSome)

/-- Waits of one tile in one fc of its row clock. -/
def State.countTileFc (s : State) (t : Nat) : State :=
  let x := s.tile t
  let s1 : State := upTo 4 (fun s th => match s.waitsFor t th with
    | some c => s.countTile t c 1
    | none => s) s
  let tokens := boolNat (x.macs.any (fun m => m.startedAt.isNone) && (s.row (t / 32)).waiting.any (fun w => w.1 == t))
  (((s1.countTile t 3 tokens).countTile t 4 (boolNat (s.halfWait t))).countTile t 7 (x.interlocks (s.rowFc t))).countTile t 15
    (boolNat (x.arrayBusy (s.rowFc t)))

/-- The skip holds committed bytes that have not been consumed (R196). -/
def Skip.holdsCommitted (k : Skip) : Bool :=
  !k.words.isEmpty || decide (0 < k.tailCommitted) || (k.fly ++ k.tail).any (fun e => decide (e.seq ≤ k.effective))

/-- A replay of the thread that owns port p of the tile is under way, within REPLAY_FC of its stage. -/
def State.replaying (s : State) (t p : Nat) : Bool :=
  let x := s.tile t
  (match look x.ports p with
    | some y => x.restart.contains y.thread
    | none => false) && decide (s.rowFc t < x.replayFc + ((s.tileBudget t).map BudgetRec.replayFc).getD 0)

/-- A lower-level recovery on the skip's path holds its timer: a replay of its producer or consumer thread, or a
retransmission (R198). -/
def State.timerHeld (s : State) (k : Nat) : Bool :=
  let c := (s.skip k).cfg
  (match c.port with
    | some p => s.replaying (s.skipPos k) p
    | none => false)
  || (match c.producer with
    | some q => s.replaying (s.physical q.1) q.2
    | none => false)
  || (match c.peer with
    | some d => !s.adit.ucieRetry.isEmpty || (match s.emeel.portFrom d with
      | some p => (match (s.emPort p).nakAt with
        | some a => decide (s.now < a + 2 * (s.emPort p).lMeas + 24)
        | none => false)
      | none => false)
    | none => false)

/-- One fc of the consumer's row clock at a skip: a drop in progress, the empty counter and the timer (R155, R196). -/
def State.countSkipFc (s : State) (k : Nat) : State :=
  let x := s.skip k
  let fc := s.skipFc k
  let s0 : State := if x.dropping && !x.words.isEmpty then s.modSkip k (fun y => y.dropOn fc) else s
  let s1 : State := if x.words.isEmpty then s0.count 1 k 1 1 else s0
  if !x.holdsCommitted then s1.modSkip k (fun x => { x with timer := 0, activeTimeout := x.timeout.toNat })
  else if s.timerHeld k then s1
  else s1.modSkip k (fun x => { x with timer := x.timer + 1 })

/-- OQs write the rows that are over (R132), and BELLs that waited send (R171). -/
def State.rowWork (s : State) (stepped : Nat → Bool) : State :=
  let tiles := (s.tiles.filter (fun p => !p.2.macs.isEmpty && stepped (p.1 / 32))).map (·.1)
  (tiles.foldl State.oqAdvance s).retryBells stepped

/-- The counters of every tile and skip in the rows that completed a row fc. -/
def State.countRows (s : State) (stepped : Nat → Bool) : State :=
  let tiles := (s.tiles.filter (fun p => p.2.enabled && stepped (p.1 / 32))).map (·.1)
  let skips := (s.skips.filter (fun p => p.2.cfg.valid && decide (p.1 < 61440) && stepped (s.skipPos p.1 / 32))).map (·.1)
  skips.foldl State.countSkipFc (tiles.foldl State.countTileFc s)

/-! ## Counters of the tick domain clock -/

/-- A hoist that waits for a half, or at its bound of 256 outstanding bursts, counts hoist-wait fc (R176, R311). -/
def Hoist.waits (h : Hoist) : Bool :=
  h.waitHalf || (h.running.map (fun x => x.more && decide (256 ≤ x.outstanding))).getD false

def State.countHoists (s : State) : State :=
  s.sump.hoists.foldl (fun s h => if h.2.waits then s.count 6 h.1 2 1 else s) s

/-- A claim with a ring entry that waits for room in flight, its own or the device's, counts ring-stall fc (R176). -/
def State.ringStalled (s : State) (c : Nat) : Bool :=
  (decide (16 ≤ s.inflight c) || decide (4096 ≤ s.host.cmds.length)) && (List.range 14).any (fun k => (s.ring c k).producer != (s.ring c k).consumer)

def State.countRings (s : State) : State :=
  s.host.claims.foldl (fun s c => if s.ringStalled c.1 then s.count 5 c.1 1 1 else s) s

/-! ## What drains by itself -/

/-- Each riddle output FIFO passes one word on. -/
def State.drainRiddle (s : State) : State :=
  s.modRiddle (fun r => { r with blocks := r.blocks.map (fun b => (b.1, { b.2 with outFill := b.2.outFill.map (fun p => (p.1, p.2 - 1)) })) })

/-- Flits leave the egress A-tiles. -/
def State.drainEgresses (s : State) : State :=
  ((s.skips.filter (fun p => decide (0x20000 ≤ p.1))).map (·.1)).foldl State.drainEgress s

/-! ## The end of an fc -/

/-- What a write of register space could meet in the fc that ends is over (R9). -/
def State.settleFc (s : State) : State :=
  ({ s with hits := [] }).modDebug (fun d => { d with counters := d.counters.map (fun (c : Nat × Counter) => (c.1, c.2.settle)) })

/-- Ticks that have arrived in a domain which did not take them, disabled or with another source, are gone (R11, R13). -/
def State.dropTicks (s : State) : State :=
  upTo 8 (fun s d =>
    let gone (a : Nat × Nat) : Bool := decide (a.2 < s.now) && !((s.dom d).enable && s.tickFrom d a.1)
    if (s.dom d).dueTicks.any gone then s.modDom d (fun x => { x with dueTicks := x.dueTicks.filter (fun a => !gone a) }) else s) s

/-- One fc of the tick domain clock. While POR_N is asserted no clock runs; when the device is off, only the headframe's
time goes on. -/
def State.clockTick (s : State) : State :=
  let stepped (r : Nat) : Bool := (s.row r).steps
  let s0 : State := if s.power.porAsserted then s else s.takeSnapshot stepped
  let s1 : State := { s0 with now := s.now + 1 }
  if s.power.porAsserted then s1
  else
    let s2 : State := (((s1.settleFc.modEmeel Emeel.advance).dropTicks).advanceRows).enterRows stepped
    ((((((s2.countRows stepped).rowWork stepped).countHoists.countRings).drainRiddle).takeBuffers).admitRuns).drainEgresses

end Sys2Proof.Machine
end

