-- ==== Sys2Proof/Machine/Flags.lean ====
section
/-! DEFINITION. Lane results of the vector and scalar instructions, with the saturations each counts
(Table 5.1, R133 to R136). -/

namespace Sys2Proof.Machine

/-- Bits of a lane of a vector TYPE. -/
def laneBits (ty : Nat) : Nat := codeBits ty

/-- Lanes of a 64-byte register. -/
def lanesOf (b : Nat) (x : Nat) : List Nat := (List.range (512 / b)).map (fun i => elemAt b x i)

/-- Integer TYPE. -/
def intType (ty : Nat) : Bool := ty == 1 || ty == 2

/-- A sum, difference or product of integer lanes: INT8 saturates, INT32 wraps. -/
def intResult (ty : Nat) (i : Int) : Nat × Nat :=
  if ty = 1 then let c := clampInt i (-128) 127; (wrapInt 8 c.1, c.2) else (wrapInt 32 i, 0)

/-- An exact value rounded once to a floating TYPE (R91). -/
def floatResult (ty : Nat) (x : Num) : Nat × Nat :=
  match codeFmt ty with
  | some f => ((f.convert false x).1, 0)
  | none => (0, 0)

/-- Sign bit of a floating lane. -/
def laneNeg (ty a : Nat) : Bool := bitAt a (laneBits ty - 1)

/-- Larger of two floating lanes; +0 above -0 (Table 5.1). -/
def floatMax (ty a b : Nat) : Nat :=
  let x := decodeElem ty a
  let y := decodeElem ty b
  if x.isNan || y.isNan then (floatResult ty .nan).1
  else if x.lt y then b else if y.lt x then a else if laneNeg ty a then b else a

def floatMin (ty a b : Nat) : Nat :=
  let x := decodeElem ty a
  let y := decodeElem ty b
  if x.isNan || y.isNan then (floatResult ty .nan).1
  else if x.lt y then a else if y.lt x then b else if laneNeg ty a then a else b

/-- a COND b (Table 4.2, Table 5.1). -/
def laneCond (ty cond a b : Nat) : Bool :=
  let x := decodeElem ty a
  let y := decodeElem ty b
  let n := x.isNan || y.isNan
  match cond with
  | 0 => x.eq y
  | 1 => !x.eq y
  | 2 => !n && x.lt y
  | 3 => !n && !y.lt x
  | 4 => !n && y.lt x
  | _ => !n && !x.lt y

/-- A NaN result is the canonical NaN (Table 5.1). -/
def canonNan (ty z : Nat) : Nat := if !intType ty && (decodeElem ty z).isNan then (floatResult ty .nan).1 else z

/-- Result of one lane for opcodes 0x30 to 0x3A, 0x35 and 0x3C, and the saturations it counts. -/
def laneResult (op ty cond a b c : Nat) : Nat × Nat :=
  let w := laneBits ty
  let ia := signedOf w a
  let ib := signedOf w b
  let fa := decodeElem ty a
  let fb := decodeElem ty b
  let sh := b % w
  match op with
  | 0x30 => if intType ty then intResult ty (ia + ib) else floatResult ty (fa.add fb)
  | 0x31 => if intType ty then intResult ty (ia - ib) else floatResult ty (fa.sub fb)
  | 0x32 => if intType ty then intResult ty (ia * ib) else floatResult ty (fa.mul fb)
  | 0x33 => if intType ty then (if ia < ib then b else a, 0) else (floatMax ty a b, 0)
  | 0x34 => if intType ty then (if ia < ib then a else b, 0) else (floatMin ty a b, 0)
  | 0x35 => (canonNan ty (if laneCond ty cond a b then a else c), 0)
  | 0x36 => ((a <<< sh) % 2 ^ w, 0)
  | 0x37 => (wrapInt w (ia / (2 ^ sh : Nat)), 0)
  | 0x38 => (a &&& b, 0)
  | 0x39 => (a ||| b, 0)
  | 0x3A => (a ^^^ b, 0)
  | _ =>
    if intType ty then (if ia < 0 then 0 else a, 0)
    else if fa.isNan then floatResult ty .nan else (if laneNeg ty a then 0 else a, 0)

/-- Lanes of a and b combined lane by lane, with c as the third operand. -/
def zipLanes (f : Nat → Nat → Nat → Nat × Nat) (as bs cs : List Nat) : List (Nat × Nat) :=
  (List.range as.length).map (fun i => f (as.getD i 0) (bs.getD i 0) (cs.getD i 0))

/-- Operand b of an immediate: every lane holds it (R104). An INT8 lane that cannot hold it has the free
value given. -/
def immLane (ty imm free : Nat) : Nat :=
  match ty with
  | 1 => let i := signedOf 16 imm; if -128 ≤ i ∧ i ≤ 127 then wrapInt 8 i else free % 256
  | 2 => wrapInt 32 (signedOf 16 imm)
  | 5 => imm
  | _ => imm <<< 16

/-- TYPE can hold the immediate (R104). -/
def immHeld (ty imm : Nat) : Bool := ty != 1 || (decide (-128 ≤ signedOf 16 imm) && decide (signedOf 16 imm ≤ 127))

/-- VCVT of a register (R134): the converted lanes, zeros above, and the saturations. -/
def vcvtLanes (ty dt : Nat) (satfp : Bool) (x : Nat) : List (Nat × Nat) :=
  let m := min (512 / codeBits ty) (512 / codeBits dt)
  (List.range m).map (fun i => convertTo dt satfp (decodeElem ty (elemAt (codeBits ty) x i)))

/-- Zero mask of 64 INT8 lanes (R136). -/
def zeroMask (ls : List Nat) : Nat := packElems 1 (ls.map (fun x => if x = 0 then 0 else 1))

/-- Expand packed bytes under a mask from lane i on; p bytes are used already (R136). -/
def zunpk (mask : Nat) (bytes : List Nat) : Nat → Nat → Nat → List Nat
  | 0, _, _ => []
  | n + 1, i, p => if bitAt mask i then bytes.getD p 0 :: zunpk mask bytes n (i + 1) (p + 1) else 0 :: zunpk mask bytes n (i + 1) p

end Sys2Proof.Machine
end

