-- ==== Sys2Proof/Machine/Vector.lean ====
section
/-! DEFINITION. Vector and scalar instructions (R133 to R137). -/

namespace Sys2Proof.Machine

/-- Result latency (Table 5.2). -/
def vLatency (w : Nat) : Nat := if intType (vType w) then (if vS w then 1 else 2) else 3

/-- Lanes of operand register r: one 32-bit value with S = 1. -/
def State.vLanes (s : State) (t th w r : Nat) : List Nat :=
  if vS w then [(s.g t th r).toNat] else lanesOf (laneBits (vType w)) (s.v t th r).toNat

/-- Write result lanes to RD after the given latency, and count saturations at the tile (R86, R90). -/
def State.vWrite (s : State) (t th w lat : Nat) (ls : List (Nat × Nat)) : State :=
  let x := packElems (laneBits (vType w)) (ls.map (·.1))
  let n := (ls.map (·.2)).foldl (· + ·) 0
  (if vS w then s.setG t th (vRd w) lat (BitVec.ofNat 32 x) else s.setV t th (vRd w) lat (BitVec.ofNat 512 x)).countTile t 9 n

/-- A draw is made only for an immediate that TYPE cannot hold (R104). -/
def State.drawImm (s : State) (w : Nat) : State := if immHeld (vType w) (vImm w) then s else s.draw

/-- Opcodes 0x30 to 0x3A and VRELU: each lane of RD receives the result for the same lanes of RA and b (R133). -/
def State.vLaneOp (s : State) (t th w : Nat) : State :=
  let as := s.vLanes t th w (vRa w)
  let bs := if vI w then as.map (fun _ => immLane (vType w) (vImm w) s.drawn) else s.vLanes t th w (vRb w)
  let cs := s.vLanes t th w (vRc w)
  (if vI w then s.drawImm w else s).vWrite t th w (vLatency w) (zipLanes (laneResult (wOp w) (vType w) (vCond w)) as bs cs)

/-- VADD. -/
def execVadd (t th : Nat) (s : State) : Result := s.instr t th 0x30 (fun w s => s.vLaneOp t th w)
/-- VSUB. -/
def execVsub (t th : Nat) (s : State) : Result := s.instr t th 0x31 (fun w s => s.vLaneOp t th w)
/-- VMUL. -/
def execVmul (t th : Nat) (s : State) : Result := s.instr t th 0x32 (fun w s => s.vLaneOp t th w)
/-- VMAX. -/
def execVmax (t th : Nat) (s : State) : Result := s.instr t th 0x33 (fun w s => s.vLaneOp t th w)
/-- VMIN. -/
def execVmin (t th : Nat) (s : State) : Result := s.instr t th 0x34 (fun w s => s.vLaneOp t th w)
/-- VCSEL. -/
def execVcsel (t th : Nat) (s : State) : Result := s.instr t th 0x35 (fun w s => s.vLaneOp t th w)
/-- VSHL. -/
def execVshl (t th : Nat) (s : State) : Result := s.instr t th 0x36 (fun w s => s.vLaneOp t th w)
/-- VSHR. -/
def execVshr (t th : Nat) (s : State) : Result := s.instr t th 0x37 (fun w s => s.vLaneOp t th w)
/-- VAND. -/
def execVand (t th : Nat) (s : State) : Result := s.instr t th 0x38 (fun w s => s.vLaneOp t th w)
/-- VOR. -/
def execVor (t th : Nat) (s : State) : Result := s.instr t th 0x39 (fun w s => s.vLaneOp t th w)
/-- VXOR. -/
def execVxor (t th : Nat) (s : State) : Result := s.instr t th 0x3A (fun w s => s.vLaneOp t th w)
/-- VRELU. -/
def execVrelu (t th : Nat) (s : State) : Result := s.instr t th 0x3C (fun w s => s.vLaneOp t th w)

/-- VCVT (R134). -/
def execVcvt (t th : Nat) (s : State) : Result :=
  s.instr t th 0x3B (fun w s =>
    let ls := vcvtLanes (vType w) (vDtype w) (vSatfp w) (s.v t th (vRa w)).toNat
    (s.setV t th (vRd w) 3 (BitVec.ofNat 512 (packElems (codeBits (vDtype w)) (ls.map (·.1))))).countTile t 9
      ((ls.map (·.2)).foldl (· + ·) 0))

/-- ZPACK (R136). -/
def execZpack (t th : Nat) (s : State) : Result :=
  s.instr t th 0x3D (fun w s =>
    let ls := lanesOf 8 (s.v t th (vRa w)).toNat
    (s.setV t th (vRd w) 4 (BitVec.ofNat 512 (packElems 8 (ls.filter (fun x => x != 0))))).setZM t th 4
      (BitVec.ofNat 64 (zeroMask ls)))

/-- ZUNPK (R136). -/
def execZunpk (t th : Nat) (s : State) : Result :=
  s.instr t th 0x3E (fun w s =>
    let ls := lanesOf 8 (s.v t th (vRa w)).toNat
    s.setV t th (vRd w) 4 (BitVec.ofNat 512 (packElems 8 (zunpk (s.thread t th).regs.zm.toNat ls 64 0 0))))

/-- VMOVI (R135). -/
def execVmovi (t th : Nat) (s : State) : Result :=
  s.instr t th 0x3F (fun w s =>
    let ty := vType w
    if vS w then
      let old := (s.g t th (vRd w)).toNat
      let x := if vRa w = 1 then vImm w * 0x10000 + old % 0x10000 else immLane ty (vImm w) 0
      s.setG t th (vRd w) 1 (BitVec.ofNat 32 x)
    else
      let l := immLane ty (vImm w) s.drawn
      (s.drawImm w).setV t th (vRd w) 2 (BitVec.ofNat 512 (packElems (laneBits ty) (List.replicate (512 / laneBits ty) l))))

end Sys2Proof.Machine
end

