-- ==== Sys2Proof/Machine/Dispatch.lean ====
section
/-! DEFINITION. One arm per command: each calls its own meaning. -/

namespace Sys2Proof.Machine

def exec (i : Instr) (s : State) : Host.Outcome State Fault Refusal :=
  match i with
  | .tick d => Sys2Proof.Machine.execTick d s
  | .tickInserted d => Sys2Proof.Machine.execTickInserted d s
  | .internalGeneratorTick d => Sys2Proof.Machine.execInternalGeneratorTick d s
  | .followedTick d => Sys2Proof.Machine.execFollowedTick d s
  | .tickMessage d isStart time => Sys2Proof.Machine.execTickMessage d isStart time s
  | .captureTimeout block => Sys2Proof.Machine.execCaptureTimeout block s
  | .tickMarkArrival t => Sys2Proof.Machine.execTickMarkArrival t s
  | .slotMarkArrival t => Sys2Proof.Machine.execSlotMarkArrival t s
  | .decisionWordTransmit line => Sys2Proof.Machine.execDecisionWordTransmit line s
  | .lvdsTickEdge edge => Sys2Proof.Machine.execLvdsTickEdge edge s
  | .frameStart lane chan seq => Sys2Proof.Machine.execFrameStart lane chan seq s
  | .dataBlock lane data => Sys2Proof.Machine.execDataBlock lane data s
  | .frameEnd lane crc len => Sys2Proof.Machine.execFrameEnd lane crc len s
  | .tickBlock lane seq => Sys2Proof.Machine.execTickBlock lane seq s
  | .idle lane => Sys2Proof.Machine.execIdle lane s
  | .align lane number => Sys2Proof.Machine.execAlign lane number s
  | .uncorrectableCodeword lane => Sys2Proof.Machine.execUncorrectableCodeword lane s
  | .laneLosesLock lane => Sys2Proof.Machine.execLaneLosesLock lane s
  | .laneRegainsLock lane => Sys2Proof.Machine.execLaneRegainsLock lane s
  | .ethernetFrame port bytes => Sys2Proof.Machine.execEthernetFrame port bytes s
  | .pauseExpiry port => Sys2Proof.Machine.execPauseExpiry port s
  | .mirrorWindowEnd lane => Sys2Proof.Machine.execMirrorWindowEnd lane s
  | .frameArrival lane => Sys2Proof.Machine.execFrameArrival lane s
  | .ingestPush d p c => Sys2Proof.Machine.execIngestPush d p c s
  | .scatterDrain a => Sys2Proof.Machine.execScatterDrain a s
  | .zeroFillPush d p c => Sys2Proof.Machine.execZeroFillPush d p c s
  | .deadlineFillPush skip => Sys2Proof.Machine.execDeadlineFillPush skip s
  | .transmitPacket eth n => Sys2Proof.Machine.execTransmitPacket eth n s
  | .uciePacketReceived lane crcOk => Sys2Proof.Machine.execUciePacketReceived lane crcOk s
  | .riddleInputWord block port => Sys2Proof.Machine.execRiddleInputWord block port s
  | .riddleOutputWord block port => Sys2Proof.Machine.execRiddleOutputWord block port s
  | .riddleEofDeadline block lane => Sys2Proof.Machine.execRiddleEofDeadline block lane s
  | .riddleConfigReadback bad => Sys2Proof.Machine.execRiddleConfigReadback bad s
  | .riddleRepairComplete block => Sys2Proof.Machine.execRiddleRepairComplete block s
  | .rdBlockReset block => Sys2Proof.Machine.execRdBlockReset block s
  | .captureEdge block => Sys2Proof.Machine.execCaptureEdge block s
  | .nop t th => Sys2Proof.Machine.execNop t th s
  | .halt t th => Sys2Proof.Machine.execHalt t th s
  | .brk t th => Sys2Proof.Machine.execBrk t th s
  | .fn t th => Sys2Proof.Machine.execFn t th s
  | .loop t th => Sys2Proof.Machine.execLoop t th s
  | .lidx t th => Sys2Proof.Machine.execLidx t th s
  | .waittick t th => Sys2Proof.Machine.execWaittick t th s
  | .slot t th => Sys2Proof.Machine.execSlot t th s
  | .bell t th => Sys2Proof.Machine.execBell t th s
  | .waitbell t th => Sys2Proof.Machine.execWaitbell t th s
  | .pop t th => Sys2Proof.Machine.execPop t th s
  | .peek t th => Sys2Proof.Machine.execPeek t th s
  | .push t th => Sys2Proof.Machine.execPush t th s
  | .commit t th => Sys2Proof.Machine.execCommit t th s
  | .drop t th => Sys2Proof.Machine.execDrop t th s
  | .waitq t th => Sys2Proof.Machine.execWaitq t th s
  | .qstat t th => Sys2Proof.Machine.execQstat t th s
  | .ld t th => Sys2Proof.Machine.execLd t th s
  | .st t th => Sys2Proof.Machine.execSt t th s
  | .ldv t th => Sys2Proof.Machine.execLdv t th s
  | .stv t th => Sys2Proof.Machine.execStv t th s
  | .fence t th => Sys2Proof.Machine.execFence t th s
  | .lock t th => Sys2Proof.Machine.execLock t th s
  | .unlock t th => Sys2Proof.Machine.execUnlock t th s
  | .mms t th => Sys2Proof.Machine.execMms t th s
  | .wcs t th => Sys2Proof.Machine.execWcs t th s
  | .grs t th => Sys2Proof.Machine.execGrs t th s
  | .rq t th => Sys2Proof.Machine.execRq t th s
  | .oq t th => Sys2Proof.Machine.execOq t th s
  | .vadd t th => Sys2Proof.Machine.execVadd t th s
  | .vsub t th => Sys2Proof.Machine.execVsub t th s
  | .vmul t th => Sys2Proof.Machine.execVmul t th s
  | .vmax t th => Sys2Proof.Machine.execVmax t th s
  | .vmin t th => Sys2Proof.Machine.execVmin t th s
  | .vcsel t th => Sys2Proof.Machine.execVcsel t th s
  | .vshl t th => Sys2Proof.Machine.execVshl t th s
  | .vshr t th => Sys2Proof.Machine.execVshr t th s
  | .vand t th => Sys2Proof.Machine.execVand t th s
  | .vor t th => Sys2Proof.Machine.execVor t th s
  | .vxor t th => Sys2Proof.Machine.execVxor t th s
  | .vcvt t th => Sys2Proof.Machine.execVcvt t th s
  | .vrelu t th => Sys2Proof.Machine.execVrelu t th s
  | .zpack t th => Sys2Proof.Machine.execZpack t th s
  | .zunpk t th => Sys2Proof.Machine.execZunpk t th s
  | .vmovi t th => Sys2Proof.Machine.execVmovi t th s
  | .pcBreakpointMatch n => Sys2Proof.Machine.execPcBreakpointMatch n s
  | .macStreamStart t => Sys2Proof.Machine.execMacStreamStart t s
  | .macStreamComplete t => Sys2Proof.Machine.execMacStreamComplete t s
  | .heavyUnitTokenGrant row claim => Sys2Proof.Machine.execHeavyUnitTokenGrant row claim s
  | .rqComplete t => Sys2Proof.Machine.execRqComplete t s
  | .oqComplete t => Sys2Proof.Machine.execOqComplete t s
  | .fnCallComplete t unit => Sys2Proof.Machine.execFnCallComplete t unit s
  | .blockMoveComplete t => Sys2Proof.Machine.execBlockMoveComplete t s
  | .scratchLoadReturn t n => Sys2Proof.Machine.execScratchLoadReturn t n s
  | .scratchStorePerformed t n => Sys2Proof.Machine.execScratchStorePerformed t n s
  | .lockGrant t line => Sys2Proof.Machine.execLockGrant t line s
  | .weightFillArrival t half part => Sys2Proof.Machine.execWeightFillArrival t half part s
  | .entryReachesTail skip => Sys2Proof.Machine.execEntryReachesTail skip s
  | .commitTakesEffect t port => Sys2Proof.Machine.execCommitTakesEffect t port s
  | .entriesBecomeVisible skip => Sys2Proof.Machine.execEntriesBecomeVisible skip s
  | .creditArrival skip => Sys2Proof.Machine.execCreditArrival skip s
  | .discardMarkArrival skip => Sys2Proof.Machine.execDiscardMarkArrival skip s
  | .headRefill skip => Sys2Proof.Machine.execHeadRefill skip s
  | .bellTokenArrival t route => Sys2Proof.Machine.execBellTokenArrival t route s
  | .skipTimerExpiry skip => Sys2Proof.Machine.execSkipTimerExpiry skip s
  | .hoistBurstIssue h => Sys2Proof.Machine.execHoistBurstIssue h s
  | .hoistBurstComplete h n => Sys2Proof.Machine.execHoistBurstComplete h n s
  | .waitHalfEnd h => Sys2Proof.Machine.execWaitHalfEnd h s
  | .translationWalkComplete claim page => Sys2Proof.Machine.execTranslationWalkComplete claim page s
  | .holdCopyComplete h => Sys2Proof.Machine.execHoldCopyComplete h s
  | .sumpRequest port req claim d len lst write => Sys2Proof.Machine.execSumpRequest port req claim d len lst write s
  | .portBurstComplete burst => Sys2Proof.Machine.execPortBurstComplete burst s
  | .canaryCountExpiry port => Sys2Proof.Machine.execCanaryCountExpiry port s
  | .markingComplete seq => Sys2Proof.Machine.execMarkingComplete seq s
  | .patrolScrub addr => Sys2Proof.Machine.execPatrolScrub addr s
  | .bar4Access claim write cva len data => Sys2Proof.Machine.execBar4Access claim write cva len data s
  | .doorbellProducerWrite claim ring value => Sys2Proof.Machine.execDoorbellProducerWrite claim ring value s
  | .doorbellConsumerWrite claim ring value => Sys2Proof.Machine.execDoorbellConsumerWrite claim ring value s
  | .forwardedDoorbell claim ring value => Sys2Proof.Machine.execForwardedDoorbell claim ring value s
  | .ringEntryTake claim ring => Sys2Proof.Machine.execRingEntryTake claim ring s
  | .completionEntryPlace claim => Sys2Proof.Machine.execCompletionEntryPlace claim s
  | .eventRecordPlace claim => Sys2Proof.Machine.execEventRecordPlace claim s
  | .claimOpen seq => Sys2Proof.Machine.execClaimOpen seq s
  | .claimReset seq => Sys2Proof.Machine.execClaimReset seq s
  | .claimResetComplete claim => Sys2Proof.Machine.execClaimResetComplete claim s
  | .claimClose seq => Sys2Proof.Machine.execClaimClose seq s
  | .map seq => Sys2Proof.Machine.execMap seq s
  | .unmap seq => Sys2Proof.Machine.execUnmap seq s
  | .ringSetup seq => Sys2Proof.Machine.execRingSetup seq s
  | .load seq => Sys2Proof.Machine.execLoad seq s
  | .loadComplete seq => Sys2Proof.Machine.execLoadComplete seq s
  | .shadowLoadComplete t => Sys2Proof.Machine.execShadowLoadComplete t s
  | .unload seq => Sys2Proof.Machine.execUnload seq s
  | .bind seq => Sys2Proof.Machine.execBind seq s
  | .start seq => Sys2Proof.Machine.execStart seq s
  | .stop seq => Sys2Proof.Machine.execStop seq s
  | .swap seq => Sys2Proof.Machine.execSwap seq s
  | .weightUpdate seq => Sys2Proof.Machine.execWeightUpdate seq s
  | .hoist seq => Sys2Proof.Machine.execHoist seq s
  | .resume seq => Sys2Proof.Machine.execResume seq s
  | .scrub seq => Sys2Proof.Machine.execScrub seq s
  | .snapshot seq => Sys2Proof.Machine.execSnapshot seq s
  | .snapshotLatch => Sys2Proof.Machine.execSnapshotLatch s
  | .capture seq => Sys2Proof.Machine.execCapture seq s
  | .counterRead seq => Sys2Proof.Machine.execCounterRead seq s
  | .selfTest seq => Sys2Proof.Machine.execSelfTest seq s
  | .journalRead seq => Sys2Proof.Machine.execJournalRead seq s
  | .fenceCommand seq => Sys2Proof.Machine.execFenceCommand seq s
  | .flr claim => Sys2Proof.Machine.execFlr claim s
  | .perstNAssert => Sys2Proof.Machine.execPerstNAssert s
  | .porNAssert => Sys2Proof.Machine.execPorNAssert s
  | .porNDeassert meshHead => Sys2Proof.Machine.execPorNDeassert meshHead s
  | .pllLock => Sys2Proof.Machine.execPllLock s
  | .tileSramFillComplete => Sys2Proof.Machine.execTileSramFillComplete s
  | .checkerSelfTestComplete failures => Sys2Proof.Machine.execCheckerSelfTestComplete failures s
  | .hbmTrained => Sys2Proof.Machine.execHbmTrained s
  | .sumpAddressTestComplete failures => Sys2Proof.Machine.execSumpAddressTestComplete failures s
  | .firmwareVerified error => Sys2Proof.Machine.execFirmwareVerified error s
  | .sumpFillComplete => Sys2Proof.Machine.execSumpFillComplete s
  | .headframeReady => Sys2Proof.Machine.execHeadframeReady s
  | .pcieLinkUp => Sys2Proof.Machine.execPcieLinkUp s
  | .rowPowerReady row => Sys2Proof.Machine.execRowPowerReady row s
  | .droopSensorTrip row => Sys2Proof.Machine.execDroopSensorTrip row s
  | .droopSensorClear row => Sys2Proof.Machine.execDroopSensorClear row s
  | .rowClockStepDown row => Sys2Proof.Machine.execRowClockStepDown row s
  | .rowClockStepUp row => Sys2Proof.Machine.execRowClockStepUp row s
  | .thermalSensorRead celsius => Sys2Proof.Machine.execThermalSensorRead celsius s
  | .faultDetection f => Sys2Proof.Machine.execFaultDetection f s
  | .replayRestart t => Sys2Proof.Machine.execReplayRestart t s
  | .retirementEffect => Sys2Proof.Machine.execRetirementEffect s
  | .retirementCopyComplete => Sys2Proof.Machine.execRetirementCopyComplete s
  | .spareLoadComplete t => Sys2Proof.Machine.execSpareLoadComplete t s
  | .spareRestart t => Sys2Proof.Machine.execSpareRestart t s
  | .portTrainingComplete port lMeas neighbour => Sys2Proof.Machine.execPortTrainingComplete port lMeas neighbour s
  | .flitReceived port f corrected crcOk => Sys2Proof.Machine.execFlitReceived port f corrected crcOk s
  | .nakReceived port seq => Sys2Proof.Machine.execNakReceived port seq s
  | .flitDelivery port => Sys2Proof.Machine.execFlitDelivery port s
  | .idTokenReceived port x y xSize ySize => Sys2Proof.Machine.execIdTokenReceived port x y xSize ySize s
  | .deviceReport id latency => Sys2Proof.Machine.execDeviceReport id latency s
  | .meshTimeCorrection offset => Sys2Proof.Machine.execMeshTimeCorrection offset s
  | .remoteWindowAccess write offset value => Sys2Proof.Machine.execRemoteWindowAccess write offset value s
  | .remoteAccessTimeout => Sys2Proof.Machine.execRemoteAccessTimeout s
  | .enumerate value => Sys2Proof.Machine.execEnumerate value s
  | .retrain port value => Sys2Proof.Machine.execRetrain port value s
  | .hfTickCfgWrite d value => Sys2Proof.Machine.execHfTickCfgWrite d value s
  | .hfTickPeriodWrite d value => Sys2Proof.Machine.execHfTickPeriodWrite d value s
  | .hfTickTolWrite d value => Sys2Proof.Machine.execHfTickTolWrite d value s
  | .hfTickCountLoRead d => Sys2Proof.Machine.execHfTickCountLoRead d s
  | .journalHeadLoRead claim => Sys2Proof.Machine.execJournalHeadLoRead claim s
  | .hfSeqLoRead => Sys2Proof.Machine.execHfSeqLoRead s
  | .hfEventSeqLoRead => Sys2Proof.Machine.execHfEventSeqLoRead s
  | .emTimeLoRead => Sys2Proof.Machine.execEmTimeLoRead s
  | .hfLockSetWrite value => Sys2Proof.Machine.execHfLockSetWrite value s
  | .hfFaultCfgWrite value => Sys2Proof.Machine.execHfFaultCfgWrite value s
  | .adQuadCfgWrite q value => Sys2Proof.Machine.execAdQuadCfgWrite q value s
  | .adQuadChmapWrite q value => Sys2Proof.Machine.execAdQuadChmapWrite q value s
  | .adDecLineWrite line value => Sys2Proof.Machine.execAdDecLineWrite line value s
  | .spArbCfgWrite value => Sys2Proof.Machine.execSpArbCfgWrite value s
  | .spHoistCfgWrite h value => Sys2Proof.Machine.execSpHoistCfgWrite h value s
  | .pwTdpCfgWrite value => Sys2Proof.Machine.execPwTdpCfgWrite value s
  | .pwThermalCfgWrite value => Sys2Proof.Machine.execPwThermalCfgWrite value s
  | .pwDroopCfgWrite value => Sys2Proof.Machine.execPwDroopCfgWrite value s
  | .counterLowRead jtag offset => Sys2Proof.Machine.execCounterLowRead jtag offset s
  | .counterHighWrite jtag offset value => Sys2Proof.Machine.execCounterHighWrite jtag offset value s
  | .counterLowWrite jtag offset value => Sys2Proof.Machine.execCounterLowWrite jtag offset value s
  | .dbHalt value => Sys2Proof.Machine.execDbHalt value s
  | .dbResume value => Sys2Proof.Machine.execDbResume value s
  | .dbStep value => Sys2Proof.Machine.execDbStep value s
  | .dbForce value => Sys2Proof.Machine.execDbForce value s
  | .haltTakesEffect t th => Sys2Proof.Machine.execHaltTakesEffect t th s
  | .haltLockTimeout t th => Sys2Proof.Machine.execHaltLockTimeout t th s
  | .unlockSubmit => Sys2Proof.Machine.execUnlockSubmit s
  | .unlockCheckComplete => Sys2Proof.Machine.execUnlockCheckComplete s
  | .dbacc value => Sys2Proof.Machine.execDbacc value s
  | .registerWrite offset value => Sys2Proof.Machine.execRegisterWrite offset value s
  | .perstNDeassert => Sys2Proof.Machine.execPerstNDeassert s
  | .treeRisingEdge edge => Sys2Proof.Machine.execTreeRisingEdge edge s
  | .stackTemperatureUpdate celsius => Sys2Proof.Machine.execStackTemperatureUpdate celsius s
  | .packagePowerUpdate milliwatt => Sys2Proof.Machine.execPackagePowerUpdate milliwatt s
  | .treeFrequencyUpdate kilohertz => Sys2Proof.Machine.execTreeFrequencyUpdate kilohertz s

end Sys2Proof.Machine
end

