-- ==== Sys2Proof/Safety.lean ====
section
/-! DEFINITION. The terms in which the statements speak: a command that answers a next state, what an issued
instruction leaves alone, and the invariants that a step keeps. -/

namespace Sys2Proof.Machine

/-- The command answers a next state, and that state has the property. -/
def Answers (r : Result) (p : State → Prop) : Prop := ∃ u, r = .next u ∧ p u

/-- Memory is in its canonical form: addresses rise, and no zero byte is listed. -/
abbrev State.MemoryOk (s : State) : Prop := Memory.wf s.mem = true

/-- The 24 row clocks run at 12/16 to 16/16 of the nominal rate (R399). -/
abbrev State.RowsOk (s : State) : Prop :=
  s.power.rows.length = 24 ∧ ∀ r ∈ s.power.rows, 12 ≤ r.k ∧ r.k ≤ 16 ∧ r.acc < 16

/-- Every counter holds 48 bits (R410). -/
abbrev State.CountersOk (s : State) : Prop := ∀ c ∈ s.dbg.counters, c.2.value < 2 ^ 48

/-- Value of a counter by its offset. -/
def State.counterAt (s : State) (off : Nat) : Counter := lookD s.dbg.counters off {}

/-- Every counter but the listed ones is as before. -/
def SameCounters (s u : State) (offs : List Nat) : Prop := ∀ o, o ∉ offs → u.counterAt o = s.counterAt o

/-- A stored byte is as before outside n bytes from a. -/
def SameBytes (s u : State) (a n : Nat) : Prop := ∀ b, b < a ∨ a + n ≤ b → memGet u.mem b = memGet s.mem b

/-- The sequencer of tile t selects thread th (R48, R114), whose next word is a legal instruction with opcode
op (R50, R109). -/
abbrev State.Issues (s : State) (t th op : Nat) : Prop :=
  s.canIssue t th op = true ∧ legalWord (s.tile t) (kindOf t) th (s.pcWord t th) = true ∧ (s.thread t th).regs.pc < 2048

/-- What an issue leaves alone on every other tile and in the rest of the device: everything outside the tiles,
the counters named and the draws of free values. -/
def IssueFrame (s u : State) (t : Nat) (ctrs : List Nat) : Prop :=
  u = { s with tiles := u.tiles, dbg := { s.dbg with counters := u.dbg.counters }, free := u.free }
    ∧ (∀ x, x ≠ t → u.tile x = s.tile x)
    ∧ SameCounters s u ctrs

/-- The thread after the issue of one word, before its effect: its program counter and loops are those of the next
word (R110), and it is ready again in the next fc. -/
def State.issuedThread (s : State) (t th : Nat) : Thread :=
  { s.thread t th with
    regs := (s.thread t th).regs.advance, issued := true, readyAt := s.rowFc t + 1, passBreak := false, stepping := false
    haltAsked := if (s.thread t th).stepping then some (s.rowFc t + 4096) else (s.thread t th).haltAsked }

/-- What an instruction that only changes its thread leaves alone: all of IssueFrame, every other thread, and the
tile but for its issue slot. -/
def ThreadFrame (s u : State) (t th : Nat) (ctrs : List Nat) : Prop :=
  IssueFrame s u t (ctrOff 0 (s.tile t).logical 0 :: ctrs)
    ∧ u.tile t = { s.tile t with threads := (u.tile t).threads, lastIssued := th, issueFc := s.rowFc t + 1 }
    ∧ ∀ x, x ≠ th → u.thread t x = s.thread t x

/-- What an instruction that only writes registers of its thread leaves alone: all of ThreadFrame, the rest of the
issued thread, and every register but those named. -/
def RegFrame (s u : State) (t th : Nat) (gs vs : List Nat) (zm : Bool) (ctrs : List Nat) : Prop :=
  ThreadFrame s u t th ctrs
    ∧ u.thread t th = { s.issuedThread t th with
        regs := { (s.issuedThread t th).regs with
          g := (u.thread t th).regs.g, v := (u.thread t th).regs.v, zm := (u.thread t th).regs.zm }
        busy := (u.thread t th).busy, before := (u.thread t th).before }
    ∧ (∀ r, r ∉ gs → u.g t th r = s.g t th r)
    ∧ (∀ r, r ∉ vs → u.v t th r = s.v t th r)
    ∧ (zm = false → (u.thread t th).regs.zm = (s.thread t th).regs.zm)

/-- What a queue instruction leaves alone: everything outside the tiles, the skips, the counters, the draws and the note
of status bits set in this fc (R9); every other tile; every skip but those named. -/
def TileSkipFrame (s u : State) (t : Nat) (ks : List Nat) : Prop :=
  u = { s with tiles := u.tiles, skips := u.skips, dbg := { s.dbg with counters := u.dbg.counters }, free := u.free, hits := u.hits }
    ∧ (∀ x, x ≠ t → u.tile x = s.tile x)
    ∧ ∀ k, k ∉ ks → u.skip k = s.skip k

/-- No unit of the tile is held by an interlock: what the tile issues next starts nothing else. -/
abbrev Tile.AllStarted (x : Tile) : Prop :=
  (∀ m ∈ x.macs, m.startedAt.isSome = true) ∧ (∀ m ∈ x.moves, m.startedAt.isSome = true) ∧ ∀ f ∈ x.fns, f.startedAt.isSome = true

/-- The host command with a SEQ has ended. -/
def State.Ended (u : State) (seq : Nat) (ok : Bool) (reason : Nat) : Prop :=
  ∃ m result, u.cmd? seq = some m ∧ m.state = .ended ok reason result

/-- The host command with a SEQ has started and has not ended. -/
def State.Runs (u : State) (seq : Nat) : Prop := ∃ m, u.cmd? seq = some m ∧ m.state = .running

/-- The host command with a SEQ is c, and it may start as a command of opcode op (R329). -/
abbrev State.Ready (s : State) (seq op : Nat) (c : Cmd) : Prop := s.cmd? seq = some c ∧ s.cmdReady seq op = true

/-- Lane i of a v register under a vector TYPE. -/
def State.regLane (s : State) (t th ty r i : Nat) : Nat := elemAt (laneBits ty) (s.v t th r).toNat i

/-- Operand b of lane i: an immediate, or the same lane of RB. -/
def State.laneB (s : State) (t th w i : Nat) : Nat :=
  if vI w then immLane (vType w) (vImm w) s.drawn else s.regLane t th (vType w) (vRb w) i

/-- The tile with a logical id stands at its own position: no spare has replaced it (R37). -/
abbrev State.Home (s : State) (id : Nat) : Prop := (s.tile id).mapped = true ∧ (s.tile id).logical = id

/-- The twelve lane instructions with their opcodes (Table 4.4). -/
def laneRows : List ((Nat → Nat → Instr) × Nat) :=
  [(.vadd, 0x30), (.vsub, 0x31), (.vmul, 0x32), (.vmax, 0x33), (.vmin, 0x34), (.vcsel, 0x35), (.vshl, 0x36), (.vshr, 0x37),
   (.vand, 0x38), (.vor, 0x39), (.vxor, 0x3A), (.vrelu, 0x3C)]

end Sys2Proof.Machine
end

