-- ==== Sys2Proof/Certificates/Slice0/Obligations.lean ====
section
/-! DEFINITION. The statements for the provers, by family of commands. -/

open Sys2Proof Sys2Proof.Machine

/-! ## The queue, reset and the invariants -/

/-- The block's loop: with command c at the front of the queue, a step is exec of c on the state that holds the rest
of the queue. -/
def Obligations.StepRunsFrontCommand : Prop :=
  ∀ (c : Instr) (rest : List Instr) (s : State), s.pending = c :: rest → step s = exec c { s with pending := rest }

/-- No command touches the queue: what waits behind it waits on. -/
def Obligations.ExecKeepsQueue : Prop :=
  ∀ (c : Instr) (s u : State), exec c s = .next u → u.pending = s.pending

/-- An empty queue lets one fc of the tick domain clock pass (the model's choice, log entry 2). The images and the
claims stay as they are, and so does memory where no tile has a MAC instruction in flight, whose rows an OQ writes over
time; while POR_N is asserted nothing but time changes. -/
def Obligations.EmptyQueueLetsOneFcPass : Prop :=
  ∀ s : State, s.pending = [] →
    Answers (step s) (fun u => u.now = s.now + 1 ∧ u.pending = [] ∧ u.images = s.images ∧ u.host.claims = s.host.claims
      ∧ ((∀ p ∈ s.tiles, p.2.macs = []) → u.mem = s.mem)
      ∧ (s.power.porAsserted = true → u = { s with now := s.now + 1 }))

/-- What a reset leaves, of the values that the register tables state: tick domains off with their period and
tolerance, tiles at their own ids and disabled, skips invalid, claims closed, quads off and bypassed, the power, fault,
sump, debug, headframe and mesh fields named here, an empty queue, and memory that reads 0 (log entry 9). -/
def Obligations.ResetValues : Prop :=
  let s := State.reset
  (∀ d, (s.dom d).enable = false ∧ (s.dom d).period = 0x4B0 ∧ (s.dom d).tolerance = 0xC ∧ (s.dom d).running = false ∧ (s.dom d).count = 0)
    ∧ (∀ t, (s.tile t).mapped = !isSpare t ∧ (s.tile t).logical = t ∧ (s.tile t).enabled = false)
    ∧ (∀ k, (s.skip k).cfg.valid = false) ∧ (∀ c, (s.claim c).state = .closed)
    ∧ (∀ q, (s.quad q).enable = false ∧ (s.quad q).bypass = true)
    ∧ s.power.tdpW = 850 ∧ s.power.warnC = 95 ∧ s.power.stepUpFc = 64 ∧ s.power.thresholdMv = 30
    ∧ s.faults.recurCount = 3 ∧ s.faults.recurWindowMs = 1000 ∧ s.faults.patrolEn = true
    ∧ s.sump.canary = 0x100 ∧ s.sump.lwInterval = 8 ∧ s.sump.online = [false, false]
    ∧ s.dbg.attempts = 3 ∧ s.dbg.unlocked = false ∧ s.host.ready = false ∧ s.host.keyEnable = 0xFF
    ∧ s.emeel.devices = 1 ∧ s.pending = [] ∧ ∀ a, memGet s.mem a = 0

/-- The state after reset meets the invariants that the next two statements say a step keeps. -/
def Obligations.ResetMeetsInvariants : Prop :=
  State.reset.MemoryOk ∧ State.reset.RowsOk

/-- Whatever command a step takes, and when none waits, memory keeps its canonical form. -/
def Obligations.StepKeepsMemoryCanonical : Prop :=
  ∀ s u : State, s.MemoryOk → step s = .next u → u.MemoryOk

/-- Whatever a step does, the device keeps 24 row clocks, none slower than 12/16 or faster than 16/16 of nominal. -/
def Obligations.StepKeepsRowClocks : Prop :=
  ∀ s u : State, s.RowsOk → step s = .next u → u.RowsOk

/-! ## Sequencer instructions -/

/-- NOP does nothing for one fc, HALT stops the thread, WAITTICK begins its wait, LOOP opens a body from the next word
to END, and GRS writes a stream descriptor; each changes nothing but its thread. A word advances the loops of its
thread: the end of a body returns to its first word until the trip count is used up, and a perpetual body returns
always (R110, R165). -/
def Obligations.PlainControlAndLoopBodies : Prop :=
  (∀ (t th : Nat) (s : State),
     (s.Issues t th 0x00 → Answers (exec (.nop t th) s) (fun u => ThreadFrame s u t th [] ∧ u.thread t th = s.issuedThread t th))
     ∧ (s.Issues t th 0x01 → Answers (exec (.halt t th) s) (fun u =>
         ThreadFrame s u t th [] ∧ u.thread t th = { s.issuedThread t th with mode := .halted }))
     ∧ (s.Issues t th 0x10 → Answers (exec (.waittick t th) s) (fun u =>
         ThreadFrame s u t th [] ∧ u.thread t th = { s.issuedThread t th with wait := .tick }))
     ∧ (s.Issues t th 0x08 → Answers (exec (.loop t th) s) (fun u =>
         let w := s.pcWord t th
         let r := (s.issuedThread t th).regs
         ThreadFrame s u t th [] ∧ u.thread t th = { s.issuedThread t th with
           regs := { r with loops := { ctr := bits w 57 56, first := r.pc, last := bits w 55 45, trip := bits w 23 0 } :: r.loops } }))
     ∧ (s.Issues t th 0x2A → Answers (exec (.grs t th) s) (fun u =>
         let w := s.pcWord t th
         let r := (s.issuedThread t th).regs
         let d : SDesc := SDesc.mk (bits w 55 54) (bits w 53 51) (bits w 50 49) (bits w 48 38) (bits w 37 27) (bits w 26 18)
         ThreadFrame s u t th [] ∧ u.thread t th = { s.issuedThread t th with regs := { r with sd := put r.sd (bits w 57 56) d } })))
  ∧ (∀ (f : LoopFrame) (rest : List LoopFrame) (pc : Nat),
       (pc ≠ f.last → advanceLoops (f :: rest) pc = (f :: rest, pc + 1))
       ∧ (f.trip = 0 → advanceLoops (f :: rest) f.last = ({ f with pass := (f.pass + 1) % 2 ^ 24 } :: rest, f.first))
       ∧ (f.trip ≠ 0 → f.pass + 1 < f.trip → advanceLoops (f :: rest) f.last = ({ f with pass := f.pass + 1 } :: rest, f.first))
       ∧ (f.trip ≠ 0 → f.trip ≤ f.pass + 1 → advanceLoops (f :: rest) f.last = advanceLoops rest f.last)
       ∧ advanceLoops [] pc = ([], pc + 1))

/-- LIDX writes g[RD] := g[RA] + pass × STRIDE modulo 2^32, 1 fc after issue, and QSTAT writes the status of its port,
2 fc after issue; neither writes anything else. Fields of the port status (Table 6.1). Input port: visible entries,
without those that a drop in progress will discard, empty, underrun, dropping, timeout, and whether the head entry ends
its packet. Output port: credit, and the underrun and timeout bits of all destination skips. -/
def Obligations.LidxAndQstatWriteOneRegister : Prop :=
  (∀ (t th : Nat) (s : State),
     (s.Issues t th 0x09 → Answers (exec (.lidx t th) s) (fun u =>
       let w := s.pcWord t th
       RegFrame s u t th [bits w 55 51] [] false []
         ∧ u.g t th (bits w 55 51) = s.g t th (bits w 50 46)
             + BitVec.ofInt 32 (((s.thread t th).regs.passOf (bits w 57 56) : Int) * signedOf 16 (bits w 15 0))
         ∧ lookD (u.thread t th).busy (bits w 55 51) 0 = s.rowFc t + 1))
     ∧ (s.Issues t th 0x1E → Answers (exec (.qstat t th) s) (fun u =>
       let w := s.pcWord t th
       RegFrame s u t th [bits w 50 46] [] false []
         ∧ u.g t th (bits w 50 46) = BitVec.ofNat 32 (s.portStatus t (bits w 57 53))
         ∧ lookD (u.thread t th).busy (bits w 50 46) 0 = s.rowFc t + 2)))
  ∧ (∀ (s : State) (t p : Nat) (x : Port), look (s.tile t).ports p = some x →
       let v := s.portStatus t p
       (x.output = false →
         let k := s.skip (s.portSkip t p)
         let n := k.seen (s.rowFc t) - (if k.dropping then (packetWords k.words).1 else 0)
         bits v 31 16 = min n 0xFFFF ∧ bitAt v 15 = false ∧ bitAt v 14 = decide (n = 0) ∧ bitAt v 13 = k.underrun
           ∧ bitAt v 12 = k.dropping ∧ bitAt v 11 = k.timeoutBit
           ∧ bitAt v 10 = ((k.words.head?).any (fun r => r.eop) && decide (0 < n)) ∧ bits v 9 0 = 0)
       ∧ (x.output = true →
         bits v 31 16 = min (s.portCredit t p) 0xFFFF ∧ bitAt v 15 = true ∧ bitAt v 14 = false
           ∧ bitAt v 13 = x.dests.any (fun d => (s.skip d.1).underrun) ∧ bitAt v 12 = false
           ∧ bitAt v 11 = x.dests.any (fun d => (s.skip d.1).timeoutBit) ∧ bits v 10 0 = 0))

/-- SLOT waits for the next mark or for a numbered one, and returns at once, counted as slot-late, when its mark has
passed; FENCE waits while a scratch access of its thread is outstanding; WAITQ waits while its condition fails. -/
def Obligations.SlotFenceWaitq : Prop :=
  ∀ (t th : Nat) (s : State),
    let w := s.pcWord t th
    let x := s.tile t
    (s.Issues t th 0x11 →
      (yNext w = true → Answers (exec (.slot t th) s) (fun u =>
        ThreadFrame s u t th [] ∧ u.thread t th = { s.issuedThread t th with wait := .nextMark }))
      ∧ (yNext w = false → x.shiftFc.isSome = true → yValue w < x.nextSlot → Answers (exec (.slot t th) s) (fun u =>
        ThreadFrame s u t th [ctrOff 0 x.logical 11] ∧ u.thread t th = s.issuedThread t th
          ∧ u.counterAt (ctrOff 0 x.logical 11) = (s.counterAt (ctrOff 0 x.logical 11)).add 1))
      ∧ (yNext w = false → ¬(x.shiftFc.isSome = true ∧ yValue w < x.nextSlot) → Answers (exec (.slot t th) s) (fun u =>
        ThreadFrame s u t th [] ∧ u.thread t th = { s.issuedThread t th with wait := .slot (yValue w) })))
    ∧ (s.Issues t th 0x24 → Answers (exec (.fence t th) s) (fun u =>
        ThreadFrame s u t th []
          ∧ u.thread t th = if x.scratch.any (fun q => q.thread == th) then { s.issuedThread t th with wait := .fence }
            else s.issuedThread t th))
    ∧ (s.Issues t th 0x1D → Answers (exec (.waitq t th) s) (fun u =>
        ThreadFrame s u t th []
          ∧ u.thread t th = if s.waitqHolds t (qPort w) (qCount w) false then s.issuedThread t th
            else if s.waitqHolds t (qPort w) (qCount w) true then { s.issuedThread t th with readyAt := s.rowFc t + 2 }
            else { s.issuedThread t th with wait := .queue (qPort w) (qCount w) }))

/-- BRK acts as NOP where DB_BRK_EN is clear for the tile; where it is set it halts a thread that holds no lock and
raises one event, whose only memory is the physical function's event ring. -/
def Obligations.BrkHaltsOnlyWhenEnabled : Prop :=
  ∀ (t th : Nat) (s : State), s.Issues t th 0x02 →
    (s.breakEnabled t = false → Answers (exec (.brk t th) s) (fun u =>
      ThreadFrame s u t th [] ∧ u.thread t th = s.issuedThread t th))
    ∧ (s.breakEnabled t = true → (s.thread t th).lock = none → Answers (exec (.brk t th) s) (fun u =>
      u.thread t th = { s.issuedThread t th with mode := .debug, tickPassed := false }
        ∧ u.faults.eventSeq = s.faults.eventSeq + 1
        ∧ (∀ x, x ≠ t → u.tile x = s.tile x) ∧ u.skips = s.skips ∧ SameBytes s u (ringPhys 0 15) 0x10000))

/-- A token that a BELL sends goes to every destination of its route; with a full inbox at one of them the thread
waits. WAITBELL with ANY = 1 takes the oldest token of its inbox into g[RD]; with a token that it asks for it takes
that one; with an empty inbox the thread waits. A bell token that has arrived is in its inbox, behind the tokens
there, where no thread waits for it; a thread that waits for any token takes it at once. -/
def Obligations.BellsCarryTokens : Prop :=
  (∀ (t th : Nat) (s : State), s.Issues t th 0x12 →
     let w := s.pcWord t th
     (s.bellFull t (yRoute w) = true → Answers (exec (.bell t th) s) (fun u =>
       ThreadFrame s u t th [] ∧ u.thread t th = { s.issuedThread t th with wait := .bellSend (yRoute w) (yValue w) }))
     ∧ (s.bellFull t (yRoute w) = false → Answers (exec (.bell t th) s) (fun u =>
       u.thread t th = s.issuedThread t th ∧ u.mem = s.mem ∧ u.skips = s.skips
         ∧ ∀ b, look (s.tile t).bells (yRoute w) = some b → (∀ d ∈ b.dests, s.Home d.1) → ∀ p,
           (u.tile p).bellFly = (s.tile p).bellFly
             ++ (b.dests.filter (fun d => d.1 == p)).map (fun d => (d.2.1, BitVec.ofNat 8 (yValue w), s.rowFc p + d.2.2)))))
  ∧ (∀ (t th : Nat) (s : State), s.Issues t th 0x13 →
       let w := s.pcWord t th
       let inbox := lookD (s.tile t).inbox (yRoute w) []
       (∀ b bs, inbox = b :: bs → yAny w = true → Answers (exec (.waitbell t th) s) (fun u =>
         u.g t th (yRd w) = BitVec.ofNat 32 b.toNat ∧ lookD (u.tile t).inbox (yRoute w) [] = bs
           ∧ (u.thread t th).wait = .none ∧ (u.thread t th).readyAt = s.rowFc t + 1 ∧ u.mem = s.mem))
       ∧ (∀ b bs, inbox = b :: bs → yAny w = false → b.toNat = yValue w → Answers (exec (.waitbell t th) s) (fun u =>
         lookD (u.tile t).inbox (yRoute w) [] = bs ∧ (u.thread t th).wait = .none ∧ (u.thread t th).readyAt = s.rowFc t + 1
           ∧ (u.thread t th).regs = (s.issuedThread t th).regs ∧ u.mem = s.mem))
       ∧ (inbox = [] → Answers (exec (.waitbell t th) s) (fun u =>
         (u.thread t th).wait = .bell (yRoute w) (yAny w) (yValue w) (yRd w) ∧ u.mem = s.mem)))
  ∧ (∀ (t route i : Nat) (b : Nat × Byte × Nat) (s : State),
       findAt (fun (x : Nat × Byte × Nat) => x.1 == route) (s.tile t).bellFly = some (i, b) → b.2.2 ≤ s.rowFc t →
       ((∀ th, th < 4 → ∀ any v rd, (s.thread t th).wait ≠ .bell route any v rd) → Answers (exec (.bellTokenArrival t route) s) (fun u =>
         lookD (u.tile t).inbox route [] = lookD (s.tile t).inbox route [] ++ [b.2.1] ∧ u.mem = s.mem ∧ u.skips = s.skips))
       ∧ (∀ th v rd, th < 4 → (s.thread t th).wait = .bell route true v rd → lookD (s.tile t).inbox route [] = [] →
         (∀ x, x < 4 → x ≠ th → ∀ any v' rd', (s.thread t x).wait ≠ .bell route any v' rd') →
         Answers (exec (.bellTokenArrival t route) s) (fun u =>
           u.g t th rd = BitVec.ofNat 32 b.2.1.toNat ∧ (u.thread t th).wait = .none ∧ lookD (u.tile t).inbox route [] = [])))

/-- A word that the tile does not allow at run time is illegal: its thread stops, the tile shows ILLEGAL and its stage
misses, and no register of the thread is written (R50). NOP's row stands for a word of no listed opcode. -/
def Obligations.IllegalWordStopsThread : Prop :=
  ∀ (t th : Nat) (s : State), s.canIssue t th 0x00 = true → legalWord (s.tile t) (kindOf t) th (s.pcWord t th) = false →
    Answers (exec (.nop t th) s) (fun u =>
      (u.thread t th).mode = .illegal ∧ (u.tile t).illegal = true ∧ (u.tile t).mustMiss = true
        ∧ (u.thread t th).regs = (s.issuedThread t th).regs ∧ u.faults.eventSeq = s.faults.eventSeq + 1
        ∧ (∀ x, x ≠ t → u.tile x = s.tile x) ∧ u.skips = s.skips)

/-- Each of the twelve lane instructions VADD, VSUB, VMUL, VMAX, VMIN, VCSEL, VSHL, VSHR, VAND, VOR, VXOR and VRELU
(those of laneRows) completes and writes RD lane by lane with the result of Table 5.1 for the same lanes of RA and of
b, in its v form and in its g form, and writes nothing else but the tile's saturation counter. -/
def Obligations.LaneInstructionsWriteRd : Prop :=
  ∀ p ∈ laneRows, ∀ (t th : Nat) (s : State), s.Issues t th p.2 →
    let w := s.pcWord t th
    let ty := vType w
    Answers (exec (p.1 t th) s) (fun u =>
      RegFrame s u t th (if vS w then [vRd w] else []) (if vS w then [] else [vRd w]) false [ctrOff 0 (s.tile t).logical 9]
        ∧ (vS w = false → ∀ i, i < 512 / laneBits ty →
            u.regLane t th ty (vRd w) i
              = (laneResult p.2 ty (vCond w) (s.regLane t th ty (vRa w) i) (s.laneB t th w i) (s.regLane t th ty (vRc w) i)).1 % 2 ^ laneBits ty)
        ∧ (vS w = true → u.g t th (vRd w) = BitVec.ofNat 32
            (laneResult p.2 ty (vCond w) (s.g t th (vRa w)).toNat
              (if vI w then immLane ty (vImm w) s.drawn else (s.g t th (vRb w)).toNat) (s.g t th (vRc w)).toNat).1))

/-- Integer lanes as Table 5.1 gives them: INT32 sums, differences and products modulo 2^32; INT8 ones clamped to
-128..127 with each clamp counted; signed maximum, minimum and rectifier; shifts by the low bits of b. VCSEL takes the
lane of a where a COND b holds and the lane of c elsewhere, a NaN of either as the canonical NaN. On signed integers
COND is one of equal, not equal, less, not greater, greater and not less; on floating lanes a comparison with a NaN
operand is false, except not equal. A NaN operand makes a floating sum, maximum or minimum the canonical NaN. -/
def Obligations.LaneResults : Prop :=
  ((∀ (a b : BitVec 32) (c : Nat),
     laneResult 0x30 2 0 a.toNat b.toNat c = ((a + b).toNat, 0)
       ∧ laneResult 0x31 2 0 a.toNat b.toNat c = ((a - b).toNat, 0)
       ∧ laneResult 0x32 2 0 a.toNat b.toNat c = ((a * b).toNat, 0)
       ∧ laneResult 0x33 2 0 a.toNat b.toNat c = (if a.slt b then b.toNat else a.toNat, 0)
       ∧ laneResult 0x34 2 0 a.toNat b.toNat c = (if a.slt b then a.toNat else b.toNat, 0)
       ∧ laneResult 0x36 2 0 a.toNat b.toNat c = ((a <<< (b.toNat % 32)).toNat, 0)
       ∧ laneResult 0x37 2 0 a.toNat b.toNat c = ((a.sshiftRight (b.toNat % 32)).toNat, 0)
       ∧ laneResult 0x38 2 0 a.toNat b.toNat c = ((a &&& b).toNat, 0)
       ∧ laneResult 0x39 2 0 a.toNat b.toNat c = ((a ||| b).toNat, 0)
       ∧ laneResult 0x3A 2 0 a.toNat b.toNat c = ((a ^^^ b).toNat, 0)
       ∧ laneResult 0x3C 2 0 a.toNat b.toNat c = (if a.slt 0 then 0 else a.toNat, 0))
   ∧ (∀ (a b : BitVec 8) (c : Nat),
     let clamp (i : Int) : Nat × Nat :=
       ((BitVec.ofInt 8 (max (-128) (min 127 i))).toNat, if -128 ≤ i ∧ i ≤ 127 then 0 else 1)
     laneResult 0x30 1 0 a.toNat b.toNat c = clamp (a.toInt + b.toInt)
       ∧ laneResult 0x31 1 0 a.toNat b.toNat c = clamp (a.toInt - b.toInt)
       ∧ laneResult 0x32 1 0 a.toNat b.toNat c = clamp (a.toInt * b.toInt)
       ∧ laneResult 0x33 1 0 a.toNat b.toNat c = (if a.slt b then b.toNat else a.toNat, 0)
       ∧ laneResult 0x34 1 0 a.toNat b.toNat c = (if a.slt b then a.toNat else b.toNat, 0)
       ∧ laneResult 0x36 1 0 a.toNat b.toNat c = ((a <<< (b.toNat % 8)).toNat, 0)
       ∧ laneResult 0x37 1 0 a.toNat b.toNat c = ((a.sshiftRight (b.toNat % 8)).toNat, 0)))
  ∧ ((∀ (ty cond a b c : Nat), ty = 1 ∨ ty = 2 → (laneResult 0x35 ty cond a b c).1 = if laneCond ty cond a b then a else c)
     ∧ (∀ (ty cond a b c : Nat), ty = 5 ∨ ty = 6 →
       let z := if laneCond ty cond a b then a else c
       (laneResult 0x35 ty cond a b c).1 = if (decodeElem ty z).isNan then (if ty = 5 then 0x7FC0 else 0x7FC00000) else z)
     ∧ (∀ (a b : BitVec 32),
       laneCond 2 0 a.toNat b.toNat = (a == b) ∧ laneCond 2 1 a.toNat b.toNat = (a != b) ∧ laneCond 2 2 a.toNat b.toNat = a.slt b
         ∧ laneCond 2 3 a.toNat b.toNat = a.sle b ∧ laneCond 2 4 a.toNat b.toNat = b.slt a ∧ laneCond 2 5 a.toNat b.toNat = b.sle a)
     ∧ (∀ (ty a b c : Nat), ty = 5 ∨ ty = 6 → ((decodeElem ty a).isNan = true ∨ (decodeElem ty b).isNan = true) →
       let nan := if ty = 5 then 0x7FC0 else 0x7FC00000
       (laneCond ty 0 a b = false ∧ laneCond ty 1 a b = true ∧ laneCond ty 2 a b = false ∧ laneCond ty 3 a b = false
         ∧ laneCond ty 4 a b = false ∧ laneCond ty 5 a b = false)
         ∧ (∀ op ∈ [0x30, 0x31, 0x32, 0x33, 0x34], laneResult op ty 0 a b c = (nan, 0))))

/-- VCVT converts the lanes that both formats hold and zeroes the rest of RD. ZPACK sets bit i of ZM exactly where
INT8 lane i of RA is nonzero and packs the nonzero bytes in ascending lane order over zeros. ZUNPK puts byte p of RA
into lane i where bit i of ZM is 1, p being the ones of ZM below bit i, and 0 elsewhere, and keeps ZM. VMOVI: with S =
0 every lane receives the immediate as a value of TYPE; with S = 1 and RA = 0 g[RD] receives it sign-extended, or as
the upper half of an FP32 value; with RA = 1 only bits 31..16 change. -/
def Obligations.ConversionsAndZeroRuns : Prop :=
  (∀ (t th : Nat) (s : State), s.Issues t th 0x3B →
     let w := s.pcWord t th
     let n := min (512 / codeBits (vType w)) (512 / codeBits (vDtype w))
     Answers (exec (.vcvt t th) s) (fun u =>
       RegFrame s u t th [] [vRd w] false [ctrOff 0 (s.tile t).logical 9]
         ∧ (∀ i, i < n → elemAt (codeBits (vDtype w)) (u.v t th (vRd w)).toNat i
             = (convertTo (vDtype w) (vSatfp w) (decodeElem (vType w) (elemAt (codeBits (vType w)) (s.v t th (vRa w)).toNat i))).1
               % 2 ^ codeBits (vDtype w))
         ∧ (u.v t th (vRd w)).toNat < 2 ^ (n * codeBits (vDtype w))))
  ∧ (∀ (t th : Nat) (s : State),
       let w := s.pcWord t th
       let a := (s.v t th (vRa w)).toNat
       (s.Issues t th 0x3D → Answers (exec (.zpack t th) s) (fun u =>
         RegFrame s u t th [] [vRd w] true []
           ∧ (∀ i, i < 64 → (u.thread t th).regs.zm.getLsbD i = decide (elemAt 8 a i ≠ 0))
           ∧ ∀ i, i < 64 → elemAt 8 (u.v t th (vRd w)).toNat i
               = (((List.range 64).map (elemAt 8 a)).filter (fun x => x != 0)).getD i 0))
       ∧ (s.Issues t th 0x3E → Answers (exec (.zunpk t th) s) (fun u =>
         RegFrame s u t th [] [vRd w] false []
           ∧ ∀ i, i < 64 → elemAt 8 (u.v t th (vRd w)).toNat i
               = if (s.thread t th).regs.zm.getLsbD i then elemAt 8 a (popcount i (s.thread t th).regs.zm.toNat) else 0)))
  ∧ (∀ (t th : Nat) (s : State), s.Issues t th 0x3F →
       let w := s.pcWord t th
       Answers (exec (.vmovi t th) s) (fun u =>
         RegFrame s u t th (if vS w then [vRd w] else []) (if vS w then [] else [vRd w]) false []
           ∧ (vS w = false → ∀ i, i < 512 / laneBits (vType w) →
               u.regLane t th (vType w) (vRd w) i = immLane (vType w) (vImm w) s.drawn % 2 ^ laneBits (vType w))
           ∧ (vS w = true → vRa w = 0 → vType w = 2 → u.g t th (vRd w) = (BitVec.ofNat 16 (bits w 15 0)).signExtend 32)
           ∧ (vS w = true → vRa w = 0 → vType w = 6 → u.g t th (vRd w) = BitVec.ofNat 16 (bits w 15 0) ++ (0 : Half))
           ∧ (vS w = true → vRa w = 1 →
               u.g t th (vRd w) = BitVec.ofNat 16 (bits w 15 0) ++ (s.g t th (vRd w)).extractLsb' 0 16)))

/-! ## Queues, scratch, units -/

/-- POP with TK = 0 or 1 takes the head entry of its skip into a v or g register, marks it consumed, remembers it as
the last value popped, and loads ZM from a zero-run entry; with no visible entry it writes the last value popped, sets
UNDERRUN and consumes nothing, and raises an event where the skip asks for one. PEEK reads the head entry without
consuming it. An access whose TK does not match the skip moves nothing, sets WIDTH_MISMATCH, raises one event and makes
the stage miss (R144). A block POP takes COUNT visible entries, or as many as there are, with UNDERRUN, and begins a
move of COUNT entries into tile memory; an address that is not a multiple of 64 or a range that leaves the memory
begins none, raises one event and makes the stage miss (R107). -/
def Obligations.PopAndPeekReadHeads : Prop :=
  (∀ (t th : Nat) (s : State), s.Issues t th 0x18 →
     let w := s.pcWord t th
     let p := qPort w
     let k := s.portSkip t p
     let x := s.skip k
     qTk w ≠ 2 → decide (x.cfg.net = 1) = (qTk w == 1) →
     (∀ h ws, s.poppable t p ≠ 0 → x.words = h :: ws → (h.zrc && qTk w == 1) = false →
       Answers (exec (.pop t th) s) (fun u =>
         (qTk w = 0 → u.v t th (qReg w) = h.data) ∧ (qTk w = 1 → u.g t th (qReg w) = h.data.setWidth 32)
           ∧ (u.skip k).words = ws ∧ (u.skip k).consumed = x.consumed ++ [h] ∧ (u.skip k).consumedCount = x.consumedCount + 1
           ∧ lookD (u.thread t th).regs.lastPop p 0 = h.data
           ∧ (u.thread t th).regs.zm = (if h.zrc then h.mask else (s.thread t th).regs.zm)
           ∧ (h.miss = true → (s.tile t).group = 0 → (u.tile t).missMark = true)
           ∧ (h.miss = false → h.degraded = false → TileSkipFrame s u t [k])))
     ∧ (s.poppable t p = 0 → Answers (exec (.pop t th) s) (fun u =>
         (qTk w = 0 → u.v t th (qReg w) = s.lastPop t th p) ∧ (qTk w = 1 → u.g t th (qReg w) = (s.lastPop t th p).setWidth 32)
           ∧ (u.skip k).words = x.words ∧ (u.skip k).consumed = x.consumed ∧ (u.skip k).underrun = true
           ∧ (x.cfg.faultUnderrun = true → (u.tile t).mustMiss = true ∧ u.faults.eventSeq = s.faults.eventSeq + 1)
           ∧ (x.cfg.faultUnderrun = false → TileSkipFrame s u t [k]))))
  ∧ (∀ (t th : Nat) (s : State), s.Issues t th 0x19 →
       let w := s.pcWord t th
       let p := qPort w
       let k := s.portSkip t p
       let x := s.skip k
       decide (x.cfg.net = 1) = (qTk w == 1) → s.poppable t p ≠ 0 →
       ∀ h ws, x.words = h :: ws → (h.zrc && qTk w == 1) = false →
         Answers (exec (.peek t th) s) (fun u =>
           (qTk w = 0 → u.v t th (qReg w) = h.data) ∧ (qTk w = 1 → u.g t th (qReg w) = h.data.setWidth 32)
             ∧ (u.skip k).words = x.words ∧ (u.skip k).consumed = x.consumed ∧ (u.skip k).consumedCount = x.consumedCount
             ∧ (u.thread t th).regs.lastPop = (s.thread t th).regs.lastPop
             ∧ (h.miss = false → h.degraded = false → TileSkipFrame s u t [k])))
  ∧ (∀ p ∈ [((Instr.pop, 0x18) : (Nat → Nat → Instr) × Nat), (.peek, 0x19)], ∀ (t th : Nat) (s : State), s.Issues t th p.2 →
       let w := s.pcWord t th
       let k := s.portSkip t (qPort w)
       let x := s.skip k
       qTk w ≠ 2 → (look (s.tile t).ports (qPort w)).map (fun y => y.dests.length) = some 1 →
       (decide (x.cfg.net = 1) ≠ (qTk w == 1)
         ∨ (s.poppable t (qPort w) ≠ 0 ∧ ∃ h ws, x.words = h :: ws ∧ h.zrc = true ∧ qTk w = 1)) →
       Answers (exec (p.1 t th) s) (fun u =>
         (u.skip k).widthMismatch = true ∧ (u.skip k).words = x.words ∧ (u.skip k).consumed = x.consumed
           ∧ (u.tile t).mustMiss = true ∧ u.faults.eventSeq = s.faults.eventSeq + 1 ∧ u.thread t th = s.issuedThread t th))
  ∧ (∀ (t th : Nat) (s : State), s.Issues t th 0x18 →
       let w := s.pcWord t th
       let p := qPort w
       let k := s.portSkip t p
       let x := s.skip k
       let a := ((s.g t th (qReg w)).toNat + 64 * qLine w) % 2 ^ 32
       let n := qCount w
       qTk w = 2 →
       (a % 64 = 0 → a + 64 * n ≤ (blockMemory (kindOf t)).1 → x.cfg.net ≠ 1 → n ≤ s.poppable t p → (∀ r ∈ x.words.take n, r.zrc = false) →
         Answers (exec (.pop t th) s) (fun u =>
           (u.skip k).words = x.words.drop n ∧ (u.skip k).consumed = x.consumed ++ x.words.take n
             ∧ (∃ m ∈ (u.tile t).moves, m.push = false ∧ m.port = p ∧ m.thread = th ∧ m.addr = a ∧ m.count = n
                 ∧ m.taken = (x.words.take n).map RWord.data)
             ∧ ((s.tile t).AllStarted → (∀ r ∈ x.words.take n, r.miss = false ∧ r.degraded = false) → TileSkipFrame s u t [k])))
       ∧ (a % 64 = 0 → a + 64 * n ≤ (blockMemory (kindOf t)).1 → x.cfg.net ≠ 1 → s.poppable t p < n →
         (∀ r ∈ x.words.take (s.poppable t p), r.zrc = false) → x.cfg.faultUnderrun = false →
         Answers (exec (.pop t th) s) (fun u =>
           (u.skip k).words = x.words.drop (s.poppable t p) ∧ (u.skip k).underrun = true
             ∧ ∃ m ∈ (u.tile t).moves, m.push = false ∧ m.port = p ∧ m.thread = th ∧ m.addr = a ∧ m.count = n
                 ∧ m.taken = (x.words.take (s.poppable t p)).map RWord.data ∧ m.lastWord = s.lastPop t th p))
       ∧ (a % 64 ≠ 0 ∨ (blockMemory (kindOf t)).1 < a + 64 * n → Answers (exec (.pop t th) s) (fun u =>
           (u.tile t).mustMiss = true ∧ (u.tile t).moves = (s.tile t).moves ∧ u.skips = s.skips ∧ u.faults.eventSeq = s.faults.eventSeq + 1)))

/-- A block move that is due ends: a block POP has written its entries from its address on, 64 bytes each, and a block
PUSH writes nothing. -/
def Obligations.BlockMoveWritesEntries : Prop :=
  ∀ (t i : Nat) (m : BlockMove) (s : State), (s.tile t).doneMove (s.rowFc t) = some (i, m) → s.MemoryOk → s.unwritten = [] →
    let a := tileAddr t ((blockMemory (kindOf t)).2 + m.addr)
    Answers (exec (.blockMoveComplete t) s) (fun u =>
      (u.tile t).moves.length + 1 = (s.tile t).moves.length
        ∧ (m.push = true → u.mem = s.mem)
        ∧ (m.push = false → SameBytes s u a (64 * m.entries.length)
            ∧ ∀ j, j < m.entries.length → memRead u.mem (a + 64 * j) 64 = lineBytes (m.entries.getD j 0)))

/-- PUSH of a register with credit puts one tentative entry on the route to each destination of its port, of 2^WIDTH
bytes or, with ZRC, of the ones of ZM; it uses a credit of each, and writes no register and no memory. A block PUSH
with credit for its COUNT entries uses them and begins a move of COUNT entries from tile memory. A push without credit
is forbidden: it sends nothing, sets CREDIT_VIOLATION at its destinations, raises one event and makes the stage miss. A
push of another form than its skips take sends nothing, sets WIDTH_MISMATCH, raises one event and makes the stage miss
(R144), and a block PUSH from a forbidden address begins nothing, with one event and a miss (R107). -/
def Obligations.PushSendsOrViolatesCredit : Prop :=
  (∀ (t th : Nat) (y : Port) (s : State), s.Issues t th 0x1A →
     let w := s.pcWord t th
     let p := qPort w
     let n := if qZrc w then popcount 64 (s.thread t th).regs.zm.toNat else 2 ^ qWidth w
     let data := if qTk w = 0 then (s.v t th (qReg w)).toNat else (s.g t th (qReg w)).toNat
     qTk w ≠ 2 → look (s.tile t).ports p = some y → y.thread = th → (s.thread t th).unsure = false →
     s.pushFits t p w = true → s.portCredit t p ≠ 0 →
     (∀ d ∈ y.dests, (s.skip d.1).fillDue = 0) → (y.dests.map (·.1)).Nodup →
     Answers (exec (.push t th) s) (fun u =>
       (∀ d ∈ y.dests, ∃ e : Entry, (u.skip d.1).fly = (s.skip d.1).fly ++ [e]
           ∧ e.data = BitVec.ofNat 512 (data % 2 ^ (8 * n)) ∧ e.bytes = n ∧ e.eop = qEop w ∧ e.zrc = qZrc w
           ∧ e.seq = y.pushed + 1 ∧ e.miss = (s.tile t).missMark ∧ e.due = s.skipFc d.1 + 1 + d.2
           ∧ (u.skip d.1).effective = (s.skip d.1).effective
           ∧ (u.skip d.1).creditAll + (if (s.skip d.1).cfg.zrc then 0 else 1) ≤ (s.skip d.1).creditAll)
         ∧ (look (u.tile t).ports p).map Port.pushed = some (y.pushed + 1)
         ∧ u.thread t th = s.issuedThread t th ∧ TileSkipFrame s u t (y.dests.map (·.1))))
  ∧ (∀ (t th : Nat) (y : Port) (s : State), s.Issues t th 0x1A →
       let w := s.pcWord t th
       let p := qPort w
       look (s.tile t).ports p = some y → (∀ d ∈ y.dests, (s.skip d.1).fillDue = 0) →
       let a := ((s.g t th (qReg w)).toNat + 64 * qLine w) % 2 ^ 32
       let n := qCount w
       let inside : Bool := a % 64 == 0 && decide (a + 64 * n ≤ (blockMemory (kindOf t)).1)
       (qTk w = 2 → inside = true → s.pushFits t p w = true → n ≤ s.portCredit t p → (y.dests.map (·.1)).Nodup →
         Answers (exec (.push t th) s) (fun u =>
           (look (u.tile t).ports p).map Port.pushed = some (y.pushed + n) ∧ u.thread t th = s.issuedThread t th
             ∧ (∀ d ∈ y.dests, (s.skip d.1).cfg.zrc = false → (u.skip d.1).credit + n = (s.skip d.1).credit)
             ∧ ∃ m ∈ (u.tile t).moves, m.push = true ∧ m.port = p ∧ m.thread = th ∧ m.addr = a ∧ m.count = n ∧ m.eop = qEop w
                 ∧ m.upTo = y.pushed + n))
       ∧ ((qTk w = 2 → inside = true) → s.pushFits t p w = true → s.portCredit t p < (if qTk w = 2 then n else 1) →
         Answers (exec (.push t th) s) (fun u =>
           (∀ d ∈ y.dests, (u.skip d.1).creditViol = true ∧ (u.skip d.1).fly = (s.skip d.1).fly)
             ∧ (u.tile t).mustMiss = true ∧ u.faults.eventSeq = s.faults.eventSeq + 1 ∧ u.thread t th = s.issuedThread t th))
       ∧ ((qTk w = 2 → inside = true) → s.pushFits t p w = false → Answers (exec (.push t th) s) (fun u =>
           (∀ d ∈ y.dests, (u.skip d.1).widthMismatch = true ∧ (u.skip d.1).fly = (s.skip d.1).fly)
             ∧ (u.tile t).mustMiss = true ∧ u.faults.eventSeq = s.faults.eventSeq + 1 ∧ u.thread t th = s.issuedThread t th))
       ∧ (qTk w = 2 → inside = false → Answers (exec (.push t th) s) (fun u =>
           u.skips = s.skips ∧ (u.tile t).moves = (s.tile t).moves ∧ (u.tile t).mustMiss = true
             ∧ u.faults.eventSeq = s.faults.eventSeq + 1 ∧ u.thread t th = s.issuedThread t th)))

/-- COMMIT on an output port with no move in flight, in a stage that has not missed, sends a commit mark to every
destination, which covers every push so far; on an input port it releases every word consumed so far. While a move that
it covers is in flight it is put off, and never waits. With ALL = 1 it takes a checkpoint. DROP consumes the entries of
the current packet that were visible before this fc, and enters the dropping state when the last entry is not among
them. The packet that a DROP takes ends with the first end-of-packet entry. -/
def Obligations.CommitAndDrop : Prop :=
  (∀ (t th : Nat) (y : Port) (s : State), s.Issues t th 0x1B →
     let w := s.pcWord t th
     let p := qPort w
     (qAll w = false → look (s.tile t).ports p = some y → y.output = true → ((s.tile t).thread y.thread).late = false →
       s.stageMissed t = false → (s.tile t).portBusy p y.pushed = false → (y.dests.map (·.1)).Nodup →
       Answers (exec (.commit t th) s) (fun u =>
         (∀ d ∈ y.dests, (u.skip d.1).effective = max (s.skip d.1).effective y.pushed
             ∧ (u.skip d.1).marks = (s.skip d.1).marks
               ++ (if (s.skip d.1).effective < y.pushed then [(y.pushed, s.skipFc d.1 + d.2 + 2)] else []))
           ∧ (look (u.tile t).ports p).map Port.committed = some y.pushed
           ∧ u.thread t th = { s.issuedThread t th with midCommit := true } ∧ TileSkipFrame s u t (y.dests.map (·.1))))
     ∧ (qAll w = false → look (s.tile t).ports p = some y → y.output = false →
       let k := s.portSkip t p
       let x := s.skip k
       (s.tile t).portBusy p x.consumedCount = false →
       Answers (exec (.commit t th) s) (fun u =>
         (u.skip k).consumed = x.consumed.drop (x.consumedCount - x.releasedCount)
           ∧ (look (u.tile t).ports p).map Port.committed = some x.consumedCount
           ∧ u.thread t th = { s.issuedThread t th with midCommit := true } ∧ TileSkipFrame s u t [k]))
     ∧ (∀ n, qAll w = false → look (s.tile t).ports p = some y → (y.output = true → ((s.tile t).thread y.thread).late = false) →
       s.stageMissed t = false → n = (if y.output then y.pushed else (s.skip (s.portSkip t p)).consumedCount) →
       (s.tile t).portBusy p n = true →
       Answers (exec (.commit t th) s) (fun u =>
         (look (u.tile t).ports p).map Port.deferred = some (y.deferred ++ [n])
           ∧ (∀ d ∈ y.dests, (u.skip d.1).effective = (s.skip d.1).effective ∧ (u.skip d.1).marks = (s.skip d.1).marks
               ∧ (u.skip d.1).consumed = (s.skip d.1).consumed)
           ∧ (u.thread t th).wait = (s.thread t th).wait))
     ∧ (qAll w = true → Answers (exec (.commit t th) s) (fun u =>
         (u.thread t th).checkpoint = (u.thread t th).regs ∧ (u.thread t th).regs = (s.issuedThread t th).regs
           ∧ (u.thread t th).issued = false ∧ (u.thread t th).wait = (s.thread t th).wait ∧ u.mem = s.mem)))
  ∧ (∀ (t th : Nat) (s : State), s.Issues t th 0x1C →
       let k := s.portSkip t (qPort (s.pcWord t th))
       let x := s.skip k
       let r := packetWords (x.words.take (x.seen (s.rowFc t)))
       Answers (exec (.drop t th) s) (fun u =>
         u.thread t th = s.issuedThread t th ∧ TileSkipFrame s u t [k]
           ∧ (x.dropping = true → (u.skip k).words = x.words ∧ (u.skip k).dropping = true)
           ∧ (x.dropping = false → (u.skip k).words = x.words.drop r.1 ∧ (u.skip k).consumed = x.consumed ++ x.words.take r.1
               ∧ (u.skip k).dropping = !r.2)))
  ∧ (∀ (ws : List RWord),
       ((packetWords ws).2 = true ↔ ∃ r ∈ ws, r.eop = true)
       ∧ (∀ r ∈ ws.take ((packetWords ws).1 - 1), r.eop = false)
       ∧ ((packetWords ws).2 = false → (packetWords ws).1 = ws.length)
       ∧ ((packetWords ws).2 = true → ((ws.take (packetWords ws).1).getLast?.map RWord.eop) = some true))

/-- LD, LDV, ST and STV on an aligned address inside the data SRAM go on their way to the S-tile: a load makes later
words wait for its register, a store carries the register's bytes, unless a replay after a COMMIT made the thread's
results unspecified (R190) or the store differs from the one that the slot made before a replay (R375). They write no register and no memory at issue. A scratch access outside the data SRAM, or
not aligned to its size, does nothing but raise one event and make the stage miss (R158). Between LOCK and UNLOCK an
access to another line frees the line, raises one event and makes the stage miss (R162). -/
def Obligations.ScratchAccessesAreChecked : Prop :=
  (∀ (t th : Nat) (s : State),
     let w := s.pcWord t th
     let a := s.scratchAddr t th w
     s.outsideLock t th (xStile w) a = false → scratchOk a (scratchSize w) = true →
     (∀ v : Bool, s.Issues t th (if v then 0x22 else 0x20) →
       Answers (exec (if v then .ldv t th else .ld t th) s) (fun u =>
         IssueFrame s u t [ctrOff 0 (s.tile t).logical 0] ∧ (u.thread t th).regs = (s.issuedThread t th).regs
           ∧ ((if v then 32 else 0) + xReg w) ∈ (u.thread t th).await
           ∧ ∃ q : Scratch, (u.tile t).scratch = (s.tile t).scratch ++ [q] ∧ q.load = true ∧ q.thread = th ∧ q.reg = xReg w ∧ q.vector = v
               ∧ q.size = scratchSize w ∧ q.signed = xSx w ∧ q.stile = xStile w ∧ q.offset = a
               ∧ q.due = s.rowFc t + 2 * s.scratchLatency t th (xStile w) + 4))
     ∧ (∀ v : Bool, s.Issues t th (if v then 0x23 else 0x21) →
       Answers (exec (if v then .stv t th else .st t th) s) (fun u =>
         IssueFrame s u t [ctrOff 0 (s.tile t).logical 0] ∧ (u.thread t th).regs = (s.issuedThread t th).regs
           ∧ ∃ q : Scratch, (u.tile t).scratch = (s.tile t).scratch ++ [q] ∧ q.load = false ∧ q.thread = th ∧ q.size = scratchSize w
               ∧ q.stile = xStile w ∧ q.offset = a ∧ q.due = s.rowFc t + s.scratchLatency t th (xStile w) + 2
               ∧ ((s.thread t th).unsure = false → s.storeRepeats t th w v = true → q.data = if v then s.v t th (xReg w) else (s.g t th (xReg w)).setWidth 512))))
  ∧ (∀ p ∈ [((Instr.ld, 0x20) : (Nat → Nat → Instr) × Nat), (.st, 0x21), (.ldv, 0x22), (.stv, 0x23), (.lock, 0x25), (.unlock, 0x26)],
       ∀ (t th : Nat) (s : State), s.Issues t th p.2 →
         let w := s.pcWord t th
         (scratchOk (s.scratchAddr t th w) (scratchSize w) = false →
         Answers (exec (p.1 t th) s) (fun u =>
           u.thread t th = s.issuedThread t th ∧ (u.tile t).mustMiss = true ∧ (u.tile t).scratch = (s.tile t).scratch
             ∧ u.faults.eventSeq = s.faults.eventSeq + 1 ∧ ∀ x, x ≠ t → u.tile x = s.tile x))
         ∧ (scratchOk (s.scratchAddr t th w) (scratchSize w) = true → s.outsideLock t th (xStile w) (s.scratchAddr t th w) = true →
           Answers (exec (p.1 t th) s) (fun u =>
             (u.thread t th).lock = none ∧ (u.tile t).mustMiss = true ∧ (u.tile t).scratch = (s.tile t).scratch
               ∧ u.faults.eventSeq = s.faults.eventSeq + 1)))

/-- The store that is first in program order of its thread is performed when it is due and no other thread holds its
line: the S-tile's bytes at its address are the store's, and no other byte changes. A due load writes its register: a v
register with the line, a g register with the bytes, zero-extended or, with SX = 1, sign-extended; the bytes are those
that the load took when a later store of its thread was performed before it, else those it reads now, under the earlier
stores of its thread still on their way. No byte of memory changes where every word has been written. -/
def Obligations.ScratchStoresAndLoads : Prop :=
  (∀ (t i : Nat) (q : Scratch) (s : State), (s.tile t).scratch[i]? = some q → q.load = false → q.due ≤ s.rowFc t →
     s.lineHeld t q.thread q.stile q.offset = false → (∀ r ∈ (s.tile t).scratch, r.load = false → r.thread = q.thread → q.order ≤ r.order) →
     s.scratchTarget t q.stile = true → s.MemoryOk → 0 < q.size → q.size ≤ 64 →
     let a := tileAddr (s.physical q.stile) q.offset
     Answers (exec (.scratchStorePerformed t i) s) (fun u =>
       memRead u.mem a q.size = (lineBytes q.data).take q.size ∧ SameBytes s u a q.size
         ∧ (∀ th, (u.thread t th).regs = (s.thread t th).regs) ∧ u.skips = s.skips ∧ u.host = s.host))
  ∧ (∀ (t i : Nat) (q : Scratch) (s : State), (s.tile t).scratch[i]? = some q → q.load = true → q.due ≤ s.rowFc t →
       s.lineHeld t q.thread q.stile q.offset = false → s.scratchTarget t q.stile = true →
       let x := q.got.getD (s.loadBytes t q)
       Answers (exec (.scratchLoadReturn t i) s) (fun u =>
         (q.vector = true → u.v t q.thread q.reg = BitVec.ofNat 512 x)
           ∧ (q.vector = false → u.g t q.thread q.reg = BitVec.ofNat 32
               (if q.signed then wrapInt 32 (signedOf (8 * q.size) x) else x))
           ∧ (s.unwritten = [] → u.mem = s.mem ∧ u.host = s.host)
           ∧ ∀ th, th ≠ q.thread → (u.thread t th).regs = (s.thread t th).regs))

/-- LOCK asks the S-tile for the line and waits; the grant goes to the request for a free line that reached the S-tile
first, where fewer than 16 lines are locked. UNLOCK frees the line at once where no access of the thread is outstanding;
otherwise the thread is unlocked, and the UNLOCK notes how many accesses are before it; the load that returns as the
last of those frees the line, whatever the thread has issued since. -/
def Obligations.LockGrantUnlock : Prop :=
  (∀ (t th : Nat) (s : State), s.Issues t th 0x25 →
    let w := s.pcWord t th
    let a := s.scratchAddr t th w
    let p := xStile w
    scratchOk a 64 = true → s.outsideLock t th p a = false → s.Home p →
    Answers (exec (.lock t th) s) (fun u =>
      u.thread t th = { s.issuedThread t th with wait := .lock p a } ∧ u.mem = s.mem
        ∧ (u.tile p).lockReqs = (s.tile p).lockReqs ++ [(a, t, th, s.rowFc p + s.scratchLatency t th p + 2)]
        ∧ (u.tile p).locks = (s.tile p).locks ∧ ∀ x, x ≠ t → x ≠ p → u.tile x = s.tile x))
  ∧ (∀ (t line : Nat) (r : Nat × Nat × Nat × Nat) (s : State), (s.tile t).oldestLock line = some r → r.2.2.2 ≤ s.rowFc t →
    (∀ l ∈ (s.tile t).locks, l.1 ≠ line) → (s.tile t).locks.length < 16 →
    Answers (exec (.lockGrant t line) s) (fun u =>
      (u.tile t).locks = (s.tile t).locks ++ [(line, r.2.1, r.2.2.1)] ∧ (u.tile t).lockReqs = (s.tile t).lockReqs.erase r
        ∧ (u.thread r.2.1 r.2.2.1).lock = some ((s.tile t).logical, line) ∧ (u.thread r.2.1 r.2.2.1).wait = .none ∧ u.mem = s.mem))
  ∧ (∀ (t th st line : Nat) (s : State), s.Issues t th 0x26 → (s.thread t th).lock = some (st, line) →
    let w := s.pcWord t th
    let a := s.scratchAddr t th w
    scratchOk a 64 = true → s.outsideLock t th (xStile w) a = false → s.Home st →
    ((s.tile t).scratchPending th = false → Answers (exec (.unlock t th) s) (fun u =>
      (u.thread t th).lock = none ∧ u.mem = s.mem
        ∧ (u.tile st).locks = (s.tile st).locks.filter (fun l => !(l.1 == line && l.2.1 == t && l.2.2 == th))))
    ∧ ((s.tile t).scratchPending th = true → Answers (exec (.unlock t th) s) (fun u =>
      u.thread t th = { s.issuedThread t th with
          lock := none, unlocks := (s.thread t th).unlocks ++ [(st, line, (s.thread t th).accesses)] }
        ∧ ThreadFrame s u t th [])))
  ∧ (∀ (t i st line n : Nat) (q : Scratch) (s : State), (s.tile t).scratch[i]? = some q → q.load = true → q.due ≤ s.rowFc t →
    s.lineHeld t q.thread q.stile q.offset = false → s.Home st → (s.thread t q.thread).unlocks = [(st, line, n)] →
    (∀ r ∈ dropAt (s.tile t).scratch i, r.thread = q.thread → n < r.number) → Answers (exec (.scratchLoadReturn t i) s) (fun u =>
      (u.thread t q.thread).unlocks = [] ∧ ∀ l ∈ (u.tile st).locks, ¬(l.1 = line ∧ l.2.1 = t ∧ l.2.2 = q.thread)))

/-- MMS, WCS, RQ and OQ to the window enter their unit at issue with a copy of the thread's stream descriptor; at issue
they change no register and no memory. An OQ to a port uses a credit for each of its pushes at issue, and is forbidden
without them; one whose row does not fit the skip moves nothing, sets WIDTH_MISMATCH, raises one event and makes the
stage miss (R144). -/
def Obligations.MacInstructionsEnterUnit : Prop :=
  (∀ p ∈ [((Instr.mms, 0x28, MacKind.mms) : (Nat → Nat → Instr) × Nat × MacKind), (.wcs, 0x29, .wcs), (.rq, 0x2B, .rq), (.oq, 0x2C, .oq)],
     ∀ (t th : Nat) (s : State), s.Issues t th p.2.1 → (p.2.2 = .oq → oToport (s.pcWord t th) = false) →
       (s.tile t).AllStarted →
       Answers (exec (p.1 t th) s) (fun u =>
         u.thread t th = s.issuedThread t th ∧ IssueFrame s u t [ctrOff 0 (s.tile t).logical 0]
           ∧ ∃ m : MacOp, (u.tile t).macs = (s.tile t).macs ++ [m] ∧ m.kind = p.2.2 ∧ m.word = s.pcWord t th ∧ m.thread = th
               ∧ m.issuedAt = s.rowFc t
               ∧ m.desc = lookD (s.thread t th).regs.sd (bits (s.pcWord t th) 53 52) {}))
  ∧ (∀ (t th : Nat) (y : Port) (s : State), s.Issues t th 0x2C →
       let w := s.pcWord t th
       let p := oPort w
       oToport w = true → look (s.tile t).ports p = some y → (∀ d ∈ y.dests, (s.skip d.1).fillDue = 0) →
       let fits : Prop := ∀ d ∈ y.dests, (s.skip d.1).cfg.width = oqWidth w ∧ (s.skip d.1).cfg.net ≠ 1
       (fits → oqPushes w ≤ s.portCredit t p → (y.dests.map (·.1)).Nodup → Answers (exec (.oq t th) s) (fun u =>
         (look (u.tile t).ports p).map Port.pushed = some (y.pushed + oqPushes w)
           ∧ (∀ d ∈ y.dests, (s.skip d.1).cfg.zrc = false → (u.skip d.1).credit + oqPushes w = (s.skip d.1).credit)
           ∧ ∃ m ∈ (u.tile t).macs, m.kind = .oq ∧ m.word = w ∧ m.upTo = y.pushed + oqPushes w))
       ∧ (¬fits → Answers (exec (.oq t th) s) (fun u =>
         (u.tile t).mustMiss = true ∧ (u.tile t).macs = (s.tile t).macs ∧ u.faults.eventSeq = s.faults.eventSeq + 1
           ∧ ∀ d ∈ y.dests, (u.skip d.1).widthMismatch = true ∧ (u.skip d.1).fly = (s.skip d.1).fly))
       ∧ (fits → s.portCredit t p < oqPushes w → Answers (exec (.oq t th) s) (fun u =>
         (u.tile t).mustMiss = true ∧ (u.tile t).macs = (s.tile t).macs ∧ ∀ d ∈ y.dests, (u.skip d.1).creditViol = true)))

/-- FN copies its call descriptor, enters the unit and, with WAIT = 1, waits for it; a descriptor that breaks a rule
of R141 starts nothing, raises one event and makes the stage miss. A completed call has written its outputs at its
destination and RESULT in its descriptor, and a thread that waits for its unit goes on. -/
def Obligations.FnCallsRun : Prop :=
  (∀ (t th : Nat) (s : State), s.Issues t th 0x03 → s.unwritten = [] →
     let w := s.pcWord t th
     let a := 8 * bits w 52 40
     let d := leNat (s.readBytes (tileAddr t a) 32)
     (fnAllowed (fnUnit w) d a = true → (s.tile t).AllStarted → Answers (exec (.fn t th) s) (fun u =>
       u.thread t th = (if bitAt w 53 then { s.issuedThread t th with wait := .fn (bits w 57 54) } else s.issuedThread t th)
         ∧ IssueFrame s u t [ctrOff 0 (s.tile t).logical 0]
         ∧ ∃ f : FnCall, (u.tile t).fns = (s.tile t).fns ++ [f] ∧ f.unit = bits w 57 54 ∧ f.desc = d ∧ f.descAddr = a ∧ f.thread = th))
     ∧ (fnAllowed (fnUnit w) d a = false → Answers (exec (.fn t th) s) (fun u =>
       (u.tile t).fns = (s.tile t).fns ∧ (u.tile t).mustMiss = true ∧ u.faults.eventSeq = s.faults.eventSeq + 1
         ∧ u.thread t th = s.issuedThread t th)))
  ∧ (∀ (t unit i : Nat) (f : FnCall) (s : State), s.doneFn t unit = some (i, f) → s.MemoryOk → s.unwritten = [] →
       let o := s.fnOutput t f
       let a := tileAddr t (fnField f.desc 4 4)
       Answers (exec (.fnCallComplete t unit) s) (fun u =>
         leNat (memRead u.mem (tileAddr t (f.descAddr + 28)) 4) = o.2.1 % 2 ^ 32
           ∧ (a + o.1.length ≤ tileAddr t (f.descAddr + 28) ∨ tileAddr t (f.descAddr + 32) ≤ a → memRead u.mem a o.1.length = o.1)
           ∧ (∀ b, (b < a ∨ a + o.1.length ≤ b) → (b < tileAddr t (f.descAddr + 28) ∨ tileAddr t (f.descAddr + 32) ≤ b) → memGet u.mem b = memGet s.mem b)
           ∧ (u.tile t).fns.length + 1 = (s.tile t).fns.length
           ∧ ((s.thread t f.thread).wait = .fn unit → (u.thread t f.thread).wait = .none)))

/-- A MAC stream that no interlock, no running stream and no weight half holds starts where tokens are off or one is free
in its claim's share and no other tile of the claim waits, and makes its named half ACTIVE on a folding tile; otherwise
its tile joins the waiting tiles of its row, of which a grant takes the oldest of a claim. A completed MAC stream has
written FP32 results, row by row, to its accumulator bank, and to no other byte; results of a stream that a window
write met are unspecified (R116). It leaves flight, and with REL = 1 its weight half on a folding tile is FREE. -/
def Obligations.MacStreamsRun : Prop :=
  ((∀ (t : Nat) (m : MacOp) (s : State), (s.tile t).nextStream = some m → s.streamReady t m = true →
     (∀ p ∈ (s.row (t / 32)).waiting, p.1 ≠ t) →
     let r := s.row (t / 32)
     let c := (s.tile t).claim
     let go := !r.tokensOn || (decide (s.tokensUsed (t / 32) c < lookD r.shares c 0) && !r.waiting.any (fun p => p.2 == c))
     (go = true → Answers (exec (.macStreamStart t) s) (fun u =>
       (u.tile t).macs = (s.tile t).macs.map (fun n => if n = m then { n with startedAt := some (s.rowFc t) } else n)
         ∧ ((s.tile t).fold = true → (u.tile t).half (decide (1280 ≤ macWaddr m.word)) = .active)
         ∧ u.power = s.power ∧ u.mem = s.mem ∧ ∀ x, x ≠ t → u.tile x = s.tile x))
     ∧ (go = false → t / 32 < s.power.rows.length → Answers (exec (.macStreamStart t) s) (fun u =>
       (u.row (t / 32)).waiting = r.waiting ++ [(t, c)] ∧ u.tiles = s.tiles ∧ u.mem = s.mem)))
   ∧ (∀ (row claim t : Nat) (m : MacOp) (s : State), (s.row row).oldest claim = some t → (s.tile t).nextStream = some m →
     ((s.row row).tokensOn = false ∨ s.tokensUsed row claim < lookD (s.row row).shares claim 0) → row < s.power.rows.length →
     Answers (exec (.heavyUnitTokenGrant row claim) s) (fun u =>
       (u.row row).waiting = (s.row row).waiting.filter (fun p => p.1 != t)
         ∧ (u.tile t).macs = (s.tile t).macs.map (fun n =>
             if n = m then { n with startedAt := some (s.rowFc t) } else n)
         ∧ u.mem = s.mem ∧ ∀ x, x ≠ t → u.tile x = s.tile x)))
  ∧ (∀ (t i : Nat) (m : MacOp) (s : State), s.doneStream t = some (i, m) → s.MemoryOk → s.unwritten = [] →
       Answers (exec (.macStreamComplete t) s) (fun u =>
         (m.unsure = false → ∀ r n, r < macRows m.word → n < 32 →
           leNat (memRead u.mem (tileAddr t (bankOffset (mBank m.word) r n)) 4) = fp32 (s.macResult t m r n).1 % 2 ^ 32)
           ∧ SameBytes s u (tileAddr t (bankOffset (mBank m.word) 0 0)) (128 * macRows m.word)
           ∧ (u.tile t).macs.length + 1 = (s.tile t).macs.length
           ∧ ((s.tile t).fold = true → mRel m.word = true → (u.tile t).half (decide (1280 ≤ macWaddr m.word)) = .free)))

/-- A group sum of the integer and float-8 classes is exact, so two integer products add to the integer itself; a
group result that is not NaN is scaled and rounded once to FP32 before it is added, and a NaN one makes the sum NaN. A
completed row quantise has written each of its rows in place, quantised over the row (R84), and the row's scale to its
row-scale register; when an output quantise to the window completes, the rows that were not yet there and the scale
line of an MX format are written. Both leave flight and change no byte outside their destination rows. -/
def Obligations.RescaleAndQuantise : Prop :=
  ((∀ (P acc : Machine.Num), P.nonFinite = false → groupRescale P (.pow2 0) (.pow2 0) acc = rnd (acc.add (rnd ((P.mul (.pow2 0)).mul (.pow2 0)))))
   ∧ (∀ (sw sa acc : Machine.Num), groupRescale .nan sw sa acc = rnd (acc.add .nan))
   ∧ (∀ ps : List (Machine.Num × Machine.Num), groupSum 0 ps = exactSum ps ∧ groupSum 1 ps = exactSum ps)
   ∧ (∀ a b c d : Int, groupSum 0 [(.ofInt a, .ofInt b), (.ofInt c, .ofInt d)] = .fin (decide (a * b + c * d < 0)) (a * b + c * d).natAbs 1 0))
  ∧ ((∀ (t i : Nat) (m : MacOp) (s : State), s.doneRq t = some (i, m) → s.MemoryOk → s.unwritten = [] →
       Answers (exec (.rqComplete t) s) (fun u =>
         (u.tile t).macs.length + 1 = (s.tile t).macs.length
           ∧ SameBytes s u (tileAddr t (0x30000 + 64 * bits m.word 49 41)) (64 * (macRows m.word * lrow (macK m.word) (bits m.word 27 24)))
           ∧ ∀ r, r < macRows m.word →
               let k := macK m.word
               let st := bits m.word 31 28
               let dt := bits m.word 27 24
               let a := bits m.word 49 41
               let row := leNat (s.readBytes (tileAddr t (0x30000 + 64 * (a + r * lrow k st))) (64 * lrow k st))
               let q := rowQuantise ((List.range k).map (fun i => decodeElem st (elemAt (codeBits st) row i))) (if dt = 1 then 127 else 7)
               (dt ≤ 1 → 5 ≤ st → st ≤ 6 → leNat (memRead u.mem (tileAddr t (0x30000 + 64 * (a + r * lrow k dt))) (64 * lrow k dt))
                 = packElems (codeBits dt) (q.1.map (wrapInt (codeBits dt))) % 2 ^ (512 * lrow k dt))
               ∧ (dt ≤ 1 → 5 ≤ st → st ≤ 6 → look (u.tile t).rowScale ((bits m.word 57 50 + r) % 256) = some (BitVec.ofNat 16 q.2.1))))
     ∧ (∀ (t i : Nat) (m : MacOp) (s : State), s.doneOq t = some (i, m) → s.MemoryOk → s.unwritten = [] →
       Answers (exec (.oqComplete t) s) (fun u =>
         (u.tile t).macs.length + 1 = (s.tile t).macs.length
           ∧ SameBytes s u (tileAddr t (0x30000 + 64 * bits m.word 44 36))
               (64 * (macRows m.word * oqRowFc m.word + if isMx (oDtype m.word) then 1 else 0))
           ∧ (oToport m.word = true → u.mem = s.mem)
           ∧ (oToport m.word = false →
               let lo := oqRowFc m.word
               let d := bits m.word 44 36
               (∀ r, m.rows ≤ r → r < macRows m.word →
                 leNat (memRead u.mem (tileAddr t (0x30000 + 64 * (d + r * lo))) (64 * lo))
                   = packElems (codeBits (oDtype m.word)) ((s.oqRow t m r).map (·.1)) % 2 ^ (512 * lo))
               ∧ (isMx (oDtype m.word) = true → ∀ r, r < macRows m.word →
                 memGet u.mem (tileAddr t (0x30000 + 64 * (d + macRows m.word)) + r)
                   = BitVec.ofNat 8 (s.oqMxByte t m r))))))

/-! ## The shaft -/

/-- An entry that reaches the tail is tentative there: it joins the tail behind the others and nothing becomes
visible. Credit that comes back is the producer's again. A discard mark takes the entries above its count off the
route and out of the tail. A refill brings one word to the head, or to the oldest POP, PEEK or block POP that waits for
it. -/
def Obligations.EntriesAndMarksMove : Prop :=
  ((∀ (k : Nat) (e : Entry) (r : List Entry) (s : State), k < 0x20000 → (s.skip k).fly = e :: r → e.due ≤ s.skipFc k →
     Answers (exec (.entryReachesTail k) s) (fun u =>
       (u.skip k).fly = r ∧ (u.skip k).tail = (s.skip k).tail ++ [e] ∧ (u.skip k).words = (s.skip k).words
         ∧ (u.skip k).tailCommitted = (s.skip k).tailCommitted ∧ u.tiles = s.tiles ∧ u.mem = s.mem
         ∧ ∀ j, j ≠ k → u.skip j = s.skip j))
   ∧ (∀ (k n due : Nat) (r : List (Nat × Nat)) (s : State), (s.skip k).creditFly = (n, due) :: r → due ≤ s.producerFc k →
     Answers (exec (.creditArrival k) s) (fun u =>
       (u.skip k).creditFly = r ∧ ((s.skip k).cfg.zrc = false → (u.skip k).credit = (s.skip k).credit + n)
         ∧ ((s.skip k).cfg.zrc = true → (u.skip k).free = (s.skip k).free + n)
         ∧ (u.skip k).words = (s.skip k).words ∧ u.mem = s.mem ∧ ∀ j, j ≠ k → u.skip j = s.skip j)))
  ∧ ((∀ (k keep due : Nat) (r : List (Nat × Nat)) (s : State), k < 0x20000 → (s.skip k).discards = (keep, due) :: r → due ≤ s.skipFc k →
       Answers (exec (.discardMarkArrival k) s) (fun u =>
         (u.skip k).discards = r ∧ (u.skip k).fly = (s.skip k).fly.filter (fun e => decide (e.seq ≤ keep))
           ∧ (u.skip k).tail = (s.skip k).tail.filter (fun e => decide (e.seq ≤ keep)) ∧ (u.skip k).words = (s.skip k).words
           ∧ u.tiles = s.tiles ∧ u.mem = s.mem ∧ ∀ j, j ≠ k → u.skip j = s.skip j))
     ∧ (∀ (k d : Nat) (r : List Nat) (s : State), (s.skip k).fetches = d :: r → d ≤ s.skipFc k → s.engineStopped k = false →
       ((s.skip k).popWait = [] → Answers (exec (.headRefill k) s) (fun u =>
         (u.skip k).headWords = min (s.skip k).words.length ((s.skip k).headWords + 1) ∧ (u.skip k).words = (s.skip k).words ∧ u.tiles = s.tiles ∧ u.mem = s.mem))
       ∧ (∀ t th g peek q, (s.skip k).popWait = (t, th, g, peek) :: q → g ≠ 64 → Answers (exec (.headRefill k) s) (fun u =>
         (u.skip k).popWait = q ∧ (u.thread t th).await = (s.thread t th).await.erase g ∧ (u.thread t th).regs = (s.thread t th).regs
           ∧ u.mem = s.mem))
       ∧ (∀ t th peek q i m, (s.skip k).popWait = (t, th, 64, peek) :: q →
         findAt (fun (m : BlockMove) => !m.push && m.thread == th && decide (0 < m.missing) && s.portSkip t m.port == k) (s.tile t).moves = some (i, m) →
         Answers (exec (.headRefill k) s) (fun u =>
           (u.skip k).popWait = q ∧ u.mem = s.mem
             ∧ (u.tile t).moves = (s.tile t).moves.set i { m with
                 missing := m.missing - 1
                 lastAt := if m.startedAt.isSome then max (m.lastAt + 1) (s.skipFc k + 1) else m.lastAt }))))

/-- A deferred COMMIT takes effect once no move that it covers is in flight: on an output port its mark leaves for
every destination, on an input port the words it covers are released. When a commit mark has arrived, behind the
entries that it covers and the scratch stores that it releases, the words that its entries complete join the visible
words in push order, behind those already visible (R153, R188, R193). Packing a skip without zero-run entries: the
words and the tail that is left are the entries, in order, and a word is cut where it is full or where a packet ends.
-/
def Obligations.CommitsMakeEntriesVisible : Prop :=
  (∀ (t p c : Nat) (r : List Nat) (y : Port) (s : State), look (s.tile t).ports p = some y → y.deferred = c :: r →
     (s.tile t).portBusy p c = false →
     (y.output = true → (y.dests.map (·.1)).Nodup → Answers (exec (.commitTakesEffect t p) s) (fun u =>
       (look (u.tile t).ports p).map Port.deferred = some r ∧ u.mem = s.mem
         ∧ ∀ d ∈ y.dests, (u.skip d.1).effective = max (s.skip d.1).effective c
             ∧ (u.skip d.1).marks = (s.skip d.1).marks
               ++ (if (s.skip d.1).effective < c then [(c, s.skipFc d.1 + d.2 + 2)] else [])))
     ∧ (y.output = false → Answers (exec (.commitTakesEffect t p) s) (fun u =>
       let k := s.portSkip t p
       (look (u.tile t).ports p).map Port.deferred = some r ∧ u.mem = s.mem
         ∧ (u.skip k).consumed = (s.skip k).consumed.drop (c - (s.skip k).releasedCount))))
  ∧ (∀ (k cov due : Nat) (r : List (Nat × Nat)) (s : State), (s.skip k).marks = (cov, due) :: r → k < 0x20000 → due ≤ s.skipFc k →
       s.engineStopped k = false → (∀ e ∈ (s.skip k).fly, if e.seq = 0 then due < e.due + 2 else cov < e.seq) → s.storesDone k cov = true →
       (s.skip k).releaseDue = 0 → (s.skip k).dropping = false →
       let x := s.skip k
       let y : Skip := { x with marks := r, covered := max x.covered cov }
       Answers (exec (.entriesBecomeVisible k) s) (fun u =>
         (u.skip k).marks = r ∧ (u.skip k).covered = max x.covered cov ∧ (u.skip k).fly = x.fly
           ∧ (u.skip k).words = x.words ++ (packWords x.cfg.readWidth x.cfg.zrc y.markTail.tailCommitted [] x.tail).1
           ∧ (u.skip k).tail = (packWords x.cfg.readWidth x.cfg.zrc y.markTail.tailCommitted [] x.tail).2.1
           ∧ u.mem = s.mem ∧ ∀ j, j ≠ k → u.skip j = s.skip j))
  ∧ (∀ (rw n : Nat) (es : List Entry), n ≤ es.length → (∀ e ∈ es, e.zrc = false ∧ 0 < e.bytes) →
       let r := packWords rw false n [] es
       (∃ gs : List (List Entry), gs.flatten ++ r.2.1 = es ∧ r.1 = gs.map (fun g => mkWord false g false)
           ∧ (∀ g ∈ gs, g ≠ [] ∧ (∀ e ∈ g.dropLast, e.eop = false) ∧ sumBytes g.dropLast < max rw 1)
           ∧ r.2.2 = n - gs.flatten.length)
         ∧ (∀ w ∈ r.1, w.eop = true ∨ rw ≤ w.valid))

/-- A stranded-tail timer that has passed TIMEOUT × 64 fc sets TIMEOUT, goes on from there and raises one event; with
FORCE_TAIL the committed bytes of the open word become visible as a word. A fill that a missed stage owes is placed as
far as credit goes, as committed zero entries with the miss mark, on a zero-run skip without bytes, and the last of the
fill ends its packet. -/
def Obligations.SkipTimersAndDeadlineFills : Prop :=
  (∀ (k : Nat) (s : State), 0 < (s.skip k).activeTimeout → (s.skip k).activeTimeout * 64 < (s.skip k).timer →
    Answers (exec (.skipTimerExpiry k) s) (fun u =>
      (u.skip k).timeoutBit = true ∧ (u.skip k).timer = (s.skip k).timer - (s.skip k).activeTimeout * 64 ∧ u.faults.eventSeq = s.faults.eventSeq + 1
        ∧ ((s.skip k).cfg.forceTail = false → (u.skip k).words = (s.skip k).words ∧ (u.skip k).tail = (s.skip k).tail)
        ∧ ((s.skip k).cfg.forceTail = true → (u.skip k).tailCommitted = 0
            ∧ (u.skip k).tail = (s.skip k).tail.drop (s.skip k).tailCommitted
            ∧ (0 < (s.skip k).tailCommitted → (s.skip k).releaseDue = 0 → (s.skip k).dropping = false →
                (u.skip k).words = (s.skip k).words ++ [mkWord (s.skip k).cfg.zrc ((s.skip k).tail.take (s.skip k).tailCommitted) true]))
        ∧ ∀ j, j ≠ k → u.skip j = s.skip j))
  ∧ (∀ (k : Nat) (s : State), 0 < (s.skip k).fillDue →
    let z := (s.skip k).cfg.zrc
    (if z then 72 ≤ (s.skip k).free else 1 ≤ (s.skip k).credit) →
    let n := min (s.skip k).fillDue (if z then ((s.skip k).free - 72) / 8 + 1 else (s.skip k).credit)
    Answers (exec (.deadlineFillPush k) s) (fun u =>
      (u.skip k).fillDue = (s.skip k).fillDue - n
        ∧ (z = false → (u.skip k).credit = (s.skip k).credit - n) ∧ (z = true → (u.skip k).free = (s.skip k).free - 8 * n)
        ∧ (u.skip k).fly.length = (s.skip k).fly.length + n ∧ (u.skip k).marks.length = (s.skip k).marks.length + n
        ∧ (∀ e ∈ (u.skip k).fly.drop (s.skip k).fly.length,
            e.miss = true ∧ e.data = 0 ∧ e.bytes = (if z then 0 else (s.skip k).cfg.width) ∧ e.zrc = z)
        ∧ (n = (s.skip k).fillDue → ((u.skip k).fly.getLast?.map Entry.eop) = some true)
        ∧ u.tiles = s.tiles ∧ u.mem = s.mem ∧ ∀ j, j ≠ k → u.skip j = s.skip j))

/-! ## Ticks and marks -/

/-- What every tick in effect does to its domain: the domain runs, its shift count goes up by one, or stays at the
first tick, and the tick's time is noted; no other domain changes. An external tick that has arrived from the source of
an enabled domain which follows no mesh head: it is accepted, with its time of arrival, if it is the first, or comes no
earlier than PERIOD minus TOLERANCE and no later than PERIOD plus TOLERANCE after the last one; an earlier one is
ignored, sets EARLY and raises one event. A domain in which none has arrived by PERIOD plus TOLERANCE after the last one
inserts a tick for that time and sets LOST. The internal generator ticks PERIOD after PERIOD. In a domain that follows
the head of an enumerated mesh, the head stamps an accepted tick, sends it and schedules it TICK_DELAY later; elsewhere a
tick message schedules a tick TICK_DELAY after its stamp, a start time one at that time, and the tick comes when
MESH_TIME has reached it. -/
def Obligations.TicksAndTheirWindows : Prop :=
  (∀ (d at_ : Nat) (s : State),
     let n := if (s.dom d).running then (s.dom d).count.toNat + 1 else (s.dom d).count.toNat
     (s.tickEffect d at_).dom d = { s.dom d with running := true, count := BitVec.ofNat 64 n, lastTick := at_, rowFc := s.power.rows.map Row.fc }
       ∧ (∀ e, e ≠ d → (s.tickEffect d at_).dom e = s.dom e) ∧ (s.tickEffect d at_).now = s.now)
  ∧ (∀ (d : Nat) (s : State), d < 8 → s.follows d = false → (s.dom d).enable = true →
       let x := s.dom d
       (∀ key a r, x.dueTicks = (key, a) :: r → a ≤ s.now → s.tickFrom d key = true →
         (x.lastArrival = none → Answers (exec (.tick d) s) (fun u =>
           (u.dom d).running = true ∧ (u.dom d).lastArrival = some a ∧ (u.dom d).lastTick = a))
         ∧ (∀ b, x.lastArrival = some b → x.period.toNat ≤ a - b + x.tolerance.toNat → a ≤ b + (x.period.toNat + x.tolerance.toNat) →
           Answers (exec (.tick d) s) (fun u =>
             (u.dom d).lastArrival = some a ∧ (u.dom d).lastTick = a ∧ (x.running = true → (u.dom d).count = x.count + 1)))
         ∧ (∀ b, x.lastArrival = some b → a - b + x.tolerance.toNat < x.period.toNat → Answers (exec (.tick d) s) (fun u =>
             (u.dom d).early = true ∧ (u.dom d).count = x.count ∧ (u.dom d).lastArrival = some b
               ∧ u.faults.eventSeq = s.faults.eventSeq + 1 ∧ u.tiles = s.tiles ∧ u.pipes = s.pipes)))
       ∧ (∀ b, x.external = true → x.lastArrival = some b → b + (x.period.toNat + x.tolerance.toNat) ≤ s.now →
         (∀ p ∈ x.dueTicks, s.tickFrom d p.1 = true → b + (x.period.toNat + x.tolerance.toNat) < p.2) →
         Answers (exec (.tickInserted d) s) (fun u =>
           (u.dom d).lost = true ∧ (u.dom d).lastArrival = some (b + (x.period.toNat + x.tolerance.toNat))
             ∧ (u.dom d).lastTick = b + (x.period.toNat + x.tolerance.toNat)
             ∧ (x.running = true → (u.dom d).count = x.count + 1)))
       ∧ (x.source = 0 → x.nextInternal ≤ s.now → Answers (exec (.internalGeneratorTick d) s) (fun u =>
           (u.dom d).nextInternal = x.nextInternal + x.period.toNat ∧ (u.dom d).lastTick = x.nextInternal
             ∧ (x.running = true → (u.dom d).count = x.count + 1))))
  ∧ (∀ (d : Nat) (s : State), d < 8 → s.follows d = true →
       (∀ key a r, s.emeel.head = true → (s.dom d).enable = true → (s.dom d).dueTicks = (key, a) :: r → a ≤ s.now →
         s.tickFrom d key = true → (s.dom d).lastArrival = none → Answers (exec (.tick d) s) (fun u =>
           let time := s.emeel.meshTime - (s.now - a)
           (u.dom d).followAt = (s.dom d).followAt ++ [time + s.emeel.tickDelay.toNat] ∧ (u.dom d).lastArrival = some a
             ∧ (u.dom d).count = (s.dom d).count ∧ u.out = .tickSent d false time :: s.out))
       ∧ (s.emeel.head = false → ∀ time, Answers (exec (.tickMessage d false time) s) (fun u =>
         (u.dom d).followAt = (s.dom d).followAt ++ [time + s.emeel.tickDelay.toNat] ∧ (u.dom d).count = (s.dom d).count
           ∧ (∀ e, e ≠ d → u.dom e = s.dom e) ∧ u.mem = s.mem))
       ∧ (s.emeel.head = false → ∀ time, Answers (exec (.tickMessage d true time) s) (fun u =>
         (u.dom d).followAt = [time] ∧ (u.dom d).followRepeat = true ∧ (∀ e, e ≠ d → u.dom e = s.dom e)))
       ∧ (∀ a r, (s.dom d).followAt = a :: r → a ≤ s.emeel.meshTime → Answers (exec (.followedTick d) s) (fun u =>
         (u.dom d).running = true ∧ (u.dom d).lastTick = s.now - (s.emeel.meshTime - a)
           ∧ (u.dom d).followAt = (if (s.dom d).followRepeat then r ++ [a + (s.dom d).period.toNat] else r)
           ∧ ((s.dom d).running = true → (u.dom d).count = (s.dom d).count + 1))))

/-- The tick reaches a tile as the mark of slot 0: the tile's shift begins and every thread in WAITTICK goes on with a
new checkpoint. A later mark ends the SLOT waits it answers. A mark ends the miss marking of the tile; no other tile
changes, and no skip where the tile marks no misses. -/
def Obligations.MarksWakeThreads : Prop :=
  (∀ (t d : Nat) (r : List Nat) (s : State), (s.tile t).tickDue = d :: r → d ≤ s.rowFc t →
    Answers (exec (.tickMarkArrival t) s) (fun u =>
      (u.tile t).tickDue = r ∧ (u.tile t).shiftFc = some (s.rowFc t) ∧ (u.tile t).nextSlot = 1 ∧ (u.tile t).missMark = false
        ∧ (∀ th, th < 4 → (s.thread t th).wait = .tick → (u.thread t th).wait = .none
            ∧ (u.thread t th).checkpoint = (s.thread t th).regs ∧ (u.thread t th).late = false)
        ∧ (∀ th, th < 4 → (s.thread t th).wait = .slot 0 → (u.thread t th).wait = .none)
        ∧ (∀ th n, th < 4 → n ≠ 0 → (s.thread t th).wait = .slot n → u.thread t th = s.thread t th)
        ∧ u.mem = s.mem ∧ ((s.tile t).missMark = false → u.skips = s.skips) ∧ ∀ x, x ≠ t → u.tile x = s.tile x))
  ∧ (∀ (t f : Nat) (b : BudgetRec) (s : State), (s.tile t).shiftFc = some f → s.tileBudget t = some b →
    (s.tile t).nextSlot ≤ b.channels → f + (s.tile t).nextSlot * b.slotFc ≤ s.rowFc t →
    Answers (exec (.slotMarkArrival t) s) (fun u =>
      (u.tile t).nextSlot = (s.tile t).nextSlot + 1 ∧ (u.tile t).missMark = false
        ∧ (∀ th, th < 4 → (s.thread t th).wait = .slot (s.tile t).nextSlot → (u.thread t th).wait = .none)
        ∧ (∀ th, th < 4 → (s.thread t th).wait = .nextMark → (u.thread t th).wait = .none)
        ∧ (∀ th, th < 4 → (s.thread t th).wait = .tick → u.thread t th = s.thread t th)
        ∧ u.mem = s.mem ∧ ((s.tile t).missMark = false → u.skips = s.skips) ∧ ∀ x, x ≠ t → u.tile x = s.tile x))

/-! ## Lanes, frames and decisions -/

/-- Layout of a decision word: valid in bit 31, degraded in bit 30, miss in bit 29, pipeline id, channel, class bits
(Table 1.6). A decision word leaves its line when its time has come, the first of the line's queue first, as K28.5 and
its four bytes, the most significant first. An edge of an enabled LVDS pair that is rising after INVERT, with at least 2
ns of each level, becomes a tick of its input, on its way to every domain: it arrives 12 to 13 fc after the edge that the
pair's DELAY of 8 to 12 ps a tap has delayed, and where in that range is open. Any other edge passes none. -/
def Obligations.DecisionWordsLeave : Prop :=
  (∀ (v g m : Bool) (id ch cls : Nat),
     let w := (decisionWord v g m id ch cls).toNat
     bitAt w 31 = v ∧ bitAt w 30 = g ∧ bitAt w 29 = m ∧ bits w 28 24 = id % 32 ∧ bits w 23 16 = ch % 256 ∧ bits w 15 0 = cls % 65536)
  ∧ ((∀ (line a : Nat) (w : Word) (r : List (Nat × Word)) (s : State), line < 16 → (s.decLine line).queue = (a, w) :: r → a < 10 * s.now + 10 →
       Answers (exec (.decisionWordTransmit line) s) (fun u =>
         u.out = .decision line a w [(true, 0xBC), (false, w.extractLsb' 24 8), (false, w.extractLsb' 16 8),
             (false, w.extractLsb' 8 8), (false, w.extractLsb' 0 8)] :: s.out
           ∧ (u.decLine line).queue = r ∧ u.pipes = s.pipes ∧ u.mem = s.mem ∧ ∀ l, l ≠ line → u.decLine l = s.decLine l))
     ∧ (∀ (pair before after : Nat) (rising : Bool) (s : State), pair < 8 →
       let x := s.lvds pair
       (x.enable = true → rising ≠ x.invert → 2000 ≤ before → 2000 ≤ after → Answers (exec (.lvdsTickEdge ⟨pair, rising, before, after⟩) s) (fun u =>
         ∃ n, 12 + x.delay.toNat * 96 / 10000 ≤ n ∧ n ≤ 13 + (x.delay.toNat * 144 + 9999) / 10000
           ∧ ∀ d, d < 8 → (u.dom d).dueTicks = (s.dom d).dueTicks ++ [(pair, s.now + n)]))
       ∧ (x.enable = false ∨ rising = x.invert ∨ before < 2000 ∨ after < 2000 →
         exec (.lvdsTickEdge ⟨pair, rising, before, after⟩) s = .next s)))

/-- FRAME_START opens a frame on a live lane, after an open one has ended as incomplete; the bytes of a frame through the
bypass to a mapped channel go to the A-tile as they come. DATA_BLOCK adds its eight bytes, lowest first; it and
FRAME_END are counted outside a frame; IDLE and ALIGN change nothing. A frame on an unmirrored lane ends with FRAME_END:
it is complete exactly if its blocks, length and CRC agree, and is on its way to its A-tile, or into its riddle block. A
frame on a mirrored lane opens the window for the other copy. An uncorrectable codeword ends the open frame as
incomplete and is counted. -/
def Obligations.LaneBlocksBuildAndEndFrames : Prop :=
  (∀ (l : Nat) (s : State), s.laneLive l = true →
     (∀ (chan : Half) (seq : Word), (s.lane l).frame = none → Answers (exec (.frameStart l chan seq) s) (fun u =>
       let target := if (s.quad (l / 4)).bypass = true ∧ s.mirrorOf l = none then (s.quad (l / 4)).channelOf chan.toNat else none
       (∃ f, (u.lane l).frame = some f ∧ f.chan = chan.toNat ∧ f.seq = seq ∧ f.payload = [] ∧ f.blocks = 0 ∧ f.broken = false)
         ∧ (target = none → u.adit.arriving = s.adit.arriving)
         ∧ (∀ q, target = some q → ∃ a : Arriving, u.adit.arriving = s.adit.arriving ++ [a] ∧ a.lane = l ∧ a.target = some q
             ∧ a.open_ = true ∧ a.payload = [] ∧ a.pushed = 0)
         ∧ u.mem = s.mem ∧ ∀ x, x ≠ l → u.lane x = s.lane x))
     ∧ (∀ (chan : Half) (seq : Word) (f : OpenFrame), (s.lane l).frame = some f → Answers (exec (.frameStart l chan seq) s) (fun u =>
       (∃ g, (u.lane l).frame = some g ∧ g.chan = chan.toNat ∧ g.seq = seq ∧ g.payload = [] ∧ g.blocks = 0)
         ∧ u.counterAt (ctrOff 7 l 1) = (s.counterAt (ctrOff 7 l 1)).add 1))
     ∧ (∀ data f, (s.lane l).frame = some f → Answers (exec (.dataBlock l data) s) (fun u =>
       (∃ g, (u.lane l).frame = some g ∧ g.chan = f.chan ∧ g.seq = f.seq ∧ g.payload = f.payload ++ natLE 8 data.toNat ∧ g.blocks = f.blocks + 1)
         ∧ ((s.quad (l / 4)).bypass = true → u.mem = s.mem
             ∧ ∀ a ∈ u.adit.arriving, f.stream ≠ 0 → a.id = f.stream → a.open_ = true → a.payload = f.payload ++ natLE 8 data.toNat)
         ∧ ∀ x, x ≠ l → u.lane x = s.lane x))
     ∧ (∀ data crc len, (s.lane l).frame = none → ∀ i ∈ [Instr.dataBlock l data, .frameEnd l crc len], Answers (exec i s) (fun u =>
       u.adit = s.adit ∧ u.counterAt (ctrOff 7 l 2) = (s.counterAt (ctrOff 7 l 2)).add 1))
     ∧ exec (.idle l) s = .next s ∧ ∀ n, exec (.align l n) s = .next s)
  ∧ (∀ (l : Nat) (f : OpenFrame) (s : State), s.laneLive l = true → (s.lane l).frame = some f →
       (s.mirrorOf l = none → (s.quad (l / 4)).bypass = true →
         (∀ (crc : Word) (len : BitVec 24), Answers (exec (.frameEnd l crc len) s) (fun u =>
           let ok := f.completes crc len.toNat
           (u.lane l).frame = none ∧ u.mem = s.mem
             ∧ u.counterAt (ctrOff 7 l (if ok then 0 else 1)) = (s.counterAt (ctrOff 7 l (if ok then 0 else 1))).add 1
             ∧ ∃ a ∈ u.adit.arriving, a.id = f.stream ∧ a.open_ = false ∧ a.complete = ok ∧ a.due = 10 * s.now + 2160
                 ∧ a.payload = (if ok then f.payload.take len.toNat else f.payload)
                 ∧ (a.pushed = 0 → a.target = (s.quad (l / 4)).channelOf (f.chan % 65536))))
         ∧ Answers (exec (.uncorrectableCodeword l) s) (fun u =>
           (u.lane l).frame = none ∧ u.counterAt (ctrOff 7 l 4) = (s.counterAt (ctrOff 7 l 4)).add 1
             ∧ ∃ a ∈ u.adit.arriving, a.id = f.stream ∧ a.open_ = false ∧ a.complete = false))
       ∧ (s.mirrorOf l = none → (s.quad (l / 4)).bypass = false → (s.block (l / 4)).loaded = true →
         ∀ (crc : Word) (len : BitVec 24), Answers (exec (.frameEnd l crc len) s) (fun u =>
           (u.lane l).frame = none ∧ u.adit.arriving = s.adit.arriving
             ∧ (u.block (l / 4)).eofs = (s.block (l / 4)).eofs ++ [(l % 4, 10 * s.now + 1200)]))
       ∧ (∀ o, s.mirrorOf l = some o → s.adit.mirrors = [] → ∀ (crc : Word) (len : BitVec 24), Answers (exec (.frameEnd l crc len) s) (fun u =>
           let ok := f.completes crc len.toNat
           let c : Bool × List Byte × Word := (ok, if ok then f.payload.take len.toNat else f.payload, crc)
           (u.lane l).frame = none ∧ u.adit.arriving = s.adit.arriving
             ∧ ∃ m : Mirror, u.adit.mirrors = [m] ∧ m.lane = l % 32 ∧ m.chan = f.chan % 65536 ∧ m.seq = f.seq ∧ m.endsAt = s.now + s.skewFc l
                 ∧ m.closed = false ∧ (if l < 32 then m.primary = some c ∧ m.secondary = none else m.secondary = some c ∧ m.primary = none))))

/-- A lane that loses lock is down and has no open frame, its quad shows it and at least one event is raised; a lane that
regains it is up and its quad has no previous sequence. A TICK block on an unmirrored lane is on its way to every domain
and arrives 190 ns later; on a mirrored pair the first copy arrives later by the window of the pair, and the copy that
follows on the other lane is discarded. -/
def Obligations.LaneLossAndTickBlocks : Prop :=
  (∀ (l : Nat) (s : State), l < 64 → (s.lane l).up = true → (s.quad (l / 4)).enable = true →
    Answers (exec (.laneLosesLock l) s) (fun u =>
      (u.lane l).up = false ∧ (u.lane l).frame = none ∧ (u.quad (l / 4)).laneDown = true ∧ s.faults.eventSeq < u.faults.eventSeq
        ∧ ∀ x, x ≠ l → u.lane x = s.lane x))
  ∧ (∀ (l : Nat) (s : State), l < 64 → (s.lane l).up = false → (s.lane l).retired = false → (s.quad (l / 4)).enable = true →
    Answers (exec (.laneRegainsLock l) s) (fun u =>
      (u.lane l).up = true ∧ (u.quad (l / 4)).prevSeq = [] ∧ u.mem = s.mem ∧ ∀ x, x ≠ l → u.lane x = s.lane x))
  ∧ (∀ (l : Nat) (seq : Byte) (s : State), s.laneLive l = true →
    (s.mirrorOf l = none → Answers (exec (.tickBlock l seq) s) (fun u =>
      u.adit = s.adit ∧ ∀ d, d < 8 → (u.dom d).dueTicks = (s.dom d).dueTicks ++ [(8 + l, s.now + 228)]))
    ∧ (∀ o, s.mirrorOf l = some o → (∀ p ∈ s.adit.tickSeqs, p ≠ (o, seq)) → Answers (exec (.tickBlock l seq) s) (fun u =>
      (l, seq) ∈ u.adit.tickSeqs ∧ ∀ d, d < 8 → (u.dom d).dueTicks = (s.dom d).dueTicks ++ [(8 + l, s.now + 228 + s.skewFc l)]))
    ∧ (∀ o, s.mirrorOf l = some o → (o, seq) ∈ s.adit.tickSeqs → Answers (exec (.tickBlock l seq) s) (fun u =>
      (o, seq) ∉ u.adit.tickSeqs ∧ u.ticks = s.ticks)))

/-- An Ethernet frame outside the supported list, or of a datagram too short for its header, is dropped and counted. A
datagram that begins a drift frame begins its assembly; one that also ends the frame, with the frame's CRC, is counted
and forwards it through the bypass on its way to its channel. A pause frame pauses its port for its quanta, and the port
transmits again when they have expired. When the window of a mirrored frame is over, one copy is forwarded through the
bypass: the primary one if it is complete, else the secondary one if that is, else an incomplete frame; a difference
between the CRCs of two complete copies is counted. -/
def Obligations.EthernetAndMirroredLanes : Prop :=
  (∀ (p : Nat) (s : State),
     (∀ bytes, s.ethLive p = true →
       (checkEth (s.ethPort p) bytes = .dropped ∨ (∃ bs, checkEth (s.ethPort p) bytes = .datagram bs ∧ bs.length < 16)) →
       Answers (exec (.ethernetFrame p bytes) s) (fun u =>
         u.adit = s.adit ∧ u.mem = s.mem ∧ u.counterAt (ctrOff 7 p 5) = (s.counterAt (ctrOff 7 p 5)).add 1))
     ∧ (∀ bytes bs, s.ethLive p = true → checkEth (s.ethPort p) bytes = .datagram bs → 16 ≤ bs.length → look s.adit.assembly p = none →
       bitAt (fieldLE bs 2 1) 0 = true → fieldLE bs 8 4 = 0 →
       (bitAt (fieldLE bs 2 1) 1 = false → Answers (exec (.ethernetFrame p bytes) s) (fun u =>
         ∃ a : Assembly, look u.adit.assembly p = some a ∧ a.chan = fieldLE bs 0 2 ∧ a.seq = BitVec.ofNat 32 (fieldLE bs 4 4)
           ∧ a.payload = bs.drop 16 ∧ a.broken = false))
       ∧ (bitAt (fieldLE bs 2 1) 1 = true → crc32 (bs.drop 16) = fieldLE bs 12 4 → (s.quad (p / 4)).bypass = true →
         Answers (exec (.ethernetFrame p bytes) s) (fun u =>
           look u.adit.assembly p = none ∧ u.mem = s.mem ∧ u.counterAt (ctrOff 7 p 0) = (s.counterAt (ctrOff 7 p 0)).add 1
             ∧ ∃ a ∈ u.adit.arriving, a.lane = p ∧ a.open_ = false ∧ a.complete = true ∧ a.payload = bs.drop 16
                 ∧ a.due = 10 * s.now + 5040 ∧ a.target = (s.quad (p / 4)).channelOf (fieldLE bs 0 2))))
     ∧ (∀ bytes n, s.ethLive p = true → checkEth (s.ethPort p) bytes = .pause n → Answers (exec (.ethernetFrame p bytes) s) (fun u =>
       u.lane p = { s.lane p with paused := n != 0, pausedUntil := s.now + pauseFc (s.quad (p / 4)).mode n } ∧ u.mem = s.mem))
     ∧ (p < 64 → (s.lane p).paused = true → (s.lane p).pausedUntil ≤ s.now → Answers (exec (.pauseExpiry p) s) (fun u =>
       u.lane p = { s.lane p with paused := false } ∧ u.mem = s.mem ∧ ∀ x, x ≠ p → u.lane x = s.lane x)))
  ∧ (∀ (l i : Nat) (m : Mirror) (s : State),
       findAt (fun (m : Mirror) => m.lane == l && !m.closed && decide (m.endsAt ≤ s.now)) s.adit.mirrors = some (i, m) →
       let first := (m.primary.map (·.1)).getD false
       let second := (m.secondary.map (·.1)).getD false
       let differ := first = true ∧ second = true ∧ m.primary.map (·.2.2) ≠ m.secondary.map (·.2.2)
       Answers (exec (.mirrorWindowEnd l) s) (fun u =>
         ((s.quad (l / 4)).bypass = true → ∃ a : Arriving, u.adit.arriving = s.adit.arriving ++ [a] ∧ a.lane = l ∧ a.open_ = false
             ∧ a.target = (s.quad (l / 4)).channelOf (m.chan % 65536)
             ∧ (∀ b crc, m.primary = some (true, b, crc) → a.complete = true ∧ a.payload = b)
             ∧ (first = false → ∀ b crc, m.secondary = some (true, b, crc) → a.complete = true ∧ a.payload = b)
             ∧ (first = false → second = false → a.complete = false))
           ∧ (differ → u.counterAt (ctrOff 7 l 6) = (s.counterAt (ctrOff 7 l 6)).add 1)
           ∧ (¬differ → u.counterAt (ctrOff 7 l 6) = s.counterAt (ctrOff 7 l 6))))

/-- A frame for no bound pipeline, or of a domain that is off, is counted on its lane and lost; one that its pipeline does
not accept goes to tailings; a second one in a shift does too, with FRAME_OVERRUN; an accepted complete one is numbered
and waits to be pushed, and so does one of a best-effort pipeline where there is credit for it and for what is owed. The
next entry of a frame whose turn it is leaves with credit and is committed; without credit a real-time frame becomes
incomplete and its zero fill begins. An entry of a frame that still comes in leaves when its bytes are there. Zero fill
goes on as credit returns. -/
def Obligations.FramesAreNumberedAndIngested : Prop :=
  (∀ (l i : Nat) (a : Arriving) (s : State), arrivalOf l s = some (i, a) →
     ((a.target = none ∨ ∃ p ch, a.target = some (p, ch) ∧ (s.pipe? p = none ∨ (s.dom (p / 32)).enable = false)) →
       Answers (exec (.frameArrival l) s) (fun u =>
         u.pipes = s.pipes ∧ u.counterAt (ctrOff 7 l 7) = (s.counterAt (ctrOff 7 l 7)).add 1 ∧ u.mem = s.mem))
     ∧ (∀ p ch x, a.target = some (p, ch) → s.pipe? p = some x → p < 256 → (s.dom (p / 32)).enable = true →
       let n := s.frameNumber (p / 32)
       (x.accepts n = false → Answers (exec (.frameArrival l) s) (fun u =>
         u.pipes = s.pipes ∧ u.counterAt (ctrOff 3 p 2) = (s.counterAt (ctrOff 3 p 2)).add 1 ∧ u.mem = s.mem))
       ∧ (x.accepts n = true → x.seen.contains ch = true → Answers (exec (.frameArrival l) s) (fun u =>
         u.pipes = s.pipes ∧ u.counterAt (ctrOff 3 p 2) = (s.counterAt (ctrOff 3 p 2)).add 1
           ∧ u.faults.eventSeq = s.faults.eventSeq + 1))
       ∧ (x.accepts n = true → x.seen.contains ch = false → a.complete = true → a.cut = false → (s.channelTile x.image ch).mode ≠ 2 →
           ((s.image x.image).realtime = true
             ∨ ∀ k, s.hwSkip x.image 1 ch = some k → s.ingestOwed x k + (s.skip k).cfg.pushRate ≤ (s.skip k).creditAll) →
           Answers (exec (.frameArrival l) s) (fun u =>
         ∃ y f, u.pipe? p = some y ∧ f ∈ y.frames ∧ ch ∈ y.seen ∧ f.channel = ch ∧ f.number = n ∧ f.complete = true
           ∧ f.payload = a.payload ∧ f.pushed = a.pushed))))
  ∧ (∀ (d p c k : Nat) (f : Frame) (s : State), p < 32 →
       let q := 32 * d + p
       let h := ((s.pipe? q).map Pipe.image).getD 0
       (s.dataDue q c false = some (k, f, true) → Answers (exec (.ingestPush d p c) s) (fun u =>
         (u.skip k).effective = (s.skip k).effective + 1 ∧ u.mem = s.mem ∧ (∀ j, j ≠ k → u.skip j = s.skip j)
           ∧ ∃ e : Entry, (u.skip k).fly = (s.skip k).fly ++ [e] ∧ e.miss = false ∧ e.bytes = (s.skip k).cfg.width
               ∧ e.data = s.frameEntry h c f.payload f.pushed (s.skip k).cfg.width))
       ∧ (s.dataDue q c false = some (k, f, false) → Answers (exec (.ingestPush d p c) s) (fun u =>
         u.skips = s.skips ∧ u.mem = s.mem ∧ u.counterAt (ctrOff 3 q 5) = (s.counterAt (ctrOff 3 q 5)).add 1
           ∧ ∀ y, u.pipe? q = some y → ∀ g ∈ y.frames, g.channel = f.channel → g.number = f.number → g.complete = false ∧ g.fill = true))
       ∧ (∀ i a, s.dataDue q c false = none → s.earlyDue q c = some (k, i, a, true) → Answers (exec (.ingestPush d p c) s) (fun u =>
         (u.skip k).effective = (s.skip k).effective + 1 ∧ u.mem = s.mem ∧ u.pipes = s.pipes
           ∧ (∃ e : Entry, (u.skip k).fly = (s.skip k).fly ++ [e] ∧ e.miss = false
               ∧ e.data = s.frameEntry h c a.payload a.pushed (s.skip k).cfg.width)
           ∧ (i < s.adit.arriving.length → (u.adit.arriving[i]?).map Arriving.pushed = some (a.pushed + 1))))
       ∧ (s.fillDueOf q c = some (k, f) → Answers (exec (.zeroFillPush d p c) s) (fun u =>
         (u.skip k).effective = (s.skip k).effective + 1 ∧ u.mem = s.mem
           ∧ ∃ e : Entry, (u.skip k).fly = (s.skip k).fly ++ [e] ∧ e.data = 0)))

/-- SCATTER_DRAIN pushes the next dense entry of the buffer whose turn it is, and frees the buffer with the last; without
credit the frame becomes incomplete. A transmit stream sends its first whole packet, on a RAW66 lane as one drift frame
and on an Ethernet port, where the packet fits one datagram, as one Ethernet frame, and returns its credit; of a packet
that fills the stream the words leave ahead of its end. -/
def Obligations.ScatterDrainsAndPacketsLeave : Prop :=
  (∀ (a p ch k : Nat) (f : Frame) (bs : List Byte) (s : State), a < 48 →
    (s.drainDue a = some (p, ch, k, f, true, bs) → Answers (exec (.scatterDrain a) s) (fun u =>
      let w := (s.skip k).cfg.width
      let mine (b : Nat × Nat × Nat × List Byte) : Prop := b.1 = p ∧ b.2.1 = ch ∧ b.2.2.1 = f.number
      (u.atile a).nextAt = s.rowFc (atilePos a) + 1 ∧ u.mem = s.mem ∧ (u.skip k).effective = (s.skip k).effective + 1
        ∧ (∃ e : Entry, (u.skip k).fly = (s.skip k).fly ++ [e] ∧ e.data = bytesLine (padTo 64 (bs.take w)))
        ∧ ((s.skip k).cfg.pushRate ≤ f.pushed + 1 → ∀ b ∈ (u.atile a).buffers, ¬mine b)
        ∧ (f.pushed + 1 < (s.skip k).cfg.pushRate → ∀ b ∈ (u.atile a).buffers, mine b → b.2.2.2 = bs.drop w)))
    ∧ (s.drainDue a = some (p, ch, k, f, false, bs) → Answers (exec (.scatterDrain a) s) (fun u =>
      u.skips = s.skips ∧ u.mem = s.mem
        ∧ ∀ y, u.pipe? p = some y → ∀ g ∈ y.frames, g.channel = f.channel → g.number = f.number → g.complete = false ∧ g.fill = true)))
  ∧ (∀ (eth : Bool) (n : Nat) (s : State), n < 64 →
    (if eth then s.ethLive n = true ∧ (s.lane n).paused = false else (s.quad (n / 4)).enable = true ∧ (s.quad (n / 4)).mode = 0) →
    let k := txStreamSkip (eth, n)
    (∀ ws, packetOf (s.skip k).words = some ws →
      let bs := lookD s.adit.txOpen k [] ++ ws.flatMap (fun w => (lineBytes w.data).take w.valid)
      let chan := fieldLE bs 0 2
      let seq := fieldLE bs 2 4
      let crc := crc32 (bs.drop 8)
      let back := (ws.map (s.skip k).wordCredit).foldl (· + ·) 0
      Answers (exec (.transmitPacket eth n) s) (fun u =>
        (u.skip k).words = (s.skip k).words.drop ws.length ∧ u.mem = s.mem
          ∧ ((s.skip k).consumed = [] → 0 < back → (u.skip k).consumed = []
              ∧ (u.skip k).creditFly = (s.skip k).creditFly ++ [(back, s.producerFc k + (s.skip k).cfg.routeLatency + 2)])
          ∧ (eth = false → u.out = .rawFrame n (BitVec.ofNat 16 chan) (BitVec.ofNat 32 seq) (bs.drop 8) (BitVec.ofNat 32 crc)
              (driftBlocks chan seq crc (bs.drop 8)) :: s.out)
          ∧ (eth = true → bs.length ≤ 8 + datagramRoom (s.ethPort n) → u.out = .ethFrame n (ethFrameOf (s.ethPort n) s.drawn
              (natLE 2 chan ++ [3, 0] ++ natLE 4 seq ++ natLE 4 0 ++ natLE 4 crc ++ bs.drop 8)) :: s.out)))
    ∧ (packetOf (s.skip k).words = none → (s.skip k).words ≠ [] → (s.skip k).creditAll = 0 →
      Answers (exec (.transmitPacket eth n) s) (fun u => (u.skip k).words = [] ∧ u.out = s.out ∧ u.mem = s.mem)))

/-! ## The riddle, hoists and the sump -/

/-- Words at the ports of a riddle block: an input port presents its oldest due word. An output word with SOF opens a
frame with its TAG; a word inside a frame adds its valid bytes to it, with EOF it ends the frame, which waits for its
deadline; one outside a frame is dropped, and one for a full output FIFO ends its frame with ERR. The matching output
EOF, presented by 32 ns after the input one, leaves then; one presented later, or none by then, makes the lane late,
with one event. A block reset waits for the port-tree edge. -/
def Obligations.RiddlePortsMoveFrames : Prop :=
  ∀ (q p : Nat) (s : State), q < 16 → p < 4 → (s.block q).loaded = true →
    let b := s.block q
    (∀ w r, look b.inNow p = none → lookD b.inFifo p [] = w :: r → w.due ≤ 10 * s.now → Answers (exec (.riddleInputWord q p) s) (fun u =>
      look (u.block q).inNow p = some w ∧ lookD (u.block q).inFifo p [] = r ∧ (u.block q).q = b.q ∧ u.mem = s.mem
        ∧ ∀ x, x ≠ q → u.block x = s.block x))
    ∧ (b.outTaken.contains p = false → s.sink q (256 * p + 147) = true →
      let n := popcount 16 (s.sinks q (256 * p + 128) 16)
      let data := natLE n (s.sinks q (256 * p) 128)
      let src := s.sinks q (256 * p + 148) 2
      let sof := s.sink q (256 * p + 144)
      let eof := s.sink q (256 * p + 145)
      (∀ f, look b.outOpen p = some f → lookD b.outFill p 0 < 1024 → sof = false → eof = false → Answers (exec (.riddleOutputWord q p) s) (fun u =>
        (look (u.block q).outOpen p).map ROut.payload = some (f.payload ++ data)
          ∧ lookD (u.block q).outFill p 0 = lookD b.outFill p 0 + 1 ∧ p ∈ (u.block q).outTaken ∧ u.mem = s.mem
          ∧ (f.stream = 0 → u.adit = s.adit)))
      ∧ (look b.outOpen p = none → lookD b.outFill p 0 < 1024 → sof = true → eof = false →
        s.sinks q (256 * p + 150) 8 < (s.image b.image).channels → Answers (exec (.riddleOutputWord q p) s) (fun u =>
          (∃ f, look (u.block q).outOpen p = some f ∧ f.tag = s.sinks q (256 * p + 150) 8 ∧ f.src = src ∧ f.payload = data ∧ f.err = false)
            ∧ u.mem = s.mem))
      ∧ (∀ f, look b.outOpen p = some f → lookD b.outFill p 0 < 1024 → sof = false → eof = true → b.lateLanes.contains src = false →
        b.errNext = false → b.repairs = [] → Answers (exec (.riddleOutputWord q p) s) (fun u =>
          look (u.block q).outOpen p = none ∧ u.mem = s.mem
            ∧ (u.block q).done = b.done ++ [(src, { f with
                src := src, payload := f.payload ++ data, err := s.sink q (256 * p + 146) || f.err, ended := 10 * s.now })]))
      ∧ (look b.outOpen p = none → lookD b.outFill p 0 < 1024 → sof = false → Answers (exec (.riddleOutputWord q p) s) (fun u =>
        look (u.block q).outOpen p = none ∧ (u.block q).done = b.done ∧ u.adit = s.adit))
      ∧ (∀ f, look b.outOpen p = some f → 1024 ≤ lookD b.outFill p 0 → sof = false → b.lateLanes.contains f.src = false → b.errNext = false →
        Answers (exec (.riddleOutputWord q p) s) (fun u =>
          look (u.block q).outOpen p = none ∧ (u.block q).done = b.done ++ [(f.src, { f with err := true, ended := 10 * s.now })])))
    ∧ (∀ i te, b.eofDue p s.now = some (i, te) →
      (∀ j d, findAt (fun (d : Nat × ROut) => d.1 == p) b.done = some (j, d) → ∀ pl, (s.image b.image).bound = some pl →
        d.2.tag < (s.image b.image).channels → Answers (exec (.riddleEofDeadline q p) s) (fun u =>
          (u.block q).done = dropAt b.done j ∧ (u.block q).eofs = dropAt b.eofs i
            ∧ (d.2.ended ≤ te + 384 → u.faults = s.faults)
            ∧ (te + 384 < d.2.ended → (u.block q).late = true ∧ u.faults.eventSeq = s.faults.eventSeq + 1)
            ∧ ∃ a ∈ u.adit.arriving, a.id = d.2.stream ∧ a.open_ = false ∧ a.payload = d.2.payload
                ∧ (d.2.ended ≤ te + 384 → a.complete = !d.2.err ∧ a.due = te + 960)
                ∧ (te + 384 < d.2.ended → a.complete = false ∧ a.due = d.2.ended + 576)
                ∧ (a.pushed = 0 → a.target = some (pl, d.2.tag))))
      ∧ (b.done.all (fun d => d.1 != p) = true → Answers (exec (.riddleEofDeadline q p) s) (fun u =>
          (u.block q).late = true ∧ (u.block q).lateLanes = b.lateLanes ++ [p] ∧ u.adit = s.adit
            ∧ u.faults.eventSeq = s.faults.eventSeq + 1)))
    ∧ Answers (exec (.rdBlockReset q) s) (fun u => u.block q = { b with resetAsked := true } ∧ u.mem = s.mem
        ∧ ∀ x, x ≠ q → u.block x = s.block x)

/-- A rising edge of an enabled tree gives every macrocell on it its next value, from the values before the edge, and
no other macrocell a new one; a block reset at a port-tree edge gives every macrocell its INIT. Readback comes once a
millisecond and starts the repair of every bad record of a loaded block; a repair that completes is one event, and the
registers keep their values. The measured frequency of each tree is shown. A capture whose record is taken writes it and
completes its command; one whose shift has gone without its edge fails; both free the block. -/
def Obligations.RiddleClocksUpkeepAndCapture : Prop :=
  (∀ (tree : Nat) (rise fall : Byte) (s : State), tree < 8 → (s.tree tree).enabled = true →
     Answers (exec (.treeRisingEdge ⟨tree, rise, fall⟩) s) (fun u =>
       (∀ q, q < 16 → (s.block q).loaded = false → u.block q = s.block q)
         ∧ (∀ q i, q < 16 → i < 1024 → (s.block q).loaded = true → ((s.block q).portTree ≠ tree ∨ (s.block q).resetAsked = false) →
             (u.block q).reg i = (if ((s.block q).cell i).regEn && ((s.block q).cell i).clock == tree then s.cellNext q i else (s.block q).reg i))
         ∧ (∀ q i, q < 16 → i < 1024 → (s.block q).loaded = true → (s.block q).portTree = tree → (s.block q).resetAsked = true →
             (u.block q).reg i = ((s.block q).cell i).init ∧ (u.block q).resetAsked = false)
         ∧ (∀ q, q < 16 → (s.block q).loaded = true → (s.block q).portTree = tree → (u.block q).inNow = [])
         ∧ u.tiles = s.tiles ∧ u.skips = s.skips ∧ u.pending = s.pending))
  ∧ ((∀ (bad : List (Nat × Nat)) (s : State), s.riddle.readbackAt ≤ s.now → (∀ r ∈ bad, r.1 < 16 ∧ r.2 < 64) →
       Answers (exec (.riddleConfigReadback bad) s) (fun u =>
         u.riddle.readbackAt = s.now + 1200000 ∧ u.tiles = s.tiles
           ∧ ∀ q, (u.block q).q = (s.block q).q
               ∧ (∀ r, r ∈ (u.block q).repairs ↔ r ∈ (s.block q).repairs ∨ ((s.block q).loaded = true ∧ (q, r) ∈ bad))))
     ∧ (∀ (q : Nat) (s : State), q < 16 → (s.block q).repairs ≠ [] → Answers (exec (.riddleRepairComplete q) s) (fun u =>
         (u.block q).repairs = (s.block q).repairs.tail ∧ (u.block q).configRepaired = true ∧ (u.block q).q = (s.block q).q
           ∧ u.faults.eventSeq = s.faults.eventSeq + 1 ∧ ∀ x, x ≠ q → u.block x = s.block x))
     ∧ (∀ (f : List (BitVec 20)) (s : State), f.length = 8 → Answers (exec (.treeFrequencyUpdate f) s) (fun u =>
         u = { s with riddle := { s.riddle with trees := u.riddle.trees } }
           ∧ ∀ t, t < 8 → u.tree t = { s.tree t with freqKhz := f.getD t 0 }))
     ∧ (∀ (q : Nat) (c : RCapture) (m : Cmd) (s u' : State), (s.block q).capture = some c → c.record ≠ [] → s.cmd? c.seq = some m →
         (s.endCapture q).writeCva m.claim c.dest c.record = some u' →
         Answers (exec (.captureEdge q) s) (fun u => (u.block q).capture = none ∧ (u.block q).captureBusy = false ∧ u.Ended c.seq true 0))
     ∧ (∀ (q : Nat) (c : RCapture) (m : Cmd) (s : State), (s.block q).capture = some c → s.cmd? c.seq = some m →
         c.record = [] → (s.dom c.dom).running = true → c.shift < (s.dom c.dom).count.toNat →
         Answers (exec (.captureTimeout q) s) (fun u =>
           (u.block q).capture = none ∧ (u.block q).captureBusy = false ∧ u.Ended c.seq false Reason.captureTimeout)))

/-- A running hoist cuts its next burst from both lists, never past the end of a row, of a 4 KiB page or of its
longest burst. A burst within the sump that completes, its runs served, has copied its bytes, of a hold copy those of
its record, and the last one of a command's stream ends the stream and completes the command. A hoist that waits for a
weight half goes on once it sees the half FREE. A completed walk puts the leaf it ends at at the head of the
translation cache of 4,096 entries. A hold copy that completes leaves the hoist; with no other copy of its store open
before it or written and waiting, HEAD is written, and it is not while an earlier copy is open; one that lost its hold
space writes nothing. -/
def Obligations.HoistsRunStreams : Prop :=
  ((∀ (h : Nat) (x : Stream) (a b : Place) (p q : Phys) (s : State), h < 32 → (s.hoist h).enable = true → (s.hoist h).stopped = false →
     (s.hoist h).waitHalf = false → (s.hoist h).running = some x → x.started = true → x.isHold = false → x.next < descTotal x.src →
     x.outstanding < 256 →
     (x.realtime = true ∨ (s.hoist h).rt = []) → placeAt x.src 0 x.next = some a → placeAt x.dst 0 x.next = some b →
     x.src.all (fun d => !d.bad) = true → x.dst.all (fun d => !d.bad) = true → b.desc.fill = false → b.desc.phys = false →
     s.translate x.claim a.addr false = some p → s.translate x.claim b.addr true = some q →
     let n := min (min (maxBurstBytes (s.hoist h)) (min a.left b.left)) (min (4096 - a.addr % 4096) (4096 - b.addr % 4096))
     Answers (exec (.hoistBurstIssue h) s) (fun u =>
       u.mem = s.mem ∧ (∀ k, k ≠ h → u.hoist k = s.hoist k)
         ∧ ∃ y, (u.hoist h).running = some y ∧ y.next = x.next + n
             ∧ ∃ c : Burst, y.bursts = x.bursts ++ [c] ∧ c.offset = x.next ∧ c.length = n ∧ c.src = p.addr ∧ c.dst = q.addr ∧ c.done = false))
   ∧ (∀ (h i : Nat) (x : Stream) (b : Burst) (s : State), (s.hoist h).running = some x → x.bursts[i]? = some b → b.done = false →
     s.burstServed h b.offset = true → s.unwritten = [] → s.MemoryOk → b.length ≤ 4096 → b.src + 0x3000 ≤ 0xB80000000 →
     b.dst + 0x3000 ≤ 0xB80000000 →
     Answers (exec (.hoistBurstComplete h i) s) (fun u =>
       (x.isHold = false →
         memRead u.mem b.dst b.length = (List.range b.length).map (fun j => s.readPhys { addr := b.src + j, dual := b.srcDual, write := false }))
         ∧ (∀ c, x.kind = .hold c → c.lost = false → b.offset + b.length ≤ (s.holdRecord c).length →
             memRead u.mem b.dst b.length = ((s.holdRecord c).drop b.offset).take b.length)
         ∧ (∀ seq m, x.bursts = [b] → (s.hoist h).stopped = false → descTotal x.src ≤ x.next → x.kind = .command seq → s.cmd? seq = some m →
             x.src.all (fun d => !d.bad) = true → x.dst.all (fun d => !d.bad) = true →
             (u.hoist h).running = none ∧ u.Ended seq true 0))))
  ∧ ((∀ (h : Nat) (s : State), (s.hoist h).waitHalf = true →
       (∀ t b, s.waitedHalf h = some (t, b) → (s.tile t).seenFree b s.now = true) →
       Answers (exec (.waitHalfEnd h) s) (fun u =>
         u.hoist h = { s.hoist h with waitHalf := false } ∧ u = { s with sump := { s.sump with hoists := u.sump.hoists } }
           ∧ ∀ k, k ≠ h → u.hoist k = s.hoist k))
     ∧ (∀ (claim page : Nat) (e : DWord) (s : State), claim < 256 → page < 2 ^ 32 →
       ((s.claim claim).walk claim (page * 0x10000) 4 1).getLast? = some e → leafValid e = true → e.getLsbD 2 = true →
       Answers (exec (.translationWalkComplete claim page) s) (fun u =>
         u.sump.cache.head? = some (claim, page, e) ∧ u.sump.cache.length ≤ 4096 ∧ u = { s with sump := { s.sump with cache := u.sump.cache } }))
     ∧ (∀ (h : Nat) (x : Stream) (c : HoldCopy) (s : State), (s.hoist h).running = some x → x.kind = .hold c → x.bursts = [] →
       (c.lost = true ∨ 64 + 64 * ceilDiv c.length 64 ≤ x.next) →
       let t := s.modHoist h (fun y => { y with running := none })
       Answers (exec (.holdCopyComplete h) s) (fun u =>
         (s.sump.storeDone = [] → c.lost = true → u = t)
           ∧ (s.sump.storeDone = [] → c.lost = false → (∀ p ∈ t.openCopies c.claim c.store, c.order < p.1.order) →
               u = t.putCva c.claim c.store (natLE 8 c.newHead))
           ∧ (s.sump.storeDone = [] → c.lost = false → (∃ p ∈ t.openCopies c.claim c.store, p.1.order ≤ c.order) →
               u.mem = s.mem ∧ u.sump.storeDone = [(c.claim, c.store, c.order, c.newHead)]))))

/-- A run presented at an idle sump port is granted at once, at a held one it waits, and beyond the 1,024 requests of
its stack its requester waits. When the last burst of the holder's run completes, the port is free or, at a decision by
deadline, goes to a pending run that none precedes by deadline; a run with more bursts is pending again; a burst that
is tried again keeps the port. A requester that has held a port too long loses every run it has pending, and the bite
is logged. -/
def Obligations.SumpPortsGrantByDeadline : Prop :=
  (∀ (port req claim d len lst : Nat) (wr : Bool) (s : State), port < 64 → requesterOk req = true → claim < 256 → domainOk req d = true →
    1 ≤ len → len ≤ 64 → lstOk req lst = true →
    let r : Run := { requester := req, claim := claim, domain := d, total := len, left := len, write := wr, since := s.now
                     deadline := (s.dom d).lastTick + lst, lst := lst }
    (s.stackRequests (port / 32) < 1024 → (s.sumpPort port).holder = none → (s.sumpPort port).pending = [] →
      Answers (exec (.sumpRequest port req claim d len lst wr) s) (fun u =>
      (u.sumpPort port).holder = some r ∧ (u.sumpPort port).pending = [] ∧ (u.sumpPort port).grantAt = s.now ∧ u.mem = s.mem))
    ∧ (∀ h, s.stackRequests (port / 32) < 1024 → (s.sumpPort port).holder = some h →
      Answers (exec (.sumpRequest port req claim d len lst wr) s) (fun u =>
      (u.sumpPort port).holder = some h ∧ (u.sumpPort port).pending = (s.sumpPort port).pending ++ [r] ∧ u.mem = s.mem))
    ∧ (1024 ≤ s.stackRequests (port / 32) → Answers (exec (.sumpRequest port req claim d len lst wr) s) (fun u =>
      u.sumpPort port = { s.sumpPort port with waiting := (s.sumpPort port).waiting ++ [{ r with since := 0, deadline := 0 }] } ∧ u.mem = s.mem)))
  ∧ (∀ (port : Nat) (r : Run) (s : State), port < 64 → (s.sumpPort port).holder = some r →
    (exec (.portBurstComplete ⟨port, true⟩) s = .next (s.modSumpPort port (fun x => { x with retried := true })))
    ∧ (1 < r.left → (s.sumpPort port).pending = [] → Answers (exec (.portBurstComplete ⟨port, false⟩) s) (fun u =>
        (u.sumpPort port).holder = some { r with left := r.left - 1 } ∧ (u.sumpPort port).pending = [] ∧ (u.sumpPort port).grantAt = s.now))
    ∧ (r.left ≤ 1 → (s.sumpPort port).pending = [] → Answers (exec (.portBurstComplete ⟨port, false⟩) s) (fun u => (u.sumpPort port).holder = none))
    ∧ (r.left ≤ 1 → (s.sumpPort port).pending ≠ [] → ((s.sumpPort port).decisions + 1) % s.sump.lwInterval.toNat ≠ 0 →
      Answers (exec (.portBurstComplete ⟨port, false⟩) s) (fun u =>
        ∃ g ∈ (s.sumpPort port).pending, (u.sumpPort port).holder = some g ∧ (∀ q ∈ (s.sumpPort port).pending, q.earlier g = false)
          ∧ (u.sumpPort port).pending = (s.sumpPort port).pending.erase g)))
  ∧ (∀ (port : Nat) (r : Run) (s : State), port < 64 → (s.sumpPort port).holder = some r →
    (s.sumpPort port).grantAt + (s.sumpPort port).limit + (if (s.sumpPort port).retried then 256 else 0) < s.now →
    Answers (exec (.canaryCountExpiry port) s) (fun u =>
      u.sump.logValid = true ∧ u.sump.logPort = port ∧ u.sump.logRequester = r.requester ∧ u.faults.eventSeq = s.faults.eventSeq + 1
        ∧ (∀ p, p < 64 → ∀ q ∈ (u.sumpPort p).pending, q.requester ≠ r.requester)
        ∧ (40 ≤ r.requester → r.requester ∈ u.sump.enginesStopped)))

/-! ## The headframe -/

/-- Doorbells: before READY they are ignored; PRODUCER of a command ring takes a value that leaves no more entries
than the ring has, modulo 2^32; another value, or any while ENTRIES is 0, is ignored, sets OVERRUN and raises
RING_OVERRUN for the claim; CONSUMER belongs to rings 14 and 15 alone. The head of a mesh sends the doorbell of a ring
that a member serves there, where it acts in the same way. Entry i of a ring lies at ring base + 64 × (i mod ENTRIES).
A taken entry has its ACCEPTED record in the claim's journal, the ring's CONSUMER moves on, and the command waits
behind those in flight; an entry that the checks forbid has failed at once. -/
def Obligations.DoorbellsMoveRingPointers : Prop :=
  (∀ (c k : Nat) (v : Word) (s : State), k < 16 →
     let noted := ((((s.modRing c k (fun r => { r with overrun := true })).modClaim c (fun x => { x with ringOverrun := true })).hit
       (ringStatus c k) 1).hit (claimStatus c) 25).raise Ev.ringOverrun { claim := c, locKind := 9, loc := 61440 + 16 * c + k }
     (s.functionOn c = true → s.host.ready = false → exec (.doorbellProducerWrite c k v) s = .next s ∧ exec (.doorbellConsumerWrite c k v) s = .next s)
     ∧ (s.functionOn c = true → s.host.ready = true → k < 14 → ((s.ring c k).device = 0 ∨ s.emeel.head = false) → (s.ring c k).entries ≠ 0 →
       ((v - (s.ring c k).consumer).toNat ≤ (s.ring c k).entries → Answers (exec (.doorbellProducerWrite c k v) s) (fun u =>
         u.ring c k = { s.ring c k with producer := v } ∧ u = { s with host := { s.host with rings := u.host.rings } }))
       ∧ ((s.ring c k).entries < (v - (s.ring c k).consumer).toNat → Answers (exec (.doorbellProducerWrite c k v) s) (fun u =>
         (u.ring c k).producer = (s.ring c k).producer ∧ (u.ring c k).overrun = true ∧ (u.claim c).ringOverrun = true
           ∧ u.faults.eventSeq = s.faults.eventSeq + 1)))
     ∧ (s.functionOn c = true → s.host.ready = true → k < 14 → ((s.ring c k).device = 0 ∨ s.emeel.head = false) →
       ((s.ring c k).entries = 0 ∨ (s.ring c k).entries < (v - (s.ring c k).consumer).toNat) →
       exec (.doorbellProducerWrite c k v) s = .next noted)
     ∧ (s.functionOn c = true → s.host.ready = true → k < 14 → (s.ring c k).device ≠ 0 → s.emeel.head = true →
       exec (.doorbellProducerWrite c k v) s = .next { s with out := .doorbell (s.ring c k).device c k v :: s.out })
     ∧ (∀ i : Word, s.ringEntry c k i = bytesLine (
         if k = 0 then s.readBytes (ringPhys c 0 + 64 * (i.toNat % (s.ring c 0).entries)) 64
         else (s.readCva c ((s.ring c k).base + 64 * (i.toNat % (s.ring c k).entries)) 64).getD []))
     ∧ (s.functionOn c = true → s.host.ready = true → 14 ≤ k → (s.ring c k).entries ≠ 0 →
       exec (.doorbellProducerWrite c k v) s = .next s
         ∧ Answers (exec (.doorbellConsumerWrite c k v) s) (fun u =>
           u.ring c k = { s.ring c k with consumer := v } ∧ u = { s with host := { s.host with rings := u.host.rings } }))
     ∧ (s.functionOn c = true → s.host.ready = true → k < 14 → exec (.doorbellConsumerWrite c k v) s = .next s)
     ∧ (s.emeel.head = false → s.emeel.idTaken = true → c < 256 → 1 ≤ k → k ≤ 13 →
       ((s.ring c k).entries ≠ 0 → (v - (s.ring c k).consumer).toNat ≤ (s.ring c k).entries →
         Answers (exec (.forwardedDoorbell c k v) s) (fun u =>
           u.ring c k = { s.ring c k with producer := v } ∧ u = { s with host := { s.host with rings := u.host.rings } }))
       ∧ (((s.ring c k).entries = 0 ∨ (s.ring c k).entries < (v - (s.ring c k).consumer).toNat) →
         exec (.forwardedDoorbell c k v) s = .next noted)))
  ∧ (∀ (c k : Nat) (s : State), s.host.ready = true → s.nextTake = some (c, k) → s.MemoryOk →
       let m : Cmd := { seq := s.host.seq, claim := c, ring := k, index := (s.ring c k).consumer, entry := s.ringEntry c k (s.ring c k).consumer
                        extra := decide (16 ≤ s.inflight c) && opcodeExempt (bits (s.ringEntry c k (s.ring c k).consumer).toNat 15 0) }
       (s.claim c).tags.find? (fun t => t.1 == m.tag) = none →
       (m.invalid = none → Answers (exec (.ringEntryTake c k) s) (fun u =>
         u.host.cmds = s.host.cmds ++ [m] ∧ (u.ring c k).consumer = (s.ring c k).consumer + 1 ∧ u.host.seq = s.host.seq + 1
           ∧ (u.claim c).journalHead = (s.claim c).journalHead + 1
           ∧ (u.claim c).tags = ((m.tag, m.seq, none) :: (s.claim c).tags).take 1024
           ∧ leNat (memRead u.mem (journalAddr c (s.claim c).journalHead.toNat) 64) = (s.journalRecord m 1 0 0 0).toNat))
       ∧ (∀ reason, m.invalid = some reason → Answers (exec (.ringEntryTake c k) s) (fun u =>
         (u.ring c k).consumer = (s.ring c k).consumer + 1 ∧ s.host.seq < u.host.seq ∧ (u.claim c).badCommand = true
           ∧ ∃ d ∈ u.host.cmds, d.entry = m.entry ∧ d.state = .ended false reason 0)))

/-- A placed entry stands in its ring at PRODUCER, which moves on by one; where the ring was empty its vector fires, or
waits while it is masked; a completed command is in flight no longer. A member of a mesh places no completion entry of
its own: its memory stays, and the command is in flight no longer. -/
def Obligations.EntriesArePlacedInOrder : Prop :=
  ∀ (c : Nat) (s : State), s.MemoryOk →
    (∀ m, s.nextCompletion c = some m → s.isMember = false → (s.ring c 14).fill < (s.ring c 14).entries →
      Answers (exec (.completionEntryPlace c) s) (fun u =>
        (u.ring c 14).producer = (s.ring c 14).producer + 1 ∧ (∀ d ∈ u.host.cmds, d.seq ≠ m.seq)
          ∧ (∀ d ∈ s.host.cmds, d.seq ≠ m.seq → d ∈ u.host.cmds)
          ∧ memRead u.mem (ringPhys c 14 + 64 * ((s.ring c 14).producer.toNat % 1024)) 64 = lineBytes m.record
          ∧ u.out = (if (s.ring c 14).fill = 0 ∧ (s.claim c).msixMask.getLsbD 0 = false then [.msix c 0] else []) ++ s.out
          ∧ ((s.ring c 14).fill = 0 → (s.claim c).msixMask.getLsbD 0 = true → (u.claim c).msixPending.getLsbD 0 = true)))
    ∧ (∀ m, s.nextCompletion c = some m → s.isMember = true → Answers (exec (.completionEntryPlace c) s) (fun u =>
        (∀ d ∈ u.host.cmds, d.seq ≠ m.seq) ∧ (∀ d ∈ s.host.cmds, d.seq ≠ m.seq → d ∈ u.host.cmds) ∧ u.mem = s.mem
          ∧ u.host.rings = s.host.rings))
    ∧ (∀ r rs, (s.claim c).held = r :: rs → (s.ring c 15).fill < (s.ring c 15).entries → Answers (exec (.eventRecordPlace c) s) (fun u =>
        (u.ring c 15).producer = (s.ring c 15).producer + 1 ∧ (u.claim c).held = rs
          ∧ memRead u.mem (ringPhys c 15 + 64 * ((s.ring c 15).producer.toNat % 1024)) 64 = lineBytes r
          ∧ u.out = (if (s.ring c 15).fill = 0 ∧ (s.claim c).msixMask.getLsbD 1 = false then [.msix c 1] else []) ++ s.out
          ∧ ((s.ring c 15).fill = 0 → (s.claim c).msixMask.getLsbD 1 = true → (u.claim c).msixPending.getLsbD 1 = true)))

/-- BAR4: before READY nothing happens; a mapped range of the sump within one 64 KiB page is read and written at its
translation; a read of a range that is not mapped returns all ones, a write of one is discarded, and each sets
BAR4_FAULT, is counted and raises its event. -/
def Obligations.Bar4ReadsAndWrites : Prop :=
  (∀ (c cva len : Nat) (s : State), s.inBar4 c cva len = true → 1 ≤ len → len ≤ 4096 →
    (s.host.ready = false → exec (.bar4Access c false cva len []) s = .next s)
    ∧ (∀ p, s.host.ready = true → cva % 0x10000 + len ≤ 0x10000 → s.translate c cva false = some p → p.addr < 0xC00000000 →
        s.unwritten = [] → Answers (exec (.bar4Access c false cva len []) s) (fun u =>
          u.out = .readBytes ((List.range len).map (fun i => s.readPhys { p with addr := p.addr + i })) :: s.out ∧ u.mem = s.mem))
    ∧ (s.host.ready = true → s.mapped c cva len false = false → Answers (exec (.bar4Access c false cva len []) s) (fun u =>
          u.out.head? = some (.readBytes (List.replicate len 0xFF)) ∧ (u.claim c).bar4Fault = true
            ∧ u.faults.eventSeq = s.faults.eventSeq + 1)))
  ∧ (∀ (c cva len : Nat) (data : List Byte) (s : State), s.inBar4 c cva data.length = true → 1 ≤ data.length → data.length ≤ 512 →
    (s.host.ready = false → exec (.bar4Access c true cva len data) s = .next s)
    ∧ (∀ p, s.host.ready = true → cva % 0x10000 + data.length ≤ 0x10000 → s.translate c cva true = some p → p.addr < 0xC00000000 →
        s.MemoryOk → Answers (exec (.bar4Access c true cva len data) s) (fun u =>
          memRead u.mem p.addr data.length = data ∧ (p.dual = false → SameBytes s u p.addr data.length) ∧ u.host = s.host))
    ∧ (s.host.ready = true → s.mapped c cva data.length true = false → exec (.bar4Access c true cva len data) s
          = .next ((((s.modClaim c (fun x => { x with bar4Fault := true })).hit (sumpClaim c) 3).count 5 c 5 1).raise Ev.bar4Fault
              { claim := c, addr := cva })))

/-- CLAIM_OPEN opens a closed claim with 1,024 entries in rings 0, 14 and 15, and fails on one that is not closed, on a
claim whose function SR-IOV does not enable, and on a member of a mesh. CLAIM_RESET and a function-level reset make an
open claim DRAINING and its pipelines end; when they have gone, the claim is open again and its images are gone.
CLAIM_CLOSE closes it then. A function-level reset of the physical function drains every open claim. -/
def Obligations.ClaimsOpenResetAndClose : Prop :=
  (∀ (seq : Nat) (c : Cmd) (s : State), s.Ready seq 0x0001 c →
    let t := c.arg 16 1
    (s.isMember = false → (s.claim t).srIov = true → (s.claim t).state = .closed → Answers (exec (.claimOpen seq) s) (fun u =>
      (u.claim t).state = .opened ∧ (u.claim t).quota = c.arg 20 4 ∧ (u.ring t 0).entries = 1024 ∧ (u.ring t 14).entries = 1024
        ∧ (u.ring t 15).entries = 1024 ∧ (u.claim t).bigPages = [] ∧ u.Ended seq true 0))
    ∧ (s.isMember = false → (s.claim t).srIov = true → (s.claim t).state ≠ .closed → Answers (exec (.claimOpen seq) s) (fun u =>
      u.Ended seq false Reason.claimState ∧ (u.claim t).state = (s.claim t).state))
    ∧ (s.isMember = true ∨ (s.claim t).srIov = false → Answers (exec (.claimOpen seq) s) (fun u =>
      u.Ended seq false Reason.notPermitted ∧ (u.claim t).state = (s.claim t).state)))
  ∧ (∀ (seq : Nat) (c : Cmd) (s : State), s.Ready seq 0x0002 c →
    let t := c.arg 16 1
    ((s.claim t).state = .opened → Answers (exec (.claimReset seq) s) (fun u =>
      (u.claim t).state = .draining ∧ u.Runs seq ∧ ∀ p x, u.pipe? p = some x → x.claim = t → x.ending = true))
    ∧ ((s.claim t).state = .draining → Answers (exec (.claimReset seq) s) (fun u => (u.claim t).state = .draining ∧ u.Runs seq))
    ∧ ((s.claim t).state = .closed → Answers (exec (.claimReset seq) s) (fun u => u.Ended seq false Reason.claimState)))
  ∧ (∀ (seq : Nat) (c : Cmd) (s : State), s.Ready seq 0x0003 c →
    let t := c.arg 16 1
    (s.isMember = false → (s.claim t).state ≠ .closed → Answers (exec (.claimClose seq) s) (fun u => (u.claim t).state = .draining ∧ u.Runs seq))
    ∧ (s.isMember = true → Answers (exec (.claimClose seq) s) (fun u => u.Ended seq false Reason.notPermitted))
    ∧ (s.isMember = false → (s.claim t).state = .closed → Answers (exec (.claimClose seq) s) (fun u => u.Ended seq false Reason.claimState)))
  ∧ (∀ (t : Nat) (s : State), t < 256 → (s.claim t).state = .draining → s.pipes.all (fun p => p.2.claim != t) = true →
    s.emeel.awaiting.all (fun a => a.1 != t) = true →
    let closes := s.host.cmds.filter (fun d => d.opcode == 0x0003 && d.arg 16 1 == t && d.state == .running)
    (closes = [] → Answers (exec (.claimResetComplete t) s) (fun u =>
      (u.claim t).state = .opened ∧ (∀ h x, look u.images h = some x → x.claim ≠ t)
        ∧ ∀ d ∈ s.host.cmds, d.resets t = true → d.isFlr = false → d.ended = false → d.duplicateOf = none → u.Ended d.seq true 0))
    ∧ ((∃ d ∈ closes, ∀ e ∈ s.host.cmds, e.seq = d.seq → e = d) → Answers (exec (.claimResetComplete t) s) (fun u =>
      (u.claim t).state = .closed ∧ (u.claim t).pages = [] ∧ (∀ h x, look u.images h = some x → x.claim ≠ t) ∧ ∀ k, k < 14 → (u.ring t k).entries = 0)))
  ∧ (∀ (t : Nat) (s : State), s.functionOn t = true → t ≠ 0 →
    ((s.claim t).state = .closed → exec (.flr t) s = .next s)
    ∧ ((s.claim t).state = .opened → Answers (exec (.flr t) s) (fun u =>
      (u.claim t).state = .draining ∧ (∀ k, k < 14 → (u.ring t k).producer = 0 ∧ (u.ring t k).consumer = 0)
        ∧ ∀ p x, u.pipe? p = some x → x.claim = t → x.ending = true)))
  ∧ (∀ (s : State), Answers (exec (.flr 0) s) (fun u => ∀ t, t < 256 → (s.claim t).state = .opened → (u.claim t).state = .draining))

/-- MAP plans pages of the sump, maps pages of a tile that the claim owns, and runs on while another device plans its
pages, never over a mapped page and never in the headframe window; when every page has its leaf and the marking of the
planned pages is complete, those of this device's sump read 0 and count as unwritten. UNMAP removes leaves that are
mapped and not pinned. RING_SETUP gives a claim an idle ring or takes it away. -/
def Obligations.MappingsAndRings : Prop :=
  (∀ (seq : Nat) (c : Cmd) (s : State), s.Ready seq 0x0010 c →
    let big := bitAt (c.arg 28 1) 0
    let n := c.arg 24 4
    let cva := c.arg 16 8
    (inHeadframeWindow cva (n * pageBytes big) = true → Answers (exec (.map seq) s) (fun u => u.Ended seq false Reason.notPermitted))
    ∧ (inHeadframeWindow cva (n * pageBytes big) = false →
    let taken := (s.claim c.claim).anyMapped cva (n * pageBytes big) || s.anyPlanned c.claim cva (n * pageBytes big)
    (c.arg 29 1 ≠ 1 → taken = true → Answers (exec (.map seq) s) (fun u => u.Ended seq false Reason.alreadyMapped))
    ∧ (∀ v plan, c.arg 29 1 = 0 → taken = false →
      (c.claim = 0 ∨ (s.claim c.claim).used + n * pageUnits big (bitAt (c.arg 28 1) 1) ≤ (s.claim c.claim).quota) →
      n * pageUnits big (bitAt (c.arg 28 1) 1) ≤ 0xB8000 →
      s.planPages big (bitAt (c.arg 28 1) 1) (bitAt (c.arg 28 1) 2) n (cva / pageBytes big) [] = some (v, plan) →
      Answers (exec (.map seq) s) (fun u => (∃ m, u.cmd? seq = some m ∧ m.state = .running ∧ m.plan = plan) ∧ u.mem = s.mem))
    ∧ (c.arg 29 1 = 1 → taken = false → s.claimOwns c.claim (s.physical (c.arg 30 2)) = true → Answers (exec (.map seq) s) (fun u =>
      u.Ended seq true 0 ∧ ∀ i, i < n → look (u.claim c.claim).pages (cva / 0x10000 + i)
        = some (leafEntry (tileAddr (s.physical (c.arg 30 2)) (c.arg 32 8 + i * 0x10000)) false (bitAt (c.arg 28 1) 2))))
    ∧ (c.arg 29 1 = 1 → taken = true → s.claimOwns c.claim (s.physical (c.arg 30 2)) = true → Answers (exec (.map seq) s) (fun u =>
      u.Ended seq false Reason.alreadyMapped))
    ∧ (c.arg 29 1 = 1 → s.claimOwns c.claim (s.physical (c.arg 30 2)) = false → Answers (exec (.map seq) s) (fun u =>
      u.Ended seq false Reason.notPermitted))
    ∧ (c.arg 29 1 = 2 → taken = false → s.isMember = false → s.emeel.enumerated = true → c.arg 30 2 < s.emeel.devices →
      Answers (exec (.map seq) s) (fun u => ∃ m, u.cmd? seq = some m ∧ m.state = .running ∧ m.plan = c.plan))))
  ∧ (∀ (seq : Nat) (c : Cmd) (s : State), s.cmd? seq = some c → c.opcode = 0x0010 → c.state = .running → c.plan.length = c.arg 24 4 → s.MemoryOk →
    Answers (exec (.markingComplete seq) s) (fun u =>
      u.Ended seq true 0 ∧ ∀ p ∈ c.plan, leafAddr p.2 < 0xB80000000 → ∀ b, leafAddr p.2 ≤ b →
        b < leafAddr p.2 + 0x10000 * pageUnits (p.1 % 2 == 1) (leafDual p.2) → b < 0xB80000000 →
        memGet u.mem b = 0 ∧ rangeHas u.unwritten (b / 8) = true))
  ∧ (∀ (seq : Nat) (c : Cmd) (s : State), s.Ready seq 0x0011 c →
    let big := bitAt (c.arg 28 1) 0
    let ls := s.unmapLeaves c
    s.burstsThrough (ls.filterMap (fun p => p.2.map (fun e => (e, big)))) = false →
    (inHeadframeWindow (c.arg 16 8) (c.arg 24 4 * pageBytes big) = true → Answers (exec (.unmap seq) s) (fun u =>
      u.Ended seq false Reason.notPermitted))
    ∧ (inHeadframeWindow (c.arg 16 8) (c.arg 24 4 * pageBytes big) = false →
    (ls.any (fun p => p.2.isNone) = true → Answers (exec (.unmap seq) s) (fun u => u.Ended seq false Reason.notMapped))
    ∧ (ls.all (fun p => p.2.isSome) = true → ls.any (fun p => (p.2.map leafPinned).getD false) = true →
      Answers (exec (.unmap seq) s) (fun u => u.Ended seq false Reason.pinned))
    ∧ (ls.all (fun p => p.2.isSome) = true → ls.any (fun p => (p.2.map leafPinned).getD false) = false →
      Answers (exec (.unmap seq) s) (fun u => u.Ended seq true 0 ∧ ∀ i, i < c.arg 24 4 →
        look (if big then (u.claim c.claim).bigPages else (u.claim c.claim).pages) (c.arg 16 8 / pageBytes big + i) = none))))
  ∧ (∀ (seq : Nat) (c : Cmd) (s : State), s.Ready seq 0x0012 c →
    let k := c.arg 16 1
    let r := s.ring c.claim k
    (s.isMember = true → Answers (exec (.ringSetup seq) s) (fun u => u.Ended seq false Reason.notPermitted ∧ u.ring c.claim k = r))
    ∧ (s.isMember = false → r.producer ≠ r.consumer → Answers (exec (.ringSetup seq) s) (fun u =>
      u.Ended seq false Reason.busy ∧ u.ring c.claim k = r))
    ∧ (s.isMember = false → r.producer = r.consumer → c.arg 20 4 = 0 → Answers (exec (.ringSetup seq) s) (fun u =>
      u.Ended seq true 0 ∧ u.ring c.claim k = { overrun := r.overrun, eventsLost := r.eventsLost }))
    ∧ (s.isMember = false → r.producer = r.consumer → c.arg 20 4 ≠ 0 → s.mapped c.claim (c.arg 24 8) (64 * c.arg 20 4) true = false →
      Answers (exec (.ringSetup seq) s) (fun u => u.Ended seq false Reason.notMapped ∧ u.ring c.claim k = r))
    ∧ (∀ p, s.isMember = false → r.producer = r.consumer → c.arg 20 4 ≠ 0 → s.mapped c.claim (c.arg 24 8) (64 * c.arg 20 4) true = true →
      s.translate c.claim (c.arg 24 8) true = some p → Answers (exec (.ringSetup seq) s) (fun u =>
        u.Ended seq true 0 ∧ u.ring c.claim k =
          { entries := c.arg 20 4, base := c.arg 24 8, device := if isRemote p.addr then remoteDevice p.addr else 0
            overrun := r.overrun, eventsLost := r.eventsLost })))

/-- LOAD fails with the code of the first check that fails, and installs the image where none does: its tiles load
their shadow copies. When every shadow copy is valid the load completes, and an image that succeeds no other starts.
UNLOAD removes an image that no pipeline runs. -/
def Obligations.ImagesLoadAndUnload : Prop :=
  (∀ (seq h : Nat) (c : Cmd) (head bs : List Byte) (s : State), s.Ready seq 0x0020 c →
    s.host.cmds.any (fun d => d.opcode == 0x0020 && decide (d.seq < seq) && s.cmdReady d.seq 0x0020) = false →
    c.arg 16 8 + 128 ≤ 2 ^ 48 → s.readCva c.claim (c.arg 16 8) 128 = some head →
    c.arg 16 8 + fieldLE head 16 8 ≤ 2 ^ 48 → s.readCva c.claim (c.arg 16 8) (fieldLE head 16 8) = some bs → s.unwritten = [] →
    s.freeHandle = some h →
    (s.runsOf c.claim (c.arg 16 8) (fieldLE head 16 8) false).all (fun r => !isWindow r.2.2.addr) = true →
    (s.runsOf c.claim (c.arg 24 8) (8 * c.arg 32 2) false).all (fun r => !isWindow r.2.2.addr) = true →
    let table := if c.arg 32 2 = 0 then some [] else if c.arg 24 8 + 8 * c.arg 32 2 ≤ cvaTop
      then s.readCva c.claim (c.arg 24 8) (8 * c.arg 32 2) else none
    (∀ f, s.loadChecks c.claim h bs (c.arg 32 2) table = some f → Answers (exec (.load seq) s) (fun u =>
      u.Ended seq false f.code ∧ u.images = s.images ∧ u.tiles = s.tiles ∧ u.skips = s.skips))
    ∧ (s.loadChecks c.claim h bs (c.arg 32 2) table = none → Answers (exec (.load seq) s) (fun u =>
      u.Runs seq ∧ (u.image h).claim = c.claim ∧ (u.image h).loadSeq = seq ∧ (u.image h).loaded = false
        ∧ (∀ g, g ≠ h → u.image g = s.image g)
        ∧ ∀ r ∈ (parseImage bs c.claim).tiles, s.Home r.tile → (u.tile r.tile).shadowLoading = true ∧ (u.tile r.tile).shadowValid = false)))
  ∧ (∀ (t : Nat) (s : State), t < 768 → (s.tile t).shadowLoading = true → (s.tile t).spareLoading = false →
      (s.row (t / 32)).powering = false → Answers (exec (.shadowLoadComplete t) s) (fun u =>
      u.tile t = { s.tile t with shadowLoading := false, shadowValid := true } ∧ u = { s with tiles := u.tiles }
        ∧ ∀ x, x ≠ t → u.tile x = s.tile x))
  ∧ (∀ (seq h : Nat) (c : Cmd) (s : State), s.loadingImage seq = some h → s.cmd? seq = some c → c.opcode = 0x0020 → c.state = .running →
      (s.image h).tiles.all (fun r => (s.tile (s.physical r.tile)).shadowImage == h && (s.tile (s.physical r.tile)).shadowValid) = true → Answers (exec (.loadComplete seq) s) (fun u =>
      u.Ended seq true 0 ∧ (u.image h).loaded = true
        ∧ ((s.image h).predecessor = none → ∀ r ∈ (s.image h).tiles, s.Home r.tile → (u.tile r.tile).image = h ∧ (u.tile r.tile).enabled = true)
        ∧ ((s.image h).predecessor ≠ none → u.tiles = s.tiles)))
  ∧ (∀ (seq : Nat) (c : Cmd) (s : State), s.Ready seq 0x0021 c →
    s.host.cmds.any (fun d => d.seq != seq && d.claim == c.claim && d.state == .running && d.handles.contains (c.arg 16 2)
      && decide (0x0025 < d.opcode)) = false →
    let h := c.arg 16 2
    (s.hasImage c.claim h = false → Answers (exec (.unload seq) s) (fun u => u.Ended seq false Reason.badHandle ∧ u.images = s.images))
    ∧ (s.hasImage c.claim h = true → (s.image h).bound ≠ none → Answers (exec (.unload seq) s) (fun u =>
      u.Ended seq false Reason.busy ∧ u.images = s.images))
    ∧ (s.hasImage c.claim h = true → (s.image h).bound = none → Answers (exec (.unload seq) s) (fun u =>
      u.Ended seq true 0 ∧ look u.images h = none)))

/-- BIND gives an image a pipeline or fails with the code of the first rule that forbids it. START, STOP and SWAP name
a shift that has not begun; they wait for its tick, and fail as too late after it. -/
def Obligations.PipelinesBindStartStopSwap : Prop :=
  (∀ (seq : Nat) (c : Cmd) (s : State), s.Ready seq 0x0022 c → s.hasImage c.claim (c.arg 16 2) = true → (s.image (c.arg 16 2)).bound = none →
    let refusal := s.bindRefusal (s.image (c.arg 16 2)) (c.arg 18 1) (c.arg 19 1) (c.arg 20 1) (c.arg 21 1) (c.arg 24 2)
    (∀ code, refusal = some code → Answers (exec (.bind seq) s) (fun u =>
      (∃ m, u.cmd? seq = some m ∧ m.state = .ended false Reason.bindRejected (BitVec.ofNat 128 code)) ∧ u.pipes = s.pipes))
    ∧ (refusal = none → Answers (exec (.bind seq) s) (fun u =>
      u.Ended seq true 0 ∧ (u.image (c.arg 16 2)).bound = some (32 * c.arg 18 1 + c.arg 19 1)
        ∧ ∃ x, u.pipe? (32 * c.arg 18 1 + c.arg 19 1) = some x ∧ x.image = c.arg 16 2 ∧ x.claim = (s.image (c.arg 16 2)).claim
            ∧ x.start = none ∧ x.stop = none ∧ x.frames = [])))
  ∧ (∀ (seq p : Nat) (c : Cmd) (x : Pipe) (s : State), s.Ready seq 0x0023 c → s.boundPipe c.claim (c.arg 16 2) = some p → s.pipe? p = some x →
    x.start = none → x.ending = false →
    let n := if c.arg 24 8 = 0 then (s.dom (p / 32)).nextShift else c.arg 24 8
    ((s.dom (p / 32)).past n = false → Answers (exec (.start seq) s) (fun u =>
      u.Runs seq ∧ u.pipe? p = some { x with start := some (n, c.seq) } ∧ (u.image (c.arg 16 2)).started = true ∧ u.tiles = s.tiles))
    ∧ ((s.dom (p / 32)).past n = true → Answers (exec (.start seq) s) (fun u => u.Ended seq false Reason.tooLate ∧ u.pipes = s.pipes)))
  ∧ (∀ (seq p : Nat) (c : Cmd) (x : Pipe) (s : State), s.Ready seq 0x0024 c → s.boundPipe c.claim (c.arg 16 2) = some p → s.pipe? p = some x →
    let n := if c.arg 24 8 = 0 then (s.dom (p / 32)).nextShift else c.arg 24 8
    x.stop = none → x.ending = false → x.swap.any (fun w => w.1 == n) = false →
    ((s.dom (p / 32)).past n = false → Answers (exec (.stop seq) s) (fun u =>
      u.Runs seq ∧ u.pipe? p = some { x with stop := some (n, c.seq) } ∧ u.tiles = s.tiles ∧ u.images = s.images))
    ∧ ((s.dom (p / 32)).past n = true → Answers (exec (.stop seq) s) (fun u => u.Ended seq false Reason.tooLate ∧ u.pipes = s.pipes)))
  ∧ (∀ (seq p : Nat) (c : Cmd) (x : Pipe) (s : State), s.Ready seq 0x0025 c → s.boundPipe c.claim (c.arg 16 2) = some p → s.pipe? p = some x →
    let n := if c.arg 24 8 = 0 then (s.dom (p / 32)).nextShift else c.arg 24 8
    x.swap = none → x.ending = false → x.stop.any (fun w => w.1 == n) = false → s.hasImage c.claim (c.arg 18 2) = true →
    successorOk (s.image (c.arg 16 2)) (s.image (c.arg 18 2)) = true →
    ((s.dom (p / 32)).past n = false → Answers (exec (.swap seq) s) (fun u =>
      u.Runs seq ∧ u.pipe? p = some { x with swap := some (n, c.seq, c.arg 18 2) } ∧ u.tiles = s.tiles ∧ u.images = s.images))
    ∧ ((s.dom (p / 32)).past n = true → Answers (exec (.swap seq) s) (fun u => u.Ended seq false Reason.tooLate ∧ u.pipes = s.pipes)))

/-- WEIGHT_UPDATE of an image that does not run writes the bytes into its tile, and of a whole half of a folding tile
runs on as a fill; HOIST queues a stream at the end of a best-effort queue; RESUME puts a stream that was set aside back
at the head of its queue, or fails. Fill bytes reach a half of the weight store of a folding tile in order; the half is
FILLING until the last of the bytes that the fill declares and then READY. A fill into a half that is READY or ACTIVE is
discarded with one event. -/
def Obligations.WeightUpdatesAndStreams : Prop :=
  ((∀ (seq : Nat) (c : Cmd) (bs : List Byte) (s : State), s.Ready seq 0x0026 c → s.hasImage c.claim (c.arg 16 2) = true →
     (s.image (c.arg 16 2)).weightRange (c.arg 18 2) (c.arg 20 4) (c.arg 24 4) = true →
     ((s.tile (s.physical (c.arg 18 2))).fold = true → c.arg 24 4 = 81920 → (c.arg 20 4 = 0 ∨ c.arg 20 4 = 81920) →
       (s.hoist s.leastHoist).be.length < 32 → Answers (exec (.weightUpdate seq) s) (fun u =>
         u.Runs seq ∧ (u.hoist s.leastHoist).be.length = (s.hoist s.leastHoist).be.length + 1 ∧ u.mem = s.mem))
     ∧ ((s.tile (s.physical (c.arg 18 2))).fold = false → (s.image (c.arg 16 2)).started = true → Answers (exec (.weightUpdate seq) s) (fun u => u.Ended seq false Reason.busy ∧ u.tiles = s.tiles))
     ∧ ((s.tile (s.physical (c.arg 18 2))).fold = false → (s.image (c.arg 16 2)).started = false → s.readCva c.claim (c.arg 32 8) (c.arg 24 4) = some bs → s.unwritten = [] → s.MemoryOk →
       (∀ d ∈ s.host.cmds, d.claim < 256) → Answers (exec (.weightUpdate seq) s) (fun u =>
         u.Ended seq true 0 ∧ memRead u.mem (tileAddr (s.physical (c.arg 18 2)) (c.arg 20 4)) (c.arg 24 4) = bs)))
   ∧ (∀ (seq : Nat) (c : Cmd) (s : State), s.Ready seq 0x0030 c → s.hoistFull (c.arg 16 1) = false →
     let h := if c.arg 16 1 = 0xFF then s.leastHoist else c.arg 16 1
     Answers (exec (.hoist seq) s) (fun u => u.Runs seq ∧ (∀ k, k ≠ h → u.hoist k = s.hoist k)
       ∧ u.hoist h = { s.hoist h with
           be := (s.hoist h).be ++ [{ kind := .command c.seq, claim := c.claim, lists := (c.arg 24 8, c.arg 32 8), readyAt := s.now }] }))
   ∧ (∀ (seq : Nat) (c : Cmd) (s : State), s.Ready seq 0x0031 c →
     let found := (s.host.cmds.filter (fun d => d.claim == c.claim && d.tag == BitVec.ofNat 48 (c.arg 16 6) && d.duplicateOf.isNone)).findSome?
       (fun d => s.asideAt d.seq)
     (found = none → Answers (exec (.resume seq) s) (fun u => u.Ended seq false Reason.notFaulted ∧ u.sump = s.sump))
     ∧ (∀ h x, found = some (h, x) → (s.hoist h).be.length < 32 → Answers (exec (.resume seq) s) (fun u =>
       u.Ended seq true 0 ∧ u.hoist h = { s.hoist h with aside := (s.hoist h).aside.erase x, be := x :: (s.hoist h).be }))))
  ∧ (∀ (t : Nat) (b : Bool) (total : Nat) (data : List Byte) (s : State), t < 768 → kindOf t = 3 → (s.tile t).fold = true →
       1 ≤ data.length → data.length ≤ 64 →
       let n := (s.tile t).fillCount b
       let a := tileAddr t (halfOffset b + n)
       n + data.length ≤ total → total ≤ 81920 → s.MemoryOk →
       ((s.tile t).half b = .free ∨ ((s.tile t).half b = .filling ∧ (s.tile t).fillTotal b = total) →
         Answers (exec (.weightFillArrival t b ⟨total, data⟩) s) (fun u =>
         memRead u.mem a data.length = data ∧ SameBytes s u a data.length
           ∧ (n + data.length < total → (u.tile t).half b = .filling ∧ (u.tile t).fillCount b = n + data.length ∧ (u.tile t).fillTotal b = total)
           ∧ (n + data.length = total → (u.tile t).half b = .ready ∧ (u.tile t).fillCount b = 0)
           ∧ (u.tile t).half (!b) = (s.tile t).half (!b) ∧ ∀ x, x ≠ t → u.tile x = s.tile x))
       ∧ ((s.tile t).half b = .ready ∨ (s.tile t).half b = .active → Answers (exec (.weightFillArrival t b ⟨total, data⟩) s) (fun u =>
         u.tiles = s.tiles ∧ u.faults.eventSeq = s.faults.eventSeq + 1)))

/-- SCRUB, COUNTER_READ and JOURNAL_READ write what they report into claim memory and complete; an unmapped
destination, a counter of another claim or an overwritten record makes them fail. FENCE completes once every earlier
command of its claim has. SNAPSHOT and CAPTURE run on; a second one of their kind is refused as busy. The snapshot
that every row of its image has taken is written and completes its command. SELF_TEST powers every row and runs only
on an idle device. -/
def Obligations.ReportsSnapshotsAndCaptures : Prop :=
  ((∀ (seq : Nat) (c : Cmd) (s : State), s.Ready seq 0x0040 c →
     let d := s.scrubSummary c.claim (bitAt (c.arg 40 1) 0) (c.arg 16 8) (c.arg 24 8)
     (∀ v, s.writeCva c.claim (c.arg 32 8) d = some v → Answers (exec (.scrub seq) s) (fun u =>
       u = v.complete seq 0 ∧ u.Ended seq true 0))
     ∧ (s.writeCva c.claim (c.arg 32 8) d = none → Answers (exec (.scrub seq) s) (fun u => u.Ended seq false Reason.notMapped)))
   ∧ (∀ (seq : Nat) (c : Cmd) (s : State), s.Ready seq 0x0060 c →
     let ok := c.claim == 0 || (List.range (c.arg 24 4)).all (fun j => s.mayRead c.claim (c.arg 16 2) (c.arg 20 4 + j))
     (ok = false → Answers (exec (.counterRead seq) s) (fun u => u.Ended seq false Reason.notPermitted))
     ∧ (∀ v, ok = true → s.writeCva c.claim (c.arg 32 8) (s.counterBytes (c.arg 16 2) (c.arg 20 4) (c.arg 24 4)) = some v →
       Answers (exec (.counterRead seq) s) (fun u => u = v.complete seq 0 ∧ u.Ended seq true 0))
     ∧ (ok = true → s.writeCva c.claim (c.arg 32 8) (s.counterBytes (c.arg 16 2) (c.arg 20 4) (c.arg 24 4)) = none →
       Answers (exec (.counterRead seq) s) (fun u => u.Ended seq false Reason.notMapped)))
   ∧ (∀ (seq : Nat) (c : Cmd) (s : State), s.Ready seq 0x0080 c →
     let head := (s.claim c.claim).journalHead.toNat
     let n := min (c.arg 24 4) (head - c.arg 16 8)
     (c.arg 16 8 + 16384 < head → Answers (exec (.journalRead seq) s) (fun u => u.Ended seq false Reason.overwritten))
     ∧ (head ≤ c.arg 16 8 + 16384 →
       let bs := (List.range n).flatMap (fun i => (List.range 64).map (fun j =>
         s.readPhys { addr := journalAddr c.claim (c.arg 16 8 + i) + j, dual := true, write := false }))
       (∀ v, s.writeCva c.claim (c.arg 32 8) bs = some v → Answers (exec (.journalRead seq) s) (fun u =>
         u = v.complete seq (BitVec.ofNat 128 n) ∧ ∃ m, u.cmd? seq = some m ∧ m.state = .ended true 0 (BitVec.ofNat 128 n)))
       ∧ (s.writeCva c.claim (c.arg 32 8) bs = none → Answers (exec (.journalRead seq) s) (fun u => u.Ended seq false Reason.notMapped))))
   ∧ (∀ (seq : Nat) (c : Cmd) (s : State), s.Ready seq 0x0090 c →
     s.host.cmds.all (fun d => d.claim != c.claim || decide (seq ≤ d.seq) || d.ended) = true →
     Answers (exec (.fenceCommand seq) s) (fun u => u.Ended seq true 0 ∧ u.tiles = s.tiles ∧ u.skips = s.skips)))
  ∧ ((∀ (seq p : Nat) (c : Cmd) (s : State), s.Ready seq 0x0050 c → s.boundPipe c.claim (c.arg 16 2) = some p →
       let n := if c.arg 24 8 = 0 then (s.dom (p / 32)).nextShift else c.arg 24 8
       (s.host.snapshot ≠ none → Answers (exec (.snapshot seq) s) (fun u => u.Ended seq false Reason.busy ∧ u.host.snapshot = s.host.snapshot))
       ∧ (s.host.snapshot = none → (s.dom (p / 32)).past n = false →
         s.mapped c.claim (c.arg 40 8) (s.image (c.arg 16 2)).snapshotLength true = true → Answers (exec (.snapshot seq) s) (fun u =>
           u.Runs seq ∧ u.host.snapshot = some (c.seq, none) ∧ u.mem = s.mem)))
     ∧ (∀ (seq n a : Nat) (c : Cmd) (v s : State), s.host.snapshot = some (seq, some (n, a)) → a ≤ s.now → s.cmd? seq = some c → s.snapTaken seq = true →
       (s.modHost (fun x => { x with snapshot := none, snapped := [] })).writeCva c.claim (c.arg 40 8)
         (s.snapshotRecord (c.arg 16 2) n (c.arg 32 4) ((s.image (c.arg 16 2)).bound.getD 0)) = some v →
       Answers (exec .snapshotLatch s) (fun u => u = v.complete seq 0 ∧ u.host.snapshot = none ∧ u.Ended seq true 0))
     ∧ (∀ (seq p : Nat) (c : Cmd) (s : State), s.Ready seq 0x0051 c →
       let b := s.block (c.arg 16 1)
       let n := if c.arg 24 8 = 0 then (s.dom (p / 32)).nextShift else c.arg 24 8
       b.loaded = true → b.claim = c.claim → (s.image b.image).bound = some p →
       (b.capture ≠ none → Answers (exec (.capture seq) s) (fun u => u.Ended seq false Reason.captureBusy ∧ u.riddle = s.riddle))
       ∧ (b.capture = none → (s.dom (p / 32)).past n = false → s.mapped c.claim (c.arg 40 8) 0x4100 true = true →
         Answers (exec (.capture seq) s) (fun u => u.Runs seq ∧ (u.block (c.arg 16 1)).captureBusy = true
           ∧ (u.block (c.arg 16 1)).capture = some { seq := c.seq, tree := c.arg 17 1, shift := n, edge := c.arg 32 4, dest := c.arg 40 8, dom := p / 32 })))
     ∧ (∀ (seq : Nat) (c : Cmd) (s : State), s.Ready seq 0x0070 c →
       ((∃ i, 1 ≤ i ∧ i < 256 ∧ (s.claim i).state ≠ .closed) → Answers (exec (.selfTest seq) s) (fun u => u.Ended seq false Reason.claimState))
       ∧ ((∀ i, 1 ≤ i → i < 256 → (s.claim i).state = .closed) → s.images.any (fun i => i.2.claim == 0) = false → s.power.rows.length = 24 →
         Answers (exec (.selfTest seq) s) (fun u => u.Runs seq ∧ u.mem = s.mem ∧ ∀ r ∈ u.power.rows, r.powered = true))))

/-! ## Power, faults and the mesh -/

/-- POR_N ends memory, images, pipelines, READY and the debug unlock, and leaves the queue; its release samples
MESH_HEAD and draws a nonce. The bring-up steps set what they have done: powered rows, zeros in tile memory and in the
sump, both stacks online, secure boot accepted or an error shown, and READY with claim 0 open at the end. PERST_N takes
the PCIe link down, drains every open claim of a device that is ready, and lets the link train again. -/
def Obligations.BringUpReachesReady : Prop :=
  ∀ s : State,
    (s.power.porAsserted = false → Answers (exec .porNAssert s) (fun u =>
      u.pending = s.pending ∧ u.power.porAsserted = true ∧ u.host.ready = false ∧ u.mem = [] ∧ u.images = [] ∧ u.pipes = []
        ∧ u.power.perstAsserted = s.power.perstAsserted ∧ u.dbg.attempts = 3 ∧ u.dbg.unlocked = false))
    ∧ (∀ m, s.power.porAsserted = true → Answers (exec (.porNDeassert m) s) (fun u =>
      u.power.porAsserted = false ∧ u.emeel.head = m ∧ u.dbg.nonce.length = 8 ∧ u.mem = s.mem ∧ u.host = s.host))
    ∧ (s.power.perstAsserted = false → s.host.ready = false → s.dbg.busy = false → Answers (exec .perstNAssert s) (fun u =>
      u = { s with power := { s.power with perstAsserted := true, linkUp := false } }))
    ∧ (s.power.perstAsserted = false → s.host.ready = false → s.dbg.busy = true → Answers (exec .perstNAssert s) (fun u =>
      u.power = { s.power with perstAsserted := true, linkUp := false } ∧ u.dbg.busy = false ∧ u.free = s.free + 1 ∧ u.mem = s.mem))
    ∧ (s.power.perstAsserted = false → s.host.ready = true → Answers (exec .perstNAssert s) (fun u =>
      ∀ t, t < 256 → (s.claim t).state = .opened → (u.claim t).state = .draining))
    ∧ (s.power.perstAsserted = true → Answers (exec .perstNDeassert s) (fun u => u = { s with power := { s.power with perstAsserted := false } }))
    ∧ (s.power.porAsserted = false → s.power.perstAsserted = false → s.power.linkUp = false → s.isMember = false →
      Answers (exec .pcieLinkUp s) (fun u => u = { s with power := { s.power with linkUp := true } }))
    ∧ (s.power.porAsserted = false → s.power.pllLocked = false → Answers (exec .pllLock s) (fun u =>
      u.power.pllLocked = true ∧ (∀ r ∈ u.power.rows, s.power.rows.length = 24 → r.powered = true) ∧ u.mem = s.mem))
    ∧ (s.power.pllLocked = true → s.power.sramFilled = false → Answers (exec .tileSramFillComplete s) (fun u =>
      u.power.sramFilled = true ∧ ∀ t o, t < 768 → o < 0x100000 → memGet u.mem (tileAddr t o) = 0 ∧ u.isUnwritten (tileAddr t o) = false))
    ∧ (∀ fs, fs.all faultNames = true → s.power.sramFilled = true → s.power.checkersDone = false →
      Answers (exec (.checkerSelfTestComplete fs) s) (fun u =>
        fs = [] → u.power.checkersDone = true ∧ u.faults.found = s.faults.found ∧ u.faults.selfTestFail = s.faults.selfTestFail))
    ∧ (s.power.checkersDone = true → ∀ c, s.selfTest? = some c → Answers (exec (.checkerSelfTestComplete []) s) (fun u => u.Ended c.seq true 0))
    ∧ (s.power.pllLocked = true → s.power.hbmTrained = false → Answers (exec .hbmTrained s) (fun u => u.power.hbmTrained = true ∧ u.mem = s.mem))
    ∧ (∀ fs, fs.all faultNames = true → s.power.hbmTrained = true → s.power.sumpTested = false →
      Answers (exec (.sumpAddressTestComplete fs) s) (fun u => fs = [] → u.power.sumpTested = true ∧ u.faults.found = s.faults.found))
    ∧ (s.power.pllLocked = true → s.power.firmwareOk = false → s.power.error = 0 →
      Answers (exec (.firmwareVerified 0) s) (fun u => u.power.firmwareOk = true ∧ u.host.secureBootOk = true)
        ∧ ∀ e, 1 ≤ e → e ≤ 4 → Answers (exec (.firmwareVerified e) s) (fun u => u.power.error.toNat = e ∧ u.host = s.host))
    ∧ (s.power.sumpTested = true → s.power.sumpFilled = false → Answers (exec .sumpFillComplete s) (fun u =>
      u.power.sumpFilled = true ∧ u.sump.online = [true, true] ∧ ∀ a, a < 0xC00000000 → memGet u.mem a = 0 ∧ u.isUnwritten a = false))
    ∧ (s.host.ready = false → s.power.checkersDone = true → s.power.firmwareOk = true → s.power.sumpFilled = true → s.power.error = 0 →
      s.power.thermtrip = false → Answers (exec .headframeReady s) (fun u =>
      u.host.ready = true ∧ u.power.phase = 4 ∧ (u.claim 0).state = .opened ∧ u.faults.found = []))

/-- Row clocks step one sixteenth at a time between 12/16 and 16/16 while their droop sensor asks or has cleared; a
reading of 105 degrees sets every row clock to 12/16 and throttles the device, one below 100 ends that, and one of 115
turns the device off. A row whose power has settled is ready; stack temperatures and package power are as read. -/
def Obligations.RowClocksFollowDroopAndHeat : Prop :=
  (∀ (r : Nat) (s : State), r < 24 → s.power.rows.length = 24 →
    let x := s.row r
    let only (u : State) (y : Row) : Prop := u.row r = y ∧ (∀ q, q ≠ r → u.row q = s.row q) ∧ u = { s with power := { s.power with rows := u.power.rows } }
    (x.powering = true → Answers (exec (.rowPowerReady r) s) (fun u => only u { x with powering := false }))
    ∧ (x.sensor = false → Answers (exec (.droopSensorTrip r) s) (fun u => only u { x with sensor := true, stepAt := x.fc + 2 }))
    ∧ (x.sensor = true → Answers (exec (.droopSensorClear r) s) (fun u => only u { x with sensor := false, stepAt := x.fc + s.power.stepUpFc.toNat }))
    ∧ (s.power.throttled = false → x.sensor = true → 12 < x.k → x.stepAt ≤ x.fc → Answers (exec (.rowClockStepDown r) s) (fun u =>
        only u { x with k := x.k - 1, stepAt := x.fc + 2 }))
    ∧ (s.power.throttled = false → x.sensor = false → x.k < 16 → x.stepAt ≤ x.fc → Answers (exec (.rowClockStepUp r) s) (fun u =>
        only u { x with k := x.k + 1, stepAt := x.fc + s.power.stepUpFc.toNat })))
  ∧ (∀ (c : Nat) (s : State), c < 256 → s.power.porAsserted = false → s.power.thermtrip = false → s.power.rows.length = 24 →
    (c < 115 → Answers (exec (.thermalSensorRead c) s) (fun u =>
      u.power.tjC.toNat = c ∧ u.power.warning = (s.power.warning || decide (s.power.warnC.toNat ≤ c)) ∧ u.power.thermtrip = false
        ∧ (105 ≤ c → u.power.throttled = true ∧ (s.power.throttled = false → u.power.tripped = true ∧ ∀ r, r < 24 → (u.row r).k = 12))
        ∧ (c < 100 → u.power.throttled = false) ∧ (100 ≤ c → c < 105 → u.power.throttled = s.power.throttled)
        ∧ u.images = s.images ∧ u.tiles = s.tiles))
    ∧ (115 ≤ c → Answers (exec (.thermalSensorRead c) s) (fun u =>
      u.power.thermtrip = true ∧ u.host.ready = false ∧ u.out.head? = some .thermtrip ∧ u.images = [] ∧ u.mem = []
        ∧ ∀ r ∈ u.power.rows, r.powered = false)))
  ∧ (∀ (temps : List Byte) (s : State), temps.length = 2 → Answers (exec (.stackTemperatureUpdate temps) s) (fun u =>
      u = { s with sump := { s.sump with temp := temps } }))
  ∧ (∀ (mw : BitVec 20) (s : State), Answers (exec (.packagePowerUpdate mw) s) (fun u => u = { s with power := { s.power with powerMw := mw } }))

/-- A residue error replays its tile: every thread that has issued goes back to its checkpoint, the tile is to restart
16 fc later, and at least one event is raised. A corrected word changes no tile. A lost switch loses its tile. A
second report of one location in one fc, and a patrol read, change nothing. A failed UCIe packet is noted for its
retransmission, with at least one event, and a received one is noted no more. A replayed tile restarts with one event.
A retirement that takes effect is settled: a column or a sequencer copy of a tile that has lost none is out of use. A
copy that is complete is forgotten. A spare that is loaded waits for a mark, and issues again after one. -/
def Obligations.FaultsReplaysAndRetirements : Prop :=
  ((∀ (t c : Nat) (s : State), faultNames (.residue t c) = true → s.sameReport (.residue t c) = false → (s.tile t).enabled = true →
     (s.tile t).group = 0 → s.tickNow t = false → (s.claim (s.tile t).claim).state ≠ .draining →
     Answers (exec (.faultDetection (.residue t c)) s) (fun u =>
       (u.tile t).restartAt = some (s.rowFc t + 16) ∧ s.faults.eventSeq < u.faults.eventSeq
         ∧ ∀ th, th < 4 → (s.thread t th).replayed = true → (u.thread t th).regs = (s.thread t th).checkpoint ∧ (u.thread t th).wait = .none))
   ∧ (∀ (t o : Nat) (n : TileUnit) (s : State), faultNames (.sram t n o false) = true → s.sameReport (.sram t n o false) = false →
     Answers (exec (.faultDetection (.sram t n o false)) s) (fun u => u.tiles = s.tiles ∧ u.skips = s.skips ∧ u.images = s.images))
   ∧ (∀ (t : Nat) (s : State), t < 768 → s.sameReport (.shaftSwitch t) = false → Answers (exec (.faultDetection (.shaftSwitch t)) s) (fun u =>
       (u.tile t).lost = true ∧ ∀ x, x ≠ t → u.tile x = s.tile x))
   ∧ (∀ (f : FaultReport) (s : State), faultNames f = true → s.sameReport f = true → exec (.faultDetection f) s = .next s)
   ∧ (∀ (a : Nat) (s : State), s.faults.patrolEn = true → (a < 0xC00000000 ∨ isWindow a = true) → exec (.patrolScrub a) s = .next s)
   ∧ (∀ (l : Nat) (s : State), l < 65536 →
     Answers (exec (.uciePacketReceived l true) s) (fun u => u.adit.ucieRetry = s.adit.ucieRetry.filter (· != l) ∧ u.faults = s.faults)
     ∧ Answers (exec (.uciePacketReceived l false) s) (fun u => l ∈ u.adit.ucieRetry ∧ s.faults.eventSeq < u.faults.eventSeq ∧ u.tiles = s.tiles)))
  ∧ ((∀ (t d : Nat) (s : State), t < 768 → (s.tile t).spareLoading = false → (s.tile t).spareLoaded = false →
         (s.tile t).restartAt = some d → d ≤ s.rowFc t → (s.tile t).group = 0 → Answers (exec (.replayRestart t) s) (fun u =>
         (u.tile t).restartAt = none ∧ u.faults.eventSeq = s.faults.eventSeq + 1 ∧ (u.tile t).threads = (s.tile t).threads
           ∧ ∀ x, x ≠ t → u.tile x = s.tile x))
     ∧ (∀ (r : Retire) (s : State), s.faults.retires.find? (fun r => r.effectDue s.now) = some r → Answers (exec .retirementEffect s) (fun u =>
         (∀ x ∈ u.faults.retires, reportKey x.report = reportKey r.report → x.copying = true)
           ∧ (∀ t c, r.report = .residue t c → (s.tile t).columnRetired = none → (u.tile t).columnRetired = some c)
           ∧ (∀ t c, r.report = .seqVote t c → (s.tile t).copiesMasked = [] → (u.tile t).copiesMasked = [c])))
     ∧ (∀ (i : Nat) (r : Retire) (s : State), findAt (fun r => r.copyDue s.now) s.faults.retires = some (i, r) →
       Answers (exec .retirementCopyComplete s) (fun u => u = { s with faults := { s.faults with retires := dropAt s.faults.retires i } }))
     ∧ (∀ (t : Nat) (s : State), t < 768 → (s.tile t).spareLoading = true → (s.row (t / 32)).powering = false → Answers (exec (.spareLoadComplete t) s) (fun u =>
         u.tile t = { s.tile t with spareLoading := false, spareLoaded := true, restartAt := none } ∧ u = { s with tiles := u.tiles }))
     ∧ (∀ (t : Nat) (s : State), t < 768 → (s.tile t).spareLoaded = true → (s.tile t).restartAt ≠ none → Answers (exec (.spareRestart t) s) (fun u =>
         u.tile t = { s.tile t with spareLoaded := false, restartAt := none } ∧ u.mem = s.mem ∧ u.skips = s.skips)))

/-- A port of a short link comes up when its training completes, and one of a link that is too long, or with two retired
lanes, does not. The expected flit is accepted, a gap or a failed CRC is asked for again, and an earlier copy is
dropped; a NAK sends again what the replay buffer holds. An accepted flit is handed on at its stamp plus L_FIXED: a
commit mark to its skip, and one of another device towards it; a late one sets RETRY_LATE with one event. -/
def Obligations.FlitsCrossLinksInOrder : Prop :=
  ∀ (p : Nat) (s : State), p < 4 →
    let x := s.emPort p
    (∀ l n, s.host.ready = true → x.enable = true → x.up = false → n.all (fun d => decide (d < 64)) = true →
      (l ≤ 1000 → popcount 4 x.retired.toNat ≤ 1 → Answers (exec (.portTrainingComplete p l n) s) (fun u =>
        (u.emPort p).up = true ∧ (u.emPort p).lMeas = l ∧ (u.emPort p).lFixed = 3 * l + 24 ∧ (u.emPort p).neighbour = n
          ∧ u.skips = s.skips ∧ u.mem = s.mem))
      ∧ (l < 65536 → 1000 < l ∨ 1 < popcount 4 x.retired.toNat → exec (.portTrainingComplete p l n) s = .next s))
    ∧ (∀ f c, x.up = true → c ≤ 3 →
      (f.seq = x.expect → Answers (exec (.flitReceived p f c true) s) (fun u =>
        (u.emPort p).expect = x.expect + 1 ∧ (u.emPort p).accepted = x.accepted ++ [(f, s.flitLate p f)] ∧ u.skips = s.skips))
      ∧ (f.seq ≠ x.expect → (f.seq - x.expect).toNat < 2048 → Answers (exec (.flitReceived p f c true) s) (fun u =>
        u.out = .nak p x.expect.toNat :: s.out ∧ (u.emPort p).accepted = x.accepted ∧ (u.emPort p).expect = x.expect))
      ∧ (2048 ≤ (f.seq - x.expect).toNat → Answers (exec (.flitReceived p f c true) s) (fun u =>
        u = { s with dbg := { s.dbg with counters := u.dbg.counters } }))
      ∧ Answers (exec (.flitReceived p f c false) s) (fun u =>
        u.out = .nak p x.expect.toNat :: s.out ∧ (u.emPort p).accepted = x.accepted ∧ (u.emPort p).expect = x.expect))
    ∧ (∀ n, x.up = true → n < 4096 → Answers (exec (.nakReceived p n) s) (fun u =>
      u.out = (((x.replay.dropWhile (fun f => f.seq.toNat != n)).map (fun f => Out.flit p f)).reverse) ++ s.out ∧ u.emeel = s.emeel))
    ∧ (∀ f r, x.accepted = (f, false) :: r → f.stamp + x.lFixed ≤ s.emeel.meshTime → f.device = s.emeel.deviceId.toNat → f.kind = .commitMark →
      Answers (exec (.flitDelivery p) s) (fun u =>
        (u.emPort p).accepted = r ∧ (u.skip f.stream).effective = max (s.skip f.stream).effective f.payload.toNat
          ∧ (u.skip f.stream).marks = (s.skip f.stream).marks ++ [(f.payload.toNat, s.ingressDue f.stream + 2)]
          ∧ (∀ k, k ≠ f.stream → u.skip k = s.skip k) ∧ u.mem = s.mem))
    ∧ (∀ f r, x.accepted = (f, false) :: r → f.stamp + x.lFixed ≤ s.emeel.meshTime → f.device ≠ s.emeel.deviceId.toNat →
      exec (.flitDelivery p) s
        = .next ((s.modEmPort p (fun y => { y with accepted := r })).sendFlit f.device f.kind f.stream f.tag f.payload 16))
    ∧ (∀ f r, x.accepted = (f, true) :: r → f.stamp + x.lFixed ≤ s.emeel.meshTime → f.device = s.emeel.deviceId.toNat → f.kind = .commitMark →
      Answers (exec (.flitDelivery p) s) (fun u =>
        (u.emPort p).accepted = r ∧ (u.emPort p).retryLate = true ∧ u.faults.eventSeq = s.faults.eventSeq + 1
          ∧ (u.skip f.stream).effective = max (s.skip f.stream).effective f.payload.toNat))

/-- A member takes the id that its token gives and reports it; the head's mesh is enumerated with the last report. A
measured offset sets the slew, and an offset within 1 fc locks the time. ENUMERATE starts the enumeration on the head
and does nothing on a member; RETRAIN takes a port down that no bound image uses, and is rejected with one event for
one that is used. A window access waits for its answer, fails at once where no port leads to its device, and one that
is not answered in 65,536 fc ends with an event and, for a read, all ones. -/
def Obligations.MeshEnumerationTimeAndWindow : Prop :=
  (∀ (p x y xs ys : Nat) (s : State), (p = 1 ∨ p = 3) → xs ≤ 8 → ys ≤ 8 → x < xs → y < ys → s.power.porAsserted = false → s.emeel.head = false →
    s.emeel.idTaken = false → Answers (exec (.idTokenReceived p x y xs ys) s) (fun u =>
      let id := (if p = 1 then y * xs + (x + 1) % xs else (y + 1) % ys * xs + x)
      u.emeel.idTaken = true ∧ u.emeel.deviceId.toNat = id ∧ u.emeel.idPort = some p ∧ u.power.linkUp = false
        ∧ u.out.head? = some (.report id (s.emPort p).lFixed)))
  ∧ (∀ (id lat : Nat) (s : State), s.emeel.head = true → s.emeel.enumerating = true → 1 ≤ id → id < s.emeel.xSize * s.emeel.ySize →
    let rs := (id, lat) :: s.emeel.reported.filter (fun r => r.1 != id)
    (rs.length + 1 = s.emeel.xSize * s.emeel.ySize → Answers (exec (.deviceReport id lat) s) (fun u =>
      u.emeel.enumerated = true ∧ u.emeel.enumerating = false ∧ u.emeel.devices = s.emeel.xSize * s.emeel.ySize
        ∧ u.emeel.tickDelay = BitVec.ofNat 16 ((rs.map (·.2)).foldl max 0 + 16)))
    ∧ (rs.length + 1 ≠ s.emeel.xSize * s.emeel.ySize → Answers (exec (.deviceReport id lat) s) (fun u =>
      u.emeel = { s.emeel with reported := rs } ∧ u.out = s.out)))
  ∧ (∀ (o : Int) (s : State), s.isMember = true → Answers (exec (.meshTimeCorrection o) s) (fun u =>
      u.emeel.slew = o ∧ u.emeel.meshTime = s.emeel.meshTime ∧ u.emeel.timeLocked = (s.emeel.timeLocked || decide (o.natAbs ≤ 1))))
  ∧ (∀ (v : Word) (s : State), s.host.ready = true → s.emeel.head = true → Answers (exec (.enumerate v) s) (fun u =>
      u.emeel.enumerating = true ∧ u.emeel.enumerated = false ∧ u.emeel.xMinus1 = v.extractLsb' 27 3 ∧ u.emeel.yMinus1 = v.extractLsb' 24 3))
  ∧ (∀ (v : Word) (s : State), s.emeel.head = false → exec (.enumerate v) s = .next s)
  ∧ (∀ (p : Nat) (v : Word) (s : State), p < 4 → s.host.ready = true → s.portInUse p = false → Answers (exec (.retrain p v) s) (fun u =>
      (u.emPort p).up = false ∧ (u.emPort p).lanesUp = 0 ∧ (u.emPort p).enable = v.getLsbD 31 ∧ u.faults = s.faults))
  ∧ (∀ (p : Nat) (v : Word) (s : State), p < 4 → s.host.ready = true → s.portInUse p = true → v.getLsbD 31 = true →
      Answers (exec (.retrain p v) s) (fun u => (u.emPort p).up = (s.emPort p).up ∧ u.faults.eventSeq = s.faults.eventSeq + 1))
  ∧ (∀ (w : Bool) (o : Nat) (v : Word) (s : State), o % 4 = 0 → o < 0x400000 → s.emeel.window = none → s.host.ready = true →
    (s.emeel.rwinEnable = false → Answers (exec (.remoteWindowAccess w o v) s) (fun u =>
      u = { s with out := if w then s.out else .readValue 0 :: s.out }))
    ∧ (∀ p, s.emeel.rwinEnable = true → s.emeel.portTo s.emeel.rwinDevice.toNat = some p → (s.emPort p).up = true →
      Answers (exec (.remoteWindowAccess w o v) s) (fun u =>
        u.emeel.window = some (w, s.emeel.rwinDevice.toNat, s.emeel.rwinPage.toNat * 0x400000 + o, v, s.now) ∧ u.mem = s.mem))
    ∧ (s.emeel.rwinEnable = true → (∀ p, s.emeel.portTo s.emeel.rwinDevice.toNat = some p → (s.emPort p).up = false) →
      Answers (exec (.remoteWindowAccess w o v) s) (fun u =>
        u.emeel.window = none ∧ u.faults.eventSeq = s.faults.eventSeq + 1 ∧ (w = false → u.out.head? = some (.readValue 0xFFFFFFFF)))))
  ∧ (∀ (w : Bool) (dev o a : Nat) (v : Word) (s : State), s.emeel.window = some (w, dev, o, v, a) → a + 65536 ≤ s.now →
    Answers (exec .remoteAccessTimeout s) (fun u =>
      u.emeel.window = none ∧ u.faults.eventSeq = s.faults.eventSeq + 1 ∧ (w = false → u.out.head? = some (.readValue 0xFFFFFFFF))))

/-! ## Registers and debug -/

/-- Before READY a BAR0 read of HF_STATUS, PW_BOOT_STATUS or PW_THERMAL_STATUS returns its value and any other returns
0; every BAR0 write, every doorbell and other BAR2 write, and every BAR4 access, is ignored. -/
def Obligations.HostWaitsForReady : Prop :=
  ∀ s : State, s.host.ready = false →
    (∀ o, s.bar0Read o = if o = 0x4 ∨ o = 0x7000004 ∨ o = 0x7000018 then s.regView false o else 0)
    ∧ exec .hfSeqLoRead s = .next (s.emit (.readValue 0)) ∧ exec .hfEventSeqLoRead s = .next (s.emit (.readValue 0))
    ∧ exec .emTimeLoRead s = .next (s.emit (.readValue 0))
    ∧ (∀ d, d < 8 → exec (.hfTickCountLoRead d) s = .next (s.emit (.readValue 0)))
    ∧ (∀ c, c < 256 → exec (.journalHeadLoRead c) s = .next (s.emit (.readValue 0)))
    ∧ (∀ o v, o % 4 = 0 → o < 0x10000000 → exec (.registerWrite o v) s = .next s)
    ∧ (∀ v, exec (.hfLockSetWrite v) s = .next s ∧ exec (.hfFaultCfgWrite v) s = .next s ∧ exec (.spArbCfgWrite v) s = .next s
        ∧ exec (.pwTdpCfgWrite v) s = .next s ∧ exec (.pwThermalCfgWrite v) s = .next s ∧ exec (.pwDroopCfgWrite v) s = .next s
        ∧ exec .unlockSubmit s = .next s ∧ exec (.enumerate v) s = .next s)
    ∧ (∀ d v, d < 8 → ∀ w ∈ [Instr.hfTickCfgWrite, .hfTickPeriodWrite, .hfTickTolWrite], exec (w d v) s = .next s)
    ∧ (∀ n v, n < 16 → ∀ w ∈ [Instr.adQuadCfgWrite, .adQuadChmapWrite, .adDecLineWrite], exec (w n v) s = .next s)
    ∧ (∀ h v, h < 32 → exec (.spHoistCfgWrite h v) s = .next s) ∧ (∀ p v, p < 4 → exec (.retrain p v) s = .next s)
    ∧ (∀ o v, ctrLow o = true → exec (.counterLowWrite false o v) s = .next s ∧ exec (.counterHighWrite false o v) s = .next s
        ∧ exec (.counterLowRead false o) s = .next (s.emit (.readValue 0)))
    ∧ (∀ c k v, s.functionOn c = true → k < 16 →
      exec (.doorbellProducerWrite c k v) s = .next s ∧ exec (.doorbellConsumerWrite c k v) s = .next s)
    ∧ (∀ c k o v, s.functionOn c = true → c < 256 → k < 16 → o % 4 = 0 → 8 ≤ o → o < 0x1000 →
      exec (.registerWrite (0x10000000 + 0x10000 * c + 0x1000 * k + o) v) s = .next s)
    ∧ (∀ c cva len, s.inBar4 c cva len = true → 1 ≤ len → len ≤ 4096 → exec (.bar4Access c false cva len []) s = .next s)
    ∧ (∀ c cva len data, s.inBar4 c cva data.length = true → 1 ≤ data.length → data.length ≤ 512 →
      exec (.bar4Access c true cva len data) s = .next s)

/-- Tick configuration: a domain without a bound pipeline takes the written source, period and tolerance, and a write
of 1 to ENABLE clears its shift count; a bound domain, a reserved source and a period out of range are rejected with
one event and change nothing. A read of the low word of a 64-bit register returns its low 32 bits and latches the high
ones. -/
def Obligations.TickRegistersAndLatches : Prop :=
  (∀ (d : Nat) (v : Word) (s : State), d < 8 → s.host.ready = true →
     (s.domainBound d = false → v.extractLsb' 24 2 ≠ (3 : BitVec 2) → Answers (exec (.hfTickCfgWrite d v) s) (fun u =>
       (u.dom d).source = v.extractLsb' 24 2 ∧ (u.dom d).enable = v.getLsbD 31 ∧ (u.dom d).lane = v.extractLsb' 16 6
         ∧ (u.dom d).lvdsInput = v.extractLsb' 8 3 ∧ (v.getLsbD 31 = true → (s.dom d).enable = false → (u.dom d).count = 0)
         ∧ ∀ e, e ≠ d → u.dom e = s.dom e))
     ∧ (s.domainBound d = false → 120 ≤ bits v.toNat 23 0 → bits v.toNat 23 0 ≤ 12000000 → Answers (exec (.hfTickPeriodWrite d v) s) (fun u =>
       u.dom d = { s.dom d with period := v.extractLsb' 0 24 } ∧ ∀ e, e ≠ d → u.dom e = s.dom e))
     ∧ (s.domainBound d = false → Answers (exec (.hfTickTolWrite d v) s) (fun u =>
       u.dom d = { s.dom d with tolerance := v.extractLsb' 0 16 } ∧ ∀ e, e ≠ d → u.dom e = s.dom e))
     ∧ (s.domainBound d = true → ∀ c ∈ [(Instr.hfTickCfgWrite), .hfTickPeriodWrite, .hfTickTolWrite], Answers (exec (c d v) s) (fun u =>
       u.ticks = s.ticks ∧ u.faults.eventSeq = s.faults.eventSeq + 1))
     ∧ (v.extractLsb' 24 2 = (3 : BitVec 2) → Answers (exec (.hfTickCfgWrite d v) s) (fun u =>
       u.ticks = s.ticks ∧ u.faults.eventSeq = s.faults.eventSeq + 1))
     ∧ (bits v.toNat 23 0 < 120 ∨ 12000000 < bits v.toNat 23 0 → Answers (exec (.hfTickPeriodWrite d v) s) (fun u =>
       u.ticks = s.ticks ∧ u.faults.eventSeq = s.faults.eventSeq + 1)))
  ∧ (∀ s : State, s.host.ready = true →
       (∀ d, d < 8 → Answers (exec (.hfTickCountLoRead d) s) (fun u =>
         u.out = .readValue (BitVec.ofNat 32 ((s.dom d).count.toNat % 2 ^ 32)) :: s.out
           ∧ u.dom d = { s.dom d with countHi := BitVec.ofNat 32 ((s.dom d).count.toNat / 2 ^ 32) }))
       ∧ (∀ c, c < 256 → Answers (exec (.journalHeadLoRead c) s) (fun u =>
         u.out = .readValue (BitVec.ofNat 32 ((s.claim c).journalHead.toNat % 2 ^ 32)) :: s.out
           ∧ u.claim c = { s.claim c with journalHi := BitVec.ofNat 32 ((s.claim c).journalHead.toNat / 2 ^ 32) }))
       ∧ Answers (exec .hfSeqLoRead s) (fun u => u.out = .readValue (BitVec.ofNat 32 (s.host.seq % 2 ^ 32)) :: s.out
           ∧ u.host.seqHi = BitVec.ofNat 32 (s.host.seq / 2 ^ 32))
       ∧ Answers (exec .hfEventSeqLoRead s) (fun u => u.out = .readValue (BitVec.ofNat 32 (s.faults.eventSeq % 2 ^ 32)) :: s.out
           ∧ u.faults.eventSeqHi = BitVec.ofNat 32 (s.faults.eventSeq / 2 ^ 32))
       ∧ Answers (exec .emTimeLoRead s) (fun u => u.out = .readValue (BitVec.ofNat 32 (s.emeel.meshTime % 2 ^ 32)) :: s.out
           ∧ u.emeel.timeHi = BitVec.ofNat 32 (s.emeel.meshTime / 2 ^ 32))
       ∧ (∀ jtag o, ctrLow o = true → Answers (exec (.counterLowRead jtag o) s) (fun u =>
         (if jtag then u.dbg.latchJtag else u.dbg.latchBar0) = BitVec.ofNat 16 ((s.counterAt o).value / 2 ^ 32)
           ∧ (jtag = true → u.dbg.jtagData = BitVec.ofNat 32 ((s.counterAt o).value % 2 ^ 32))
           ∧ (jtag = false → u.out = .readValue (BitVec.ofNat 32 ((s.counterAt o).value % 2 ^ 32)) :: s.out)
           ∧ u.dbg.counters = s.dbg.counters)))

/-- Writes of one register: locks are only set; recurrence, arbiter, hoist, thermal, droop, quad, channel map and
decision line fields take legal values; the illegal values named leave the register as it is; the two halves of a
counter are written together, through BAR0 or the JTAG port. A write of 1 clears a status bit, and not one that hardware
has set in this fc. -/
def Obligations.RegisterWritesTakeLegalValues : Prop :=
  ∀ (v : Word) (s : State), s.host.ready = true →
    Answers (exec (.hfLockSetWrite v) s) (fun u => u = { s with host := { s.host with lockState := s.host.lockState ||| v } })
    ∧ (let n := bits v.toNat 31 28
       let w := bits v.toNat 27 16
       (2 ≤ n → w ≠ 0 → Answers (exec (.hfFaultCfgWrite v) s) (fun u =>
          u.faults.recurCount.toNat = n ∧ u.faults.recurWindowMs.toNat = w ∧ u.faults.patrolEn = v.getLsbD 15))
        ∧ (n < 2 ∨ w = 0 → exec (.hfFaultCfgWrite v) s = .next s))
    ∧ (let c := bits v.toNat 31 16
       let n := bits v.toNat 6 0
       (c ≠ 0 → 4 ≤ n → n ≤ 64 → Answers (exec (.spArbCfgWrite v) s) (fun u => u.sump.canary.toNat = c ∧ u.sump.lwInterval.toNat = n))
        ∧ (c = 0 ∨ n < 4 ∨ 64 < n → Answers (exec (.spArbCfgWrite v) s) (fun u => u.sump = s.sump ∧ u.faults.eventSeq = s.faults.eventSeq + 1)))
    ∧ (∀ h, h < 32 →
      (bits v.toNat 2 0 ≠ 7 → Answers (exec (.spHoistCfgWrite h v) s) (fun u =>
        u.hoist h = { s.hoist h with enable := v.getLsbD 31, maxBurst := v.extractLsb' 0 3 } ∧ ∀ k, k ≠ h → u.hoist k = s.hoist k))
      ∧ (bits v.toNat 2 0 = 7 → Answers (exec (.spHoistCfgWrite h v) s) (fun u => u.sump = s.sump ∧ u.faults.eventSeq = s.faults.eventSeq + 1)))
    ∧ (s.locked 2 = true → Answers (exec (.pwTdpCfgWrite v) s) (fun u => u.power = s.power ∧ u.host.lockViol.getLsbD 2 = true))
    ∧ (s.locked 2 = false → 300 ≤ bits v.toNat 9 0 → bits v.toNat 9 0 ≤ 850 →
      (tokenShares (s.images.map (·.2)) (bits v.toNat 9 0 * 1000)).isSome = true →
      Answers (exec (.pwTdpCfgWrite v) s) (fun u => u.power.tdpW.toNat = bits v.toNat 9 0))
    ∧ (60 ≤ bits v.toNat 7 0 → bits v.toNat 7 0 ≤ 100 → Answers (exec (.pwThermalCfgWrite v) s) (fun u => u.power.warnC.toNat = bits v.toNat 7 0))
    ∧ (16 ≤ bits v.toNat 15 8 → 10 ≤ bits v.toNat 7 0 → bits v.toNat 7 0 ≤ 100 → Answers (exec (.pwDroopCfgWrite v) s) (fun u =>
      u.power.stepUpFc.toNat = bits v.toNat 15 8 ∧ u.power.thresholdMv.toNat = bits v.toNat 7 0))
    ∧ (∀ q, q < 16 → s.quadUsed q = true → (s.quad q).written q v ≠ s.quad q → Answers (exec (.adQuadCfgWrite q v) s) (fun u =>
      u.adit = s.adit ∧ u.faults.eventSeq = s.faults.eventSeq + 1))
    ∧ (∀ q, q < 16 → s.quadUsed q = false → v.getLsbD 25 = false → (8 ≤ q → (s.quad (q - 8)).mirror = false) → bits v.toNat 30 29 ≠ 3 →
      bits v.toNat 28 26 < 5 → Answers (exec (.adQuadCfgWrite q v) s) (fun u =>
        (u.quad q).enable = v.getLsbD 31 ∧ (u.quad q).mode = v.extractLsb' 29 2 ∧ (u.quad q).rate = v.extractLsb' 26 3
          ∧ (u.quad q).bypass = v.getLsbD 24 ∧ ∀ i, i < 4 → (u.lane (4 * q + i)).up = false ∧ (u.lane (4 * q + i)).retired = false))
    ∧ (∀ q, q < 8 → s.quadUsed q = false → v.getLsbD 25 = true → bits v.toNat 30 29 = 0 → bits v.toNat 28 26 < 5 →
      (s.quad (q + 8)).mode = 0 → (s.quad (q + 8)).rate = v.extractLsb' 26 3 → Answers (exec (.adQuadCfgWrite q v) s) (fun u =>
        (u.quad q).mirror = true ∧ (u.quad q).enable = v.getLsbD 31 ∧ (u.quad q).rate = v.extractLsb' 26 3))
    ∧ (∀ q, q < 16 → (s.quad q).bypassBound = false → Answers (exec (.adQuadChmapWrite q v) s) (fun u =>
      u.quad q = { s.quad q with chBase := v.extractLsb' 16 16, chCount := v.extractLsb' 8 8 } ∧ ∀ k, k ≠ q → u.quad k = s.quad k))
    ∧ (∀ l, l < 16 → (s.decLine l).bound = false → (s.decLine (l + 8)).bound = false → Answers (exec (.adDecLineWrite l v) s) (fun u =>
      u.decLine l = { s.decLine l with rate := v.extractLsb' 18 2, duplicate := v.getLsbD 17 && decide (l < 8) }
        ∧ ∀ k, k ≠ l → u.decLine k = s.decLine k))
    ∧ (∀ j o hi lo, ctrLow o = true → Answers (exec (.counterHighWrite j o hi) s) (fun u =>
      (if j then u.dbg.stageJtag else u.dbg.stageBar0) = hi.extractLsb' 0 16 ∧ (u.counterAt o).value = (s.counterAt o).value
        ∧ Answers (exec (.counterLowWrite j o lo) u) (fun w =>
            (w.counterAt o).value = bits hi.toNat 15 0 * 2 ^ 32 + lo.toNat ∧ (if j then w.dbg.stageJtag else w.dbg.stageBar0) = 0)))
    ∧ (∀ o, 0x2010000 ≤ o → o < 0x2040000 → o % 0x100 = 4 →
      let t := (o - 0x2010000) / 0x100
      ((∀ h ∈ s.hits, h.1 ≠ o) → Answers (exec (.registerWrite o v) s) (fun u =>
        u.tile t = { s.tile t with
          lockBroken := (s.tile t).lockBroken && !v.getLsbD 2, swapFailed := (s.tile t).swapFailed && !v.getLsbD 1
          illegal := (s.tile t).illegal && !v.getLsbD 0 }))
      ∧ ((o, 0) ∈ s.hits → Answers (exec (.registerWrite o v) s) (fun u => (u.tile t).illegal = (s.tile t).illegal)))
    ∧ (∀ c k, c < 256 → k < 16 → s.functionOn c = true → (∀ h ∈ s.hits, h.1 ≠ ringStatus c k) → Answers (exec (.registerWrite (0x1000000C + 0x10000 * c + 0x1000 * k) v) s) (fun u =>
      u.ring c k = { s.ring c k with
        overrun := (s.ring c k).overrun && !v.getLsbD 1, eventsLost := (s.ring c k).eventsLost && !v.getLsbD 0 }))

/-- Halt commands need the debug unlock: with it a halt is asked for, a halted thread resumes or steps, and a running
thread is halted at once; without it they are rejected with one event. A halt that was asked for takes effect where
the thread holds no lock; with a lock held, the lock is broken when the 4,096 fc that the halt gave it have passed. A
comparator halts a thread before the word it names. A submitted token is checked while attempts are left; a valid one
unlocks with its scope, and another costs an attempt, one event and a new nonce. Through the JTAG port only the first
256 bytes of the debug block answer without it. -/
def Obligations.HaltsBreakpointsAndUnlock : Prop :=
  (∀ (v : Word) (s : State), s.host.ready = true → s.physical (bits v.toNat 9 0) < 768 →
     let t := s.physical (bits v.toNat 9 0)
     (s.debugOpen = false → ∀ p ∈ [((Instr.dbHalt, 1) : (Word → Instr) × Nat), (.dbResume, 2), (.dbStep, 3), (.dbForce, 4)],
       bits v.toNat 26 24 = p.2 → Answers (exec (p.1 v) s) (fun u => u.tiles = s.tiles ∧ u.faults.eventSeq = s.faults.eventSeq + 1))
     ∧ (s.debugOpen = true → ∀ th, th < 4 → bitAt (bits v.toNat 19 16) th = true →
       (bits v.toNat 26 24 = 1 → (s.thread t th).mode = .running → Answers (exec (.dbHalt v) s) (fun u =>
         u.thread t th = { s.thread t th with haltAsked := some (s.rowFc t + 4096) }))
       ∧ (bits v.toNat 26 24 = 2 → (s.thread t th).mode = .debug → (∀ x, (s.thread t x).tickPassed = false) → Answers (exec (.dbResume v) s) (fun u =>
         u.thread t th = { s.thread t th with mode := .running, passBreak := true }))
       ∧ (bits v.toNat 26 24 = 2 → (s.thread t th).mode = .debug → bits v.toNat 19 16 = 2 ^ th → Answers (exec (.dbResume v) s) (fun u =>
         (u.thread t th).mode = .running ∧ (u.thread t th).tickPassed = false))
       ∧ (bits v.toNat 26 24 = 3 → (s.thread t th).mode = .debug → Answers (exec (.dbStep v) s) (fun u =>
         u.thread t th = { s.thread t th with mode := .running, stepping := true, passBreak := true }))
       ∧ (bits v.toNat 26 24 = 4 → (s.thread t th).mode = .running → (s.thread t th).lock = none → Answers (exec (.dbForce v) s) (fun u =>
         (u.thread t th).mode = .debug ∧ (u.thread t th).regs = (s.thread t th).regs ∧ s.faults.eventSeq < u.faults.eventSeq))
       ∧ (bits v.toNat 26 24 = 4 → (s.thread t th).mode = .running → (s.thread t th).lock ≠ none → bits v.toNat 19 16 = 2 ^ th →
         Answers (exec (.dbForce v) s) (fun u =>
           (u.thread t th).mode = .debug ∧ (u.thread t th).lock = none ∧ u.dbg.forced = true))))
  ∧ ((∀ (t th : Nat) (s : State), t < 768 → th < 4 → s.tickFirst t = false → (s.thread t th).mode = .running →
       (s.thread t th).haltAsked ≠ none → (s.thread t th).lock = none → (∀ st line, (s.thread t th).wait ≠ .lock st line) → Answers (exec (.haltTakesEffect t th) s) (fun u =>
         u.thread t th = { s.thread t th with mode := .debug, haltAsked := none, stepping := false } ∧ u.faults.eventSeq = s.faults.eventSeq + 1
           ∧ ∀ x, x ≠ t → u.tile x = s.tile x))
     ∧ (∀ (t th st line a : Nat) (s : State), t < 768 → th < 4 → s.tickFirst t = false → (s.thread t th).mode = .running →
       (s.thread t th).lock = some (st, line) → (s.thread t th).haltAsked = some a → a ≤ s.rowFc t →
       Answers (exec (.haltLockTimeout t th) s) (fun u =>
         (u.thread t th).mode = .debug ∧ (u.thread t th).lock = none ∧ u.dbg.forced = true ∧ u.faults.eventSeq = s.faults.eventSeq + 2))
     ∧ (∀ (n : Nat) (s : State), n < 8 →
       let b := s.comparator n
       let x := s.thread b.2.1 b.2.2.1
       b.1 = true → x.mode = .running → x.wait = .none → x.haltAsked = none → x.passBreak = false → x.regs.pc = b.2.2.2 →
       Answers (exec (.pcBreakpointMatch n) s) (fun u => u.faults.eventSeq = s.faults.eventSeq + 1
         ∧ (x.lock = none → u.thread b.2.1 b.2.2.1 = { x with mode := .debug, tickPassed := false, passBreak := false })
         ∧ (x.lock ≠ none → u.thread b.2.1 b.2.2.1 = { x with haltAsked := some (s.rowFc b.2.1 + 4096), passBreak := true }))))
  ∧ (∀ s : State,
       (s.host.ready = true → s.dbg.busy = false →
         (s.dbg.attempts ≠ 0 → Answers (exec .unlockSubmit s) (fun u => u = { s with dbg := { s.dbg with busy := true } }))
         ∧ (s.dbg.attempts = 0 → exec .unlockSubmit s = .next s))
       ∧ (s.dbg.busy = true → exec .unlockSubmit s = .next s)
       ∧ (s.dbg.busy = true →
         (s.tokenValid = true → Answers (exec .unlockCheckComplete s) (fun u =>
           u = { s with dbg := { s.dbg with busy := false, unlocked := true, scope := BitVec.ofNat 2 (s.tokenWord 0) } }))
         ∧ (s.tokenValid = false → Answers (exec .unlockCheckComplete s) (fun u =>
           u.dbg.busy = false ∧ u.dbg.unlocked = s.dbg.unlocked ∧ u.dbg.attempts = s.dbg.attempts - 1
             ∧ u.faults.eventSeq = s.faults.eventSeq + 1 ∧ u.free = s.free + 1)))
       ∧ (∀ v : DWord, bits v.toNat 33 32 = 0 →
         let o := bits v.toNat 59 32
         let open_ := (s.unlocked && bitAt s.scope 1) || (decide (0x8000000 ≤ o) && decide (o < 0x8000100))
         (open_ = false → Answers (exec (.dbacc v) s) (fun u =>
           u.dbg.jtagRefused = true ∧ u.tiles = s.tiles ∧ u.host = s.host ∧ u.free = s.free + 1))
         ∧ (open_ = true → v.getLsbD 63 = false → Answers (exec (.dbacc v) s) (fun u =>
           u.dbg.jtagRefused = false ∧ u.dbg.jtagData = s.regView true o ∧ u.tiles = s.tiles))
         ∧ (open_ = true → v.getLsbD 63 = true → Answers (exec (.dbacc v) s) (fun u =>
           u.dbg.jtagRefused = false ∧ u.dbg.jtagData = v.extractLsb' 0 32))))
end

