-- ==== Sys2Proof/Laws/State.lean ====
section
/-! SUPPORT. What each named update of the state leaves alone, and what reading an object after writing it gives:
one small lemma for each field and each update, so that no proof unfolds a record. -/

namespace Sys2Proof.Machine

/-! ## Sparse tables -/

@[simp] theorem look_put_same {α : Type} (t : Tab α) (k : Nat) (v : α) : look (put t k v) k = some v := by
  induction t with
  | nil => simp [put, look]
  | cons p r ih =>
    obtain ⟨j, x⟩ := p
    unfold put
    split
    · simp [look]
    · split
      · simp [look]
      · rename_i h1 h2
        simp [look, Ne.symm h2, ih]

theorem look_put_other {α : Type} (t : Tab α) (k j : Nat) (v : α) (h : j ≠ k) : look (put t k v) j = look t j := by
  induction t with
  | nil => simp [put, look, Ne.symm h]
  | cons p r ih =>
    obtain ⟨i, x⟩ := p
    unfold put
    split
    · simp [look, Ne.symm h]
    · split
      · rename_i h1 h2
        subst h2
        simp [look, Ne.symm h]
      · simp only [look]
        split <;> simp_all

@[simp] theorem lookD_put_same {α : Type} (t : Tab α) (k : Nat) (v d : α) : lookD (put t k v) k d = v := by simp [lookD]

theorem lookD_put_other {α : Type} (t : Tab α) (k j : Nat) (v d : α) (h : j ≠ k) : lookD (put t k v) j d = lookD t j d := by
  simp [lookD, look_put_other t k j v h]

/-! ## Objects after an update -/

@[simp] theorem tile_setTile (s : State) (t : Nat) (x : Tile) : (s.setTile t x).tile t = x := by
  simp [State.setTile, State.tile]
theorem tile_setTile_other (s : State) (t y : Nat) (x : Tile) (h : y ≠ t) : (s.setTile t x).tile y = s.tile y := by
  simp [State.setTile, State.tile, look_put_other _ _ _ _ h]
@[simp] theorem tile_modTile (s : State) (t : Nat) (f : Tile → Tile) : (s.modTile t f).tile t = f (s.tile t) := by
  simp [State.modTile]
theorem tile_modTile_other (s : State) (t y : Nat) (f : Tile → Tile) (h : y ≠ t) : (s.modTile t f).tile y = s.tile y := by
  simp [State.modTile, tile_setTile_other _ _ _ _ h]
@[simp] theorem thread_modThread (s : State) (t th : Nat) (f : Thread → Thread) :
    (s.modThread t th f).thread t th = f (s.thread t th) := by
  simp [State.modThread, State.thread, Tile.thread, Tile.setThread]
theorem thread_modThread_other (s : State) (t th y : Nat) (f : Thread → Thread) (h : y ≠ th) :
    (s.modThread t th f).thread t y = s.thread t y := by
  simp [State.modThread, State.thread, Tile.thread, Tile.setThread, lookD_put_other _ _ _ _ _ h]
@[simp] theorem skip_modSkip (s : State) (k : Nat) (f : Skip → Skip) : (s.modSkip k f).skip k = f (s.skip k) := by
  simp [State.modSkip, State.skip]
theorem skip_modSkip_other (s : State) (k y : Nat) (f : Skip → Skip) (h : y ≠ k) : (s.modSkip k f).skip y = s.skip y := by
  simp [State.modSkip, State.skip, lookD_put_other _ _ _ _ _ h]
@[simp] theorem dom_modDom (s : State) (d : Nat) (f : TickDomain → TickDomain) : (s.modDom d f).dom d = f (s.dom d) := by
  simp [State.modDom, State.dom]
theorem dom_modDom_other (s : State) (d y : Nat) (f : TickDomain → TickDomain) (h : y ≠ d) : (s.modDom d f).dom y = s.dom y := by
  simp [State.modDom, State.dom, lookD_put_other _ _ _ _ _ h]
@[simp] theorem claim_modClaim (s : State) (c : Nat) (f : Claim → Claim) : (s.modClaim c f).claim c = f (s.claim c) := by
  simp [State.modClaim, State.modHost, State.claim]
theorem claim_modClaim_other (s : State) (c y : Nat) (f : Claim → Claim) (h : y ≠ c) : (s.modClaim c f).claim y = s.claim y := by
  simp [State.modClaim, State.modHost, State.claim, lookD_put_other _ _ _ _ _ h]
@[simp] theorem ring_modRing (s : State) (c k : Nat) (f : Ring → Ring) : (s.modRing c k f).ring c k = f (s.ring c k) := by
  simp [State.modRing, State.modHost, State.ring]

/-! ## Fields that an update leaves alone -/


@[simp] theorem setTile_pending (s : State) (t : Nat) (x : Tile) : (s.setTile t x).pending = s.pending := rfl
@[simp] theorem setTile_hits (s : State) (t : Nat) (x : Tile) : (s.setTile t x).hits = s.hits := rfl
@[simp] theorem setTile_now (s : State) (t : Nat) (x : Tile) : (s.setTile t x).now = s.now := rfl
@[simp] theorem setTile_free (s : State) (t : Nat) (x : Tile) : (s.setTile t x).free = s.free := rfl
@[simp] theorem setTile_ticks (s : State) (t : Nat) (x : Tile) : (s.setTile t x).ticks = s.ticks := rfl
@[simp] theorem setTile_skips (s : State) (t : Nat) (x : Tile) : (s.setTile t x).skips = s.skips := rfl
@[simp] theorem setTile_mem (s : State) (t : Nat) (x : Tile) : (s.setTile t x).mem = s.mem := rfl
@[simp] theorem setTile_unwritten (s : State) (t : Nat) (x : Tile) : (s.setTile t x).unwritten = s.unwritten := rfl
@[simp] theorem setTile_images (s : State) (t : Nat) (x : Tile) : (s.setTile t x).images = s.images := rfl
@[simp] theorem setTile_pipes (s : State) (t : Nat) (x : Tile) : (s.setTile t x).pipes = s.pipes := rfl
@[simp] theorem setTile_adit (s : State) (t : Nat) (x : Tile) : (s.setTile t x).adit = s.adit := rfl
@[simp] theorem setTile_riddle (s : State) (t : Nat) (x : Tile) : (s.setTile t x).riddle = s.riddle := rfl
@[simp] theorem setTile_sump (s : State) (t : Nat) (x : Tile) : (s.setTile t x).sump = s.sump := rfl
@[simp] theorem setTile_host (s : State) (t : Nat) (x : Tile) : (s.setTile t x).host = s.host := rfl
@[simp] theorem setTile_emeel (s : State) (t : Nat) (x : Tile) : (s.setTile t x).emeel = s.emeel := rfl
@[simp] theorem setTile_faults (s : State) (t : Nat) (x : Tile) : (s.setTile t x).faults = s.faults := rfl
@[simp] theorem setTile_power (s : State) (t : Nat) (x : Tile) : (s.setTile t x).power = s.power := rfl
@[simp] theorem setTile_dbg (s : State) (t : Nat) (x : Tile) : (s.setTile t x).dbg = s.dbg := rfl
@[simp] theorem setTile_out (s : State) (t : Nat) (x : Tile) : (s.setTile t x).out = s.out := rfl

@[simp] theorem modTile_pending (s : State) (t : Nat) (f : Tile → Tile) : (s.modTile t f).pending = s.pending := rfl
@[simp] theorem modTile_hits (s : State) (t : Nat) (f : Tile → Tile) : (s.modTile t f).hits = s.hits := rfl
@[simp] theorem modTile_now (s : State) (t : Nat) (f : Tile → Tile) : (s.modTile t f).now = s.now := rfl
@[simp] theorem modTile_free (s : State) (t : Nat) (f : Tile → Tile) : (s.modTile t f).free = s.free := rfl
@[simp] theorem modTile_ticks (s : State) (t : Nat) (f : Tile → Tile) : (s.modTile t f).ticks = s.ticks := rfl
@[simp] theorem modTile_skips (s : State) (t : Nat) (f : Tile → Tile) : (s.modTile t f).skips = s.skips := rfl
@[simp] theorem modTile_mem (s : State) (t : Nat) (f : Tile → Tile) : (s.modTile t f).mem = s.mem := rfl
@[simp] theorem modTile_unwritten (s : State) (t : Nat) (f : Tile → Tile) : (s.modTile t f).unwritten = s.unwritten := rfl
@[simp] theorem modTile_images (s : State) (t : Nat) (f : Tile → Tile) : (s.modTile t f).images = s.images := rfl
@[simp] theorem modTile_pipes (s : State) (t : Nat) (f : Tile → Tile) : (s.modTile t f).pipes = s.pipes := rfl
@[simp] theorem modTile_adit (s : State) (t : Nat) (f : Tile → Tile) : (s.modTile t f).adit = s.adit := rfl
@[simp] theorem modTile_riddle (s : State) (t : Nat) (f : Tile → Tile) : (s.modTile t f).riddle = s.riddle := rfl
@[simp] theorem modTile_sump (s : State) (t : Nat) (f : Tile → Tile) : (s.modTile t f).sump = s.sump := rfl
@[simp] theorem modTile_host (s : State) (t : Nat) (f : Tile → Tile) : (s.modTile t f).host = s.host := rfl
@[simp] theorem modTile_emeel (s : State) (t : Nat) (f : Tile → Tile) : (s.modTile t f).emeel = s.emeel := rfl
@[simp] theorem modTile_faults (s : State) (t : Nat) (f : Tile → Tile) : (s.modTile t f).faults = s.faults := rfl
@[simp] theorem modTile_power (s : State) (t : Nat) (f : Tile → Tile) : (s.modTile t f).power = s.power := rfl
@[simp] theorem modTile_dbg (s : State) (t : Nat) (f : Tile → Tile) : (s.modTile t f).dbg = s.dbg := rfl
@[simp] theorem modTile_out (s : State) (t : Nat) (f : Tile → Tile) : (s.modTile t f).out = s.out := rfl

@[simp] theorem modThread_pending (s : State) (t th : Nat) (f : Thread → Thread) : (s.modThread t th f).pending = s.pending := rfl
@[simp] theorem modThread_hits (s : State) (t th : Nat) (f : Thread → Thread) : (s.modThread t th f).hits = s.hits := rfl
@[simp] theorem modThread_now (s : State) (t th : Nat) (f : Thread → Thread) : (s.modThread t th f).now = s.now := rfl
@[simp] theorem modThread_free (s : State) (t th : Nat) (f : Thread → Thread) : (s.modThread t th f).free = s.free := rfl
@[simp] theorem modThread_ticks (s : State) (t th : Nat) (f : Thread → Thread) : (s.modThread t th f).ticks = s.ticks := rfl
@[simp] theorem modThread_skips (s : State) (t th : Nat) (f : Thread → Thread) : (s.modThread t th f).skips = s.skips := rfl
@[simp] theorem modThread_mem (s : State) (t th : Nat) (f : Thread → Thread) : (s.modThread t th f).mem = s.mem := rfl
@[simp] theorem modThread_unwritten (s : State) (t th : Nat) (f : Thread → Thread) : (s.modThread t th f).unwritten = s.unwritten := rfl
@[simp] theorem modThread_images (s : State) (t th : Nat) (f : Thread → Thread) : (s.modThread t th f).images = s.images := rfl
@[simp] theorem modThread_pipes (s : State) (t th : Nat) (f : Thread → Thread) : (s.modThread t th f).pipes = s.pipes := rfl
@[simp] theorem modThread_adit (s : State) (t th : Nat) (f : Thread → Thread) : (s.modThread t th f).adit = s.adit := rfl
@[simp] theorem modThread_riddle (s : State) (t th : Nat) (f : Thread → Thread) : (s.modThread t th f).riddle = s.riddle := rfl
@[simp] theorem modThread_sump (s : State) (t th : Nat) (f : Thread → Thread) : (s.modThread t th f).sump = s.sump := rfl
@[simp] theorem modThread_host (s : State) (t th : Nat) (f : Thread → Thread) : (s.modThread t th f).host = s.host := rfl
@[simp] theorem modThread_emeel (s : State) (t th : Nat) (f : Thread → Thread) : (s.modThread t th f).emeel = s.emeel := rfl
@[simp] theorem modThread_faults (s : State) (t th : Nat) (f : Thread → Thread) : (s.modThread t th f).faults = s.faults := rfl
@[simp] theorem modThread_power (s : State) (t th : Nat) (f : Thread → Thread) : (s.modThread t th f).power = s.power := rfl
@[simp] theorem modThread_dbg (s : State) (t th : Nat) (f : Thread → Thread) : (s.modThread t th f).dbg = s.dbg := rfl
@[simp] theorem modThread_out (s : State) (t th : Nat) (f : Thread → Thread) : (s.modThread t th f).out = s.out := rfl

@[simp] theorem modRegs_pending (s : State) (t th : Nat) (f : Regs → Regs) : (s.modRegs t th f).pending = s.pending := rfl
@[simp] theorem modRegs_hits (s : State) (t th : Nat) (f : Regs → Regs) : (s.modRegs t th f).hits = s.hits := rfl
@[simp] theorem modRegs_now (s : State) (t th : Nat) (f : Regs → Regs) : (s.modRegs t th f).now = s.now := rfl
@[simp] theorem modRegs_free (s : State) (t th : Nat) (f : Regs → Regs) : (s.modRegs t th f).free = s.free := rfl
@[simp] theorem modRegs_ticks (s : State) (t th : Nat) (f : Regs → Regs) : (s.modRegs t th f).ticks = s.ticks := rfl
@[simp] theorem modRegs_skips (s : State) (t th : Nat) (f : Regs → Regs) : (s.modRegs t th f).skips = s.skips := rfl
@[simp] theorem modRegs_mem (s : State) (t th : Nat) (f : Regs → Regs) : (s.modRegs t th f).mem = s.mem := rfl
@[simp] theorem modRegs_unwritten (s : State) (t th : Nat) (f : Regs → Regs) : (s.modRegs t th f).unwritten = s.unwritten := rfl
@[simp] theorem modRegs_images (s : State) (t th : Nat) (f : Regs → Regs) : (s.modRegs t th f).images = s.images := rfl
@[simp] theorem modRegs_pipes (s : State) (t th : Nat) (f : Regs → Regs) : (s.modRegs t th f).pipes = s.pipes := rfl
@[simp] theorem modRegs_adit (s : State) (t th : Nat) (f : Regs → Regs) : (s.modRegs t th f).adit = s.adit := rfl
@[simp] theorem modRegs_riddle (s : State) (t th : Nat) (f : Regs → Regs) : (s.modRegs t th f).riddle = s.riddle := rfl
@[simp] theorem modRegs_sump (s : State) (t th : Nat) (f : Regs → Regs) : (s.modRegs t th f).sump = s.sump := rfl
@[simp] theorem modRegs_host (s : State) (t th : Nat) (f : Regs → Regs) : (s.modRegs t th f).host = s.host := rfl
@[simp] theorem modRegs_emeel (s : State) (t th : Nat) (f : Regs → Regs) : (s.modRegs t th f).emeel = s.emeel := rfl
@[simp] theorem modRegs_faults (s : State) (t th : Nat) (f : Regs → Regs) : (s.modRegs t th f).faults = s.faults := rfl
@[simp] theorem modRegs_power (s : State) (t th : Nat) (f : Regs → Regs) : (s.modRegs t th f).power = s.power := rfl
@[simp] theorem modRegs_dbg (s : State) (t th : Nat) (f : Regs → Regs) : (s.modRegs t th f).dbg = s.dbg := rfl
@[simp] theorem modRegs_out (s : State) (t th : Nat) (f : Regs → Regs) : (s.modRegs t th f).out = s.out := rfl

@[simp] theorem modDom_pending (s : State) (d : Nat) (f : TickDomain → TickDomain) : (s.modDom d f).pending = s.pending := rfl
@[simp] theorem modDom_hits (s : State) (d : Nat) (f : TickDomain → TickDomain) : (s.modDom d f).hits = s.hits := rfl
@[simp] theorem modDom_now (s : State) (d : Nat) (f : TickDomain → TickDomain) : (s.modDom d f).now = s.now := rfl
@[simp] theorem modDom_free (s : State) (d : Nat) (f : TickDomain → TickDomain) : (s.modDom d f).free = s.free := rfl
@[simp] theorem modDom_tiles (s : State) (d : Nat) (f : TickDomain → TickDomain) : (s.modDom d f).tiles = s.tiles := rfl
@[simp] theorem modDom_skips (s : State) (d : Nat) (f : TickDomain → TickDomain) : (s.modDom d f).skips = s.skips := rfl
@[simp] theorem modDom_mem (s : State) (d : Nat) (f : TickDomain → TickDomain) : (s.modDom d f).mem = s.mem := rfl
@[simp] theorem modDom_unwritten (s : State) (d : Nat) (f : TickDomain → TickDomain) : (s.modDom d f).unwritten = s.unwritten := rfl
@[simp] theorem modDom_images (s : State) (d : Nat) (f : TickDomain → TickDomain) : (s.modDom d f).images = s.images := rfl
@[simp] theorem modDom_pipes (s : State) (d : Nat) (f : TickDomain → TickDomain) : (s.modDom d f).pipes = s.pipes := rfl
@[simp] theorem modDom_adit (s : State) (d : Nat) (f : TickDomain → TickDomain) : (s.modDom d f).adit = s.adit := rfl
@[simp] theorem modDom_riddle (s : State) (d : Nat) (f : TickDomain → TickDomain) : (s.modDom d f).riddle = s.riddle := rfl
@[simp] theorem modDom_sump (s : State) (d : Nat) (f : TickDomain → TickDomain) : (s.modDom d f).sump = s.sump := rfl
@[simp] theorem modDom_host (s : State) (d : Nat) (f : TickDomain → TickDomain) : (s.modDom d f).host = s.host := rfl
@[simp] theorem modDom_emeel (s : State) (d : Nat) (f : TickDomain → TickDomain) : (s.modDom d f).emeel = s.emeel := rfl
@[simp] theorem modDom_faults (s : State) (d : Nat) (f : TickDomain → TickDomain) : (s.modDom d f).faults = s.faults := rfl
@[simp] theorem modDom_power (s : State) (d : Nat) (f : TickDomain → TickDomain) : (s.modDom d f).power = s.power := rfl
@[simp] theorem modDom_dbg (s : State) (d : Nat) (f : TickDomain → TickDomain) : (s.modDom d f).dbg = s.dbg := rfl
@[simp] theorem modDom_out (s : State) (d : Nat) (f : TickDomain → TickDomain) : (s.modDom d f).out = s.out := rfl

@[simp] theorem modSkip_pending (s : State) (k : Nat) (f : Skip → Skip) : (s.modSkip k f).pending = s.pending := rfl
@[simp] theorem modSkip_hits (s : State) (k : Nat) (f : Skip → Skip) : (s.modSkip k f).hits = s.hits := rfl
@[simp] theorem modSkip_now (s : State) (k : Nat) (f : Skip → Skip) : (s.modSkip k f).now = s.now := rfl
@[simp] theorem modSkip_free (s : State) (k : Nat) (f : Skip → Skip) : (s.modSkip k f).free = s.free := rfl
@[simp] theorem modSkip_ticks (s : State) (k : Nat) (f : Skip → Skip) : (s.modSkip k f).ticks = s.ticks := rfl
@[simp] theorem modSkip_tiles (s : State) (k : Nat) (f : Skip → Skip) : (s.modSkip k f).tiles = s.tiles := rfl
@[simp] theorem modSkip_mem (s : State) (k : Nat) (f : Skip → Skip) : (s.modSkip k f).mem = s.mem := rfl
@[simp] theorem modSkip_unwritten (s : State) (k : Nat) (f : Skip → Skip) : (s.modSkip k f).unwritten = s.unwritten := rfl
@[simp] theorem modSkip_images (s : State) (k : Nat) (f : Skip → Skip) : (s.modSkip k f).images = s.images := rfl
@[simp] theorem modSkip_pipes (s : State) (k : Nat) (f : Skip → Skip) : (s.modSkip k f).pipes = s.pipes := rfl
@[simp] theorem modSkip_adit (s : State) (k : Nat) (f : Skip → Skip) : (s.modSkip k f).adit = s.adit := rfl
@[simp] theorem modSkip_riddle (s : State) (k : Nat) (f : Skip → Skip) : (s.modSkip k f).riddle = s.riddle := rfl
@[simp] theorem modSkip_sump (s : State) (k : Nat) (f : Skip → Skip) : (s.modSkip k f).sump = s.sump := rfl
@[simp] theorem modSkip_host (s : State) (k : Nat) (f : Skip → Skip) : (s.modSkip k f).host = s.host := rfl
@[simp] theorem modSkip_emeel (s : State) (k : Nat) (f : Skip → Skip) : (s.modSkip k f).emeel = s.emeel := rfl
@[simp] theorem modSkip_faults (s : State) (k : Nat) (f : Skip → Skip) : (s.modSkip k f).faults = s.faults := rfl
@[simp] theorem modSkip_power (s : State) (k : Nat) (f : Skip → Skip) : (s.modSkip k f).power = s.power := rfl
@[simp] theorem modSkip_dbg (s : State) (k : Nat) (f : Skip → Skip) : (s.modSkip k f).dbg = s.dbg := rfl
@[simp] theorem modSkip_out (s : State) (k : Nat) (f : Skip → Skip) : (s.modSkip k f).out = s.out := rfl

@[simp] theorem modHost_pending (s : State) (f : HostIf → HostIf) : (s.modHost f).pending = s.pending := rfl
@[simp] theorem modHost_hits (s : State) (f : HostIf → HostIf) : (s.modHost f).hits = s.hits := rfl
@[simp] theorem modHost_now (s : State) (f : HostIf → HostIf) : (s.modHost f).now = s.now := rfl
@[simp] theorem modHost_free (s : State) (f : HostIf → HostIf) : (s.modHost f).free = s.free := rfl
@[simp] theorem modHost_ticks (s : State) (f : HostIf → HostIf) : (s.modHost f).ticks = s.ticks := rfl
@[simp] theorem modHost_tiles (s : State) (f : HostIf → HostIf) : (s.modHost f).tiles = s.tiles := rfl
@[simp] theorem modHost_skips (s : State) (f : HostIf → HostIf) : (s.modHost f).skips = s.skips := rfl
@[simp] theorem modHost_mem (s : State) (f : HostIf → HostIf) : (s.modHost f).mem = s.mem := rfl
@[simp] theorem modHost_unwritten (s : State) (f : HostIf → HostIf) : (s.modHost f).unwritten = s.unwritten := rfl
@[simp] theorem modHost_images (s : State) (f : HostIf → HostIf) : (s.modHost f).images = s.images := rfl
@[simp] theorem modHost_pipes (s : State) (f : HostIf → HostIf) : (s.modHost f).pipes = s.pipes := rfl
@[simp] theorem modHost_adit (s : State) (f : HostIf → HostIf) : (s.modHost f).adit = s.adit := rfl
@[simp] theorem modHost_riddle (s : State) (f : HostIf → HostIf) : (s.modHost f).riddle = s.riddle := rfl
@[simp] theorem modHost_sump (s : State) (f : HostIf → HostIf) : (s.modHost f).sump = s.sump := rfl
@[simp] theorem modHost_emeel (s : State) (f : HostIf → HostIf) : (s.modHost f).emeel = s.emeel := rfl
@[simp] theorem modHost_faults (s : State) (f : HostIf → HostIf) : (s.modHost f).faults = s.faults := rfl
@[simp] theorem modHost_power (s : State) (f : HostIf → HostIf) : (s.modHost f).power = s.power := rfl
@[simp] theorem modHost_dbg (s : State) (f : HostIf → HostIf) : (s.modHost f).dbg = s.dbg := rfl
@[simp] theorem modHost_out (s : State) (f : HostIf → HostIf) : (s.modHost f).out = s.out := rfl

@[simp] theorem modClaim_pending (s : State) (c : Nat) (f : Claim → Claim) : (s.modClaim c f).pending = s.pending := rfl
@[simp] theorem modClaim_hits (s : State) (c : Nat) (f : Claim → Claim) : (s.modClaim c f).hits = s.hits := rfl
@[simp] theorem modClaim_now (s : State) (c : Nat) (f : Claim → Claim) : (s.modClaim c f).now = s.now := rfl
@[simp] theorem modClaim_free (s : State) (c : Nat) (f : Claim → Claim) : (s.modClaim c f).free = s.free := rfl
@[simp] theorem modClaim_ticks (s : State) (c : Nat) (f : Claim → Claim) : (s.modClaim c f).ticks = s.ticks := rfl
@[simp] theorem modClaim_tiles (s : State) (c : Nat) (f : Claim → Claim) : (s.modClaim c f).tiles = s.tiles := rfl
@[simp] theorem modClaim_skips (s : State) (c : Nat) (f : Claim → Claim) : (s.modClaim c f).skips = s.skips := rfl
@[simp] theorem modClaim_mem (s : State) (c : Nat) (f : Claim → Claim) : (s.modClaim c f).mem = s.mem := rfl
@[simp] theorem modClaim_unwritten (s : State) (c : Nat) (f : Claim → Claim) : (s.modClaim c f).unwritten = s.unwritten := rfl
@[simp] theorem modClaim_images (s : State) (c : Nat) (f : Claim → Claim) : (s.modClaim c f).images = s.images := rfl
@[simp] theorem modClaim_pipes (s : State) (c : Nat) (f : Claim → Claim) : (s.modClaim c f).pipes = s.pipes := rfl
@[simp] theorem modClaim_adit (s : State) (c : Nat) (f : Claim → Claim) : (s.modClaim c f).adit = s.adit := rfl
@[simp] theorem modClaim_riddle (s : State) (c : Nat) (f : Claim → Claim) : (s.modClaim c f).riddle = s.riddle := rfl
@[simp] theorem modClaim_sump (s : State) (c : Nat) (f : Claim → Claim) : (s.modClaim c f).sump = s.sump := rfl
@[simp] theorem modClaim_emeel (s : State) (c : Nat) (f : Claim → Claim) : (s.modClaim c f).emeel = s.emeel := rfl
@[simp] theorem modClaim_faults (s : State) (c : Nat) (f : Claim → Claim) : (s.modClaim c f).faults = s.faults := rfl
@[simp] theorem modClaim_power (s : State) (c : Nat) (f : Claim → Claim) : (s.modClaim c f).power = s.power := rfl
@[simp] theorem modClaim_dbg (s : State) (c : Nat) (f : Claim → Claim) : (s.modClaim c f).dbg = s.dbg := rfl
@[simp] theorem modClaim_out (s : State) (c : Nat) (f : Claim → Claim) : (s.modClaim c f).out = s.out := rfl

@[simp] theorem modRing_pending (s : State) (c k : Nat) (f : Ring → Ring) : (s.modRing c k f).pending = s.pending := rfl
@[simp] theorem modRing_hits (s : State) (c k : Nat) (f : Ring → Ring) : (s.modRing c k f).hits = s.hits := rfl
@[simp] theorem modRing_now (s : State) (c k : Nat) (f : Ring → Ring) : (s.modRing c k f).now = s.now := rfl
@[simp] theorem modRing_free (s : State) (c k : Nat) (f : Ring → Ring) : (s.modRing c k f).free = s.free := rfl
@[simp] theorem modRing_ticks (s : State) (c k : Nat) (f : Ring → Ring) : (s.modRing c k f).ticks = s.ticks := rfl
@[simp] theorem modRing_tiles (s : State) (c k : Nat) (f : Ring → Ring) : (s.modRing c k f).tiles = s.tiles := rfl
@[simp] theorem modRing_skips (s : State) (c k : Nat) (f : Ring → Ring) : (s.modRing c k f).skips = s.skips := rfl
@[simp] theorem modRing_mem (s : State) (c k : Nat) (f : Ring → Ring) : (s.modRing c k f).mem = s.mem := rfl
@[simp] theorem modRing_unwritten (s : State) (c k : Nat) (f : Ring → Ring) : (s.modRing c k f).unwritten = s.unwritten := rfl
@[simp] theorem modRing_images (s : State) (c k : Nat) (f : Ring → Ring) : (s.modRing c k f).images = s.images := rfl
@[simp] theorem modRing_pipes (s : State) (c k : Nat) (f : Ring → Ring) : (s.modRing c k f).pipes = s.pipes := rfl
@[simp] theorem modRing_adit (s : State) (c k : Nat) (f : Ring → Ring) : (s.modRing c k f).adit = s.adit := rfl
@[simp] theorem modRing_riddle (s : State) (c k : Nat) (f : Ring → Ring) : (s.modRing c k f).riddle = s.riddle := rfl
@[simp] theorem modRing_sump (s : State) (c k : Nat) (f : Ring → Ring) : (s.modRing c k f).sump = s.sump := rfl
@[simp] theorem modRing_emeel (s : State) (c k : Nat) (f : Ring → Ring) : (s.modRing c k f).emeel = s.emeel := rfl
@[simp] theorem modRing_faults (s : State) (c k : Nat) (f : Ring → Ring) : (s.modRing c k f).faults = s.faults := rfl
@[simp] theorem modRing_power (s : State) (c k : Nat) (f : Ring → Ring) : (s.modRing c k f).power = s.power := rfl
@[simp] theorem modRing_dbg (s : State) (c k : Nat) (f : Ring → Ring) : (s.modRing c k f).dbg = s.dbg := rfl
@[simp] theorem modRing_out (s : State) (c k : Nat) (f : Ring → Ring) : (s.modRing c k f).out = s.out := rfl

@[simp] theorem modCmd_pending (s : State) (q : Nat) (f : Cmd → Cmd) : (s.modCmd q f).pending = s.pending := rfl
@[simp] theorem modCmd_hits (s : State) (q : Nat) (f : Cmd → Cmd) : (s.modCmd q f).hits = s.hits := rfl
@[simp] theorem modCmd_now (s : State) (q : Nat) (f : Cmd → Cmd) : (s.modCmd q f).now = s.now := rfl
@[simp] theorem modCmd_free (s : State) (q : Nat) (f : Cmd → Cmd) : (s.modCmd q f).free = s.free := rfl
@[simp] theorem modCmd_ticks (s : State) (q : Nat) (f : Cmd → Cmd) : (s.modCmd q f).ticks = s.ticks := rfl
@[simp] theorem modCmd_tiles (s : State) (q : Nat) (f : Cmd → Cmd) : (s.modCmd q f).tiles = s.tiles := rfl
@[simp] theorem modCmd_skips (s : State) (q : Nat) (f : Cmd → Cmd) : (s.modCmd q f).skips = s.skips := rfl
@[simp] theorem modCmd_mem (s : State) (q : Nat) (f : Cmd → Cmd) : (s.modCmd q f).mem = s.mem := rfl
@[simp] theorem modCmd_unwritten (s : State) (q : Nat) (f : Cmd → Cmd) : (s.modCmd q f).unwritten = s.unwritten := rfl
@[simp] theorem modCmd_images (s : State) (q : Nat) (f : Cmd → Cmd) : (s.modCmd q f).images = s.images := rfl
@[simp] theorem modCmd_pipes (s : State) (q : Nat) (f : Cmd → Cmd) : (s.modCmd q f).pipes = s.pipes := rfl
@[simp] theorem modCmd_adit (s : State) (q : Nat) (f : Cmd → Cmd) : (s.modCmd q f).adit = s.adit := rfl
@[simp] theorem modCmd_riddle (s : State) (q : Nat) (f : Cmd → Cmd) : (s.modCmd q f).riddle = s.riddle := rfl
@[simp] theorem modCmd_sump (s : State) (q : Nat) (f : Cmd → Cmd) : (s.modCmd q f).sump = s.sump := rfl
@[simp] theorem modCmd_emeel (s : State) (q : Nat) (f : Cmd → Cmd) : (s.modCmd q f).emeel = s.emeel := rfl
@[simp] theorem modCmd_faults (s : State) (q : Nat) (f : Cmd → Cmd) : (s.modCmd q f).faults = s.faults := rfl
@[simp] theorem modCmd_power (s : State) (q : Nat) (f : Cmd → Cmd) : (s.modCmd q f).power = s.power := rfl
@[simp] theorem modCmd_dbg (s : State) (q : Nat) (f : Cmd → Cmd) : (s.modCmd q f).dbg = s.dbg := rfl
@[simp] theorem modCmd_out (s : State) (q : Nat) (f : Cmd → Cmd) : (s.modCmd q f).out = s.out := rfl

@[simp] theorem modImage_pending (s : State) (h : Nat) (f : Image → Image) : (s.modImage h f).pending = s.pending := rfl
@[simp] theorem modImage_hits (s : State) (h : Nat) (f : Image → Image) : (s.modImage h f).hits = s.hits := rfl
@[simp] theorem modImage_now (s : State) (h : Nat) (f : Image → Image) : (s.modImage h f).now = s.now := rfl
@[simp] theorem modImage_free (s : State) (h : Nat) (f : Image → Image) : (s.modImage h f).free = s.free := rfl
@[simp] theorem modImage_ticks (s : State) (h : Nat) (f : Image → Image) : (s.modImage h f).ticks = s.ticks := rfl
@[simp] theorem modImage_tiles (s : State) (h : Nat) (f : Image → Image) : (s.modImage h f).tiles = s.tiles := rfl
@[simp] theorem modImage_skips (s : State) (h : Nat) (f : Image → Image) : (s.modImage h f).skips = s.skips := rfl
@[simp] theorem modImage_mem (s : State) (h : Nat) (f : Image → Image) : (s.modImage h f).mem = s.mem := rfl
@[simp] theorem modImage_unwritten (s : State) (h : Nat) (f : Image → Image) : (s.modImage h f).unwritten = s.unwritten := rfl
@[simp] theorem modImage_pipes (s : State) (h : Nat) (f : Image → Image) : (s.modImage h f).pipes = s.pipes := rfl
@[simp] theorem modImage_adit (s : State) (h : Nat) (f : Image → Image) : (s.modImage h f).adit = s.adit := rfl
@[simp] theorem modImage_riddle (s : State) (h : Nat) (f : Image → Image) : (s.modImage h f).riddle = s.riddle := rfl
@[simp] theorem modImage_sump (s : State) (h : Nat) (f : Image → Image) : (s.modImage h f).sump = s.sump := rfl
@[simp] theorem modImage_host (s : State) (h : Nat) (f : Image → Image) : (s.modImage h f).host = s.host := rfl
@[simp] theorem modImage_emeel (s : State) (h : Nat) (f : Image → Image) : (s.modImage h f).emeel = s.emeel := rfl
@[simp] theorem modImage_faults (s : State) (h : Nat) (f : Image → Image) : (s.modImage h f).faults = s.faults := rfl
@[simp] theorem modImage_power (s : State) (h : Nat) (f : Image → Image) : (s.modImage h f).power = s.power := rfl
@[simp] theorem modImage_dbg (s : State) (h : Nat) (f : Image → Image) : (s.modImage h f).dbg = s.dbg := rfl
@[simp] theorem modImage_out (s : State) (h : Nat) (f : Image → Image) : (s.modImage h f).out = s.out := rfl

@[simp] theorem modPipe_pending (s : State) (p : Nat) (f : Pipe → Pipe) : (s.modPipe p f).pending = s.pending := by unfold State.modPipe; split <;> rfl
@[simp] theorem modPipe_hits (s : State) (p : Nat) (f : Pipe → Pipe) : (s.modPipe p f).hits = s.hits := by unfold State.modPipe; split <;> rfl
@[simp] theorem modPipe_now (s : State) (p : Nat) (f : Pipe → Pipe) : (s.modPipe p f).now = s.now := by unfold State.modPipe; split <;> rfl
@[simp] theorem modPipe_free (s : State) (p : Nat) (f : Pipe → Pipe) : (s.modPipe p f).free = s.free := by unfold State.modPipe; split <;> rfl
@[simp] theorem modPipe_ticks (s : State) (p : Nat) (f : Pipe → Pipe) : (s.modPipe p f).ticks = s.ticks := by unfold State.modPipe; split <;> rfl
@[simp] theorem modPipe_tiles (s : State) (p : Nat) (f : Pipe → Pipe) : (s.modPipe p f).tiles = s.tiles := by unfold State.modPipe; split <;> rfl
@[simp] theorem modPipe_skips (s : State) (p : Nat) (f : Pipe → Pipe) : (s.modPipe p f).skips = s.skips := by unfold State.modPipe; split <;> rfl
@[simp] theorem modPipe_mem (s : State) (p : Nat) (f : Pipe → Pipe) : (s.modPipe p f).mem = s.mem := by unfold State.modPipe; split <;> rfl
@[simp] theorem modPipe_unwritten (s : State) (p : Nat) (f : Pipe → Pipe) : (s.modPipe p f).unwritten = s.unwritten := by unfold State.modPipe; split <;> rfl
@[simp] theorem modPipe_images (s : State) (p : Nat) (f : Pipe → Pipe) : (s.modPipe p f).images = s.images := by unfold State.modPipe; split <;> rfl
@[simp] theorem modPipe_adit (s : State) (p : Nat) (f : Pipe → Pipe) : (s.modPipe p f).adit = s.adit := by unfold State.modPipe; split <;> rfl
@[simp] theorem modPipe_riddle (s : State) (p : Nat) (f : Pipe → Pipe) : (s.modPipe p f).riddle = s.riddle := by unfold State.modPipe; split <;> rfl
@[simp] theorem modPipe_sump (s : State) (p : Nat) (f : Pipe → Pipe) : (s.modPipe p f).sump = s.sump := by unfold State.modPipe; split <;> rfl
@[simp] theorem modPipe_host (s : State) (p : Nat) (f : Pipe → Pipe) : (s.modPipe p f).host = s.host := by unfold State.modPipe; split <;> rfl
@[simp] theorem modPipe_emeel (s : State) (p : Nat) (f : Pipe → Pipe) : (s.modPipe p f).emeel = s.emeel := by unfold State.modPipe; split <;> rfl
@[simp] theorem modPipe_faults (s : State) (p : Nat) (f : Pipe → Pipe) : (s.modPipe p f).faults = s.faults := by unfold State.modPipe; split <;> rfl
@[simp] theorem modPipe_power (s : State) (p : Nat) (f : Pipe → Pipe) : (s.modPipe p f).power = s.power := by unfold State.modPipe; split <;> rfl
@[simp] theorem modPipe_dbg (s : State) (p : Nat) (f : Pipe → Pipe) : (s.modPipe p f).dbg = s.dbg := by unfold State.modPipe; split <;> rfl
@[simp] theorem modPipe_out (s : State) (p : Nat) (f : Pipe → Pipe) : (s.modPipe p f).out = s.out := by unfold State.modPipe; split <;> rfl

@[simp] theorem modAdit_pending (s : State) (f : Adit → Adit) : (s.modAdit f).pending = s.pending := rfl
@[simp] theorem modAdit_hits (s : State) (f : Adit → Adit) : (s.modAdit f).hits = s.hits := rfl
@[simp] theorem modAdit_now (s : State) (f : Adit → Adit) : (s.modAdit f).now = s.now := rfl
@[simp] theorem modAdit_free (s : State) (f : Adit → Adit) : (s.modAdit f).free = s.free := rfl
@[simp] theorem modAdit_ticks (s : State) (f : Adit → Adit) : (s.modAdit f).ticks = s.ticks := rfl
@[simp] theorem modAdit_tiles (s : State) (f : Adit → Adit) : (s.modAdit f).tiles = s.tiles := rfl
@[simp] theorem modAdit_skips (s : State) (f : Adit → Adit) : (s.modAdit f).skips = s.skips := rfl
@[simp] theorem modAdit_mem (s : State) (f : Adit → Adit) : (s.modAdit f).mem = s.mem := rfl
@[simp] theorem modAdit_unwritten (s : State) (f : Adit → Adit) : (s.modAdit f).unwritten = s.unwritten := rfl
@[simp] theorem modAdit_images (s : State) (f : Adit → Adit) : (s.modAdit f).images = s.images := rfl
@[simp] theorem modAdit_pipes (s : State) (f : Adit → Adit) : (s.modAdit f).pipes = s.pipes := rfl
@[simp] theorem modAdit_riddle (s : State) (f : Adit → Adit) : (s.modAdit f).riddle = s.riddle := rfl
@[simp] theorem modAdit_sump (s : State) (f : Adit → Adit) : (s.modAdit f).sump = s.sump := rfl
@[simp] theorem modAdit_host (s : State) (f : Adit → Adit) : (s.modAdit f).host = s.host := rfl
@[simp] theorem modAdit_emeel (s : State) (f : Adit → Adit) : (s.modAdit f).emeel = s.emeel := rfl
@[simp] theorem modAdit_faults (s : State) (f : Adit → Adit) : (s.modAdit f).faults = s.faults := rfl
@[simp] theorem modAdit_power (s : State) (f : Adit → Adit) : (s.modAdit f).power = s.power := rfl
@[simp] theorem modAdit_dbg (s : State) (f : Adit → Adit) : (s.modAdit f).dbg = s.dbg := rfl
@[simp] theorem modAdit_out (s : State) (f : Adit → Adit) : (s.modAdit f).out = s.out := rfl

@[simp] theorem modLane_pending (s : State) (l : Nat) (f : Lane → Lane) : (s.modLane l f).pending = s.pending := rfl
@[simp] theorem modLane_hits (s : State) (l : Nat) (f : Lane → Lane) : (s.modLane l f).hits = s.hits := rfl
@[simp] theorem modLane_now (s : State) (l : Nat) (f : Lane → Lane) : (s.modLane l f).now = s.now := rfl
@[simp] theorem modLane_free (s : State) (l : Nat) (f : Lane → Lane) : (s.modLane l f).free = s.free := rfl
@[simp] theorem modLane_ticks (s : State) (l : Nat) (f : Lane → Lane) : (s.modLane l f).ticks = s.ticks := rfl
@[simp] theorem modLane_tiles (s : State) (l : Nat) (f : Lane → Lane) : (s.modLane l f).tiles = s.tiles := rfl
@[simp] theorem modLane_skips (s : State) (l : Nat) (f : Lane → Lane) : (s.modLane l f).skips = s.skips := rfl
@[simp] theorem modLane_mem (s : State) (l : Nat) (f : Lane → Lane) : (s.modLane l f).mem = s.mem := rfl
@[simp] theorem modLane_unwritten (s : State) (l : Nat) (f : Lane → Lane) : (s.modLane l f).unwritten = s.unwritten := rfl
@[simp] theorem modLane_images (s : State) (l : Nat) (f : Lane → Lane) : (s.modLane l f).images = s.images := rfl
@[simp] theorem modLane_pipes (s : State) (l : Nat) (f : Lane → Lane) : (s.modLane l f).pipes = s.pipes := rfl
@[simp] theorem modLane_riddle (s : State) (l : Nat) (f : Lane → Lane) : (s.modLane l f).riddle = s.riddle := rfl
@[simp] theorem modLane_sump (s : State) (l : Nat) (f : Lane → Lane) : (s.modLane l f).sump = s.sump := rfl
@[simp] theorem modLane_host (s : State) (l : Nat) (f : Lane → Lane) : (s.modLane l f).host = s.host := rfl
@[simp] theorem modLane_emeel (s : State) (l : Nat) (f : Lane → Lane) : (s.modLane l f).emeel = s.emeel := rfl
@[simp] theorem modLane_faults (s : State) (l : Nat) (f : Lane → Lane) : (s.modLane l f).faults = s.faults := rfl
@[simp] theorem modLane_power (s : State) (l : Nat) (f : Lane → Lane) : (s.modLane l f).power = s.power := rfl
@[simp] theorem modLane_dbg (s : State) (l : Nat) (f : Lane → Lane) : (s.modLane l f).dbg = s.dbg := rfl
@[simp] theorem modLane_out (s : State) (l : Nat) (f : Lane → Lane) : (s.modLane l f).out = s.out := rfl

@[simp] theorem modQuad_pending (s : State) (q : Nat) (f : Quad → Quad) : (s.modQuad q f).pending = s.pending := rfl
@[simp] theorem modQuad_hits (s : State) (q : Nat) (f : Quad → Quad) : (s.modQuad q f).hits = s.hits := rfl
@[simp] theorem modQuad_now (s : State) (q : Nat) (f : Quad → Quad) : (s.modQuad q f).now = s.now := rfl
@[simp] theorem modQuad_free (s : State) (q : Nat) (f : Quad → Quad) : (s.modQuad q f).free = s.free := rfl
@[simp] theorem modQuad_ticks (s : State) (q : Nat) (f : Quad → Quad) : (s.modQuad q f).ticks = s.ticks := rfl
@[simp] theorem modQuad_tiles (s : State) (q : Nat) (f : Quad → Quad) : (s.modQuad q f).tiles = s.tiles := rfl
@[simp] theorem modQuad_skips (s : State) (q : Nat) (f : Quad → Quad) : (s.modQuad q f).skips = s.skips := rfl
@[simp] theorem modQuad_mem (s : State) (q : Nat) (f : Quad → Quad) : (s.modQuad q f).mem = s.mem := rfl
@[simp] theorem modQuad_unwritten (s : State) (q : Nat) (f : Quad → Quad) : (s.modQuad q f).unwritten = s.unwritten := rfl
@[simp] theorem modQuad_images (s : State) (q : Nat) (f : Quad → Quad) : (s.modQuad q f).images = s.images := rfl
@[simp] theorem modQuad_pipes (s : State) (q : Nat) (f : Quad → Quad) : (s.modQuad q f).pipes = s.pipes := rfl
@[simp] theorem modQuad_riddle (s : State) (q : Nat) (f : Quad → Quad) : (s.modQuad q f).riddle = s.riddle := rfl
@[simp] theorem modQuad_sump (s : State) (q : Nat) (f : Quad → Quad) : (s.modQuad q f).sump = s.sump := rfl
@[simp] theorem modQuad_host (s : State) (q : Nat) (f : Quad → Quad) : (s.modQuad q f).host = s.host := rfl
@[simp] theorem modQuad_emeel (s : State) (q : Nat) (f : Quad → Quad) : (s.modQuad q f).emeel = s.emeel := rfl
@[simp] theorem modQuad_faults (s : State) (q : Nat) (f : Quad → Quad) : (s.modQuad q f).faults = s.faults := rfl
@[simp] theorem modQuad_power (s : State) (q : Nat) (f : Quad → Quad) : (s.modQuad q f).power = s.power := rfl
@[simp] theorem modQuad_dbg (s : State) (q : Nat) (f : Quad → Quad) : (s.modQuad q f).dbg = s.dbg := rfl
@[simp] theorem modQuad_out (s : State) (q : Nat) (f : Quad → Quad) : (s.modQuad q f).out = s.out := rfl

@[simp] theorem modLine_pending (s : State) (l : Nat) (f : DecLine → DecLine) : (s.modLine l f).pending = s.pending := rfl
@[simp] theorem modLine_hits (s : State) (l : Nat) (f : DecLine → DecLine) : (s.modLine l f).hits = s.hits := rfl
@[simp] theorem modLine_now (s : State) (l : Nat) (f : DecLine → DecLine) : (s.modLine l f).now = s.now := rfl
@[simp] theorem modLine_free (s : State) (l : Nat) (f : DecLine → DecLine) : (s.modLine l f).free = s.free := rfl
@[simp] theorem modLine_ticks (s : State) (l : Nat) (f : DecLine → DecLine) : (s.modLine l f).ticks = s.ticks := rfl
@[simp] theorem modLine_tiles (s : State) (l : Nat) (f : DecLine → DecLine) : (s.modLine l f).tiles = s.tiles := rfl
@[simp] theorem modLine_skips (s : State) (l : Nat) (f : DecLine → DecLine) : (s.modLine l f).skips = s.skips := rfl
@[simp] theorem modLine_mem (s : State) (l : Nat) (f : DecLine → DecLine) : (s.modLine l f).mem = s.mem := rfl
@[simp] theorem modLine_unwritten (s : State) (l : Nat) (f : DecLine → DecLine) : (s.modLine l f).unwritten = s.unwritten := rfl
@[simp] theorem modLine_images (s : State) (l : Nat) (f : DecLine → DecLine) : (s.modLine l f).images = s.images := rfl
@[simp] theorem modLine_pipes (s : State) (l : Nat) (f : DecLine → DecLine) : (s.modLine l f).pipes = s.pipes := rfl
@[simp] theorem modLine_riddle (s : State) (l : Nat) (f : DecLine → DecLine) : (s.modLine l f).riddle = s.riddle := rfl
@[simp] theorem modLine_sump (s : State) (l : Nat) (f : DecLine → DecLine) : (s.modLine l f).sump = s.sump := rfl
@[simp] theorem modLine_host (s : State) (l : Nat) (f : DecLine → DecLine) : (s.modLine l f).host = s.host := rfl
@[simp] theorem modLine_emeel (s : State) (l : Nat) (f : DecLine → DecLine) : (s.modLine l f).emeel = s.emeel := rfl
@[simp] theorem modLine_faults (s : State) (l : Nat) (f : DecLine → DecLine) : (s.modLine l f).faults = s.faults := rfl
@[simp] theorem modLine_power (s : State) (l : Nat) (f : DecLine → DecLine) : (s.modLine l f).power = s.power := rfl
@[simp] theorem modLine_dbg (s : State) (l : Nat) (f : DecLine → DecLine) : (s.modLine l f).dbg = s.dbg := rfl
@[simp] theorem modLine_out (s : State) (l : Nat) (f : DecLine → DecLine) : (s.modLine l f).out = s.out := rfl

@[simp] theorem modAtile_pending (s : State) (a : Nat) (f : ATile → ATile) : (s.modAtile a f).pending = s.pending := rfl
@[simp] theorem modAtile_hits (s : State) (a : Nat) (f : ATile → ATile) : (s.modAtile a f).hits = s.hits := rfl
@[simp] theorem modAtile_now (s : State) (a : Nat) (f : ATile → ATile) : (s.modAtile a f).now = s.now := rfl
@[simp] theorem modAtile_free (s : State) (a : Nat) (f : ATile → ATile) : (s.modAtile a f).free = s.free := rfl
@[simp] theorem modAtile_ticks (s : State) (a : Nat) (f : ATile → ATile) : (s.modAtile a f).ticks = s.ticks := rfl
@[simp] theorem modAtile_tiles (s : State) (a : Nat) (f : ATile → ATile) : (s.modAtile a f).tiles = s.tiles := rfl
@[simp] theorem modAtile_skips (s : State) (a : Nat) (f : ATile → ATile) : (s.modAtile a f).skips = s.skips := rfl
@[simp] theorem modAtile_mem (s : State) (a : Nat) (f : ATile → ATile) : (s.modAtile a f).mem = s.mem := rfl
@[simp] theorem modAtile_unwritten (s : State) (a : Nat) (f : ATile → ATile) : (s.modAtile a f).unwritten = s.unwritten := rfl
@[simp] theorem modAtile_images (s : State) (a : Nat) (f : ATile → ATile) : (s.modAtile a f).images = s.images := rfl
@[simp] theorem modAtile_pipes (s : State) (a : Nat) (f : ATile → ATile) : (s.modAtile a f).pipes = s.pipes := rfl
@[simp] theorem modAtile_riddle (s : State) (a : Nat) (f : ATile → ATile) : (s.modAtile a f).riddle = s.riddle := rfl
@[simp] theorem modAtile_sump (s : State) (a : Nat) (f : ATile → ATile) : (s.modAtile a f).sump = s.sump := rfl
@[simp] theorem modAtile_host (s : State) (a : Nat) (f : ATile → ATile) : (s.modAtile a f).host = s.host := rfl
@[simp] theorem modAtile_emeel (s : State) (a : Nat) (f : ATile → ATile) : (s.modAtile a f).emeel = s.emeel := rfl
@[simp] theorem modAtile_faults (s : State) (a : Nat) (f : ATile → ATile) : (s.modAtile a f).faults = s.faults := rfl
@[simp] theorem modAtile_power (s : State) (a : Nat) (f : ATile → ATile) : (s.modAtile a f).power = s.power := rfl
@[simp] theorem modAtile_dbg (s : State) (a : Nat) (f : ATile → ATile) : (s.modAtile a f).dbg = s.dbg := rfl
@[simp] theorem modAtile_out (s : State) (a : Nat) (f : ATile → ATile) : (s.modAtile a f).out = s.out := rfl

@[simp] theorem modRiddle_pending (s : State) (f : Riddle → Riddle) : (s.modRiddle f).pending = s.pending := rfl
@[simp] theorem modRiddle_hits (s : State) (f : Riddle → Riddle) : (s.modRiddle f).hits = s.hits := rfl
@[simp] theorem modRiddle_now (s : State) (f : Riddle → Riddle) : (s.modRiddle f).now = s.now := rfl
@[simp] theorem modRiddle_free (s : State) (f : Riddle → Riddle) : (s.modRiddle f).free = s.free := rfl
@[simp] theorem modRiddle_ticks (s : State) (f : Riddle → Riddle) : (s.modRiddle f).ticks = s.ticks := rfl
@[simp] theorem modRiddle_tiles (s : State) (f : Riddle → Riddle) : (s.modRiddle f).tiles = s.tiles := rfl
@[simp] theorem modRiddle_skips (s : State) (f : Riddle → Riddle) : (s.modRiddle f).skips = s.skips := rfl
@[simp] theorem modRiddle_mem (s : State) (f : Riddle → Riddle) : (s.modRiddle f).mem = s.mem := rfl
@[simp] theorem modRiddle_unwritten (s : State) (f : Riddle → Riddle) : (s.modRiddle f).unwritten = s.unwritten := rfl
@[simp] theorem modRiddle_images (s : State) (f : Riddle → Riddle) : (s.modRiddle f).images = s.images := rfl
@[simp] theorem modRiddle_pipes (s : State) (f : Riddle → Riddle) : (s.modRiddle f).pipes = s.pipes := rfl
@[simp] theorem modRiddle_adit (s : State) (f : Riddle → Riddle) : (s.modRiddle f).adit = s.adit := rfl
@[simp] theorem modRiddle_sump (s : State) (f : Riddle → Riddle) : (s.modRiddle f).sump = s.sump := rfl
@[simp] theorem modRiddle_host (s : State) (f : Riddle → Riddle) : (s.modRiddle f).host = s.host := rfl
@[simp] theorem modRiddle_emeel (s : State) (f : Riddle → Riddle) : (s.modRiddle f).emeel = s.emeel := rfl
@[simp] theorem modRiddle_faults (s : State) (f : Riddle → Riddle) : (s.modRiddle f).faults = s.faults := rfl
@[simp] theorem modRiddle_power (s : State) (f : Riddle → Riddle) : (s.modRiddle f).power = s.power := rfl
@[simp] theorem modRiddle_dbg (s : State) (f : Riddle → Riddle) : (s.modRiddle f).dbg = s.dbg := rfl
@[simp] theorem modRiddle_out (s : State) (f : Riddle → Riddle) : (s.modRiddle f).out = s.out := rfl

@[simp] theorem modBlock_pending (s : State) (q : Nat) (f : RBlock → RBlock) : (s.modBlock q f).pending = s.pending := rfl
@[simp] theorem modBlock_hits (s : State) (q : Nat) (f : RBlock → RBlock) : (s.modBlock q f).hits = s.hits := rfl
@[simp] theorem modBlock_now (s : State) (q : Nat) (f : RBlock → RBlock) : (s.modBlock q f).now = s.now := rfl
@[simp] theorem modBlock_free (s : State) (q : Nat) (f : RBlock → RBlock) : (s.modBlock q f).free = s.free := rfl
@[simp] theorem modBlock_ticks (s : State) (q : Nat) (f : RBlock → RBlock) : (s.modBlock q f).ticks = s.ticks := rfl
@[simp] theorem modBlock_tiles (s : State) (q : Nat) (f : RBlock → RBlock) : (s.modBlock q f).tiles = s.tiles := rfl
@[simp] theorem modBlock_skips (s : State) (q : Nat) (f : RBlock → RBlock) : (s.modBlock q f).skips = s.skips := rfl
@[simp] theorem modBlock_mem (s : State) (q : Nat) (f : RBlock → RBlock) : (s.modBlock q f).mem = s.mem := rfl
@[simp] theorem modBlock_unwritten (s : State) (q : Nat) (f : RBlock → RBlock) : (s.modBlock q f).unwritten = s.unwritten := rfl
@[simp] theorem modBlock_images (s : State) (q : Nat) (f : RBlock → RBlock) : (s.modBlock q f).images = s.images := rfl
@[simp] theorem modBlock_pipes (s : State) (q : Nat) (f : RBlock → RBlock) : (s.modBlock q f).pipes = s.pipes := rfl
@[simp] theorem modBlock_adit (s : State) (q : Nat) (f : RBlock → RBlock) : (s.modBlock q f).adit = s.adit := rfl
@[simp] theorem modBlock_sump (s : State) (q : Nat) (f : RBlock → RBlock) : (s.modBlock q f).sump = s.sump := rfl
@[simp] theorem modBlock_host (s : State) (q : Nat) (f : RBlock → RBlock) : (s.modBlock q f).host = s.host := rfl
@[simp] theorem modBlock_emeel (s : State) (q : Nat) (f : RBlock → RBlock) : (s.modBlock q f).emeel = s.emeel := rfl
@[simp] theorem modBlock_faults (s : State) (q : Nat) (f : RBlock → RBlock) : (s.modBlock q f).faults = s.faults := rfl
@[simp] theorem modBlock_power (s : State) (q : Nat) (f : RBlock → RBlock) : (s.modBlock q f).power = s.power := rfl
@[simp] theorem modBlock_dbg (s : State) (q : Nat) (f : RBlock → RBlock) : (s.modBlock q f).dbg = s.dbg := rfl
@[simp] theorem modBlock_out (s : State) (q : Nat) (f : RBlock → RBlock) : (s.modBlock q f).out = s.out := rfl

@[simp] theorem modSump_pending (s : State) (f : Sump → Sump) : (s.modSump f).pending = s.pending := rfl
@[simp] theorem modSump_hits (s : State) (f : Sump → Sump) : (s.modSump f).hits = s.hits := rfl
@[simp] theorem modSump_now (s : State) (f : Sump → Sump) : (s.modSump f).now = s.now := rfl
@[simp] theorem modSump_free (s : State) (f : Sump → Sump) : (s.modSump f).free = s.free := rfl
@[simp] theorem modSump_ticks (s : State) (f : Sump → Sump) : (s.modSump f).ticks = s.ticks := rfl
@[simp] theorem modSump_tiles (s : State) (f : Sump → Sump) : (s.modSump f).tiles = s.tiles := rfl
@[simp] theorem modSump_skips (s : State) (f : Sump → Sump) : (s.modSump f).skips = s.skips := rfl
@[simp] theorem modSump_mem (s : State) (f : Sump → Sump) : (s.modSump f).mem = s.mem := rfl
@[simp] theorem modSump_unwritten (s : State) (f : Sump → Sump) : (s.modSump f).unwritten = s.unwritten := rfl
@[simp] theorem modSump_images (s : State) (f : Sump → Sump) : (s.modSump f).images = s.images := rfl
@[simp] theorem modSump_pipes (s : State) (f : Sump → Sump) : (s.modSump f).pipes = s.pipes := rfl
@[simp] theorem modSump_adit (s : State) (f : Sump → Sump) : (s.modSump f).adit = s.adit := rfl
@[simp] theorem modSump_riddle (s : State) (f : Sump → Sump) : (s.modSump f).riddle = s.riddle := rfl
@[simp] theorem modSump_host (s : State) (f : Sump → Sump) : (s.modSump f).host = s.host := rfl
@[simp] theorem modSump_emeel (s : State) (f : Sump → Sump) : (s.modSump f).emeel = s.emeel := rfl
@[simp] theorem modSump_faults (s : State) (f : Sump → Sump) : (s.modSump f).faults = s.faults := rfl
@[simp] theorem modSump_power (s : State) (f : Sump → Sump) : (s.modSump f).power = s.power := rfl
@[simp] theorem modSump_dbg (s : State) (f : Sump → Sump) : (s.modSump f).dbg = s.dbg := rfl
@[simp] theorem modSump_out (s : State) (f : Sump → Sump) : (s.modSump f).out = s.out := rfl

@[simp] theorem modHoist_pending (s : State) (h : Nat) (f : Hoist → Hoist) : (s.modHoist h f).pending = s.pending := rfl
@[simp] theorem modHoist_hits (s : State) (h : Nat) (f : Hoist → Hoist) : (s.modHoist h f).hits = s.hits := rfl
@[simp] theorem modHoist_now (s : State) (h : Nat) (f : Hoist → Hoist) : (s.modHoist h f).now = s.now := rfl
@[simp] theorem modHoist_free (s : State) (h : Nat) (f : Hoist → Hoist) : (s.modHoist h f).free = s.free := rfl
@[simp] theorem modHoist_ticks (s : State) (h : Nat) (f : Hoist → Hoist) : (s.modHoist h f).ticks = s.ticks := rfl
@[simp] theorem modHoist_tiles (s : State) (h : Nat) (f : Hoist → Hoist) : (s.modHoist h f).tiles = s.tiles := rfl
@[simp] theorem modHoist_skips (s : State) (h : Nat) (f : Hoist → Hoist) : (s.modHoist h f).skips = s.skips := rfl
@[simp] theorem modHoist_mem (s : State) (h : Nat) (f : Hoist → Hoist) : (s.modHoist h f).mem = s.mem := rfl
@[simp] theorem modHoist_unwritten (s : State) (h : Nat) (f : Hoist → Hoist) : (s.modHoist h f).unwritten = s.unwritten := rfl
@[simp] theorem modHoist_images (s : State) (h : Nat) (f : Hoist → Hoist) : (s.modHoist h f).images = s.images := rfl
@[simp] theorem modHoist_pipes (s : State) (h : Nat) (f : Hoist → Hoist) : (s.modHoist h f).pipes = s.pipes := rfl
@[simp] theorem modHoist_adit (s : State) (h : Nat) (f : Hoist → Hoist) : (s.modHoist h f).adit = s.adit := rfl
@[simp] theorem modHoist_riddle (s : State) (h : Nat) (f : Hoist → Hoist) : (s.modHoist h f).riddle = s.riddle := rfl
@[simp] theorem modHoist_host (s : State) (h : Nat) (f : Hoist → Hoist) : (s.modHoist h f).host = s.host := rfl
@[simp] theorem modHoist_emeel (s : State) (h : Nat) (f : Hoist → Hoist) : (s.modHoist h f).emeel = s.emeel := rfl
@[simp] theorem modHoist_faults (s : State) (h : Nat) (f : Hoist → Hoist) : (s.modHoist h f).faults = s.faults := rfl
@[simp] theorem modHoist_power (s : State) (h : Nat) (f : Hoist → Hoist) : (s.modHoist h f).power = s.power := rfl
@[simp] theorem modHoist_dbg (s : State) (h : Nat) (f : Hoist → Hoist) : (s.modHoist h f).dbg = s.dbg := rfl
@[simp] theorem modHoist_out (s : State) (h : Nat) (f : Hoist → Hoist) : (s.modHoist h f).out = s.out := rfl

@[simp] theorem modSumpPort_pending (s : State) (p : Nat) (f : SumpPort → SumpPort) : (s.modSumpPort p f).pending = s.pending := rfl
@[simp] theorem modSumpPort_hits (s : State) (p : Nat) (f : SumpPort → SumpPort) : (s.modSumpPort p f).hits = s.hits := rfl
@[simp] theorem modSumpPort_now (s : State) (p : Nat) (f : SumpPort → SumpPort) : (s.modSumpPort p f).now = s.now := rfl
@[simp] theorem modSumpPort_free (s : State) (p : Nat) (f : SumpPort → SumpPort) : (s.modSumpPort p f).free = s.free := rfl
@[simp] theorem modSumpPort_ticks (s : State) (p : Nat) (f : SumpPort → SumpPort) : (s.modSumpPort p f).ticks = s.ticks := rfl
@[simp] theorem modSumpPort_tiles (s : State) (p : Nat) (f : SumpPort → SumpPort) : (s.modSumpPort p f).tiles = s.tiles := rfl
@[simp] theorem modSumpPort_skips (s : State) (p : Nat) (f : SumpPort → SumpPort) : (s.modSumpPort p f).skips = s.skips := rfl
@[simp] theorem modSumpPort_mem (s : State) (p : Nat) (f : SumpPort → SumpPort) : (s.modSumpPort p f).mem = s.mem := rfl
@[simp] theorem modSumpPort_unwritten (s : State) (p : Nat) (f : SumpPort → SumpPort) : (s.modSumpPort p f).unwritten = s.unwritten := rfl
@[simp] theorem modSumpPort_images (s : State) (p : Nat) (f : SumpPort → SumpPort) : (s.modSumpPort p f).images = s.images := rfl
@[simp] theorem modSumpPort_pipes (s : State) (p : Nat) (f : SumpPort → SumpPort) : (s.modSumpPort p f).pipes = s.pipes := rfl
@[simp] theorem modSumpPort_adit (s : State) (p : Nat) (f : SumpPort → SumpPort) : (s.modSumpPort p f).adit = s.adit := rfl
@[simp] theorem modSumpPort_riddle (s : State) (p : Nat) (f : SumpPort → SumpPort) : (s.modSumpPort p f).riddle = s.riddle := rfl
@[simp] theorem modSumpPort_host (s : State) (p : Nat) (f : SumpPort → SumpPort) : (s.modSumpPort p f).host = s.host := rfl
@[simp] theorem modSumpPort_emeel (s : State) (p : Nat) (f : SumpPort → SumpPort) : (s.modSumpPort p f).emeel = s.emeel := rfl
@[simp] theorem modSumpPort_faults (s : State) (p : Nat) (f : SumpPort → SumpPort) : (s.modSumpPort p f).faults = s.faults := rfl
@[simp] theorem modSumpPort_power (s : State) (p : Nat) (f : SumpPort → SumpPort) : (s.modSumpPort p f).power = s.power := rfl
@[simp] theorem modSumpPort_dbg (s : State) (p : Nat) (f : SumpPort → SumpPort) : (s.modSumpPort p f).dbg = s.dbg := rfl
@[simp] theorem modSumpPort_out (s : State) (p : Nat) (f : SumpPort → SumpPort) : (s.modSumpPort p f).out = s.out := rfl

@[simp] theorem modEmeel_pending (s : State) (f : Emeel → Emeel) : (s.modEmeel f).pending = s.pending := rfl
@[simp] theorem modEmeel_hits (s : State) (f : Emeel → Emeel) : (s.modEmeel f).hits = s.hits := rfl
@[simp] theorem modEmeel_now (s : State) (f : Emeel → Emeel) : (s.modEmeel f).now = s.now := rfl
@[simp] theorem modEmeel_free (s : State) (f : Emeel → Emeel) : (s.modEmeel f).free = s.free := rfl
@[simp] theorem modEmeel_ticks (s : State) (f : Emeel → Emeel) : (s.modEmeel f).ticks = s.ticks := rfl
@[simp] theorem modEmeel_tiles (s : State) (f : Emeel → Emeel) : (s.modEmeel f).tiles = s.tiles := rfl
@[simp] theorem modEmeel_skips (s : State) (f : Emeel → Emeel) : (s.modEmeel f).skips = s.skips := rfl
@[simp] theorem modEmeel_mem (s : State) (f : Emeel → Emeel) : (s.modEmeel f).mem = s.mem := rfl
@[simp] theorem modEmeel_unwritten (s : State) (f : Emeel → Emeel) : (s.modEmeel f).unwritten = s.unwritten := rfl
@[simp] theorem modEmeel_images (s : State) (f : Emeel → Emeel) : (s.modEmeel f).images = s.images := rfl
@[simp] theorem modEmeel_pipes (s : State) (f : Emeel → Emeel) : (s.modEmeel f).pipes = s.pipes := rfl
@[simp] theorem modEmeel_adit (s : State) (f : Emeel → Emeel) : (s.modEmeel f).adit = s.adit := rfl
@[simp] theorem modEmeel_riddle (s : State) (f : Emeel → Emeel) : (s.modEmeel f).riddle = s.riddle := rfl
@[simp] theorem modEmeel_sump (s : State) (f : Emeel → Emeel) : (s.modEmeel f).sump = s.sump := rfl
@[simp] theorem modEmeel_host (s : State) (f : Emeel → Emeel) : (s.modEmeel f).host = s.host := rfl
@[simp] theorem modEmeel_faults (s : State) (f : Emeel → Emeel) : (s.modEmeel f).faults = s.faults := rfl
@[simp] theorem modEmeel_power (s : State) (f : Emeel → Emeel) : (s.modEmeel f).power = s.power := rfl
@[simp] theorem modEmeel_dbg (s : State) (f : Emeel → Emeel) : (s.modEmeel f).dbg = s.dbg := rfl
@[simp] theorem modEmeel_out (s : State) (f : Emeel → Emeel) : (s.modEmeel f).out = s.out := rfl

@[simp] theorem modEmPort_pending (s : State) (p : Nat) (f : EmPort → EmPort) : (s.modEmPort p f).pending = s.pending := rfl
@[simp] theorem modEmPort_hits (s : State) (p : Nat) (f : EmPort → EmPort) : (s.modEmPort p f).hits = s.hits := rfl
@[simp] theorem modEmPort_now (s : State) (p : Nat) (f : EmPort → EmPort) : (s.modEmPort p f).now = s.now := rfl
@[simp] theorem modEmPort_free (s : State) (p : Nat) (f : EmPort → EmPort) : (s.modEmPort p f).free = s.free := rfl
@[simp] theorem modEmPort_ticks (s : State) (p : Nat) (f : EmPort → EmPort) : (s.modEmPort p f).ticks = s.ticks := rfl
@[simp] theorem modEmPort_tiles (s : State) (p : Nat) (f : EmPort → EmPort) : (s.modEmPort p f).tiles = s.tiles := rfl
@[simp] theorem modEmPort_skips (s : State) (p : Nat) (f : EmPort → EmPort) : (s.modEmPort p f).skips = s.skips := rfl
@[simp] theorem modEmPort_mem (s : State) (p : Nat) (f : EmPort → EmPort) : (s.modEmPort p f).mem = s.mem := rfl
@[simp] theorem modEmPort_unwritten (s : State) (p : Nat) (f : EmPort → EmPort) : (s.modEmPort p f).unwritten = s.unwritten := rfl
@[simp] theorem modEmPort_images (s : State) (p : Nat) (f : EmPort → EmPort) : (s.modEmPort p f).images = s.images := rfl
@[simp] theorem modEmPort_pipes (s : State) (p : Nat) (f : EmPort → EmPort) : (s.modEmPort p f).pipes = s.pipes := rfl
@[simp] theorem modEmPort_adit (s : State) (p : Nat) (f : EmPort → EmPort) : (s.modEmPort p f).adit = s.adit := rfl
@[simp] theorem modEmPort_riddle (s : State) (p : Nat) (f : EmPort → EmPort) : (s.modEmPort p f).riddle = s.riddle := rfl
@[simp] theorem modEmPort_sump (s : State) (p : Nat) (f : EmPort → EmPort) : (s.modEmPort p f).sump = s.sump := rfl
@[simp] theorem modEmPort_host (s : State) (p : Nat) (f : EmPort → EmPort) : (s.modEmPort p f).host = s.host := rfl
@[simp] theorem modEmPort_faults (s : State) (p : Nat) (f : EmPort → EmPort) : (s.modEmPort p f).faults = s.faults := rfl
@[simp] theorem modEmPort_power (s : State) (p : Nat) (f : EmPort → EmPort) : (s.modEmPort p f).power = s.power := rfl
@[simp] theorem modEmPort_dbg (s : State) (p : Nat) (f : EmPort → EmPort) : (s.modEmPort p f).dbg = s.dbg := rfl
@[simp] theorem modEmPort_out (s : State) (p : Nat) (f : EmPort → EmPort) : (s.modEmPort p f).out = s.out := rfl

@[simp] theorem modFaults_pending (s : State) (f : Faults → Faults) : (s.modFaults f).pending = s.pending := rfl
@[simp] theorem modFaults_hits (s : State) (f : Faults → Faults) : (s.modFaults f).hits = s.hits := rfl
@[simp] theorem modFaults_now (s : State) (f : Faults → Faults) : (s.modFaults f).now = s.now := rfl
@[simp] theorem modFaults_free (s : State) (f : Faults → Faults) : (s.modFaults f).free = s.free := rfl
@[simp] theorem modFaults_ticks (s : State) (f : Faults → Faults) : (s.modFaults f).ticks = s.ticks := rfl
@[simp] theorem modFaults_tiles (s : State) (f : Faults → Faults) : (s.modFaults f).tiles = s.tiles := rfl
@[simp] theorem modFaults_skips (s : State) (f : Faults → Faults) : (s.modFaults f).skips = s.skips := rfl
@[simp] theorem modFaults_mem (s : State) (f : Faults → Faults) : (s.modFaults f).mem = s.mem := rfl
@[simp] theorem modFaults_unwritten (s : State) (f : Faults → Faults) : (s.modFaults f).unwritten = s.unwritten := rfl
@[simp] theorem modFaults_images (s : State) (f : Faults → Faults) : (s.modFaults f).images = s.images := rfl
@[simp] theorem modFaults_pipes (s : State) (f : Faults → Faults) : (s.modFaults f).pipes = s.pipes := rfl
@[simp] theorem modFaults_adit (s : State) (f : Faults → Faults) : (s.modFaults f).adit = s.adit := rfl
@[simp] theorem modFaults_riddle (s : State) (f : Faults → Faults) : (s.modFaults f).riddle = s.riddle := rfl
@[simp] theorem modFaults_sump (s : State) (f : Faults → Faults) : (s.modFaults f).sump = s.sump := rfl
@[simp] theorem modFaults_host (s : State) (f : Faults → Faults) : (s.modFaults f).host = s.host := rfl
@[simp] theorem modFaults_emeel (s : State) (f : Faults → Faults) : (s.modFaults f).emeel = s.emeel := rfl
@[simp] theorem modFaults_power (s : State) (f : Faults → Faults) : (s.modFaults f).power = s.power := rfl
@[simp] theorem modFaults_dbg (s : State) (f : Faults → Faults) : (s.modFaults f).dbg = s.dbg := rfl
@[simp] theorem modFaults_out (s : State) (f : Faults → Faults) : (s.modFaults f).out = s.out := rfl

@[simp] theorem modPower_pending (s : State) (f : Power → Power) : (s.modPower f).pending = s.pending := rfl
@[simp] theorem modPower_hits (s : State) (f : Power → Power) : (s.modPower f).hits = s.hits := rfl
@[simp] theorem modPower_now (s : State) (f : Power → Power) : (s.modPower f).now = s.now := rfl
@[simp] theorem modPower_free (s : State) (f : Power → Power) : (s.modPower f).free = s.free := rfl
@[simp] theorem modPower_ticks (s : State) (f : Power → Power) : (s.modPower f).ticks = s.ticks := rfl
@[simp] theorem modPower_tiles (s : State) (f : Power → Power) : (s.modPower f).tiles = s.tiles := rfl
@[simp] theorem modPower_skips (s : State) (f : Power → Power) : (s.modPower f).skips = s.skips := rfl
@[simp] theorem modPower_mem (s : State) (f : Power → Power) : (s.modPower f).mem = s.mem := rfl
@[simp] theorem modPower_unwritten (s : State) (f : Power → Power) : (s.modPower f).unwritten = s.unwritten := rfl
@[simp] theorem modPower_images (s : State) (f : Power → Power) : (s.modPower f).images = s.images := rfl
@[simp] theorem modPower_pipes (s : State) (f : Power → Power) : (s.modPower f).pipes = s.pipes := rfl
@[simp] theorem modPower_adit (s : State) (f : Power → Power) : (s.modPower f).adit = s.adit := rfl
@[simp] theorem modPower_riddle (s : State) (f : Power → Power) : (s.modPower f).riddle = s.riddle := rfl
@[simp] theorem modPower_sump (s : State) (f : Power → Power) : (s.modPower f).sump = s.sump := rfl
@[simp] theorem modPower_host (s : State) (f : Power → Power) : (s.modPower f).host = s.host := rfl
@[simp] theorem modPower_emeel (s : State) (f : Power → Power) : (s.modPower f).emeel = s.emeel := rfl
@[simp] theorem modPower_faults (s : State) (f : Power → Power) : (s.modPower f).faults = s.faults := rfl
@[simp] theorem modPower_dbg (s : State) (f : Power → Power) : (s.modPower f).dbg = s.dbg := rfl
@[simp] theorem modPower_out (s : State) (f : Power → Power) : (s.modPower f).out = s.out := rfl

@[simp] theorem modRow_pending (s : State) (r : Nat) (f : Row → Row) : (s.modRow r f).pending = s.pending := rfl
@[simp] theorem modRow_hits (s : State) (r : Nat) (f : Row → Row) : (s.modRow r f).hits = s.hits := rfl
@[simp] theorem modRow_now (s : State) (r : Nat) (f : Row → Row) : (s.modRow r f).now = s.now := rfl
@[simp] theorem modRow_free (s : State) (r : Nat) (f : Row → Row) : (s.modRow r f).free = s.free := rfl
@[simp] theorem modRow_ticks (s : State) (r : Nat) (f : Row → Row) : (s.modRow r f).ticks = s.ticks := rfl
@[simp] theorem modRow_tiles (s : State) (r : Nat) (f : Row → Row) : (s.modRow r f).tiles = s.tiles := rfl
@[simp] theorem modRow_skips (s : State) (r : Nat) (f : Row → Row) : (s.modRow r f).skips = s.skips := rfl
@[simp] theorem modRow_mem (s : State) (r : Nat) (f : Row → Row) : (s.modRow r f).mem = s.mem := rfl
@[simp] theorem modRow_unwritten (s : State) (r : Nat) (f : Row → Row) : (s.modRow r f).unwritten = s.unwritten := rfl
@[simp] theorem modRow_images (s : State) (r : Nat) (f : Row → Row) : (s.modRow r f).images = s.images := rfl
@[simp] theorem modRow_pipes (s : State) (r : Nat) (f : Row → Row) : (s.modRow r f).pipes = s.pipes := rfl
@[simp] theorem modRow_adit (s : State) (r : Nat) (f : Row → Row) : (s.modRow r f).adit = s.adit := rfl
@[simp] theorem modRow_riddle (s : State) (r : Nat) (f : Row → Row) : (s.modRow r f).riddle = s.riddle := rfl
@[simp] theorem modRow_sump (s : State) (r : Nat) (f : Row → Row) : (s.modRow r f).sump = s.sump := rfl
@[simp] theorem modRow_host (s : State) (r : Nat) (f : Row → Row) : (s.modRow r f).host = s.host := rfl
@[simp] theorem modRow_emeel (s : State) (r : Nat) (f : Row → Row) : (s.modRow r f).emeel = s.emeel := rfl
@[simp] theorem modRow_faults (s : State) (r : Nat) (f : Row → Row) : (s.modRow r f).faults = s.faults := rfl
@[simp] theorem modRow_dbg (s : State) (r : Nat) (f : Row → Row) : (s.modRow r f).dbg = s.dbg := rfl
@[simp] theorem modRow_out (s : State) (r : Nat) (f : Row → Row) : (s.modRow r f).out = s.out := rfl

@[simp] theorem modDebug_pending (s : State) (f : Debug → Debug) : (s.modDebug f).pending = s.pending := rfl
@[simp] theorem modDebug_hits (s : State) (f : Debug → Debug) : (s.modDebug f).hits = s.hits := rfl
@[simp] theorem modDebug_now (s : State) (f : Debug → Debug) : (s.modDebug f).now = s.now := rfl
@[simp] theorem modDebug_free (s : State) (f : Debug → Debug) : (s.modDebug f).free = s.free := rfl
@[simp] theorem modDebug_ticks (s : State) (f : Debug → Debug) : (s.modDebug f).ticks = s.ticks := rfl
@[simp] theorem modDebug_tiles (s : State) (f : Debug → Debug) : (s.modDebug f).tiles = s.tiles := rfl
@[simp] theorem modDebug_skips (s : State) (f : Debug → Debug) : (s.modDebug f).skips = s.skips := rfl
@[simp] theorem modDebug_mem (s : State) (f : Debug → Debug) : (s.modDebug f).mem = s.mem := rfl
@[simp] theorem modDebug_unwritten (s : State) (f : Debug → Debug) : (s.modDebug f).unwritten = s.unwritten := rfl
@[simp] theorem modDebug_images (s : State) (f : Debug → Debug) : (s.modDebug f).images = s.images := rfl
@[simp] theorem modDebug_pipes (s : State) (f : Debug → Debug) : (s.modDebug f).pipes = s.pipes := rfl
@[simp] theorem modDebug_adit (s : State) (f : Debug → Debug) : (s.modDebug f).adit = s.adit := rfl
@[simp] theorem modDebug_riddle (s : State) (f : Debug → Debug) : (s.modDebug f).riddle = s.riddle := rfl
@[simp] theorem modDebug_sump (s : State) (f : Debug → Debug) : (s.modDebug f).sump = s.sump := rfl
@[simp] theorem modDebug_host (s : State) (f : Debug → Debug) : (s.modDebug f).host = s.host := rfl
@[simp] theorem modDebug_emeel (s : State) (f : Debug → Debug) : (s.modDebug f).emeel = s.emeel := rfl
@[simp] theorem modDebug_faults (s : State) (f : Debug → Debug) : (s.modDebug f).faults = s.faults := rfl
@[simp] theorem modDebug_power (s : State) (f : Debug → Debug) : (s.modDebug f).power = s.power := rfl
@[simp] theorem modDebug_out (s : State) (f : Debug → Debug) : (s.modDebug f).out = s.out := rfl

@[simp] theorem emit_pending (s : State) (o : Out) : (s.emit o).pending = s.pending := rfl
@[simp] theorem emit_hits (s : State) (o : Out) : (s.emit o).hits = s.hits := rfl
@[simp] theorem emit_now (s : State) (o : Out) : (s.emit o).now = s.now := rfl
@[simp] theorem emit_free (s : State) (o : Out) : (s.emit o).free = s.free := rfl
@[simp] theorem emit_ticks (s : State) (o : Out) : (s.emit o).ticks = s.ticks := rfl
@[simp] theorem emit_tiles (s : State) (o : Out) : (s.emit o).tiles = s.tiles := rfl
@[simp] theorem emit_skips (s : State) (o : Out) : (s.emit o).skips = s.skips := rfl
@[simp] theorem emit_mem (s : State) (o : Out) : (s.emit o).mem = s.mem := rfl
@[simp] theorem emit_unwritten (s : State) (o : Out) : (s.emit o).unwritten = s.unwritten := rfl
@[simp] theorem emit_images (s : State) (o : Out) : (s.emit o).images = s.images := rfl
@[simp] theorem emit_pipes (s : State) (o : Out) : (s.emit o).pipes = s.pipes := rfl
@[simp] theorem emit_adit (s : State) (o : Out) : (s.emit o).adit = s.adit := rfl
@[simp] theorem emit_riddle (s : State) (o : Out) : (s.emit o).riddle = s.riddle := rfl
@[simp] theorem emit_sump (s : State) (o : Out) : (s.emit o).sump = s.sump := rfl
@[simp] theorem emit_host (s : State) (o : Out) : (s.emit o).host = s.host := rfl
@[simp] theorem emit_emeel (s : State) (o : Out) : (s.emit o).emeel = s.emeel := rfl
@[simp] theorem emit_faults (s : State) (o : Out) : (s.emit o).faults = s.faults := rfl
@[simp] theorem emit_power (s : State) (o : Out) : (s.emit o).power = s.power := rfl
@[simp] theorem emit_dbg (s : State) (o : Out) : (s.emit o).dbg = s.dbg := rfl

@[simp] theorem hit_pending (s : State) (o b : Nat) : (s.hit o b).pending = s.pending := rfl
@[simp] theorem hit_now (s : State) (o b : Nat) : (s.hit o b).now = s.now := rfl
@[simp] theorem hit_free (s : State) (o b : Nat) : (s.hit o b).free = s.free := rfl
@[simp] theorem hit_ticks (s : State) (o b : Nat) : (s.hit o b).ticks = s.ticks := rfl
@[simp] theorem hit_tiles (s : State) (o b : Nat) : (s.hit o b).tiles = s.tiles := rfl
@[simp] theorem hit_skips (s : State) (o b : Nat) : (s.hit o b).skips = s.skips := rfl
@[simp] theorem hit_mem (s : State) (o b : Nat) : (s.hit o b).mem = s.mem := rfl
@[simp] theorem hit_unwritten (s : State) (o b : Nat) : (s.hit o b).unwritten = s.unwritten := rfl
@[simp] theorem hit_images (s : State) (o b : Nat) : (s.hit o b).images = s.images := rfl
@[simp] theorem hit_pipes (s : State) (o b : Nat) : (s.hit o b).pipes = s.pipes := rfl
@[simp] theorem hit_adit (s : State) (o b : Nat) : (s.hit o b).adit = s.adit := rfl
@[simp] theorem hit_riddle (s : State) (o b : Nat) : (s.hit o b).riddle = s.riddle := rfl
@[simp] theorem hit_sump (s : State) (o b : Nat) : (s.hit o b).sump = s.sump := rfl
@[simp] theorem hit_host (s : State) (o b : Nat) : (s.hit o b).host = s.host := rfl
@[simp] theorem hit_emeel (s : State) (o b : Nat) : (s.hit o b).emeel = s.emeel := rfl
@[simp] theorem hit_faults (s : State) (o b : Nat) : (s.hit o b).faults = s.faults := rfl
@[simp] theorem hit_power (s : State) (o b : Nat) : (s.hit o b).power = s.power := rfl
@[simp] theorem hit_dbg (s : State) (o b : Nat) : (s.hit o b).dbg = s.dbg := rfl
@[simp] theorem hit_out (s : State) (o b : Nat) : (s.hit o b).out = s.out := rfl

@[simp] theorem draw_pending (s : State) : s.draw.pending = s.pending := rfl
@[simp] theorem draw_hits (s : State) : s.draw.hits = s.hits := rfl
@[simp] theorem draw_now (s : State) : s.draw.now = s.now := rfl
@[simp] theorem draw_ticks (s : State) : s.draw.ticks = s.ticks := rfl
@[simp] theorem draw_tiles (s : State) : s.draw.tiles = s.tiles := rfl
@[simp] theorem draw_skips (s : State) : s.draw.skips = s.skips := rfl
@[simp] theorem draw_mem (s : State) : s.draw.mem = s.mem := rfl
@[simp] theorem draw_unwritten (s : State) : s.draw.unwritten = s.unwritten := rfl
@[simp] theorem draw_images (s : State) : s.draw.images = s.images := rfl
@[simp] theorem draw_pipes (s : State) : s.draw.pipes = s.pipes := rfl
@[simp] theorem draw_adit (s : State) : s.draw.adit = s.adit := rfl
@[simp] theorem draw_riddle (s : State) : s.draw.riddle = s.riddle := rfl
@[simp] theorem draw_sump (s : State) : s.draw.sump = s.sump := rfl
@[simp] theorem draw_host (s : State) : s.draw.host = s.host := rfl
@[simp] theorem draw_emeel (s : State) : s.draw.emeel = s.emeel := rfl
@[simp] theorem draw_faults (s : State) : s.draw.faults = s.faults := rfl
@[simp] theorem draw_power (s : State) : s.draw.power = s.power := rfl
@[simp] theorem draw_dbg (s : State) : s.draw.dbg = s.dbg := rfl
@[simp] theorem draw_out (s : State) : s.draw.out = s.out := rfl

@[simp] theorem count_pending (s : State) (k i c n : Nat) : (s.count k i c n).pending = s.pending := by unfold State.count; split <;> rfl
@[simp] theorem count_hits (s : State) (k i c n : Nat) : (s.count k i c n).hits = s.hits := by unfold State.count; split <;> rfl
@[simp] theorem count_now (s : State) (k i c n : Nat) : (s.count k i c n).now = s.now := by unfold State.count; split <;> rfl
@[simp] theorem count_free (s : State) (k i c n : Nat) : (s.count k i c n).free = s.free := by unfold State.count; split <;> rfl
@[simp] theorem count_ticks (s : State) (k i c n : Nat) : (s.count k i c n).ticks = s.ticks := by unfold State.count; split <;> rfl
@[simp] theorem count_tiles (s : State) (k i c n : Nat) : (s.count k i c n).tiles = s.tiles := by unfold State.count; split <;> rfl
@[simp] theorem count_skips (s : State) (k i c n : Nat) : (s.count k i c n).skips = s.skips := by unfold State.count; split <;> rfl
@[simp] theorem count_mem (s : State) (k i c n : Nat) : (s.count k i c n).mem = s.mem := by unfold State.count; split <;> rfl
@[simp] theorem count_unwritten (s : State) (k i c n : Nat) : (s.count k i c n).unwritten = s.unwritten := by unfold State.count; split <;> rfl
@[simp] theorem count_images (s : State) (k i c n : Nat) : (s.count k i c n).images = s.images := by unfold State.count; split <;> rfl
@[simp] theorem count_pipes (s : State) (k i c n : Nat) : (s.count k i c n).pipes = s.pipes := by unfold State.count; split <;> rfl
@[simp] theorem count_adit (s : State) (k i c n : Nat) : (s.count k i c n).adit = s.adit := by unfold State.count; split <;> rfl
@[simp] theorem count_riddle (s : State) (k i c n : Nat) : (s.count k i c n).riddle = s.riddle := by unfold State.count; split <;> rfl
@[simp] theorem count_sump (s : State) (k i c n : Nat) : (s.count k i c n).sump = s.sump := by unfold State.count; split <;> rfl
@[simp] theorem count_host (s : State) (k i c n : Nat) : (s.count k i c n).host = s.host := by unfold State.count; split <;> rfl
@[simp] theorem count_emeel (s : State) (k i c n : Nat) : (s.count k i c n).emeel = s.emeel := by unfold State.count; split <;> rfl
@[simp] theorem count_faults (s : State) (k i c n : Nat) : (s.count k i c n).faults = s.faults := by unfold State.count; split <;> rfl
@[simp] theorem count_power (s : State) (k i c n : Nat) : (s.count k i c n).power = s.power := by unfold State.count; split <;> rfl
@[simp] theorem count_out (s : State) (k i c n : Nat) : (s.count k i c n).out = s.out := by unfold State.count; split <;> rfl

@[simp] theorem countTile_pending (s : State) (t c n : Nat) : (s.countTile t c n).pending = s.pending := by unfold State.countTile; simp
@[simp] theorem countTile_hits (s : State) (t c n : Nat) : (s.countTile t c n).hits = s.hits := by unfold State.countTile; simp
@[simp] theorem countTile_now (s : State) (t c n : Nat) : (s.countTile t c n).now = s.now := by unfold State.countTile; simp
@[simp] theorem countTile_free (s : State) (t c n : Nat) : (s.countTile t c n).free = s.free := by unfold State.countTile; simp
@[simp] theorem countTile_ticks (s : State) (t c n : Nat) : (s.countTile t c n).ticks = s.ticks := by unfold State.countTile; simp
@[simp] theorem countTile_tiles (s : State) (t c n : Nat) : (s.countTile t c n).tiles = s.tiles := by unfold State.countTile; simp
@[simp] theorem countTile_skips (s : State) (t c n : Nat) : (s.countTile t c n).skips = s.skips := by unfold State.countTile; simp
@[simp] theorem countTile_mem (s : State) (t c n : Nat) : (s.countTile t c n).mem = s.mem := by unfold State.countTile; simp
@[simp] theorem countTile_unwritten (s : State) (t c n : Nat) : (s.countTile t c n).unwritten = s.unwritten := by unfold State.countTile; simp
@[simp] theorem countTile_images (s : State) (t c n : Nat) : (s.countTile t c n).images = s.images := by unfold State.countTile; simp
@[simp] theorem countTile_pipes (s : State) (t c n : Nat) : (s.countTile t c n).pipes = s.pipes := by unfold State.countTile; simp
@[simp] theorem countTile_adit (s : State) (t c n : Nat) : (s.countTile t c n).adit = s.adit := by unfold State.countTile; simp
@[simp] theorem countTile_riddle (s : State) (t c n : Nat) : (s.countTile t c n).riddle = s.riddle := by unfold State.countTile; simp
@[simp] theorem countTile_sump (s : State) (t c n : Nat) : (s.countTile t c n).sump = s.sump := by unfold State.countTile; simp
@[simp] theorem countTile_host (s : State) (t c n : Nat) : (s.countTile t c n).host = s.host := by unfold State.countTile; simp
@[simp] theorem countTile_emeel (s : State) (t c n : Nat) : (s.countTile t c n).emeel = s.emeel := by unfold State.countTile; simp
@[simp] theorem countTile_faults (s : State) (t c n : Nat) : (s.countTile t c n).faults = s.faults := by unfold State.countTile; simp
@[simp] theorem countTile_power (s : State) (t c n : Nat) : (s.countTile t c n).power = s.power := by unfold State.countTile; simp
@[simp] theorem countTile_out (s : State) (t c n : Nat) : (s.countTile t c n).out = s.out := by unfold State.countTile; simp

@[simp] theorem writeBytes_pending (s : State) (a : Nat) (bs : List Byte) : (s.writeBytes a bs).pending = s.pending := by unfold State.writeBytes; split <;> rfl
@[simp] theorem writeBytes_hits (s : State) (a : Nat) (bs : List Byte) : (s.writeBytes a bs).hits = s.hits := by unfold State.writeBytes; split <;> rfl
@[simp] theorem writeBytes_now (s : State) (a : Nat) (bs : List Byte) : (s.writeBytes a bs).now = s.now := by unfold State.writeBytes; split <;> rfl
@[simp] theorem writeBytes_free (s : State) (a : Nat) (bs : List Byte) : (s.writeBytes a bs).free = s.free := by unfold State.writeBytes; split <;> rfl
@[simp] theorem writeBytes_ticks (s : State) (a : Nat) (bs : List Byte) : (s.writeBytes a bs).ticks = s.ticks := by unfold State.writeBytes; split <;> rfl
@[simp] theorem writeBytes_tiles (s : State) (a : Nat) (bs : List Byte) : (s.writeBytes a bs).tiles = s.tiles := by unfold State.writeBytes; split <;> rfl
@[simp] theorem writeBytes_skips (s : State) (a : Nat) (bs : List Byte) : (s.writeBytes a bs).skips = s.skips := by unfold State.writeBytes; split <;> rfl
@[simp] theorem writeBytes_images (s : State) (a : Nat) (bs : List Byte) : (s.writeBytes a bs).images = s.images := by unfold State.writeBytes; split <;> rfl
@[simp] theorem writeBytes_pipes (s : State) (a : Nat) (bs : List Byte) : (s.writeBytes a bs).pipes = s.pipes := by unfold State.writeBytes; split <;> rfl
@[simp] theorem writeBytes_adit (s : State) (a : Nat) (bs : List Byte) : (s.writeBytes a bs).adit = s.adit := by unfold State.writeBytes; split <;> rfl
@[simp] theorem writeBytes_riddle (s : State) (a : Nat) (bs : List Byte) : (s.writeBytes a bs).riddle = s.riddle := by unfold State.writeBytes; split <;> rfl
@[simp] theorem writeBytes_sump (s : State) (a : Nat) (bs : List Byte) : (s.writeBytes a bs).sump = s.sump := by unfold State.writeBytes; split <;> rfl
@[simp] theorem writeBytes_host (s : State) (a : Nat) (bs : List Byte) : (s.writeBytes a bs).host = s.host := by unfold State.writeBytes; split <;> rfl
@[simp] theorem writeBytes_emeel (s : State) (a : Nat) (bs : List Byte) : (s.writeBytes a bs).emeel = s.emeel := by unfold State.writeBytes; split <;> rfl
@[simp] theorem writeBytes_faults (s : State) (a : Nat) (bs : List Byte) : (s.writeBytes a bs).faults = s.faults := by unfold State.writeBytes; split <;> rfl
@[simp] theorem writeBytes_power (s : State) (a : Nat) (bs : List Byte) : (s.writeBytes a bs).power = s.power := by unfold State.writeBytes; split <;> rfl
@[simp] theorem writeBytes_dbg (s : State) (a : Nat) (bs : List Byte) : (s.writeBytes a bs).dbg = s.dbg := by unfold State.writeBytes; split <;> rfl
@[simp] theorem writeBytes_out (s : State) (a : Nat) (bs : List Byte) : (s.writeBytes a bs).out = s.out := by unfold State.writeBytes; split <;> rfl

@[simp] theorem markRange_pending (s : State) (a n : Nat) : (s.markRange a n).pending = s.pending := rfl
@[simp] theorem markRange_hits (s : State) (a n : Nat) : (s.markRange a n).hits = s.hits := rfl
@[simp] theorem markRange_now (s : State) (a n : Nat) : (s.markRange a n).now = s.now := rfl
@[simp] theorem markRange_free (s : State) (a n : Nat) : (s.markRange a n).free = s.free := rfl
@[simp] theorem markRange_ticks (s : State) (a n : Nat) : (s.markRange a n).ticks = s.ticks := rfl
@[simp] theorem markRange_tiles (s : State) (a n : Nat) : (s.markRange a n).tiles = s.tiles := rfl
@[simp] theorem markRange_skips (s : State) (a n : Nat) : (s.markRange a n).skips = s.skips := rfl
@[simp] theorem markRange_images (s : State) (a n : Nat) : (s.markRange a n).images = s.images := rfl
@[simp] theorem markRange_pipes (s : State) (a n : Nat) : (s.markRange a n).pipes = s.pipes := rfl
@[simp] theorem markRange_adit (s : State) (a n : Nat) : (s.markRange a n).adit = s.adit := rfl
@[simp] theorem markRange_riddle (s : State) (a n : Nat) : (s.markRange a n).riddle = s.riddle := rfl
@[simp] theorem markRange_sump (s : State) (a n : Nat) : (s.markRange a n).sump = s.sump := rfl
@[simp] theorem markRange_host (s : State) (a n : Nat) : (s.markRange a n).host = s.host := rfl
@[simp] theorem markRange_emeel (s : State) (a n : Nat) : (s.markRange a n).emeel = s.emeel := rfl
@[simp] theorem markRange_faults (s : State) (a n : Nat) : (s.markRange a n).faults = s.faults := rfl
@[simp] theorem markRange_power (s : State) (a n : Nat) : (s.markRange a n).power = s.power := rfl
@[simp] theorem markRange_dbg (s : State) (a n : Nat) : (s.markRange a n).dbg = s.dbg := rfl
@[simp] theorem markRange_out (s : State) (a n : Nat) : (s.markRange a n).out = s.out := rfl

end Sys2Proof.Machine
end

