-- ==== Sys2Proof/Laws/Issue.lean ====
section
/-! SUPPORT. What the issue of one word does: a legal word is handed to its meaning on the issued state, and the issued
state differs from the one before in the thread's own fields, the issue slot and one counter alone. -/

namespace Sys2Proof.Machine

/-- A legal word that its thread may issue goes to its meaning. -/
theorem issueWord_legal (s : State) (t th op) (body) (h : s.Issues t th op) :
    s.instr t th op body = .next (body (s.pcWord t th) (s.issued t th)) := by
  obtain ⟨h1, h2, h3⟩ := h
  simp [State.instr, State.issueWord, h1, h2, h3]

theorem tile_count (s : State) (k i c n x) : (s.count k i c n).tile x = s.tile x := by simp [State.tile]
theorem tile_countTile (s : State) (t c n x) : (s.countTile t c n).tile x = s.tile x := by simp [State.tile]
theorem counterAt_count (s : State) (k i c n o) (h : o ≠ ctrOff k i c) : (s.count k i c n).counterAt o = s.counterAt o := by
  unfold State.count; split
  · rfl
  · simp [State.counterAt, State.modDebug, lookD_put_other _ _ _ _ _ h]
@[simp] theorem rowFc_modTile (s : State) (t f x) : (s.modTile t f).rowFc x = s.rowFc x := by simp [State.rowFc, State.row]
@[simp] theorem rowFc_countTile (s : State) (t c n x) : (s.countTile t c n).rowFc x = s.rowFc x := by simp [State.rowFc, State.row]

/-- The thread after the issue, before the effect. -/
theorem issued_thread (s : State) (t th : Nat) : (s.issued t th).thread t th = s.issuedThread t th := by
  simp only [State.issued, State.issuedThread, thread_modThread]
  simp [State.thread, tile_countTile, Tile.thread, Regs.advance]
  rfl

/-- Before its effect, an issue has changed its thread, the issue slot and the issue counter. -/
theorem issued_threadFrame (s : State) (t th : Nat) : ThreadFrame s (s.issued t th) t th [] := by
  unfold ThreadFrame IssueFrame
  refine ⟨⟨?_, ?_, ?_⟩, ?_, ?_⟩
  · simp only [State.issued]
    simp [State.modThread, State.modTile, State.setTile, State.countTile, State.count, State.modDebug]
  · intro x hx
    simp [State.issued, State.modThread, tile_modTile_other _ _ _ _ hx, tile_countTile]
  · intro o ho
    simp at ho
    simp only [State.issued, State.counterAt, modThread_dbg, modTile_dbg]
    exact counterAt_count _ _ _ _ _ _ ho
  · simp [State.issued, State.modThread, tile_countTile, Tile.setThread]
  · intro x hx
    simp [State.issued, thread_modThread_other _ _ _ _ _ hx]
    simp [State.thread, tile_countTile, Tile.thread]

end Sys2Proof.Machine
end

