-- ==== Sys2Proof/Laws/Memory.lean ====
section
/-! SUPPORT. Memory: what a read after a write gives, that every memory operation keeps the canonical form, and that a
state's byte operations keep it. -/

namespace Sys2Proof.Machine

/-! ## Cells -/

theorem memWfFrom_le (m : List Host.Cell) : ∀ lo hi, lo ≤ hi → memWfFrom hi m = true → memWfFrom lo m = true := by
  cases m with
  | nil => simp [memWfFrom]
  | cons c m =>
    obtain ⟨k, x⟩ := c
    intro lo hi h
    simp only [memWfFrom, Bool.and_eq_true, decide_eq_true_eq]
    rintro ⟨⟨h1, h2⟩, h3⟩
    exact ⟨⟨by omega, h2⟩, h3⟩

/-- Below the bound of the canonical form nothing is listed. -/
theorem memGet_below (m : List Host.Cell) : ∀ lo a, memWfFrom lo m = true → a < lo → memGet m a = 0 := by
  induction m with
  | nil => simp [memGet]
  | cons c m ih =>
    obtain ⟨k, x⟩ := c
    intro lo a
    simp only [memWfFrom, Bool.and_eq_true, decide_eq_true_eq, memGet]
    rintro ⟨⟨h1, h2⟩, h3⟩ h
    rw [if_neg (by omega)]
    exact ih (k + 1) a h3 (by omega)

theorem memSet_wf (m : List Host.Cell) (a : Nat) (b : Byte) :
    ∀ lo, lo ≤ a → memWfFrom lo m = true → memWfFrom lo (memSet m a b) = true := by
  induction m with
  | nil => intro lo h _; unfold memSet; split <;> simp_all [memWfFrom]
  | cons c m ih =>
    obtain ⟨k, x⟩ := c
    intro lo h
    simp only [memWfFrom, Bool.and_eq_true, decide_eq_true_eq, memSet]
    rintro ⟨⟨h1, h2⟩, h3⟩
    split
    · split <;> simp_all [memWfFrom]
    · split
      · rename_i h4 h5
        subst h5
        split
        · exact memWfFrom_le _ _ _ (by omega) h3
        · simp_all [memWfFrom]
      · simp only [memWfFrom, Bool.and_eq_true, decide_eq_true_eq]
        exact ⟨⟨h1, h2⟩, ih _ (by omega) h3⟩

/-- Writing a byte keeps the canonical form. -/
theorem memSet_keeps_wf (m : List Host.Cell) (a : Nat) (b : Byte) (h : Memory.wf m = true) : Memory.wf (memSet m a b) = true :=
  memSet_wf m a b 0 (Nat.zero_le a) h

/-- Writing bytes keeps the canonical form. -/
theorem memWrite_keeps_wf (bs : List Byte) : ∀ (m : List Host.Cell) (a : Nat), Memory.wf m = true → Memory.wf (memWrite m a bs) = true := by
  induction bs with
  | nil => intro m a h; exact h
  | cons b bs ih => intro m a h; exact ih _ _ (memSet_keeps_wf m a b h)

theorem memFilter_wf (p : Host.Cell → Bool) (m : List Host.Cell) :
    ∀ lo, memWfFrom lo m = true → memWfFrom lo (m.filter p) = true := by
  induction m with
  | nil => intro lo h; exact h
  | cons c m ih =>
    obtain ⟨k, x⟩ := c
    intro lo
    simp only [memWfFrom, Bool.and_eq_true, decide_eq_true_eq, List.filter_cons]
    rintro ⟨⟨h1, h2⟩, h3⟩
    split
    · simp only [memWfFrom, Bool.and_eq_true, decide_eq_true_eq]
      exact ⟨⟨h1, h2⟩, ih _ h3⟩
    · exact memWfFrom_le _ lo (k + 1) (by omega) (ih _ h3)

/-- Clearing a stretch keeps the canonical form. -/
theorem memClear_keeps_wf (m : List Host.Cell) (a n : Nat) (h : Memory.wf m = true) : Memory.wf (memClear m a n) = true :=
  memFilter_wf _ m 0 h

/-- A read after a write of the same byte, in a canonical memory. -/
theorem memGet_memSet_same (a : Nat) (b : Byte) (m : List Host.Cell) :
    ∀ lo, memWfFrom lo m = true → memGet (memSet m a b) a = b := by
  induction m with
  | nil => intro lo _; unfold memSet; split <;> simp_all [memGet]
  | cons c m ih =>
    obtain ⟨k, x⟩ := c
    intro lo
    simp only [memWfFrom, Bool.and_eq_true, decide_eq_true_eq, memSet]
    rintro ⟨⟨h1, h2⟩, h3⟩
    split
    · rename_i h4
      split
      · rename_i h5
        rw [h5, memGet, if_neg (by omega)]
        exact memGet_below m (k + 1) a h3 (by omega)
      · simp [memGet]
    · split
      · rename_i h4 h5
        subst h5
        split
        · rename_i h6; rw [h6]; exact memGet_below m (a + 1) a h3 (by omega)
        · simp [memGet]
      · rename_i h4 h5
        rw [memGet, if_neg (by omega)]
        exact ih _ h3

/-- A write leaves every other byte as it was. -/
theorem memGet_memSet_other (m : List Host.Cell) (a c : Nat) (b : Byte) (h : c ≠ a) : memGet (memSet m a b) c = memGet m c := by
  induction m with
  | nil => unfold memSet; split <;> simp [memGet, Ne.symm h]
  | cons p m ih =>
    obtain ⟨k, x⟩ := p
    unfold memSet
    split
    · split
      · rfl
      · simp [memGet, Ne.symm h]
    · split
      · rename_i h4 h5
        subst h5
        split <;> simp [memGet, Ne.symm h]
      · simp only [memGet]
        split
        · rfl
        · exact ih

/-- Writing bytes leaves every byte outside them as it was. -/
theorem memGet_memWrite_outside (bs : List Byte) :
    ∀ (m : List Host.Cell) (a c : Nat), c < a ∨ a + bs.length ≤ c → memGet (memWrite m a bs) c = memGet m c := by
  induction bs with
  | nil => intro m a c _; rfl
  | cons b bs ih =>
    intro m a c h
    simp only [List.length_cons] at h
    rw [memWrite, ih _ _ _ (by omega), memGet_memSet_other _ _ _ _ (by omega)]

/-- Bytes read where they were written, in a canonical memory. -/
theorem memGet_memWrite_inside (bs : List Byte) :
    ∀ (m : List Host.Cell) (a i : Nat), Memory.wf m = true → (h : i < bs.length) → memGet (memWrite m a bs) (a + i) = bs[i] := by
  induction bs with
  | nil => intro m a i _ h; simp at h
  | cons b bs ih =>
    intro m a i hw h
    cases i with
    | zero =>
      rw [memWrite, memGet_memWrite_outside _ _ _ _ (by omega)]
      exact memGet_memSet_same a b m 0 hw
    | succ i =>
      rw [memWrite, show a + (i + 1) = a + 1 + i by omega]
      exact ih _ _ i (memSet_keeps_wf m a b hw) (by simpa using h)

theorem memRead_length (m : List Host.Cell) (n : Nat) : ∀ a, (memRead m a n).length = n := by
  induction n with
  | zero => intro a; rfl
  | succ n ih => intro a; simp [memRead, ih]

theorem memRead_get (m : List Host.Cell) (n : Nat) : ∀ a i, (h : i < n) → (memRead m a n)[i]'(by rw [memRead_length]; exact h) = memGet m (a + i) := by
  induction n with
  | zero => intro a i h; omega
  | succ n ih =>
    intro a i h
    cases i with
    | zero => simp [memRead]
    | succ i =>
      simp only [memRead, List.getElem_cons_succ]
      rw [ih (a + 1) i (by omega), show a + 1 + i = a + (i + 1) by omega]

/-- What was written is read back whole, in a canonical memory. -/
theorem memRead_memWrite (m : List Host.Cell) (a : Nat) (bs : List Byte) (h : Memory.wf m = true) :
    memRead (memWrite m a bs) a bs.length = bs := by
  apply List.ext_getElem
  · rw [memRead_length]
  · intro i h1 h2
    rw [memRead_get _ _ _ _ h2]
    exact memGet_memWrite_inside bs m a i h h2

/-- Clearing a stretch leaves zeros in it and nothing else changed. -/
theorem memGet_memClear (m : List Host.Cell) (a n c : Nat) :
    memGet (memClear m a n) c = if a ≤ c ∧ c < a + n then 0 else memGet m c := by
  induction m with
  | nil => simp [memClear, memGet]
  | cons p m ih =>
    obtain ⟨k, x⟩ := p
    simp only [memClear, List.filter_cons] at ih ⊢
    by_cases h : a ≤ c ∧ c < a + n
    · rw [if_pos h] at ih ⊢
      split
      · rename_i h1
        simp only [Bool.or_eq_true, decide_eq_true_eq] at h1
        rw [memGet, if_neg (by omega)]
        exact ih
      · exact ih
    · rw [if_neg h] at ih ⊢
      split
      · simp only [memGet, ih]
      · rename_i h1
        simp only [Bool.or_eq_true, decide_eq_true_eq, not_or] at h1
        rw [memGet, if_neg (by omega)]
        exact ih

/-! ## The state's memory operations -/

theorem reset_memoryOk : State.reset.MemoryOk := rfl

theorem writeBytes_memoryOk (s : State) (a : Nat) (bs : List Byte) (h : s.MemoryOk) : (s.writeBytes a bs).MemoryOk := by
  unfold State.writeBytes
  split
  · exact h
  · exact memWrite_keeps_wf bs s.mem a h

theorem zeroRange_memoryOk (s : State) (a n : Nat) (h : s.MemoryOk) : (s.zeroRange a n).MemoryOk :=
  memClear_keeps_wf s.mem a n h

theorem zeroRow_memoryOk (s : State) (r : Nat) (h : s.MemoryOk) : (s.zeroRow r).MemoryOk :=
  memClear_keeps_wf s.mem _ _ h

theorem markRange_memoryOk (s : State) (a n : Nat) (h : s.MemoryOk) : (s.markRange a n).MemoryOk := by
  unfold State.markRange State.MemoryOk at *
  first | exact h | exact memClear_keeps_wf _ _ _ h

end Sys2Proof.Machine
end

