-- ==== Sys2Proof/Laws/Shared.lean ====
section
/-! SUPPORT. What the shared operations do: a command that is due or valid, a host command, an event and the end of a host
command. An event and the end of a command write only memory, the headframe, the event number, counters and MSI-X. -/

namespace Sys2Proof.Machine

theorem whenDue_next (ok : Bool) (t u : State) : whenDue ok t = .next u ↔ ok = true ∧ u = t := by
  unfold whenDue; split <;> simp_all [eq_comm]

theorem whenValid_next (ok : Bool) (t u : State) : whenValid ok t = .next u ↔ ok = true ∧ u = t := by
  unfold whenValid; split <;> simp_all [eq_comm]

/-- A host command row answers a next state exactly where its command may start. -/
theorem hostCmd_next (s u : State) (seq op : Nat) (f : Cmd → State → State) :
    s.hostCmd seq op f = .next u ↔ ∃ c, s.Ready seq op c ∧ u = f c s := by
  unfold State.hostCmd State.Ready
  cases h : s.cmd? seq with
  | none => simp
  | some c => simp [whenDue_next]

/-- A command that is due answers the state its effect gives. -/
theorem answers_whenDue (ok : Bool) (t : State) (p : State → Prop) : Answers (whenDue ok t) p ↔ ok = true ∧ p t := by
  unfold Answers; constructor
  · rintro ⟨u, h, hp⟩; obtain ⟨h1, rfl⟩ := (whenDue_next _ _ _).1 h; exact ⟨h1, hp⟩
  · rintro ⟨h, hp⟩; exact ⟨t, (whenDue_next _ _ _).2 ⟨h, rfl⟩, hp⟩

theorem answers_whenValid (ok : Bool) (t : State) (p : State → Prop) : Answers (whenValid ok t) p ↔ ok = true ∧ p t := by
  unfold Answers; constructor
  · rintro ⟨u, h, hp⟩; obtain ⟨h1, rfl⟩ := (whenValid_next _ _ _).1 h; exact ⟨h1, hp⟩
  · rintro ⟨h, hp⟩; exact ⟨t, (whenValid_next _ _ _).2 ⟨h, rfl⟩, hp⟩

/-! ## MSI-X: a vector writes its claim's pending bits or the output alone -/

@[simp] theorem fireMsix_pending (s : State) (c v : Nat) : (s.fireMsix c v).pending = s.pending := by
  unfold State.fireMsix; split <;> simp
@[simp] theorem fireMsix_now (s : State) (c v : Nat) : (s.fireMsix c v).now = s.now := by
  unfold State.fireMsix; split <;> simp
@[simp] theorem fireMsix_free (s : State) (c v : Nat) : (s.fireMsix c v).free = s.free := by
  unfold State.fireMsix; split <;> simp
@[simp] theorem fireMsix_ticks (s : State) (c v : Nat) : (s.fireMsix c v).ticks = s.ticks := by
  unfold State.fireMsix; split <;> simp
@[simp] theorem fireMsix_tiles (s : State) (c v : Nat) : (s.fireMsix c v).tiles = s.tiles := by
  unfold State.fireMsix; split <;> simp
@[simp] theorem fireMsix_skips (s : State) (c v : Nat) : (s.fireMsix c v).skips = s.skips := by
  unfold State.fireMsix; split <;> simp
@[simp] theorem fireMsix_images (s : State) (c v : Nat) : (s.fireMsix c v).images = s.images := by
  unfold State.fireMsix; split <;> simp
@[simp] theorem fireMsix_pipes (s : State) (c v : Nat) : (s.fireMsix c v).pipes = s.pipes := by
  unfold State.fireMsix; split <;> simp
@[simp] theorem fireMsix_adit (s : State) (c v : Nat) : (s.fireMsix c v).adit = s.adit := by
  unfold State.fireMsix; split <;> simp
@[simp] theorem fireMsix_riddle (s : State) (c v : Nat) : (s.fireMsix c v).riddle = s.riddle := by
  unfold State.fireMsix; split <;> simp
@[simp] theorem fireMsix_sump (s : State) (c v : Nat) : (s.fireMsix c v).sump = s.sump := by
  unfold State.fireMsix; split <;> simp
@[simp] theorem fireMsix_emeel (s : State) (c v : Nat) : (s.fireMsix c v).emeel = s.emeel := by
  unfold State.fireMsix; split <;> simp
@[simp] theorem fireMsix_power (s : State) (c v : Nat) : (s.fireMsix c v).power = s.power := by
  unfold State.fireMsix; split <;> simp
@[simp] theorem fireMsix_faults (s : State) (c v : Nat) : (s.fireMsix c v).faults = s.faults := by
  unfold State.fireMsix; split <;> simp
@[simp] theorem fireMsix_mem (s : State) (c v : Nat) : (s.fireMsix c v).mem = s.mem := by
  unfold State.fireMsix; split <;> simp
@[simp] theorem fireMsix_unwritten (s : State) (c v : Nat) : (s.fireMsix c v).unwritten = s.unwritten := by
  unfold State.fireMsix; split <;> simp
@[simp] theorem fireMsix_dbg (s : State) (c v : Nat) : (s.fireMsix c v).dbg = s.dbg := by
  unfold State.fireMsix; split <;> simp

/-! ## Entries in rings 14 and 15 -/

@[simp] theorem placeEntry_pending (s : State) (c k : Nat) (r : Record) : (s.placeEntry c k r).pending = s.pending := by
  unfold State.placeEntry; simp only []; split <;> simp
@[simp] theorem placeEntry_now (s : State) (c k : Nat) (r : Record) : (s.placeEntry c k r).now = s.now := by
  unfold State.placeEntry; simp only []; split <;> simp
@[simp] theorem placeEntry_free (s : State) (c k : Nat) (r : Record) : (s.placeEntry c k r).free = s.free := by
  unfold State.placeEntry; simp only []; split <;> simp
@[simp] theorem placeEntry_ticks (s : State) (c k : Nat) (r : Record) : (s.placeEntry c k r).ticks = s.ticks := by
  unfold State.placeEntry; simp only []; split <;> simp
@[simp] theorem placeEntry_tiles (s : State) (c k : Nat) (r : Record) : (s.placeEntry c k r).tiles = s.tiles := by
  unfold State.placeEntry; simp only []; split <;> simp
@[simp] theorem placeEntry_skips (s : State) (c k : Nat) (r : Record) : (s.placeEntry c k r).skips = s.skips := by
  unfold State.placeEntry; simp only []; split <;> simp
@[simp] theorem placeEntry_images (s : State) (c k : Nat) (r : Record) : (s.placeEntry c k r).images = s.images := by
  unfold State.placeEntry; simp only []; split <;> simp
@[simp] theorem placeEntry_pipes (s : State) (c k : Nat) (r : Record) : (s.placeEntry c k r).pipes = s.pipes := by
  unfold State.placeEntry; simp only []; split <;> simp
@[simp] theorem placeEntry_adit (s : State) (c k : Nat) (r : Record) : (s.placeEntry c k r).adit = s.adit := by
  unfold State.placeEntry; simp only []; split <;> simp
@[simp] theorem placeEntry_riddle (s : State) (c k : Nat) (r : Record) : (s.placeEntry c k r).riddle = s.riddle := by
  unfold State.placeEntry; simp only []; split <;> simp
@[simp] theorem placeEntry_sump (s : State) (c k : Nat) (r : Record) : (s.placeEntry c k r).sump = s.sump := by
  unfold State.placeEntry; simp only []; split <;> simp
@[simp] theorem placeEntry_emeel (s : State) (c k : Nat) (r : Record) : (s.placeEntry c k r).emeel = s.emeel := by
  unfold State.placeEntry; simp only []; split <;> simp
@[simp] theorem placeEntry_power (s : State) (c k : Nat) (r : Record) : (s.placeEntry c k r).power = s.power := by
  unfold State.placeEntry; simp only []; split <;> simp

@[simp] theorem deliver_pending (s : State) (c : Nat) (r : Record) : (s.deliver c r).pending = s.pending := by
  unfold State.deliver; repeat (first | split | simp)
@[simp] theorem deliver_now (s : State) (c : Nat) (r : Record) : (s.deliver c r).now = s.now := by
  unfold State.deliver; repeat (first | split | simp)
@[simp] theorem deliver_free (s : State) (c : Nat) (r : Record) : (s.deliver c r).free = s.free := by
  unfold State.deliver; repeat (first | split | simp)
@[simp] theorem deliver_ticks (s : State) (c : Nat) (r : Record) : (s.deliver c r).ticks = s.ticks := by
  unfold State.deliver; repeat (first | split | simp)
@[simp] theorem deliver_tiles (s : State) (c : Nat) (r : Record) : (s.deliver c r).tiles = s.tiles := by
  unfold State.deliver; repeat (first | split | simp)
@[simp] theorem deliver_skips (s : State) (c : Nat) (r : Record) : (s.deliver c r).skips = s.skips := by
  unfold State.deliver; repeat (first | split | simp)
@[simp] theorem deliver_images (s : State) (c : Nat) (r : Record) : (s.deliver c r).images = s.images := by
  unfold State.deliver; repeat (first | split | simp)
@[simp] theorem deliver_pipes (s : State) (c : Nat) (r : Record) : (s.deliver c r).pipes = s.pipes := by
  unfold State.deliver; repeat (first | split | simp)
@[simp] theorem deliver_adit (s : State) (c : Nat) (r : Record) : (s.deliver c r).adit = s.adit := by
  unfold State.deliver; repeat (first | split | simp)
@[simp] theorem deliver_riddle (s : State) (c : Nat) (r : Record) : (s.deliver c r).riddle = s.riddle := by
  unfold State.deliver; repeat (first | split | simp)
@[simp] theorem deliver_sump (s : State) (c : Nat) (r : Record) : (s.deliver c r).sump = s.sump := by
  unfold State.deliver; repeat (first | split | simp)
@[simp] theorem deliver_emeel (s : State) (c : Nat) (r : Record) : (s.deliver c r).emeel = s.emeel := by
  unfold State.deliver; repeat (first | split | simp)
@[simp] theorem deliver_power (s : State) (c : Nat) (r : Record) : (s.deliver c r).power = s.power := by
  unfold State.deliver; repeat (first | split | simp)

@[simp] theorem raise_pending (s : State) (k : EvKind) (e : EvArgs) : (s.raise k e).pending = s.pending := by
  unfold State.raise; cases k.audience <;> simp
  split <;> simp
@[simp] theorem raise_now (s : State) (k : EvKind) (e : EvArgs) : (s.raise k e).now = s.now := by
  unfold State.raise; cases k.audience <;> simp
  split <;> simp
@[simp] theorem raise_free (s : State) (k : EvKind) (e : EvArgs) : (s.raise k e).free = s.free := by
  unfold State.raise; cases k.audience <;> simp
  split <;> simp
@[simp] theorem raise_ticks (s : State) (k : EvKind) (e : EvArgs) : (s.raise k e).ticks = s.ticks := by
  unfold State.raise; cases k.audience <;> simp
  split <;> simp
@[simp] theorem raise_tiles (s : State) (k : EvKind) (e : EvArgs) : (s.raise k e).tiles = s.tiles := by
  unfold State.raise; cases k.audience <;> simp
  split <;> simp
@[simp] theorem raise_skips (s : State) (k : EvKind) (e : EvArgs) : (s.raise k e).skips = s.skips := by
  unfold State.raise; cases k.audience <;> simp
  split <;> simp
@[simp] theorem raise_images (s : State) (k : EvKind) (e : EvArgs) : (s.raise k e).images = s.images := by
  unfold State.raise; cases k.audience <;> simp
  split <;> simp
@[simp] theorem raise_pipes (s : State) (k : EvKind) (e : EvArgs) : (s.raise k e).pipes = s.pipes := by
  unfold State.raise; cases k.audience <;> simp
  split <;> simp
@[simp] theorem raise_adit (s : State) (k : EvKind) (e : EvArgs) : (s.raise k e).adit = s.adit := by
  unfold State.raise; cases k.audience <;> simp
  split <;> simp
@[simp] theorem raise_riddle (s : State) (k : EvKind) (e : EvArgs) : (s.raise k e).riddle = s.riddle := by
  unfold State.raise; cases k.audience <;> simp
  split <;> simp
@[simp] theorem raise_sump (s : State) (k : EvKind) (e : EvArgs) : (s.raise k e).sump = s.sump := by
  unfold State.raise; cases k.audience <;> simp
  split <;> simp
@[simp] theorem raise_emeel (s : State) (k : EvKind) (e : EvArgs) : (s.raise k e).emeel = s.emeel := by
  unfold State.raise; cases k.audience <;> simp
  split <;> simp
@[simp] theorem raise_power (s : State) (k : EvKind) (e : EvArgs) : (s.raise k e).power = s.power := by
  unfold State.raise; cases k.audience <;> simp
  split <;> simp

/-! ## Events and memory -/

@[simp] theorem placeEntry_faults (s : State) (c k : Nat) (r : Record) : (s.placeEntry c k r).faults = s.faults := by
  unfold State.placeEntry; simp only []; split <;> simp
@[simp] theorem deliver_faults (s : State) (c : Nat) (r : Record) : (s.deliver c r).faults = s.faults := by
  unfold State.deliver; repeat (first | split | simp)

/-- An event takes one number and changes nothing else of the fault registers. -/
@[simp] theorem raise_faults (s : State) (k : EvKind) (e : EvArgs) :
    (s.raise k e).faults = { s.faults with eventSeq := s.faults.eventSeq + 1 } := by
  unfold State.raise; cases k.audience <;> simp [State.modFaults]
  split <;> simp

theorem memoryOk_of_mem (s u : State) (h : s.MemoryOk) (hm : u.mem = s.mem) : u.MemoryOk := by
  unfold State.MemoryOk at *; rw [hm]; exact h

theorem placeEntry_memoryOk (s : State) (c k : Nat) (r : Record) (h : s.MemoryOk) : (s.placeEntry c k r).MemoryOk := by
  unfold State.placeEntry
  have h1 := writeBytes_memoryOk s (ringPhys c k + 64 * ((s.ring c k).producer.toNat % 1024)) (lineBytes r) h
  simp only []
  split <;> exact memoryOk_of_mem _ _ h1 (by simp)

theorem deliver_memoryOk (s : State) (c : Nat) (r : Record) (h : s.MemoryOk) : (s.deliver c r).MemoryOk := by
  unfold State.deliver
  split
  · exact h
  · split
    · exact placeEntry_memoryOk s c 15 r h
    · split <;> exact memoryOk_of_mem _ _ h (by simp)

theorem raise_memoryOk (s : State) (k : EvKind) (e : EvArgs) (h : s.MemoryOk) : (s.raise k e).MemoryOk := by
  unfold State.raise
  cases k.audience with
  | pf => exact memoryOk_of_mem _ _ (deliver_memoryOk s 0 (s.eventRecord k e false) h) (by simp)
  | claim => exact memoryOk_of_mem _ _ (deliver_memoryOk s e.claim (s.eventRecord k e false) h) (by simp)
  | both =>
    have h1 := deliver_memoryOk s e.claim (s.eventRecord k e false) h
    simp only []
    split
    · exact memoryOk_of_mem _ _ h1 (by simp)
    · exact memoryOk_of_mem _ _ (deliver_memoryOk _ 0 (s.eventRecord k e true) h1) (by simp)

theorem journal_memoryOk (s : State) (c : Nat) (r : Record) (h : s.MemoryOk) : (s.journal c r).MemoryOk := by
  have h1 := writeBytes_memoryOk _ (journalAddr c (s.claim c).journalHead.toNat + 0x2000) (lineBytes r)
    (writeBytes_memoryOk s (journalAddr c (s.claim c).journalHead.toNat) (lineBytes r) h)
  exact memoryOk_of_mem _ _ h1 (by simp [State.journal])

/-! ## The end of a host command -/

@[simp] theorem journal_pending (s : State) (c : Nat) (r : Record) : (s.journal c r).pending = s.pending := by simp [State.journal]
@[simp] theorem journal_now (s : State) (c : Nat) (r : Record) : (s.journal c r).now = s.now := by simp [State.journal]
@[simp] theorem journal_free (s : State) (c : Nat) (r : Record) : (s.journal c r).free = s.free := by simp [State.journal]
@[simp] theorem journal_ticks (s : State) (c : Nat) (r : Record) : (s.journal c r).ticks = s.ticks := by simp [State.journal]
@[simp] theorem journal_tiles (s : State) (c : Nat) (r : Record) : (s.journal c r).tiles = s.tiles := by simp [State.journal]
@[simp] theorem journal_skips (s : State) (c : Nat) (r : Record) : (s.journal c r).skips = s.skips := by simp [State.journal]
@[simp] theorem journal_images (s : State) (c : Nat) (r : Record) : (s.journal c r).images = s.images := by simp [State.journal]
@[simp] theorem journal_pipes (s : State) (c : Nat) (r : Record) : (s.journal c r).pipes = s.pipes := by simp [State.journal]
@[simp] theorem journal_adit (s : State) (c : Nat) (r : Record) : (s.journal c r).adit = s.adit := by simp [State.journal]
@[simp] theorem journal_riddle (s : State) (c : Nat) (r : Record) : (s.journal c r).riddle = s.riddle := by simp [State.journal]
@[simp] theorem journal_sump (s : State) (c : Nat) (r : Record) : (s.journal c r).sump = s.sump := by simp [State.journal]
@[simp] theorem journal_emeel (s : State) (c : Nat) (r : Record) : (s.journal c r).emeel = s.emeel := by simp [State.journal]
@[simp] theorem journal_power (s : State) (c : Nat) (r : Record) : (s.journal c r).power = s.power := by simp [State.journal]

@[simp] theorem finishOne_pending (s : State) (c : Cmd) (ok : Bool) (n : Nat) (r : BitVec 128) : (s.finishOne c ok n r).pending = s.pending := by simp [State.finishOne]
@[simp] theorem finishOne_now (s : State) (c : Cmd) (ok : Bool) (n : Nat) (r : BitVec 128) : (s.finishOne c ok n r).now = s.now := by simp [State.finishOne]
@[simp] theorem finishOne_free (s : State) (c : Cmd) (ok : Bool) (n : Nat) (r : BitVec 128) : (s.finishOne c ok n r).free = s.free := by simp [State.finishOne]
@[simp] theorem finishOne_ticks (s : State) (c : Cmd) (ok : Bool) (n : Nat) (r : BitVec 128) : (s.finishOne c ok n r).ticks = s.ticks := by simp [State.finishOne]
@[simp] theorem finishOne_tiles (s : State) (c : Cmd) (ok : Bool) (n : Nat) (r : BitVec 128) : (s.finishOne c ok n r).tiles = s.tiles := by simp [State.finishOne]
@[simp] theorem finishOne_skips (s : State) (c : Cmd) (ok : Bool) (n : Nat) (r : BitVec 128) : (s.finishOne c ok n r).skips = s.skips := by simp [State.finishOne]
@[simp] theorem finishOne_images (s : State) (c : Cmd) (ok : Bool) (n : Nat) (r : BitVec 128) : (s.finishOne c ok n r).images = s.images := by simp [State.finishOne]
@[simp] theorem finishOne_pipes (s : State) (c : Cmd) (ok : Bool) (n : Nat) (r : BitVec 128) : (s.finishOne c ok n r).pipes = s.pipes := by simp [State.finishOne]
@[simp] theorem finishOne_adit (s : State) (c : Cmd) (ok : Bool) (n : Nat) (r : BitVec 128) : (s.finishOne c ok n r).adit = s.adit := by simp [State.finishOne]
@[simp] theorem finishOne_riddle (s : State) (c : Cmd) (ok : Bool) (n : Nat) (r : BitVec 128) : (s.finishOne c ok n r).riddle = s.riddle := by simp [State.finishOne]
@[simp] theorem finishOne_sump (s : State) (c : Cmd) (ok : Bool) (n : Nat) (r : BitVec 128) : (s.finishOne c ok n r).sump = s.sump := by simp [State.finishOne]
@[simp] theorem finishOne_emeel (s : State) (c : Cmd) (ok : Bool) (n : Nat) (r : BitVec 128) : (s.finishOne c ok n r).emeel = s.emeel := by simp [State.finishOne]
@[simp] theorem finishOne_power (s : State) (c : Cmd) (ok : Bool) (n : Nat) (r : BitVec 128) : (s.finishOne c ok n r).power = s.power := by simp [State.finishOne]

/-- A fold that keeps a property of the state keeps it. -/
theorem foldl_keeps {α : Type} (p : State → Prop) (f : State → α → State) (hf : ∀ s x, p s → p (f s x)) :
    ∀ (l : List α) (s : State), p s → p (l.foldl f s) := by
  intro l
  induction l with
  | nil => intro s h; exact h
  | cons x l ih => intro s h; exact ih _ (hf s x h)

@[simp] theorem finish_pending (s : State) (seq : Nat) (ok : Bool) (n : Nat) (r : BitVec 128) : (s.finish seq ok n r).pending = s.pending := by
  unfold State.finish
  split
  · rfl
  · exact foldl_keeps (fun u => u.pending = s.pending) _ (fun u x h => by simpa using h) _ _ (by simp)
@[simp] theorem finish_now (s : State) (seq : Nat) (ok : Bool) (n : Nat) (r : BitVec 128) : (s.finish seq ok n r).now = s.now := by
  unfold State.finish
  split
  · rfl
  · exact foldl_keeps (fun u => u.now = s.now) _ (fun u x h => by simpa using h) _ _ (by simp)
@[simp] theorem finish_free (s : State) (seq : Nat) (ok : Bool) (n : Nat) (r : BitVec 128) : (s.finish seq ok n r).free = s.free := by
  unfold State.finish
  split
  · rfl
  · exact foldl_keeps (fun u => u.free = s.free) _ (fun u x h => by simpa using h) _ _ (by simp)
@[simp] theorem finish_ticks (s : State) (seq : Nat) (ok : Bool) (n : Nat) (r : BitVec 128) : (s.finish seq ok n r).ticks = s.ticks := by
  unfold State.finish
  split
  · rfl
  · exact foldl_keeps (fun u => u.ticks = s.ticks) _ (fun u x h => by simpa using h) _ _ (by simp)
@[simp] theorem finish_tiles (s : State) (seq : Nat) (ok : Bool) (n : Nat) (r : BitVec 128) : (s.finish seq ok n r).tiles = s.tiles := by
  unfold State.finish
  split
  · rfl
  · exact foldl_keeps (fun u => u.tiles = s.tiles) _ (fun u x h => by simpa using h) _ _ (by simp)
@[simp] theorem finish_skips (s : State) (seq : Nat) (ok : Bool) (n : Nat) (r : BitVec 128) : (s.finish seq ok n r).skips = s.skips := by
  unfold State.finish
  split
  · rfl
  · exact foldl_keeps (fun u => u.skips = s.skips) _ (fun u x h => by simpa using h) _ _ (by simp)
@[simp] theorem finish_images (s : State) (seq : Nat) (ok : Bool) (n : Nat) (r : BitVec 128) : (s.finish seq ok n r).images = s.images := by
  unfold State.finish
  split
  · rfl
  · exact foldl_keeps (fun u => u.images = s.images) _ (fun u x h => by simpa using h) _ _ (by simp)
@[simp] theorem finish_pipes (s : State) (seq : Nat) (ok : Bool) (n : Nat) (r : BitVec 128) : (s.finish seq ok n r).pipes = s.pipes := by
  unfold State.finish
  split
  · rfl
  · exact foldl_keeps (fun u => u.pipes = s.pipes) _ (fun u x h => by simpa using h) _ _ (by simp)
@[simp] theorem finish_adit (s : State) (seq : Nat) (ok : Bool) (n : Nat) (r : BitVec 128) : (s.finish seq ok n r).adit = s.adit := by
  unfold State.finish
  split
  · rfl
  · exact foldl_keeps (fun u => u.adit = s.adit) _ (fun u x h => by simpa using h) _ _ (by simp)
@[simp] theorem finish_riddle (s : State) (seq : Nat) (ok : Bool) (n : Nat) (r : BitVec 128) : (s.finish seq ok n r).riddle = s.riddle := by
  unfold State.finish
  split
  · rfl
  · exact foldl_keeps (fun u => u.riddle = s.riddle) _ (fun u x h => by simpa using h) _ _ (by simp)
@[simp] theorem finish_sump (s : State) (seq : Nat) (ok : Bool) (n : Nat) (r : BitVec 128) : (s.finish seq ok n r).sump = s.sump := by
  unfold State.finish
  split
  · rfl
  · exact foldl_keeps (fun u => u.sump = s.sump) _ (fun u x h => by simpa using h) _ _ (by simp)
@[simp] theorem finish_emeel (s : State) (seq : Nat) (ok : Bool) (n : Nat) (r : BitVec 128) : (s.finish seq ok n r).emeel = s.emeel := by
  unfold State.finish
  split
  · rfl
  · exact foldl_keeps (fun u => u.emeel = s.emeel) _ (fun u x h => by simpa using h) _ _ (by simp)
@[simp] theorem finish_power (s : State) (seq : Nat) (ok : Bool) (n : Nat) (r : BitVec 128) : (s.finish seq ok n r).power = s.power := by
  unfold State.finish
  split
  · rfl
  · exact foldl_keeps (fun u => u.power = s.power) _ (fun u x h => by simpa using h) _ _ (by simp)

theorem finishOne_memoryOk (s : State) (c : Cmd) (ok : Bool) (n : Nat) (r : BitVec 128) (h : s.MemoryOk) : (s.finishOne c ok n r).MemoryOk :=
  memoryOk_of_mem _ _ (journal_memoryOk s c.claim (s.journalRecord c (if ok then 2 else 3) c.seq n r) h) (by simp [State.finishOne])

theorem finish_memoryOk (s : State) (seq : Nat) (ok : Bool) (n : Nat) (r : BitVec 128) (h : s.MemoryOk) : (s.finish seq ok n r).MemoryOk := by
  unfold State.finish
  split
  · exact h
  · rename_i c _
    exact foldl_keeps State.MemoryOk _ (fun u x hu => finishOne_memoryOk u x ok n r hu) _ _
      (memoryOk_of_mem _ _ (finishOne_memoryOk s c ok n r h) (by simp))

end Sys2Proof.Machine
end

