-- ==== Sys2Proof/WellFormed.lean ====
section
/-! DEFINITION. Operand ranges of the commands: which objects the device has, and which numbers an operand may hold. A
host command names the SEQ of an accepted entry, of which any number is one. -/

namespace Sys2Proof

def okDomain (d : Nat) : Bool := decide (d < 8)
def okTile (t : Nat) : Bool := decide (t < 768)
def okThread (th : Nat) : Bool := decide (th < 4)
def okLane (l : Nat) : Bool := decide (l < 64)
def okLine (l : Nat) : Bool := decide (l < 16)
def okEthPort (p : Nat) : Bool := decide (p < 64)
def okQuad (q : Nat) : Bool := decide (q < 16)
/-- A fabric skip or host ring (R177, R178), or the producer's end of a cross-device skip, from 0x20000 on. -/
def okSkip (k : Nat) : Bool := decide (k < 65536) || decide (0x20000 ≤ k)
def okClaim (c : Nat) : Bool := decide (c < 256)
def okHoist (h : Nat) : Bool := decide (h < 32)
def okBlock (b : Nat) : Bool := decide (b < 16)
def okTree (t : Nat) : Bool := decide (t < 8)
def okRow (r : Nat) : Bool := decide (r < 24)
def okPort (p : Nat) : Bool := decide (p < 4)
def okAtile (a : Nat) : Bool := decide (a < 48)
/-- Channel c of pipeline p of domain d (R17, R21). -/
def okChannel (d p c : Nat) : Bool := okDomain d && decide (p < 32) && decide (c < 256)
/-- Low word of a counter (R410): an 8-byte step of the counters' part of the DB block. -/
def okCounter (o : Nat) : Bool := o % 8 == 0 && decide (0x100000 ≤ o) && decide (o < 0x529A00)
/-- CMD of a write of DB_HALT_CTRL (Table 17.2). -/
def okHalt (cmd : Nat) (v : Word) : Bool := (v.extractLsb' 24 3).toNat == cmd

/-- A report names a unit of the device (Table 15.1). -/
def FaultReport.wf : FaultReport → Bool
  | .residue t c => okTile t && decide (c < 33)
  | .rescale t => okTile t
  | .sram t _ o _ => okTile t && decide (o < 0x100000)
  | .sramRead t _ o r th => okTile t && decide (o < 0x100000) && okTile r && okThread th
  | .program t th w _ => okTile t && okThread th && decide (w < 2048)
  | .seqVote t c => okTile t && decide (c < 3)
  | .skipEnd k _ _ => decide (k < 61440)
  | .fnLane t u l => okTile t && decide (u < 16) && decide (l < 4096)
  | .ucieLane l => decide (l < 65536)
  | .emeelLane p l _ => okPort p && decide (l < 4)
  | .sump a _ => decide (a < 0xC00000000)
  | .riddleParity b m w => okBlock b && decide (m < 4) && decide (w < 4096)
  | .detectorLane l => okLane l
  | .shaftSwitch t => okTile t

/-- A command whose operands name objects that the device has. -/
def Instr.wf : Instr → Bool
  | .tick d => okDomain d
  | .tickInserted d => okDomain d
  | .internalGeneratorTick d => okDomain d
  | .followedTick d => okDomain d
  | .tickMessage d _ _ => okDomain d
  | .captureTimeout b => okBlock b
  | .tickMarkArrival t => okTile t
  | .slotMarkArrival t => okTile t
  | .decisionWordTransmit l => okLine l
  | .lvdsTickEdge e => decide (e.pair < 8)
  | .frameStart l _ _ => okLane l
  | .dataBlock l _ => okLane l
  | .frameEnd l _ _ => okLane l
  | .tickBlock l _ => okLane l
  | .idle lane => okLane lane
  | .align l _ => okLane l
  | .uncorrectableCodeword lane => okLane lane
  | .laneLosesLock lane => okLane lane
  | .laneRegainsLock lane => okLane lane
  | .ethernetFrame p _ => okEthPort p
  | .pauseExpiry p => okEthPort p
  | .mirrorWindowEnd lane => okLane lane
  | .frameArrival lane => okLane lane
  | .ingestPush d p c => okChannel d p c
  | .scatterDrain a => okAtile a
  | .zeroFillPush d p c => okChannel d p c
  | .deadlineFillPush k => okSkip k
  | .transmitPacket eth n => if eth then okEthPort n else okLane n
  | .uciePacketReceived l _ => decide (l < 65536)
  | .riddleInputWord b p => okBlock b && decide (p < 4)
  | .riddleOutputWord b p => okBlock b && decide (p < 4)
  | .riddleEofDeadline b l => okBlock b && decide (l < 4)
  | .riddleConfigReadback bad => bad.all (fun x => okBlock x.1)
  | .riddleRepairComplete block => okBlock block
  | .rdBlockReset block => okBlock block
  | .captureEdge b => okBlock b
  | .nop t th => okTile t && okThread th
  | .halt t th => okTile t && okThread th
  | .brk t th => okTile t && okThread th
  | .fn t th => okTile t && okThread th
  | .loop t th => okTile t && okThread th
  | .lidx t th => okTile t && okThread th
  | .waittick t th => okTile t && okThread th
  | .slot t th => okTile t && okThread th
  | .bell t th => okTile t && okThread th
  | .waitbell t th => okTile t && okThread th
  | .pop t th => okTile t && okThread th
  | .peek t th => okTile t && okThread th
  | .push t th => okTile t && okThread th
  | .commit t th => okTile t && okThread th
  | .drop t th => okTile t && okThread th
  | .waitq t th => okTile t && okThread th
  | .qstat t th => okTile t && okThread th
  | .ld t th => okTile t && okThread th
  | .st t th => okTile t && okThread th
  | .ldv t th => okTile t && okThread th
  | .stv t th => okTile t && okThread th
  | .fence t th => okTile t && okThread th
  | .lock t th => okTile t && okThread th
  | .unlock t th => okTile t && okThread th
  | .mms t th => okTile t && okThread th
  | .wcs t th => okTile t && okThread th
  | .grs t th => okTile t && okThread th
  | .rq t th => okTile t && okThread th
  | .oq t th => okTile t && okThread th
  | .vadd t th => okTile t && okThread th
  | .vsub t th => okTile t && okThread th
  | .vmul t th => okTile t && okThread th
  | .vmax t th => okTile t && okThread th
  | .vmin t th => okTile t && okThread th
  | .vcsel t th => okTile t && okThread th
  | .vshl t th => okTile t && okThread th
  | .vshr t th => okTile t && okThread th
  | .vand t th => okTile t && okThread th
  | .vor t th => okTile t && okThread th
  | .vxor t th => okTile t && okThread th
  | .vcvt t th => okTile t && okThread th
  | .vrelu t th => okTile t && okThread th
  | .zpack t th => okTile t && okThread th
  | .zunpk t th => okTile t && okThread th
  | .vmovi t th => okTile t && okThread th
  | .pcBreakpointMatch n => decide (n < 8)
  | .macStreamStart t => okTile t
  | .macStreamComplete t => okTile t
  | .heavyUnitTokenGrant r c => okRow r && okClaim c
  | .rqComplete t => okTile t
  | .oqComplete t => okTile t
  | .fnCallComplete t u => okTile t && decide (u < 16)
  | .blockMoveComplete t => okTile t
  | .scratchLoadReturn t _ => okTile t
  | .scratchStorePerformed t _ => okTile t
  | .lockGrant t _ => okTile t
  | .weightFillArrival t _ _ => okTile t
  | .entryReachesTail skip => okSkip skip
  | .commitTakesEffect t p => okTile t && decide (p < 32)
  | .entriesBecomeVisible skip => okSkip skip
  | .creditArrival skip => okSkip skip
  | .discardMarkArrival skip => okSkip skip
  | .headRefill skip => okSkip skip
  | .bellTokenArrival t r => okTile t && decide (r < 32)
  | .skipTimerExpiry skip => okSkip skip
  | .hoistBurstIssue h => okHoist h
  | .hoistBurstComplete h _ => okHoist h
  | .waitHalfEnd h => okHoist h
  | .translationWalkComplete c p => okClaim c && decide (p < 2 ^ 32)
  | .holdCopyComplete h => okHoist h
  | .sumpRequest p _ c d n _ _ => decide (p < 64) && okClaim c && okDomain d && decide (1 ≤ n)
  | .portBurstComplete b => decide (b.port < 64)
  | .canaryCountExpiry p => decide (p < 64)
  | .markingComplete _ => true
  | .patrolScrub _ => true
  | .bar4Access c w _ n bs => okClaim c && decide (n ≤ 4096) && (if w then decide (1 ≤ bs.length) && decide (bs.length ≤ 512) else decide (1 ≤ n))
  | .doorbellProducerWrite c r _ => okClaim c && decide (r < 16)
  | .doorbellConsumerWrite c r _ => okClaim c && decide (r < 16)
  | .forwardedDoorbell c r _ => okClaim c && decide (1 ≤ r) && decide (r ≤ 13)
  | .ringEntryTake c r => okClaim c && decide (r < 14)
  | .completionEntryPlace claim => okClaim claim
  | .eventRecordPlace claim => okClaim claim
  | .claimOpen _ => true
  | .claimReset _ => true
  | .claimResetComplete claim => okClaim claim
  | .claimClose _ => true
  | .map _ => true
  | .unmap _ => true
  | .ringSetup _ => true
  | .load _ => true
  | .loadComplete _ => true
  | .shadowLoadComplete t => okTile t
  | .unload _ => true
  | .bind _ => true
  | .start _ => true
  | .stop _ => true
  | .swap _ => true
  | .weightUpdate _ => true
  | .hoist _ => true
  | .resume _ => true
  | .scrub _ => true
  | .snapshot _ => true
  | .snapshotLatch => true
  | .capture _ => true
  | .counterRead _ => true
  | .selfTest _ => true
  | .journalRead _ => true
  | .fenceCommand _ => true
  | .flr claim => okClaim claim
  | .perstNAssert => true
  | .porNAssert => true
  | .porNDeassert _ => true
  | .pllLock => true
  | .tileSramFillComplete => true
  | .checkerSelfTestComplete fs => fs.all FaultReport.wf
  | .hbmTrained => true
  | .sumpAddressTestComplete fs => fs.all FaultReport.wf
  | .firmwareVerified e => decide (e ≤ 4)
  | .sumpFillComplete => true
  | .headframeReady => true
  | .pcieLinkUp => true
  | .rowPowerReady row => okRow row
  | .droopSensorTrip row => okRow row
  | .droopSensorClear row => okRow row
  | .rowClockStepDown row => okRow row
  | .rowClockStepUp row => okRow row
  | .thermalSensorRead c => decide (c < 256)
  | .faultDetection f => f.wf
  | .replayRestart t => okTile t
  | .retirementEffect => true
  | .retirementCopyComplete => true
  | .spareLoadComplete t => okTile t
  | .spareRestart t => okTile t
  | .portTrainingComplete p l n => okPort p && decide (l < 65536) && n.all (fun d => decide (d < 64))
  | .flitReceived p _ n _ => okPort p && decide (n ≤ 3)
  | .nakReceived p n => okPort p && decide (n < 4096)
  | .flitDelivery p => okPort p
  | .idTokenReceived p x y xs ys => decide (p = 1 ∨ p = 3) && decide (xs ≤ 8) && decide (ys ≤ 8) && decide (x < xs) && decide (y < ys)
  | .deviceReport i _ => decide (1 ≤ i) && decide (i < 64)
  | .meshTimeCorrection _ => true
  | .remoteWindowAccess _ o _ => o % 4 == 0 && decide (o < 0x400000)
  | .remoteAccessTimeout => true
  | .enumerate _ => true
  | .retrain p _ => okPort p
  | .hfTickCfgWrite d _ => okDomain d
  | .hfTickPeriodWrite d _ => okDomain d
  | .hfTickTolWrite d _ => okDomain d
  | .hfTickCountLoRead d => okDomain d
  | .journalHeadLoRead claim => okClaim claim
  | .hfSeqLoRead => true
  | .hfEventSeqLoRead => true
  | .emTimeLoRead => true
  | .hfLockSetWrite _ => true
  | .hfFaultCfgWrite _ => true
  | .adQuadCfgWrite q _ => okQuad q
  | .adQuadChmapWrite q _ => okQuad q
  | .adDecLineWrite l _ => okLine l
  | .spArbCfgWrite _ => true
  | .spHoistCfgWrite h _ => okHoist h
  | .pwTdpCfgWrite _ => true
  | .pwThermalCfgWrite _ => true
  | .pwDroopCfgWrite _ => true
  | .counterLowRead _ o => okCounter o
  | .counterHighWrite _ o _ => okCounter o
  | .counterLowWrite _ o _ => okCounter o
  | .dbHalt v => okHalt 1 v
  | .dbResume v => okHalt 2 v
  | .dbStep v => okHalt 3 v
  | .dbForce v => okHalt 4 v
  | .haltTakesEffect t th => okTile t && okThread th
  | .haltLockTimeout t th => okTile t && okThread th
  | .unlockSubmit => true
  | .unlockCheckComplete => true
  | .dbacc v => v.extractLsb' 32 2 == 0
  | .registerWrite o _ => o % 4 == 0 && (decide (o < 0x10000000) || (decide (o < 0x11000000) && decide (8 ≤ o % 0x1000)) || (decide (0x11000000 ≤ o) && decide (o < 0x11100000)))
  | .perstNDeassert => true
  | .treeRisingEdge e => okTree e.tree
  | .stackTemperatureUpdate ts => decide (ts.length = 2)
  | .packagePowerUpdate _ => true
  | .treeFrequencyUpdate ts => decide (ts.length = 8)

end Sys2Proof
end

