-- ==== Sys2Proof/Tests/Slice0.lean ====
section
/-! SUPPORT. Tests: small states, one step each; states that meet the premises of the statements; ill-formed commands; worked
examples of the spec. -/

open Sys2Proof Sys2Proof.Machine

namespace Sys2Proof.Tests

set_option Elab.async false

/-! ## Small states -/

/-- Words of fields (value, low bit). -/
def wd (op : Nat) (fs : List (Nat × Nat)) : Nat := op <<< 58 + (fs.map (fun f => f.1 <<< f.2)).foldl (· + ·) 0

/-- A state in which thread th of tile t may issue word w. -/
def seat (t th w : Nat) (x : Tile := {}) (y : Thread := {}) : State :=
  { State.reset with
    tiles := [(t, { x with mapped := true, logical := t, enabled := true, threads := put x.threads th { y with mode := .running } })]
    mem := memWrite [] (tileAddr t 0xF0000) (natLE 8 w) }

/-- The answer is a next state with a property. -/
def ans (r : Result) (p : State → Bool) : Bool :=
  match r with
  | .next u => p u
  | _ => false

def stops (r : Result) (f : Fault) : Bool :=
  match r with
  | .fault g => g == f
  | _ => false

/-- A device that is ready. -/
def up : State := { State.reset with host := { ready := true }, power := { porAsserted := false, perstAsserted := false } }


/-! ## The queue, reset and the invariants -/

def sQueue : State := { up with pending := [.perstNAssert, .retirementEffect] }
theorem test_queue : sQueue.pending = .perstNAssert :: [.retirementEffect] ∧ step sQueue = exec .perstNAssert { sQueue with pending := [.retirementEffect] } :=
  ⟨rfl, rfl⟩
theorem test_keeps_queue : ans (exec .perstNAssert { sQueue with pending := [.retirementEffect] }) (fun u => u.pending == [.retirementEffect]) = true := by
  decide +kernel
theorem test_idle : up.pending = [] ∧ ans (step up) (fun u => u.now == 1) = true := by decide +kernel
theorem test_idle_por : State.reset.pending = [] ∧ State.reset.power.porAsserted = true
    ∧ ans (step State.reset) (fun u => u == { State.reset with now := 1 }) = true := by decide +kernel
theorem test_reset_memory : State.reset.MemoryOk ∧ ans (step State.reset) (fun u => decide u.MemoryOk) = true := by decide +kernel
theorem test_reset_rows : State.reset.RowsOk ∧ ans (step State.reset) (fun u => decide u.RowsOk) = true := by decide +kernel
theorem test_reset_tiles : (State.reset.tile 15).mapped = false ∧ (State.reset.tile 80).mapped = false ∧ (State.reset.tile 1).mapped = true := by
  decide +kernel

/-! ## Sequencer instructions -/

def sNop : State := seat 1 0 (wd 0 [])
theorem test_nop : sNop.Issues 1 0 0x00 ∧ ans (exec (.nop 1 0) sNop) (fun u => u.thread 1 0 == sNop.issuedThread 1 0 && (u.thread 1 0).regs.pc == 1) = true := by
  decide +kernel
def sHalt : State := seat 1 3 (wd 1 [])
theorem test_halt : sHalt.Issues 1 3 0x01 ∧ ans (exec (.halt 1 3) sHalt) (fun u => (u.thread 1 3).mode == .halted) = true := by decide +kernel
def sWait : State := seat 1 0 (wd 0x10 [])
theorem test_waittick : sWait.Issues 1 0 0x10 ∧ ans (exec (.waittick 1 0) sWait) (fun u => (u.thread 1 0).wait == .tick) = true := by decide +kernel
/-- LOOP CTR = 2, END = 5, TRIP = 3 from word 0. -/
def sLoop : State := seat 1 0 (wd 0x08 [(2, 56), (5, 45), (3, 0)]) { counters := [(2, 0)] }
theorem test_loop : sLoop.Issues 1 0 0x08 ∧ ans (exec (.loop 1 0) sLoop) (fun u =>
    (u.thread 1 0).regs.loops == [{ ctr := 2, first := 1, last := 5, trip := 3 }]) = true := by decide +kernel
/-- GRS SD = 1, GSIZE = 2, WMODE = 4, AMODE = 2, WSBASE = 0x7FF, ABASE = 3, PITCH = 0x1FF. -/
def sGrs : State := seat 1 0 (wd 0x2A [(1, 56), (2, 54), (4, 51), (2, 49), (0x7FF, 38), (3, 27), (0x1FF, 18)])
theorem test_grs : sGrs.Issues 1 0 0x2A ∧ ans (exec (.grs 1 0) sGrs) (fun u => look (u.thread 1 0).regs.sd 1
    == some { gsize := 2, wmode := 4, amode := 2, wsbase := 0x7FF, abase := 3, pitch := 0x1FF }) = true := by decide +kernel
/-- A body of three passes ends with its third, and the outer body that ends on the same word goes on. -/
theorem test_loop_end : advanceLoops [{ ctr := 0, first := 1, last := 4, trip := 3, pass := 2 }, { ctr := 1, first := 1, last := 4, trip := 0, pass := 9 }] 4
    = ([{ ctr := 1, first := 1, last := 4, trip := 0, pass := 10 }], 1) := by decide
theorem test_loop_inside : advanceLoops [{ ctr := 0, first := 1, last := 4, trip := 3, pass := 1 }] 4
    = ([{ ctr := 0, first := 1, last := 4, trip := 3, pass := 2 }], 1) ∧ advanceLoops [{ ctr := 0, first := 1, last := 4, trip := 3 }] 3
    = ([{ ctr := 0, first := 1, last := 4, trip := 3 }], 4) := by decide
/-- LIDX CTR = 1, RD = 7, RA = 8, STRIDE = -4, in pass 3. -/
def sLidx : State := seat 1 0 (wd 0x09 [(1, 56), (7, 51), (8, 46), (0xFFFC, 0)]) { counters := [(1, 0)] }
  { regs := { g := [(8, 100)], loops := [{ ctr := 1, first := 0, last := 4, trip := 0, pass := 3 }] } }
theorem test_lidx : sLidx.Issues 1 0 0x09 ∧ ans (exec (.lidx 1 0) sLidx) (fun u => u.g 1 0 7 == 88 && lookD (u.thread 1 0).busy 7 0 == 1) = true := by
  decide +kernel
/-- QSTAT PORT = 4, REG = 9 on an input port with two words seen. -/
def sQstat : State := { seat 1 0 (wd 0x1E [(4, 53), (9, 46)]) { ports := [(4, { thread := 0, output := false, dests := [(80, 3)] })] } with
  skips := [(80, { words := [{ data := 5, valid := 4, eop := true }, { data := 6, valid := 4 }], headWords := 2, underrun := true })] }
theorem test_qstat : sQstat.Issues 1 0 0x1E ∧ ans (exec (.qstat 1 0) sQstat) (fun u => u.g 1 0 9 == 0x00022400 && lookD (u.thread 1 0).busy 9 0 == 2) = true := by
  decide +kernel
def sQout : State := { seat 1 0 (wd 0x1E [(4, 53), (9, 46)]) { ports := [(4, { thread := 0, output := true, dests := [(80, 3), (81, 2)] })] } with
  skips := [(80, { credit := 70000 }), (81, { credit := 9, timeoutBit := true })] }
theorem test_qstat_output : sQout.Issues 1 0 0x1E ∧ ((look (sQout.tile 1).ports 4).map Port.output) = some true
    ∧ ans (exec (.qstat 1 0) sQout) (fun u => u.g 1 0 9 == 0x00098800) = true := by decide +kernel
def sSlot (n next shift : Nat) : State := seat 1 0 (wd 0x11 [(n, 57), (5, 0)]) { shiftFc := if shift = 0 then none else some 0, nextSlot := next }
def sSlotNext : State := seat 1 0 (wd 0x11 [(1, 57)])
theorem test_slot_next : sSlotNext.Issues 1 0 0x11 ∧ yNext (sSlotNext.pcWord 1 0) = true
    ∧ ans (exec (.slot 1 0) sSlotNext) (fun u => (u.thread 1 0).wait == .nextMark) = true := by decide +kernel
theorem test_slot_late : (sSlot 0 6 1).Issues 1 0 0x11 ∧ yNext ((sSlot 0 6 1).pcWord 1 0) = false ∧ ((sSlot 0 6 1).tile 1).shiftFc.isSome = true
    ∧ ans (exec (.slot 1 0) (sSlot 0 6 1)) (fun u => (u.thread 1 0).wait == .none && (u.counterAt (ctrOff 0 1 11)).value == 1) = true := by decide +kernel
theorem test_slot_waits : (sSlot 0 5 1).Issues 1 0 0x11 ∧ ans (exec (.slot 1 0) (sSlot 0 5 1)) (fun u => (u.thread 1 0).wait == .slot 5) = true
    ∧ ans (exec (.slot 1 0) (sSlot 0 6 0)) (fun u => (u.thread 1 0).wait == .slot 5) = true := by decide +kernel
def sFence (n : Nat) : State := seat 1 0 (wd 0x24 []) { scratch := List.replicate n { load := false, thread := 0, reg := 0, vector := false, size := 4, stile := 4, offset := 0, due := 3 } }
theorem test_fence : (sFence 0).Issues 1 0 0x24 ∧ (sFence 1).Issues 1 0 0x24 ∧ ans (exec (.fence 1 0) (sFence 1)) (fun u => (u.thread 1 0).wait == .fence) = true
    ∧ ans (exec (.fence 1 0) (sFence 0)) (fun u => (u.thread 1 0).wait == .none) = true := by decide +kernel
def sWaitq (n : Nat) : State := { seat 1 0 (wd 0x1D [(4, 53), (2, 0)]) { ports := [(4, { thread := 0, output := true, dests := [(80, 3)] })] } with skips := [(80, { credit := n })] }
theorem test_waitq : (sWaitq 2).Issues 1 0 0x1D ∧ (sWaitq 1).Issues 1 0 0x1D ∧ ans (exec (.waitq 1 0) (sWaitq 1)) (fun u => (u.thread 1 0).wait == .queue 4 2) = true
    ∧ ans (exec (.waitq 1 0) (sWaitq 2)) (fun u => (u.thread 1 0).wait == .none && (u.thread 1 0).readyAt == 1) = true := by decide +kernel
/-- One of the two credits has come in this fc: the condition holds, and the thread goes on in the next (R201). -/
def sWaitqFresh : State := { sWaitq 2 with skips := [(80, { credit := 2, creditFresh := 1, creditAt := 0 })] }
theorem test_waitq_fresh : sWaitqFresh.Issues 1 0 0x1D ∧ sWaitqFresh.waitqHolds 1 4 2 false = false ∧ sWaitqFresh.waitqHolds 1 4 2 true = true
    ∧ (sWaitq 2).waitqHolds 1 4 2 false = true ∧ ans (exec (.waitq 1 0) sWaitqFresh) (fun u => (u.thread 1 0).wait == .none && (u.thread 1 0).readyAt == 2) = true := by
  decide +kernel
def sBrk (en : Bool) : State := { seat 1 0 (wd 0x02 [(7, 0)]) with dbg := { brkEn := if en then [(0, 2)] else [] } }
theorem test_brk_nop : (sBrk false).Issues 1 0 0x02 ∧ (sBrk false).breakEnabled 1 = false
    ∧ ans (exec (.brk 1 0) (sBrk false)) (fun u => u.thread 1 0 == (sBrk false).issuedThread 1 0) = true := by decide +kernel
theorem test_brk_halts : (sBrk true).Issues 1 0 0x02 ∧ (sBrk true).breakEnabled 1 = true ∧ ((sBrk true).thread 1 0).lock = none
    ∧ ans (exec (.brk 1 0) (sBrk true)) (fun u => (u.thread 1 0).mode == .debug && u.faults.eventSeq == 1) = true := by decide +kernel
def sBell (full : Nat) : State :=
  let s := seat 1 0 (wd 0x12 [(3, 52), (0x5A, 0)]) { bells := [(3, { thread := 0, send := true, dests := [(2, 7, 4)] })] }
  s.modTile 2 (fun x => { x with inbox := [(7, List.replicate full 1)] })
theorem test_bell_full : (sBell 4).Issues 1 0 0x12 ∧ (sBell 4).bellFull 1 3 = true
    ∧ ans (exec (.bell 1 0) (sBell 4)) (fun u => (u.thread 1 0).wait == .bellSend 3 0x5A) = true := by decide +kernel
theorem test_bell_sends : (sBell 3).Issues 1 0 0x12 ∧ (sBell 3).bellFull 1 3 = false ∧ (sBell 3).Home 2
    ∧ ans (exec (.bell 1 0) (sBell 3)) (fun u => (u.tile 2).bellFly == [(7, 0x5A, 4)]) = true := by decide +kernel
def sWaitbell (any v : Nat) (q : List Byte) : State := seat 1 0 (wd 0x13 (if any = 1 then [(3, 52), (9, 47), (1, 46)] else [(3, 52), (v, 0)]))
  { bells := [(3, { thread := 0, send := false })], inbox := [(3, q)] }
theorem test_waitbell_any : (sWaitbell 1 0 [0xFF, 2]).Issues 1 0 0x13 ∧ ans (exec (.waitbell 1 0) (sWaitbell 1 0 [0xFF, 2])) (fun u =>
    u.g 1 0 9 == 0xFF && lookD (u.tile 1).inbox 3 [] == [2]) = true := by decide +kernel
theorem test_waitbell_value : (sWaitbell 0 5 [5]).Issues 1 0 0x13 ∧ ans (exec (.waitbell 1 0) (sWaitbell 0 5 [5])) (fun u =>
    (u.thread 1 0).wait == .none && lookD (u.tile 1).inbox 3 [0] == []) = true := by decide +kernel
theorem test_waitbell_waits : (sWaitbell 1 0 []).Issues 1 0 0x13 ∧ ans (exec (.waitbell 1 0) (sWaitbell 1 0 [])) (fun u =>
    (u.thread 1 0).wait == .bell 3 true 0 9) = true := by decide +kernel
/-- A word of an opcode that Table 4.4 does not list, and NOP with a bit set that it does not use. -/
theorem test_illegal : (seat 1 0 (wd 0x0A [])).canIssue 1 0 0x00 = true ∧ (seat 1 0 1).canIssue 1 0 0x00 = true
    ∧ legalWord ((seat 1 0 1).tile 1) 3 0 1 = false ∧ ans (exec (.nop 1 0) (seat 1 0 1)) (fun u =>
      (u.thread 1 0).mode == .illegal && (u.tile 1).mustMiss) = true := by decide +kernel

/-! ## Vector and scalar instructions -/

/-- RD = 3, RA = 1, RB = 2, RC = 4, TYPE and S as given. -/
def sLane (op s ty : Nat) (fs : List (Nat × Nat) := []) : State := seat 1 0
  (wd op ([(s, 57), (ty, 52), (3, 47), (1, 42), (2, 37)] ++ fs))
  {} { regs := { g := [(1, 0xFFFFFFFF), (2, 3), (3, 9), (4, 0x55)], v := [(1, 0xFF01), (2, 0x0203), (4, 0x77)], zm := 5 } }
theorem test_vadd : (sLane 0x30 1 2).Issues 1 0 0x30 ∧ ans (exec (.vadd 1 0) (sLane 0x30 1 2)) (fun u => u.g 1 0 3 == 2) = true := by decide +kernel
theorem test_vadd_lanes : (sLane 0x30 0 1).Issues 1 0 0x30 ∧ ans (exec (.vadd 1 0) (sLane 0x30 0 1)) (fun u => u.v 1 0 3 == 0x0104) = true := by decide +kernel
theorem test_vsub : (sLane 0x31 1 2).Issues 1 0 0x31 ∧ ans (exec (.vsub 1 0) (sLane 0x31 1 2)) (fun u => u.g 1 0 3 == 0xFFFFFFFC) = true := by decide +kernel
theorem test_vmul : (sLane 0x32 1 2).Issues 1 0 0x32 ∧ ans (exec (.vmul 1 0) (sLane 0x32 1 2)) (fun u => u.g 1 0 3 == 0xFFFFFFFD) = true := by decide +kernel
theorem test_vmax : (sLane 0x33 1 2).Issues 1 0 0x33 ∧ ans (exec (.vmax 1 0) (sLane 0x33 1 2)) (fun u => u.g 1 0 3 == 3) = true := by decide +kernel
theorem test_vmin : (sLane 0x34 1 2).Issues 1 0 0x34 ∧ ans (exec (.vmin 1 0) (sLane 0x34 1 2)) (fun u => u.g 1 0 3 == 0xFFFFFFFF) = true := by decide +kernel
theorem test_vcsel : (sLane 0x35 1 2 [(4, 32), (2, 25)]).Issues 1 0 0x35
    ∧ ans (exec (.vcsel 1 0) (sLane 0x35 1 2 [(4, 32), (2, 25)])) (fun u => u.g 1 0 3 == 0xFFFFFFFF) = true
    ∧ ans (exec (.vcsel 1 0) (sLane 0x35 1 2 [(4, 32), (5, 25)])) (fun u => u.g 1 0 3 == 0x55) = true := by decide +kernel
theorem test_vshl : (sLane 0x36 1 2).Issues 1 0 0x36 ∧ ans (exec (.vshl 1 0) (sLane 0x36 1 2)) (fun u => u.g 1 0 3 == 0xFFFFFFF8) = true := by decide +kernel
theorem test_vshr : (sLane 0x37 1 2).Issues 1 0 0x37 ∧ ans (exec (.vshr 1 0) (sLane 0x37 1 2)) (fun u => u.g 1 0 3 == 0xFFFFFFFF) = true := by decide +kernel
theorem test_vand : (sLane 0x38 1 2).Issues 1 0 0x38 ∧ ans (exec (.vand 1 0) (sLane 0x38 1 2)) (fun u => u.g 1 0 3 == 3) = true := by decide +kernel
theorem test_vor : (sLane 0x39 0 2).Issues 1 0 0x39 ∧ ans (exec (.vor 1 0) (sLane 0x39 0 2)) (fun u => u.v 1 0 3 == 0xFF03) = true := by decide +kernel
theorem test_vxor : (sLane 0x3A 1 2).Issues 1 0 0x3A ∧ ans (exec (.vxor 1 0) (sLane 0x3A 1 2)) (fun u => u.g 1 0 3 == 0xFFFFFFFC) = true := by decide +kernel
def sRelu : State := seat 1 0 (wd 0x3C [(1, 57), (2, 52), (3, 47), (1, 42)]) {} { regs := { g := [(1, 0x80000000)] } }
theorem test_vrelu : sRelu.Issues 1 0 0x3C ∧ ans (exec (.vrelu 1 0) sRelu) (fun u => u.g 1 0 3 == 0) = true := by decide +kernel
/-- An INT8 sum clamps and counts (R74); a NaN operand gives the canonical NaN. -/
theorem test_int8_clamp : laneResult 0x30 1 0 0x7F 0x01 0 = (0x7F, 1) ∧ laneResult 0x31 1 0 0x80 0x01 0 = (0x80, 1) ∧ laneResult 0x32 1 0 0x10 0xF8 0 = (0x80, 0) := by
  decide +kernel
theorem test_nan : (decodeElem 6 0xFF800001).isNan = true ∧ (decodeElem 5 0x7FC0).isNan = true ∧ laneResult 0x33 6 0 0xFF800001 0x3F800000 0 = (0x7FC00000, 0) := by
  decide +kernel
/-- VCVT INT8 to FP32 in RD = 3 from RA = 1: 1.0 and -1.0. -/
def sVcvt : State := seat 1 0 (wd 0x3B [(1, 52), (3, 47), (1, 42), (6, 28)]) {} { regs := { v := [(1, 0xFF01)] } }
theorem test_vcvt : sVcvt.Issues 1 0 0x3B ∧ ans (exec (.vcvt 1 0) sVcvt) (fun u => u.v 1 0 3 == 0xBF8000003F800000) = true := by decide +kernel
def sZpack : State := seat 1 0 (wd 0x3D [(1, 52), (3, 47), (1, 42)]) {} { regs := { v := [(1, 0x0500FF00)] } }
theorem test_zpack : sZpack.Issues 1 0 0x3D ∧ ans (exec (.zpack 1 0) sZpack) (fun u => u.v 1 0 3 == 0x05FF && (u.thread 1 0).regs.zm == 0xA) = true := by decide +kernel
def sZunpk : State := seat 1 0 (wd 0x3E [(1, 52), (3, 47), (1, 42)]) {} { regs := { v := [(1, 0x05FF)], zm := 0xA } }
theorem test_zunpk : sZunpk.Issues 1 0 0x3E ∧ ans (exec (.zunpk 1 0) sZunpk) (fun u => u.v 1 0 3 == 0x0500FF00 && (u.thread 1 0).regs.zm == 0xA) = true := by decide +kernel
def sVmovi (s ty ra imm : Nat) : State := seat 1 0 (wd 0x3F [(s, 57), (ty, 52), (3, 47), (ra, 42), (imm, 0)]) {} { regs := { g := [(3, 0x12345678)] } }
theorem test_vmovi : (sVmovi 1 2 0 0x8001).Issues 1 0 0x3F ∧ ans (exec (.vmovi 1 0) (sVmovi 1 2 0 0x8001)) (fun u => u.g 1 0 3 == 0xFFFF8001) = true
    ∧ (sVmovi 1 6 0 0x3F80).Issues 1 0 0x3F ∧ ans (exec (.vmovi 1 0) (sVmovi 1 6 0 0x3F80)) (fun u => u.g 1 0 3 == 0x3F800000) = true := by decide +kernel
theorem test_vmovi_upper : (sVmovi 1 2 1 0xABCD).Issues 1 0 0x3F ∧ ans (exec (.vmovi 1 0) (sVmovi 1 2 1 0xABCD)) (fun u => u.g 1 0 3 == 0xABCD5678) = true
    ∧ (sVmovi 0 1 0 0x7F).Issues 1 0 0x3F ∧ ans (exec (.vmovi 1 0) (sVmovi 0 1 0 0x7F)) (fun u => u.regLane 1 0 1 3 63 == 0x7F) = true := by decide +kernel


/-! ## Queues -/

/-- Tile 1 reads skip 80 on port 4 of thread 0. -/
def sPort (w : Nat) (k : Skip) (y : Thread := {}) : State := { seat 1 0 w { ports := [(4, { thread := 0, output := false, dests := [(80, 3)] })] } y with skips := [(80, k)] }
def kTwo : Skip := { words := [{ data := 0x1122334455, valid := 8, eop := true }, { data := 6, valid := 8 }], headWords := 2, cfg := { size := 4096 } }
def wPop (tk reg : Nat) : Nat := wd 0x18 [(4, 53), (tk, 51), (reg, 46), (if tk = 1 then 2 else 6, 43)]
def sPop : State := sPort (wPop 0 2) kTwo
theorem test_pop : sPop.Issues 1 0 0x18 ∧ sPop.poppable 1 4 = 2 ∧ ans (exec (.pop 1 0) sPop) (fun u =>
    u.v 1 0 2 == 0x1122334455 && ((u.skip 80).words.map RWord.data == [6]) && (u.skip 80).consumed.length == 1) = true := by decide +kernel
def sPopG : State := sPort (wPop 1 7) { kTwo with words := [], cfg := { net := 1, faultUnderrun := true } } { regs := { lastPop := [(4, 0xABCDEF0123)] } }
theorem test_pop_empty : sPopG.Issues 1 0 0x18 ∧ sPopG.poppable 1 4 = 0 ∧ ans (exec (.pop 1 0) sPopG) (fun u =>
    u.g 1 0 7 == 0xCDEF0123 && (u.skip 80).underrun && (u.tile 1).mustMiss && u.faults.eventSeq == 1) = true := by decide +kernel
def sPeek : State := sPort (wd 0x19 [(4, 53), (0, 51), (2, 46), (6, 43)]) kTwo
theorem test_peek : sPeek.Issues 1 0 0x19 ∧ sPeek.poppable 1 4 ≠ 0 ∧ ans (exec (.peek 1 0) sPeek) (fun u =>
    u.v 1 0 2 == 0x1122334455 && (u.skip 80).words.length == 2 && (u.skip 80).consumed == []) = true := by decide +kernel
/-- A block POP of two entries to g[5] + 64, the last 128 bytes of the window. -/
def wBlock (op line n : Nat) : Nat := wd op [(4, 53), (2, 51), (5, 46), (6, 43), (line, 16), (n, 0)]
def sBlock (base : Word) : State := sPort (wBlock 0x18 1 2) kTwo { regs := { g := [(5, base)] } }
theorem test_pop_block : (sBlock 32576).Issues 1 0 0x18 ∧ (sBlock 32576).poppable 1 4 = 2 ∧ ((sBlock 32576).tile 1).AllStarted
    ∧ ans (exec (.pop 1 0) (sBlock 32576)) (fun u => (u.skip 80).words == [] && (u.tile 1).moves.map BlockMove.addr == [32640]) = true := by decide +kernel
theorem test_pop_block_outside : (sBlock 32640).Issues 1 0 0x18 ∧ ans (exec (.pop 1 0) (sBlock 32640)) (fun u => (u.tile 1).mustMiss && (u.tile 1).moves == []) = true
    ∧ ans (exec (.pop 1 0) (sBlock 1)) (fun u => (u.tile 1).mustMiss && u.faults.eventSeq == 1) = true := by decide +kernel
/-- A word register from a skip of the g net, and a zero-run entry into a g register (R144). -/
def sOther (op tk : Nat) (k : Skip) : State := sPort (wd op [(4, 53), (tk, 51), (2, 46), (if tk = 1 then 2 else 6, 43)]) k
def kZero : Skip := { words := [{ data := 5, valid := 1, zrc := true, mask := 1 }], headWords := 1, cfg := { net := 1, size := 4096 } }
theorem test_width : (sOther 0x18 0 kZero).Issues 1 0 0x18 ∧ (sOther 0x19 0 kZero).Issues 1 0 0x19 ∧ (sOther 0x18 1 kZero).Issues 1 0 0x18 ∧ (sOther 0x18 1 kZero).poppable 1 4 = 1
    ∧ (sOther 0x19 1 kZero).Issues 1 0 0x19
    ∧ ans (exec (.pop 1 0) (sOther 0x18 0 kZero)) (fun u => (u.skip 80).widthMismatch && (u.skip 80).words.length == 1 && (u.tile 1).mustMiss && u.faults.eventSeq == 1) = true
    ∧ ans (exec (.peek 1 0) (sOther 0x19 0 kZero)) (fun u => (u.skip 80).widthMismatch && (u.tile 1).mustMiss) = true
    ∧ ans (exec (.pop 1 0) (sOther 0x18 1 kZero)) (fun u => (u.skip 80).widthMismatch && (u.skip 80).words.length == 1) = true := by decide +kernel
def sShort : State := sPort (wBlock 0x18 1 3) kTwo { regs := { lastPop := [(4, 0xEE)] } }
theorem test_pop_block_short : sShort.Issues 1 0 0x18 ∧ sShort.poppable 1 4 = 2 ∧ ans (exec (.pop 1 0) sShort) (fun u =>
    (u.skip 80).words == [] && (u.skip 80).underrun && (u.tile 1).moves.map BlockMove.count == [3] && (u.tile 1).moves.map BlockMove.lastWord == [0xEE]) = true := by decide +kernel
def mPop : BlockMove := { push := false, port := 4, thread := 0, addr := 128, count := 2, taken := [7, 8], issuedAt := 0, startedAt := some 0 }
def sMove (m : BlockMove) : State := (seat 1 0 0 { moves := [m] }).modRow 0 (fun r => { r with fc := 9 })
theorem test_move_pop : ((sMove mPop).tile 1).doneMove ((sMove mPop).rowFc 1) = some (0, mPop) ∧ (sMove mPop).MemoryOk
    ∧ ans (exec (.blockMoveComplete 1) (sMove mPop)) (fun u => memGet u.mem (tileAddr 1 (0x30000 + 192)) == 8 && (u.tile 1).moves == []) = true := by decide +kernel
theorem test_move_push : ((sMove { mPop with push := true, taken := [] }).tile 1).doneMove 9 = some (0, { mPop with push := true, taken := [] })
    ∧ ans (exec (.blockMoveComplete 1) (sMove { mPop with push := true, taken := [] })) (fun u => u.mem == (sMove mPop).mem) = true := by decide +kernel

/-- Tile 1 pushes on port 4 to skips 160 of tile 2, and 240 of tile 3. -/
def sOut (w : Nat) (n : Nat) (y : Thread := {}) (q : Port := { thread := 0, output := true, dests := [(160, 3), (240, 5)] }) : State :=
  { seat 1 0 w { ports := [(4, q)] } y with
    skips := [(160, { credit := n, cfg := { consumer := 2, pushWidth := 3, zrc := false } }), (240, { credit := 5, cfg := { consumer := 3, pushWidth := 3 } })] }
def sPush (n : Nat) : State := sOut (wd 0x1A [(4, 53), (0, 51), (2, 46), (3, 43), (1, 42)]) n { regs := { v := [(2, 0xAABBCCDDEEFF00112233)] } }
theorem test_push : (sPush 1).Issues 1 0 0x1A ∧ (sPush 1).pushFits 1 4 ((sPush 1).pcWord 1 0) = true ∧ (sPush 1).portCredit 1 4 ≠ 0
    ∧ ans (exec (.push 1 0) (sPush 1)) (fun u => (u.skip 160).fly.map Entry.data == [0xCCDDEEFF00112233] && (u.skip 160).credit == 0
      && (u.skip 240).fly.map Entry.due == [6] && (u.skip 240).fly.map Entry.eop == [true]) = true := by decide +kernel
theorem test_push_no_credit : (sPush 0).Issues 1 0 0x1A ∧ (sPush 0).portCredit 1 4 = 0 ∧ ans (exec (.push 1 0) (sPush 0)) (fun u =>
    (u.skip 160).creditViol && (u.skip 240).creditViol && (u.skip 240).fly == [] && (u.tile 1).mustMiss) = true := by decide +kernel
/-- A block PUSH of two entries of 64 bytes with credit for n. -/
def sPushBlock (base : Word) (n wide : Nat) : State := { sOut (wBlock 0x1A 0 2) n { regs := { g := [(5, base)] } } with
  skips := [(160, { credit := n, cfg := { consumer := 2, pushWidth := wide } }), (240, { credit := 5, cfg := { consumer := 3, pushWidth := wide } })] }
theorem test_push_block : (sPushBlock 64 2 6).Issues 1 0 0x1A ∧ (sPushBlock 64 2 6).pushFits 1 4 ((sPushBlock 64 2 6).pcWord 1 0) = true ∧ (sPushBlock 64 2 6).portCredit 1 4 = 2
    ∧ ans (exec (.push 1 0) (sPushBlock 64 2 6)) (fun u => (u.skip 160).credit == 0 && (u.skip 240).credit == 3 && (u.tile 1).moves.map BlockMove.upTo == [2]) = true
    ∧ ans (exec (.push 1 0) (sPushBlock 64 1 6)) (fun u => (u.skip 160).creditViol && (u.tile 1).moves == [] && (u.tile 1).mustMiss) = true
    ∧ ans (exec (.push 1 0) (sPushBlock 63 2 6)) (fun u => (u.tile 1).mustMiss && u.skips == (sPushBlock 63 2 6).skips && u.faults.eventSeq == 1) = true := by decide +kernel
theorem test_push_width : (sPushBlock 64 2 5).pushFits 1 4 ((sPushBlock 64 2 5).pcWord 1 0) = false
    ∧ ans (exec (.push 1 0) (sPushBlock 64 2 5)) (fun u => (u.skip 160).widthMismatch && (u.skip 240).widthMismatch && (u.tile 1).mustMiss && u.faults.eventSeq == 1) = true := by decide +kernel
/-- A COMMIT behind a block PUSH in flight is put off. -/
def sDeferring : State := (sOut (wd 0x1B [(4, 53)]) 5 {} { thread := 0, output := true, dests := [(160, 3), (240, 5)], pushed := 2 }).modTile 1 (fun x => { x with
  moves := [{ push := true, port := 4, thread := 0, addr := 0, count := 2, upTo := 2, issuedAt := 0 }] })
theorem test_commit_deferred : sDeferring.Issues 1 0 0x1B ∧ (sDeferring.tile 1).portBusy 4 2 = true ∧ ans (exec (.commit 1 0) sDeferring) (fun u =>
    (look (u.tile 1).ports 4).map Port.deferred == some [2] && (u.skip 160).marks == [] && (u.thread 1 0).wait == .none) = true := by decide +kernel
def sCommit (all : Nat) : State := sOut (wd 0x1B [(if all = 1 then 0 else 4, 53), (all, 40)]) 5 {} { thread := 0, output := true, dests := [(160, 3), (240, 5)], pushed := 2, committed := 1 }
theorem test_commit : (sCommit 0).Issues 1 0 0x1B ∧ ((sCommit 0).tile 1).portBusy 4 2 = false ∧ (sCommit 0).stageMissed 1 = false ∧ ans (exec (.commit 1 0) (sCommit 0)) (fun u =>
    (u.skip 160).marks == [(2, 5)] && (u.skip 240).effective == 2 && (u.skip 240).marks == [(2, 7)]) = true := by decide +kernel
theorem test_commit_all : (sCommit 1).Issues 1 0 0x1B ∧ ans (exec (.commit 1 0) (sCommit 1)) (fun u =>
    (u.thread 1 0).checkpoint == (u.thread 1 0).regs && !(u.thread 1 0).issued && (u.skip 160).marks == [(2, 5)]) = true := by decide +kernel
def sRelease : State := sPort (wd 0x1B [(4, 53)]) { kTwo with consumed := [{ data := 1, valid := 8 }], consumedCount := 1 }
theorem test_commit_input : sRelease.Issues 1 0 0x1B ∧ (sRelease.tile 1).portBusy 4 1 = false ∧ ans (exec (.commit 1 0) sRelease) (fun u =>
    (u.skip 80).consumed == [] && (u.skip 80).words.length == 2) = true := by decide +kernel
def sDrop (k : Skip) : State := sPort (wd 0x1C [(4, 53)]) k
theorem test_drop : (sDrop kTwo).Issues 1 0 0x1C ∧ ans (exec (.drop 1 0) (sDrop kTwo)) (fun u =>
    (u.skip 80).words.map RWord.data == [6] && !(u.skip 80).dropping) = true := by decide +kernel
theorem test_drop_open : ans (exec (.drop 1 0) (sDrop { kTwo with words := [{ data := 6, valid := 8 }] })) (fun u =>
    (u.skip 80).words == [] && (u.skip 80).dropping) = true ∧ packetWords [{ data := 6, valid := 8 }] = (1, false) := by decide +kernel

theorem test_drop_dropping : (sDrop { kTwo with dropping := true }).Issues 1 0 0x1C ∧ ans (exec (.drop 1 0) (sDrop { kTwo with dropping := true })) (fun u =>
    (u.skip 80).words.length == 2 && (u.skip 80).dropping) = true := by decide +kernel

/-! ## Scratch and locks -/

/-- S-tile 4 belongs to claim 0, and tile 1 addresses it with g[6]. -/
def sScr (op : Nat) (fs : List (Nat × Nat)) (y : Thread := {}) (x : Tile := {}) : State :=
  (seat 1 0 (wd op ([(4, 48), (6, 38)] ++ fs)) x { y with regs := { g := [(6, 655356), (3, 0x80818283)], v := [(3, 0x99)] } }).modTile 4
    (fun x => { x with enabled := true })
def sLd : State := sScr 0x20 [(3, 43), (2, 36)]
theorem test_ld : sLd.Issues 1 0 0x20 ∧ scratchOk (sLd.scratchAddr 1 0 (sLd.pcWord 1 0)) 4 = true
    ∧ sLd.outsideLock 1 0 4 (sLd.scratchAddr 1 0 (sLd.pcWord 1 0)) = false
    ∧ ans (exec (.ld 1 0) sLd) (fun u => (u.tile 1).scratch.map Scratch.offset == [655356] && (u.thread 1 0).await == [3]) = true := by decide +kernel
def sSt : State := sScr 0x21 [(3, 43), (2, 36)]
theorem test_st : sSt.Issues 1 0 0x21 ∧ ans (exec (.st 1 0) sSt) (fun u => (u.tile 1).scratch.map Scratch.data == [0x80818283]) = true := by decide +kernel
def sLdv (op off : Nat) : State := sScr op [(3, 43), (off, 0)]
/-- Offset 4 past 655,356 is 655,360; 64 bytes there leave the SRAM, and 0xFFF84 wraps nothing. -/
theorem test_ldv : (sLdv 0x22 4).Issues 1 0 0x22 ∧ scratchOk 655360 64 = false ∧ ans (exec (.ldv 1 0) (sLdv 0x22 4)) (fun u =>
    (u.tile 1).mustMiss && (u.tile 1).scratch == []) = true := by decide +kernel
def sLdvOk (op : Nat) : State := (sLdv op 0).modThread 1 0 (fun y => { y with regs := { y.regs with g := [(6, 655296)] } })
theorem test_ldv_ok : (sLdvOk 0x22).Issues 1 0 0x22 ∧ ans (exec (.ldv 1 0) (sLdvOk 0x22)) (fun u => (u.thread 1 0).await == [35]) = true := by decide +kernel
theorem test_stv : (sLdvOk 0x23).Issues 1 0 0x23 ∧ ans (exec (.stv 1 0) (sLdvOk 0x23)) (fun u => (u.tile 1).scratch.map Scratch.data == [0x99]) = true := by decide +kernel
/-- The six scratch operations past the end of the data SRAM, and on another line than the one locked. -/
def scrFields (op : Nat) : List (Nat × Nat) := [(4, 0)] ++ (if op < 0x24 then [(3, 43)] else []) ++ (if op < 0x22 then [(2, 36)] else [])
def sBad (op : Nat) : State := sScr op (scrFields op)
def sElse (op : Nat) : State := (sScr op (scrFields op) { lock := some (4, 64) }).modThread 1 0 (fun y => { y with regs := { y.regs with g := [(6, 655292)] } })
def six : List ((Nat → Nat → Instr) × Nat) := [(.ld, 0x20), (.st, 0x21), (.ldv, 0x22), (.stv, 0x23), (.lock, 0x25), (.unlock, 0x26)]
theorem test_scratch_bad : ∀ p ∈ six, (sBad p.2).Issues 1 0 p.2 ∧ scratchOk ((sBad p.2).scratchAddr 1 0 ((sBad p.2).pcWord 1 0)) (scratchSize ((sBad p.2).pcWord 1 0)) = false
    ∧ ans (exec (p.1 1 0) (sBad p.2)) (fun u => (u.tile 1).mustMiss && (u.tile 1).scratch == [] && u.faults.eventSeq == 1) = true := by decide +kernel
theorem test_lock_sequence : ∀ p ∈ six, (sElse p.2).Issues 1 0 p.2 ∧ scratchOk ((sElse p.2).scratchAddr 1 0 ((sElse p.2).pcWord 1 0)) (scratchSize ((sElse p.2).pcWord 1 0)) = true
    ∧ (sElse p.2).outsideLock 1 0 4 ((sElse p.2).scratchAddr 1 0 ((sElse p.2).pcWord 1 0)) = true
    ∧ ans (exec (p.1 1 0) (sElse p.2)) (fun u => (u.thread 1 0).lock == none && (u.tile 1).mustMiss && (u.tile 1).scratch == [] && u.faults.eventSeq == 1) = true := by decide +kernel
def qStore : Scratch := { load := false, thread := 0, order := 1, reg := 3, vector := false, size := 2, stile := 4, offset := 655358, data := 0x80818283, due := 5 }
def sScratch (q : Scratch) : State := (sScr 0x24 [] {} { scratch := [q] }).modRow 0 (fun r => { r with fc := 9 })
theorem test_store_performed : ((sScratch qStore).tile 1).scratch[0]? = some qStore ∧ scratchStorePerformedOk 1 0 (sScratch qStore) = true
    ∧ (sScratch qStore).scratchTarget 1 4 = true ∧ ans (exec (.scratchStorePerformed 1 0) (sScratch qStore)) (fun u =>
      memGet u.mem (tileAddr 4 655359) == 0x82 && memGet u.mem (tileAddr 4 655360) == 0) = true := by decide +kernel
def qLoad : Scratch := { qStore with load := true, signed := true, data := 0 }
def sLoadBack : State := let s := sScratch qLoad; { s with mem := memWrite s.mem (tileAddr 4 655358) [0x83, 0x82] }
theorem test_load_returns : (sLoadBack.tile 1).scratch[0]? = some qLoad ∧ scratchLoadReturnOk 1 0 sLoadBack = true ∧ sLoadBack.scratchTarget 1 4 = true
    ∧ ans (exec (.scratchLoadReturn 1 0) sLoadBack) (fun u => u.g 1 0 3 == 0xFFFF8283) = true := by decide +kernel
def sLock : State := (sLdvOk 0x23).modThread 1 0 (fun y => y)
def sLk : State := (sScr 0x25 []).modThread 1 0 (fun y => { y with regs := { y.regs with g := [(6, 655296)] } })
theorem test_lock : sLk.Issues 1 0 0x25 ∧ sLk.Home 4 ∧ scratchOk (sLk.scratchAddr 1 0 (sLk.pcWord 1 0)) 64 = true
    ∧ ans (exec (.lock 1 0) sLk) (fun u => (u.thread 1 0).wait == .lock 4 655296 && (u.tile 4).lockReqs.length == 1) = true := by decide +kernel
def sGrant : State := ((seat 1 0 0 {} { wait := .lock 4 64 }).modTile 4 (fun x => { x with enabled := true, lockReqs := [(64, 1, 0, 7), (64, 2, 0, 8)] })).modRow 0
  (fun r => { r with fc := 9 })
theorem test_lock_grant : (sGrant.tile 4).oldestLock 64 = some (64, 1, 0, 7) ∧ lockGrantOk 4 64 sGrant = true
    ∧ ans (exec (.lockGrant 4 64) sGrant) (fun u => (u.tile 4).locks == [(64, 1, 0)] && (u.thread 1 0).lock == some (4, 64)) = true := by decide +kernel
def sUnlock (x : Tile) : State := ((sScr 0x26 [] { lock := some (4, 64) } x).modThread 1 0 (fun y => { y with regs := { y.regs with g := [(6, 64)] } })).modTile 4
  (fun x => { x with locks := [(64, 1, 0)] })
theorem test_unlock : (sUnlock {}).Issues 1 0 0x26 ∧ (sUnlock {}).outsideLock 1 0 4 64 = false ∧ ((sUnlock {}).tile 1).scratchPending 0 = false
    ∧ ans (exec (.unlock 1 0) (sUnlock {})) (fun u => (u.thread 1 0).lock == none && (u.tile 4).locks == []) = true := by decide +kernel
theorem test_unlock_waits : (sUnlock { scratch := [qStore] }).Issues 1 0 0x26 ∧ ((sUnlock { scratch := [qStore] }).tile 1).scratchPending 0 = true
    ∧ ans (exec (.unlock 1 0) (sUnlock { scratch := [qStore] })) (fun u => (u.thread 1 0).lock == none && (u.thread 1 0).unlocks == [(4, 64, 0)] && (u.tile 4).locks.length == 1) = true := by decide +kernel
def sUnlocking : State := ((sLoadBack.modThread 1 0 (fun y => { y with unlocks := [(4, 64, 1)] })).modTile 1 (fun x => { x with
  scratch := x.scratch ++ [{ qLoad with number := 2 }] })).modTile 4 (fun x => { x with locks := [(64, 1, 0)] })
theorem test_unlock_load : sUnlocking.lineHeld 1 0 4 655358 = false ∧ sUnlocking.Home 4 ∧ (sUnlocking.thread 1 0).unlocks = [(4, 64, 1)]
    ∧ ans (exec (.scratchLoadReturn 1 0) sUnlocking) (fun u => (u.thread 1 0).unlocks == [] && (u.tile 4).locks == [] && (u.tile 1).scratch.length == 1) = true := by decide +kernel

/-! ## Units -/

/-- MMS of INT8 by INT8: TYPE codes 1 in bits 17..14 and 13..10, BANK 2, SD 1, REL. -/
def wMms : Nat := wd 0x28 [(2, 56), (1, 54), (1, 52), (1, 14), (1, 10)]
def sMms : State := seat 1 0 wMms {} { regs := { sd := [(1, { gsize := 1 })] } }
theorem test_mms : sMms.Issues 1 0 0x28 ∧ (sMms.tile 1).AllStarted ∧ ans (exec (.mms 1 0) sMms) (fun u =>
    (u.tile 1).macs.map MacOp.desc == [{ gsize := 1 }] && (u.tile 1).macs.map MacOp.kind == [.mms]) = true := by decide +kernel
def sWcs : State := seat 1 0 (wd 0x29 [(1, 7), (1, 3)])
theorem test_wcs : sWcs.Issues 1 0 0x29 ∧ ans (exec (.wcs 1 0) sWcs) (fun u => (u.tile 1).macs.map MacOp.kind == [.wcs]) = true := by decide +kernel
def wRq : Nat := wd 0x2B [(255, 50), (5, 28), (1, 24)]
theorem test_rq : (seat 1 0 wRq).Issues 1 0 0x2B ∧ ans (exec (.rq 1 0) (seat 1 0 wRq)) (fun u => (u.tile 1).macs.map MacOp.kind == [.rq]) = true := by decide +kernel
/-- OQ to the window at line 3, INT8, one row. -/
def wOq (port : Nat) : Nat := wd 0x2C ([(3, 36), (1, 26)] ++ if port = 0 then [] else [(1, 35), (port, 30)])
theorem test_oq : (seat 1 0 (wOq 0)).Issues 1 0 0x2C ∧ oToport (wOq 0) = false ∧ ans (exec (.oq 1 0) (seat 1 0 (wOq 0))) (fun u =>
    (u.tile 1).macs.map MacOp.kind == [.oq]) = true := by decide +kernel
def sOqPort (n : Nat) : State := { seat 1 0 (wOq 4) { ports := [(4, { thread := 0, output := true, dests := [(160, 3)] })] } with
  skips := [(160, { credit := n, cfg := { consumer := 2, pushWidth := 5 } })] }
theorem test_oq_port : (sOqPort 1).Issues 1 0 0x2C ∧ oqPushes (wOq 4) = 1 ∧ ((sOqPort 1).skip 160).cfg.width = oqWidth (wOq 4)
    ∧ ans (exec (.oq 1 0) (sOqPort 1)) (fun u => (u.tile 1).macs.map MacOp.upTo == [1] && (u.skip 160).credit == 0) = true
    ∧ ans (exec (.oq 1 0) (sOqPort 0)) (fun u => (u.tile 1).macs == [] && (u.tile 1).mustMiss && (u.skip 160).creditViol) = true := by decide +kernel
theorem test_oq_width : ¬(∀ d ∈ [(160, 3)], (({ sOqPort 1 with skips := [(160, { credit := 1, cfg := { consumer := 2, pushWidth := 6 } })] } : State).skip d.1).cfg.width = oqWidth (wOq 4))
    ∧ ans (exec (.oq 1 0) { sOqPort 1 with skips := [(160, { credit := 1, cfg := { consumer := 2, pushWidth := 6 } })] }) (fun u =>
      (u.skip 160).widthMismatch && (u.tile 1).macs == [] && (u.tile 1).mustMiss && u.faults.eventSeq == 1) = true := by decide +kernel
/-- FN UNIT = 3 (reciprocal), DESC at byte 64, WAIT = 1: FP32 to FP32, 4 elements, one row. -/
def fnDescBytes (dst : Nat) : List Byte := natLE 4 256 ++ natLE 4 dst ++ natLE 2 4 ++ natLE 2 0 ++ [6, 6] ++ natLE 2 1 ++ List.replicate 16 0
def sFn (dst : Nat) : State := let s := seat 8 0 (wd 0x03 [(3, 54), (1, 53), (8, 40)]); { s with mem := memWrite s.mem (tileAddr 8 64) (fnDescBytes dst) }
theorem test_fn : (sFn 65520).Issues 8 0 0x03 ∧ (sFn 65520).unwritten = [] ∧ fnAllowed 3 (leNat (fnDescBytes 65520)) 64 = true
    ∧ ans (exec (.fn 8 0) (sFn 65520)) (fun u => (u.tile 8).fns.length == 1 && (u.thread 8 0).wait == .fn 3) = true := by decide +kernel
/-- An output range one element past the local store. -/
theorem test_fn_forbidden : (sFn 65524).Issues 8 0 0x03 ∧ fnAllowed 3 (leNat (fnDescBytes 65524)) 64 = false
    ∧ ans (exec (.fn 8 0) (sFn 65524)) (fun u => (u.tile 8).fns == [] && (u.tile 8).mustMiss && u.faults.eventSeq == 1) = true := by decide +kernel
def mStream : MacOp := { kind := .mms, word := wMms, thread := 0, issuedAt := 0 }
def sStream (on : Bool) : State := (seat 1 0 0 { macs := [mStream] }).modRow 0 (fun r => { r with fc := 2, tokensOn := on })
theorem test_stream_start : ((sStream false).tile 1).nextStream = some mStream ∧ macStreamStartOk 1 (sStream false) = true
    ∧ ans (exec (.macStreamStart 1) (sStream false)) (fun u => (u.tile 1).macs.map MacOp.startedAt == [some 2]) = true := by decide +kernel
theorem test_stream_waits : macStreamStartOk 1 (sStream true) = true ∧ (sStream true).power.rows.length = 24
    ∧ ans (exec (.macStreamStart 1) (sStream true)) (fun u => (u.row 0).waiting == [(1, 0)]) = true := by decide +kernel
def sToken : State := (sStream true).modRow 0 (fun r => { r with shares := [(0, 1)], waiting := [(1, 0)] })
theorem test_token_grant : (sToken.row 0).oldest 0 = some 1 ∧ heavyUnitTokenGrantOk 0 0 sToken = true
    ∧ ans (exec (.heavyUnitTokenGrant 0 0) sToken) (fun u => (u.row 0).waiting == [] && (u.tile 1).macs.map MacOp.startedAt == [some 2]) = true := by decide +kernel
def mDone : MacOp := { mStream with startedAt := some 0 }
def sDone : State := (seat 1 0 0 { macs := [mDone], fold := true, halfA := .active }).modRow 0 (fun r => { r with fc := 99 })
theorem test_stream_complete : sDone.doneStream 1 = some (0, mDone) ∧ sDone.MemoryOk ∧ sDone.unwritten = []
    ∧ ans (exec (.macStreamComplete 1) sDone) (fun u => (u.tile 1).macs == [] && (u.tile 1).halfA == .free) = true := by decide +kernel
/-- 3 × 4 + 5 × 6 = 42. -/
theorem test_group_sum : groupSum 0 [(.ofInt 3, .ofInt 4), (.ofInt 5, .ofInt 6)] = .fin false 42 1 0 := by decide +kernel
def mUnit (k : MacKind) (w : Nat) : MacOp := { kind := k, word := w, thread := 0, issuedAt := 0, startedAt := some 0 }
def sUnit (m : MacOp) : State := (seat 1 0 0 { macs := [m] }).modRow 0 (fun r => { r with fc := 99 })
theorem test_rq_done : (sUnit (mUnit .rq wRq)).doneRq 1 = some (0, mUnit .rq wRq) ∧ ans (exec (.rqComplete 1) (sUnit (mUnit .rq wRq))) (fun u =>
    (u.tile 1).macs == [] && (look (u.tile 1).rowScale 255).isSome) = true := by decide +kernel
theorem test_oq_done : (sUnit (mUnit .oq (wOq 0))).doneOq 1 = some (0, mUnit .oq (wOq 0)) ∧ ans (exec (.oqComplete 1) (sUnit (mUnit .oq (wOq 0)))) (fun u =>
    (u.tile 1).macs == []) = true := by decide +kernel
def fDone : FnCall := { unit := 3, desc := leNat (fnDescBytes 512), descAddr := 64, thread := 0, issuedAt := 0, startedAt := some 0 }
def sFnDone : State := (seat 8 0 0 { fns := [fDone] } { wait := .fn 3 }).modRow 0 (fun r => { r with fc := 99 })
theorem test_fn_done : sFnDone.doneFn 8 3 = some (0, fDone) ∧ ans (exec (.fnCallComplete 8 3) sFnDone) (fun u =>
    leNat (memRead u.mem (tileAddr 8 92) 4) == 4 && (u.thread 8 0).wait == .none && (u.tile 8).fns == []) = true := by decide +kernel
def sFill (n total : Nat) (h : HalfState) : State := seat 1 0 0 { fold := true, halfB := h, fillB := n, fillTotalB := total }
theorem test_fill : kindOf 1 = 3 ∧ ((sFill 0 0 .free).tile 1).half true = .free ∧ (sFill 0 0 .free).MemoryOk
    ∧ ans (exec (.weightFillArrival 1 true ⟨81920, [1, 2]⟩) (sFill 0 0 .free)) (fun u =>
      (u.tile 1).halfB == .filling && (u.tile 1).fillB == 2 && (u.tile 1).fillTotalB == 81920 && memGet u.mem (tileAddr 1 (halfOffset true + 1)) == 2) = true
    ∧ ans (exec (.weightFillArrival 1 true ⟨2, [1, 2]⟩) (sFill 0 0 .free)) (fun u => (u.tile 1).halfB == .ready) = true := by decide +kernel
theorem test_fill_ready : ((sFill 81918 81920 .filling).tile 1).fillTotal true = 81920 ∧ ans (exec (.weightFillArrival 1 true ⟨81920, [1, 2]⟩) (sFill 81918 81920 .filling)) (fun u =>
      (u.tile 1).halfB == .ready && (u.tile 1).fillB == 0) = true
    ∧ stops (exec (.weightFillArrival 1 true ⟨81919, [1]⟩) (sFill 81918 81920 .filling)) .badOperand = true
    ∧ ans (exec (.weightFillArrival 1 true ⟨1, [1]⟩) (sFill 0 0 .ready)) (fun u => (u.tile 1).halfB == .ready && u.faults.eventSeq == 1) = true := by decide +kernel



/-! ## Along a skip -/

def kFly : Skip := { fly := [{ seq := 1, data := 5, bytes := 8, due := 3 }], tail := [{ data := 4, bytes := 8 }], cfg := { consumer := 2, size := 4096 } }
def sSkip (k : Skip) : State := (({ up with skips := [(160, k)] }.modRow 0 (fun r => { r with fc := 9 })).modTile 2 (fun x => x)).modTile 1 (fun x => x)
theorem test_reaches_tail : ((sSkip kFly).skip 160).fly = [{ seq := 1, data := 5, bytes := 8, due := 3 }] ∧ 3 ≤ (sSkip kFly).skipFc 160
    ∧ ans (exec (.entryReachesTail 160) (sSkip kFly)) (fun u => (u.skip 160).tail.map Entry.data == [4, 5] && (u.skip 160).fly == []
      && (u.skip 160).words == []) = true := by decide +kernel
def kCred (zrc : Bool) : Skip := { creditFly := [(3, 9), (1, 12)], credit := 2, free := 100, cfg := { producer := some (1, 4), zrc := zrc } }
theorem test_credit_back : 9 ≤ (sSkip (kCred false)).producerFc 160 ∧ ans (exec (.creditArrival 160) (sSkip (kCred false))) (fun u =>
      (u.skip 160).credit == 5 && (u.skip 160).creditFly == [(1, 12)]) = true
    ∧ ans (exec (.creditArrival 160) (sSkip (kCred true))) (fun u => (u.skip 160).free == 103) = true := by decide +kernel
def sDeferred (out : Bool) : State := { (sSkip { effective := 1, consumed := [{ data := 1, valid := 8 }, { data := 2, valid := 8 }], consumedCount := 2 }) with
  tiles := [(1, { mapped := true, logical := 1, ports := [(4, { thread := 0, output := out, dests := [(160, 3)], pushed := 2, committed := 2, deferred := [2] })] })] }
theorem test_commit_effect : ((sDeferred true).tile 1).portBusy 4 2 = false ∧ ans (exec (.commitTakesEffect 1 4) (sDeferred true)) (fun u =>
      (u.skip 160).effective == 2 && (u.skip 160).marks == [(2, 14)]) = true
    ∧ ((sDeferred false).tile 1).portBusy 4 2 = false ∧ ans (exec (.commitTakesEffect 1 4) (sDeferred false)) (fun u =>
      (u.skip 160).consumed == []) = true := by decide +kernel
/-- Three pushes of 8 bytes, the second with EOP, read in words of 64 bytes: one word of 16 bytes, the third waits. -/
def kMark : Skip := { marks := [(3, 9)], cfg := { consumer := 2, size := 4096 }, tail := [
  { seq := 1, data := 1, bytes := 8 }, { seq := 2, data := 2, bytes := 8, eop := true }, { seq := 3, data := 3, bytes := 8 }] }
theorem test_visible : entriesBecomeVisibleOk 160 (sSkip kMark) = true ∧ kMark.releaseDue = 0 ∧ kMark.dropping = false
    ∧ ans (exec (.entriesBecomeVisible 160) (sSkip kMark)) (fun u => (u.skip 160).words.map (fun w => (w.data.toNat, w.valid, w.eop)) == [(2 ^ 65 + 1, 16, true)]
      && (u.skip 160).tail.length == 1 && (u.skip 160).covered == 3) = true := by decide +kernel
theorem test_packing : (∀ e ∈ kMark.tail, e.zrc = false ∧ 0 < e.bytes) ∧ 2 ≤ kMark.tail.length
    ∧ (packWords 16 false 3 [] kMark.tail).1.map RWord.valid = [16] ∧ (packWords 8 false 1 [] kMark.tail).2.1.length = 2 := by decide +kernel
def kDis : Skip := { discards := [(1, 9)], fly := [{ seq := 2, data := 5, bytes := 8, due := 10 }], tail := [{ seq := 1, data := 4, bytes := 8 }, { seq := 2, data := 4, bytes := 8 }] }
theorem test_discard : 9 ≤ (sSkip kDis).skipFc 160 ∧ ans (exec (.discardMarkArrival 160) (sSkip kDis)) (fun u =>
    (u.skip 160).fly == [] && (u.skip 160).tail.map Entry.seq == [1]) = true := by decide +kernel
def kHead (w : List (Nat × Nat × Nat × Bool)) : Skip := { fetches := [9], popWait := w, words := [{ data := 7, valid := 8 }] }
def sHead : State := (sSkip (kHead [(1, 0, 3, false)])).modThread 1 0 (fun x => { x with await := [3] })
theorem test_refill : 9 ≤ (sSkip (kHead [])).skipFc 160 ∧ ans (exec (.headRefill 160) (sSkip (kHead []))) (fun u => (u.skip 160).headWords == 1) = true
    ∧ (sHead.skip 160).fetches = [9] ∧ ans (exec (.headRefill 160) sHead) (fun u => (u.thread 1 0).await == [] && (u.skip 160).popWait == []) = true := by
  decide +kernel
def sHeadBlock : State := (sSkip (kHead [(1, 0, 64, false)])).modTile 1 (fun x => { x with
  ports := [(4, { thread := 0, output := false, dests := [(160, 3)] })], moves := [{ mPop with missing := 2 }] })
theorem test_refill_block : sHeadBlock.portSkip 1 4 = 160 ∧ 9 ≤ sHeadBlock.skipFc 160 ∧ sHeadBlock.engineStopped 160 = false
    ∧ ans (exec (.headRefill 160) sHeadBlock) (fun u => (u.skip 160).popWait == [] && (u.tile 1).moves.map BlockMove.missing == [1]
      && (u.tile 1).moves.map BlockMove.lastAt == [10]) = true := by decide +kernel
def kTimer (force : Bool) (n : Nat) : Skip := { activeTimeout := 2, timer := n, tailCommitted := 1, cfg := { consumer := 2, size := 4096, forceTail := force }, tail := [{ seq := 1, data := 1, bytes := 8 }, { seq := 2, data := 2, bytes := 8 }] }
theorem test_timer : 0 < (kTimer false 129).activeTimeout ∧ (kTimer false 129).activeTimeout * 64 < (kTimer false 129).timer
    ∧ (kTimer true 129).releaseDue = 0 ∧ (kTimer true 129).dropping = false
    ∧ ans (exec (.skipTimerExpiry 160) (sSkip (kTimer false 129))) (fun u => (u.skip 160).timeoutBit && (u.skip 160).words == [] && (u.skip 160).timer == 1
      && u.faults.eventSeq == 1) = true
    ∧ ans (exec (.skipTimerExpiry 160) (sSkip (kTimer true 129))) (fun u => (u.skip 160).words.map (fun w => (w.valid, w.forced)) == [(8, true)]) = true
    ∧ stops (exec (.skipTimerExpiry 160) (sSkip (kTimer true 128))) .notDue = true := by decide +kernel
def kFill : Skip := { fillDue := 5, credit := 2, cfg := { consumer := 2, pushWidth := 3 } }
theorem test_fill_push : 0 < kFill.fillDue ∧ 0 < kFill.credit ∧ kFill.cfg.zrc = false ∧ ans (exec (.deadlineFillPush 160) (sSkip kFill)) (fun u =>
    (u.skip 160).fillDue == 3 && (u.skip 160).credit == 0 && (u.skip 160).fly.map Entry.miss == [true, true]) = true := by decide +kernel
/-- Two fill entries on a zero-run skip with 80 free bytes take 8 bytes each, and the last ends the packet. -/
def kFillZ : Skip := { fillDue := 2, free := 80, cfg := { consumer := 2, zrc := true, size := 4096 } }
theorem test_fill_zrc : kFillZ.cfg.zrc = true ∧ 72 ≤ kFillZ.free ∧ ans (exec (.deadlineFillPush 160) (sSkip kFillZ)) (fun u =>
    (u.skip 160).fillDue == 0 && (u.skip 160).free == 64 && (u.skip 160).fly.map Entry.bytes == [0, 0] && (u.skip 160).fly.map Entry.eop == [false, true]) = true
    ∧ stops (exec (.deadlineFillPush 160) (sSkip { kFillZ with free := 71 })) .notDue = true := by decide +kernel

/-! ## Ticks and marks -/

def sDom (d : TickDomain) (now : Nat) : State := { up with ticks := [(2, d)], now := now }
theorem test_tick_count : ((sDom { enable := true } 50).tickEffect 2 50).dom 2 = { enable := true, running := true, count := 0, lastTick := 50, rowFc := List.replicate 24 0 }
    ∧ (((sDom { enable := true, running := true, count := 4 } 50).tickEffect 2 50).dom 2).count = 5 := by decide +kernel
/-- PERIOD 1,200, TOLERANCE 12: 1,188 fc after the last tick is accepted, 1,187 is early, 1,212 is lost. -/
def dExt (due : List Nat) (a : Option Nat) : TickDomain := { enable := true, source := 1, running := true, count := 7, dueTicks := due.map (fun n => (0, n)), lastArrival := a }
theorem test_tick_first : (sDom (dExt [10] none) 10).tickFrom 2 0 = true ∧ (sDom (dExt [10] none) 10).follows 2 = false
    ∧ ans (exec (.tick 2) (sDom { dExt [10] none with running := false } 10)) (fun u => (u.dom 2).running && (u.dom 2).count == 7 && (u.dom 2).lastArrival == some 10) = true := by
  decide +kernel
theorem test_tick_accepted : (sDom (dExt [1188] (some 0)) 1188).tickFrom 2 0 = true ∧ (dExt [1188] (some 0)).external = true
    ∧ ans (exec (.tick 2) (sDom (dExt [1212] (some 0)) 1300)) (fun u => (u.dom 2).count == 8 && (u.dom 2).lastTick == 1212) = true
    ∧ stops (exec (.tick 2) (sDom (dExt [1213] (some 0)) 1300)) .notDue = true
    ∧ ans (exec (.tick 2) (sDom (dExt [1188] (some 0)) 1188)) (fun u => (u.dom 2).count == 8 && (u.dom 2).lastArrival == some 1188) = true
    ∧ ans (exec (.tick 2) (sDom (dExt [1187] (some 0)) 1187)) (fun u => (u.dom 2).count == 7 && (u.dom 2).early && u.faults.eventSeq == 1) = true := by decide +kernel
theorem test_tick_inserted : (sDom (dExt [1213] (some 0)) 1300).tickFrom 2 0 = true
    ∧ ans (exec (.tickInserted 2) (sDom (dExt [1213] (some 0)) 1300)) (fun u => (u.dom 2).lost && (u.dom 2).lastTick == 1212) = true
    ∧ stops (exec (.tickInserted 2) (sDom (dExt [1212] (some 0)) 1300)) .notDue = true ∧ ans (exec (.tickInserted 2) (sDom (dExt [] (some 0)) 1212)) (fun u =>
    (u.dom 2).count == 8 && (u.dom 2).lost && (u.dom 2).lastArrival == some 1212) = true
    ∧ stops (exec (.tickInserted 2) (sDom (dExt [] (some 0)) 1211)) .notDue = true := by decide +kernel
def dInt : TickDomain := { enable := true, running := true, nextInternal := 1200, followAt := [40] }
theorem test_internal : (sDom dInt 1200).follows 2 = false ∧ ans (exec (.internalGeneratorTick 2) (sDom dInt 1200)) (fun u =>
    (u.dom 2).count == 1 && (u.dom 2).nextInternal == 2400) = true := by decide +kernel
def sFollow (rep : Bool) : State := { sDom { dInt with followRepeat := rep } 1200 with emeel := { enumerated := true, follow := 4, tickDelay := 30, meshTime := 40 } }
theorem test_followed : (sFollow true).follows 2 = true ∧ (sFollow true).emeel.head = false
    ∧ ans (exec (.tickMessage 2 false 100) (sFollow false)) (fun u => (u.dom 2).followAt == [40, 130]) = true
    ∧ ans (exec (.tickMessage 2 true 100) (sFollow false)) (fun u => (u.dom 2).followAt == [100] && (u.dom 2).followRepeat) = true
    ∧ ans (exec (.followedTick 2) (sFollow true)) (fun u => (u.dom 2).followAt == [1240] && (u.dom 2).count == 1) = true := by decide +kernel
def sHeadTick : State := { sDom (dExt [10] none) 10 with emeel := { head := true, enumerated := true, follow := 4, tickDelay := 30, meshTime := 40 } }
theorem test_head_tick : sHeadTick.follows 2 = true ∧ sHeadTick.tickFrom 2 0 = true ∧ ans (exec (.tick 2) sHeadTick) (fun u =>
    (u.dom 2).followAt == [70] && (u.dom 2).lastArrival == some 10 && (u.dom 2).count == 7 && u.out == [.tickSent 2 false 40]) = true := by decide +kernel
def sMark (w w1 : Wait) : State := (seat 1 0 0 { tickDue := [9], missMark := true, nextSlot := 3, shiftFc := some 0, image := 5, stage := 0 }
  { wait := w, late := true, regs := { zm := 9 } }).modThread 1 1 (fun x => { x with mode := .running, wait := w1 })
def sTickMark : State := (sMark .tick (.slot 0)).modRow 0 (fun r => { r with fc := 9 })
theorem test_tick_mark : (sTickMark.tile 1).tickDue = [9] ∧ 9 ≤ sTickMark.rowFc 1 ∧ ans (exec (.tickMarkArrival 1) sTickMark) (fun u =>
    (u.thread 1 0).wait == .none && (u.thread 1 0).checkpoint.zm == 9 && (u.thread 1 1).wait == .none && (u.tile 1).shiftFc == some 9) = true
    ∧ ans (exec (.tickMarkArrival 1) (sTickMark.modThread 1 1 (fun x => { x with wait := .slot 2 }))) (fun u => (u.thread 1 1).wait == .slot 2) = true := by decide +kernel
def bRec : BudgetRec := { stage := 0, channels := 8, slotFc := 3, reserveFc := 0, workFc := 0, replayFc := 0 }
def sSlotMark (w : Wait) : State := { (sMark (.slot 3) w) with images := [(5, { budgets := [bRec] })] }.modRow 0 (fun r => { r with fc := 9 })
theorem test_slot_mark : (sSlotMark .tick).tileBudget 1 = some bRec ∧ ans (exec (.slotMarkArrival 1) (sSlotMark .tick)) (fun u =>
    (u.thread 1 0).wait == .none && (u.thread 1 1).wait == .tick && (u.tile 1).nextSlot == 4 && !(u.tile 1).missMark) = true
    ∧ ans (exec (.slotMarkArrival 1) (sSlotMark .nextMark)) (fun u => (u.thread 1 1).wait == .none) = true := by decide +kernel
def sToken3 (w : Wait) : State := (seat 1 0 0 { bellFly := [(7, 0x5A, 9)], inbox := [] } { wait := w }).modRow 0 (fun r => { r with fc := 9 })
theorem test_bell_token : (∀ th, th < 4 → ((sToken3 .none).thread 1 th).wait = .none) ∧ ans (exec (.bellTokenArrival 1 7) (sToken3 .none)) (fun u =>
      lookD (u.tile 1).inbox 7 [] == [0x5A]) = true
    ∧ ((sToken3 (.bell 7 true 0 4)).thread 1 0).wait = .bell 7 true 0 4 ∧ ans (exec (.bellTokenArrival 1 7) (sToken3 (.bell 7 true 0 4))) (fun u =>
      u.g 1 0 4 == 0x5A && (u.thread 1 0).wait == .none && lookD (u.tile 1).inbox 7 [0] == []) = true := by decide +kernel

/-! ## Decision words and tick inputs -/

theorem test_decision_word : decisionWord true false true 31 255 0xFFFF = 0xBFFFFFFF ∧ decisionWord false true false 0 1 2 = 0x40010002 := by decide +kernel
def sLine (at_ : Nat) : State := { up with now := 5, adit := { lines := [(15, { queue := [(at_, 0xAB), (99, 1)] })] } }
theorem test_decision_out : ans (exec (.decisionWordTransmit 15) (sLine 59)) (fun u => u.out == [.decision 15 59 0xAB [(true, 0xBC), (false, 0), (false, 0), (false, 0), (false, 0xAB)]] && (u.decLine 15).queue == [(99, 1)]) = true
    ∧ stops (exec (.decisionWordTransmit 15) (sLine 60)) .notDue = true := by decide +kernel
def sLvds (on inv : Bool) : State := { up with adit := { lvds := [(7, { enable := on, invert := inv })] }, ticks := [(0, { enable := true, source := 1, lvdsInput := 7 })] }
theorem test_lvds : ((sLvds true false).lvds 7).enable = true ∧ ans (exec (.lvdsTickEdge ⟨7, true, 2000, 2000⟩) (sLvds true false)) (fun u => (u.dom 0).dueTicks.length == 1) = true
    ∧ ans (exec (.lvdsTickEdge ⟨7, false, 2000, 2000⟩) (sLvds true true)) (fun u => (u.dom 5).dueTicks.length == 1) = true
    ∧ ans (exec (.lvdsTickEdge ⟨7, false, 2000, 2000⟩) (sLvds true false)) (fun u => u == sLvds true false) = true
    ∧ ans (exec (.lvdsTickEdge ⟨7, true, 1999, 2000⟩) (sLvds true false)) (fun u => u == sLvds true false) = true
    ∧ ans (exec (.lvdsTickEdge ⟨7, true, 2000, 1999⟩) (sLvds true false)) (fun u => u == sLvds true false) = true
    ∧ ((sLvds false false).lvds 7).enable = false ∧ ans (exec (.lvdsTickEdge ⟨7, true, 2000, 2000⟩) (sLvds false false)) (fun u => u == sLvds false false) = true := by decide +kernel

/-! ## Detector lanes -/

def sLane3 (f : Option OpenFrame) (q : Quad := {}) : State := { up with now := 100, adit := {
  lanes := [(5, { up := true, frame := f })], quads := [(1, { q with enable := true })] } }
theorem test_frame_start : (sLane3 none).laneLive 5 = true ∧ ans (exec (.frameStart 5 9 77) (sLane3 none)) (fun u =>
    (u.lane 5).frame == some { chan := 9, seq := 77 }) = true := by decide +kernel
theorem test_frame_restart : (sLane3 (some { chan := 9, seq := 76 })).laneLive 5 = true ∧ ans (exec (.frameStart 5 9 77) (sLane3 (some { chan := 9, seq := 76 }))) (fun u =>
    (u.lane 5).frame == some { chan := 9, seq := 77 } && (u.counterAt (ctrOff 7 5 1)).value == 1) = true := by decide +kernel
/-- Channel 9 of the quad is channel 1 of pipeline 2 in domain 1: the frame is on its way from its first block on. -/
def sMapped : State := sLane3 none { bypassBound := true, chBase := 8, chCount := 3, domain := 1, pipeline := 2 }
theorem test_frame_streams : (sMapped.quad 1).channelOf 9 = some (34, 1) ∧ sMapped.mirrorOf 5 = none ∧ (sMapped.quad 1).channelOf 12 = none ∧ (sMapped.quad 1).channelOf 7 = none
    ∧ ans (exec (.frameStart 5 9 77) sMapped) (fun u => u.adit.arriving.map (fun a => (a.target, a.open_, a.pushed)) == [(some (34, 1), true, 0)]) = true := by decide +kernel
theorem test_data_block : (sLane3 (some { chan := 9, seq := 0 })).laneLive 5 = true ∧ ((sLane3 (some { chan := 9, seq := 0 })).quad 1).bypass = true
    ∧ ans (exec (.dataBlock 5 0x0807060504030201) (sLane3 (some { chan := 9, seq := 0 }))) (fun u =>
      (u.lane 5).frame.map OpenFrame.payload == some [1, 2, 3, 4, 5, 6, 7, 8]) = true
    ∧ ans (exec (.dataBlock 5 1) (sLane3 none)) (fun u => (u.counterAt (ctrOff 7 5 2)).value == 1) = true := by decide +kernel
theorem test_idle_align : ans (exec (.idle 5) (sLane3 none)) (fun u => u == sLane3 none) = true
    ∧ ans (exec (.align 5 3) (sLane3 none)) (fun u => u == sLane3 none) = true := by decide +kernel
/-- The CRC-32 of IEEE 802.3 of "123456789" is 0xCBF43926. -/
def nine : List Byte := [0x31, 0x32, 0x33, 0x34, 0x35, 0x36, 0x37, 0x38, 0x39]
def sOpen : State := sLane3 (some { chan := 9, seq := 0, payload := nine ++ List.replicate 7 0, blocks := 2 })
  { bypassBound := true, chBase := 8, chCount := 3, domain := 1, pipeline := 2 }
theorem test_crc : crc32 nine = 0xCBF43926 := by decide +kernel
theorem test_frame_end : (sOpen.lane 5).frame.isSome = true ∧ sOpen.mirrorOf 5 = none ∧ (sOpen.quad 1).bypass = true
    ∧ ans (exec (.frameEnd 5 0xCBF43926 9) sOpen) (fun u => u.adit.arriving == [{ lane := 5, target := some (34, 1), complete := true, payload := nine, due := 3160 }]) = true
    ∧ ans (exec (.frameEnd 5 0xCBF43926 8) sOpen) (fun u => u.adit.arriving.map Arriving.complete == [false]) = true
    ∧ ans (exec (.uncorrectableCodeword 5) sOpen) (fun u => u.adit.arriving.map Arriving.complete == [false] && (u.counterAt (ctrOff 7 5 4)).value == 1) = true := by
  decide +kernel
def sRiddled : State := { sLane3 (some { chan := 9, seq := 0 }) { bypass := false } with riddle := { blocks := [(1, { loaded := true })] } }
theorem test_frame_end_riddle : (sRiddled.quad 1).bypass = false ∧ sRiddled.mirrorOf 5 = none ∧ (sRiddled.block 1).loaded = true
    ∧ ans (exec (.frameEnd 5 0 0) sRiddled) (fun u => u.adit.arriving == [] && (u.block 1).eofs == [(1, 2200)]) = true := by decide +kernel
def sPair (l : Nat) : State := { up with now := 100, adit := { lanes := [(l, { up := true, frame := some { chan := 9, seq := 4 } })], quads := [(1, { enable := true, mirror := true }), (9, { enable := true })] } }
theorem test_frame_end_mirror : (sPair 5).laneLive 5 = true ∧ (sPair 5).mirrorOf 5 = some 37 ∧ (sPair 37).laneLive 37 = true ∧ (sPair 37).mirrorOf 37 = some 5
    ∧ ans (exec (.frameEnd 5 0 0) (sPair 5)) (fun u => u.adit.mirrors.map (fun m => (m.lane, m.chan, m.primary.isSome, m.secondary.isSome)) == [(5, 9, true, false)]) = true
    ∧ ans (exec (.frameEnd 37 0 0) (sPair 37)) (fun u => u.adit.mirrors.map (fun m => (m.lane, m.chan, m.primary.isSome, m.secondary.isSome)) == [(5, 9, false, true)]) = true := by decide +kernel
def sTickPair (came : List (Nat × Byte)) : State := (sPair 5).modAdit (fun a => { a with tickSeqs := came })
theorem test_tick_pair : ans (exec (.tickBlock 5 7) (sTickPair [])) (fun u => u.adit.tickSeqs == [(5, 7)] && (u.dom 3).dueTicks == [(13, 328)]) = true
    ∧ ans (exec (.tickBlock 5 7) (sTickPair [(37, 7)])) (fun u => u.adit.tickSeqs == [] && u.ticks == (sTickPair []).ticks) = true := by decide +kernel
theorem test_lane_loss : ((sLane3 none).lane 5).up = true ∧ ((sLane3 none).quad 1).mode = 0 ∧ (sLane3 none).mirrorOf 5 = none
    ∧ ans (exec (.laneLosesLock 5) (sLane3 none)) (fun u => !(u.lane 5).up && (u.quad 1).laneDown && u.faults.eventSeq != 0) = true := by decide +kernel
def sDown : State := { up with adit := { quads := [(1, { enable := true, prevSeq := [(3, 4)] })] } }
theorem test_lane_back : (sDown.lane 5).up = false ∧ (sDown.lane 5).retired = false ∧ (sDown.quad 1).enable = true
    ∧ ans (exec (.laneRegainsLock 5) sDown) (fun u => (u.lane 5).up && (u.quad 1).prevSeq == []) = true := by decide +kernel
def sTickBlock : State := { sLane3 none with ticks := [(3, { enable := true, source := 2, lane := 5 })] }
theorem test_tick_block : sTickBlock.laneLive 5 = true ∧ sTickBlock.mirrorOf 5 = none ∧ ans (exec (.tickBlock 5 0) sTickBlock) (fun u =>
    (u.dom 3).dueTicks == [(13, 328)] && u.adit == sTickBlock.adit) = true := by decide +kernel

/-- A MAC control frame of type 0x8808 with opcode 1 and 2 quanta, and a frame of another type. -/
def ethBytes (ty : List Byte) : List Byte := [0x01, 0x80, 0xC2, 0x00, 0x00, 0x01, 2, 0, 0, 0, 0, 1] ++ ty ++ List.replicate 42 0
def sEth (bs : List Byte) : State × List Byte :=
  ({ up with now := 100, adit := { lanes := [(5, { up := true })], quads := [(1, { enable := true, mode := 2, rate := 3 })] } }, bs ++ natLE 4 (crc32 bs))
def ethPause : State × List Byte := sEth (ethBytes [0x88, 0x08, 0, 1, 0, 2])
def ethOther : State × List Byte := sEth (ethBytes [0x86, 0xDD, 0, 1, 0, 2])
theorem test_eth_drop : ethOther.1.ethLive 5 = true ∧ checkEth (ethOther.1.ethPort 5) ethOther.2 = .dropped
    ∧ ans (exec (.ethernetFrame 5 ethOther.2) ethOther.1) (fun u => (u.counterAt (ctrOff 7 5 5)).value == 1) = true := by decide +kernel
theorem test_eth_pause : checkEth (ethPause.1.ethPort 5) ethPause.2 = .pause 2
    ∧ ans (exec (.ethernetFrame 5 ethPause.2) ethPause.1) (fun u => (u.lane 5).paused && decide (100 < (u.lane 5).pausedUntil)) = true := by decide +kernel
/-- An IPv4 datagram of n bytes for address 0.0.0.0 and port 0, without a UDP checksum. -/
def ethIp (sum : Nat) (data : List Byte) : State × List Byte :=
  let n := 28 + data.length
  let ip : List Byte := [0x45, 0] ++ natBE 2 n ++ [0, 0, 0, 0, 1, 17] ++ natBE 2 sum ++ List.replicate 8 0 ++ [0, 0, 0, 0] ++ natBE 2 (8 + data.length) ++ [0, 0] ++ data
  sEth (List.replicate 12 0 ++ [8, 0] ++ ip ++ List.replicate (46 - n) 0)
def driftData (flags crc : Nat) : List Byte := natLE 2 9 ++ natLE 1 flags ++ [0] ++ natLE 4 77 ++ natLE 4 0 ++ natLE 4 crc ++ [1, 2, 3]
def ethShort : State × List Byte := ethIp 0xB9CA (List.replicate 8 0)
def ethFirst : State × List Byte := ethIp 0xB9BF (driftData 1 0)
def ethWhole : State × List Byte := ethIp 0xB9BF (driftData 3 (crc32 [1, 2, 3]))
theorem test_eth_short : checkEth (ethShort.1.ethPort 5) ethShort.2 = .datagram (List.replicate 8 0)
    ∧ ans (exec (.ethernetFrame 5 ethShort.2) ethShort.1) (fun u => (u.counterAt (ctrOff 7 5 5)).value == 1 && u.adit == ethShort.1.adit) = true := by decide +kernel
theorem test_eth_datagram : ethFirst.1.ethLive 5 = true ∧ checkEth (ethFirst.1.ethPort 5) ethFirst.2 = .datagram (driftData 1 0) ∧ (ethFirst.1.quad 1).bypass = true
    ∧ ans (exec (.ethernetFrame 5 ethFirst.2) ethFirst.1) (fun u => (look u.adit.assembly 5).map (fun a => (a.chan, a.payload, a.broken)) == some (9, [1, 2, 3], false)) = true
    ∧ ans (exec (.ethernetFrame 5 ethWhole.2) ethWhole.1) (fun u => (look u.adit.assembly 5).isNone && u.adit.arriving.map (fun a => (a.complete, a.payload, a.due)) == [(true, [1, 2, 3], 6040)]
      && (u.counterAt (ctrOff 7 5 0)).value == 1) = true := by decide +kernel
def sPaused : State := { up with now := 50, adit := { lanes := [(63, { paused := true, pausedUntil := 50 })] } }
theorem test_pause_expiry : (sPaused.lane 63).paused = true ∧ ans (exec (.pauseExpiry 63) sPaused) (fun u => !(u.lane 63).paused) = true := by decide +kernel
def sMirror (p q : Bool) : State := (sLane3 none { mirror := true }).modAdit (fun a => { a with mirrors := [{ lane := 5, chan := 9, seq := 1, endsAt := 90, primary := some (p, [1], 1), secondary := some (q, [2], 2) }] })
theorem test_mirror : (mirrorEnds 5 (sMirror true true)).isSome = true ∧ ((sMirror true true).quad 1).bypass = true
    ∧ ans (exec (.mirrorWindowEnd 5) (sMirror true true)) (fun u => u.adit.arriving.map Arriving.payload == [[1]] && (u.counterAt (ctrOff 7 5 6)).value == 1) = true
    ∧ ans (exec (.mirrorWindowEnd 5) (sMirror false true)) (fun u => u.adit.arriving.map (fun a => (a.payload, a.complete)) == [([2], true)]) = true
    ∧ ans (exec (.mirrorWindowEnd 5) (sMirror false false)) (fun u => u.adit.arriving.map Arriving.complete == [false]) = true := by decide +kernel

/-! ## Frames of a pipeline -/

/-- Pipe 2 of domain 0 with image 5: channels 0 and 1 enter by skip 160 at A-tile 0, 2 entries of 8 bytes each. -/
def recIn : SkipRec := { id := 160, cfg := 0, size := 0, middleRef := 0, timeout := 0, middleOffset := 0, pushRate := 2, popRate := 2, channels := 2, consumerPort := 0, role := 1, hwChannel := 0, hwCount := 2, hwTile := 0 }
def sPipe (a : Option (Nat × Nat)) (p : Pipe) (x : ATile := {}) (credit : Nat := 9) : State :=
  { up with
    now := 400, ticks := [(0, { enable := true, running := true, count := 6 })]
    adit := { arriving := [{ lane := 5, target := a, complete := true, payload := nine, due := 4000 }], atiles := [(0, x)] }
    images := [(5, { flags := 1, channels := 2, skips := [recIn] })]
    pipes := [(2, { p with image := 5, claim := 3, start := some (1, 1) })]
    skips := [(160, { credit := credit, cfg := { consumer := 2, pushWidth := 3, pushRate := 2 } })] }
def pipeOn : Pipe := { image := 5, claim := 3, accepting := true }
theorem test_arrival_unbound : (arrivalOf 5 (sPipe none pipeOn)).isSome = true ∧ ans (exec (.frameArrival 5) (sPipe none pipeOn)) (fun u =>
    (u.counterAt (ctrOff 7 5 7)).value == 1) = true := by decide +kernel
theorem test_arrival_refused : (Pipe.accepts { pipeOn with ending := true, start := some (1, 1) } 7) = false
    ∧ ans (exec (.frameArrival 5) (sPipe (some (2, 1)) { pipeOn with ending := true })) (fun u => (u.counterAt (ctrOff 3 2 2)).value == 1) = true := by decide +kernel
theorem test_arrival_overrun : (Pipe.accepts { pipeOn with seen := [1], start := some (1, 1) } 7) = true
    ∧ ans (exec (.frameArrival 5) (sPipe (some (2, 1)) { pipeOn with seen := [1] })) (fun u => u.faults.eventSeq == 1
      && (u.counterAt (ctrOff 3 2 2)).value == 1) = true := by decide +kernel
theorem test_arrival : (sPipe (some (2, 1)) pipeOn).frameNumber 0 = 7 ∧ ((sPipe (some (2, 1)) pipeOn).image 5).realtime = true
    ∧ ans (exec (.frameArrival 5) (sPipe (some (2, 1)) pipeOn)) (fun u => (u.pipe? 2).map (fun y => (y.seen, y.frames.map (fun f => (f.number, f.complete, f.pushed))))
      == some ([1], [(7, true, 0)])) = true := by decide +kernel
def fIn : Frame := { channel := 0, number := 6, complete := true, payload := nine, held := false }
def sPushing (f : Frame) (credit : Nat) (x : ATile := {}) : State := sPipe none { pipeOn with frames := [f], seen := [0] } x credit
theorem test_ingest_push : (sPushing fIn 9).dataDue 2 0 false = some (160, fIn, true) ∧ ans (exec (.ingestPush 0 2 0) (sPushing fIn 9)) (fun u =>
    (u.skip 160).fly.map (fun e => (e.data.toNat, e.bytes, e.eop)) == [(0x3837363534333231, 8, false)] && (u.skip 160).effective == 1) = true := by decide +kernel
theorem test_ingest_overflow : (sPushing fIn 0).dataDue 2 0 false = some (160, fIn, false) ∧ ans (exec (.ingestPush 0 2 0) (sPushing fIn 0)) (fun u =>
    (u.pipe? 2).map (fun y => y.frames.map (fun f => (f.complete, f.fill))) == some [(false, true)] && (u.counterAt (ctrOff 3 2 5)).value == 1) = true := by decide +kernel
theorem test_zero_fill : (sPushing { fIn with fill := true } 1).fillDueOf 2 0 = some (160, { fIn with fill := true })
    ∧ ans (exec (.zeroFillPush 0 2 0) (sPushing { fIn with fill := true } 1)) (fun u => (u.skip 160).fly.map (fun e => e.data.toNat) == [0]) = true := by decide +kernel
def sDrain (n : Nat) : State := sPushing { fIn with pushed := n } 9 { mode := 2, buffers := [(2, 0, 6, [1, 2, 3, 4, 5, 6, 7, 8, 9])] }
theorem test_drain : ((sDrain 0).drainDue 0).map (fun x => (x.1, x.2.2.1, x.2.2.2.1)) = some (2, 160, fIn) ∧ ans (exec (.scatterDrain 0) (sDrain 0)) (fun u =>
    (u.skip 160).fly.map (fun e => e.data.toNat) == [0x0807060504030201] && (u.atile 0).buffers.length == 1) = true
    ∧ ans (exec (.scatterDrain 0) (sDrain 1)) (fun u => (u.atile 0).buffers == []) = true := by decide +kernel
/-- Eight bytes of a frame that still comes in are at the A-tile: its first entry leaves. -/
def sEarly (n credit : Nat) : State := { sPipe none pipeOn {} credit with
  adit := { arriving := [{ lane := 5, target := some (2, 0), complete := false, payload := nine.take n, due := 0, id := 1, open_ := true, got := [(4000, n)] }], atiles := [(0, {})] } }
theorem test_early : ((sEarly 8 1).earlyDue 2 0).map (fun x => (x.1, x.2.1, x.2.2.2)) = some (160, 0, true) ∧ (sEarly 8 1).dataDue 2 0 false = none
    ∧ ((sEarly 7 1).earlyDue 2 0).isNone = true ∧ ans (exec (.ingestPush 0 2 0) (sEarly 8 1)) (fun u =>
      (u.skip 160).fly.map (fun e => e.data.toNat) == [0x3837363534333231] && u.adit.arriving.map Arriving.pushed == [1]) = true := by decide +kernel
/-- A best-effort pipeline takes a frame where there is credit for its two entries. -/
def sBest (credit : Nat) : State := { sPipe (some (2, 1)) pipeOn {} credit with images := [(5, { channels := 2, skips := [recIn] })] }
theorem test_best_effort : ((sBest 2).image 5).realtime = false ∧ (sBest 2).ingestOwed pipeOn 160 + 2 ≤ ((sBest 2).skip 160).creditAll ∧ ((sBest 2).channelTile 5 1).mode ≠ 2
    ∧ ans (exec (.frameArrival 5) (sBest 2)) (fun u => (u.pipe? 2).map (fun y => (y.seen, y.frames.length)) == some ([1], 1)) = true
    ∧ ans (exec (.frameArrival 5) (sBest 1)) (fun u => (u.pipe? 2).map (fun y => y.frames.map Frame.payload) == some [[]] && u.skips == (sBest 1).skips) = true := by decide +kernel
def sDrainShort : State := sPushing fIn 0 { mode := 2, buffers := [(2, 0, 6, [1, 2, 3, 4, 5, 6, 7, 8, 9])] }
theorem test_drain_short : (sDrainShort.drainDue 0).map (fun x => x.2.2.2.2.1) = some false ∧ ans (exec (.scatterDrain 0) sDrainShort) (fun u =>
    u.skips == sDrainShort.skips && (u.pipe? 2).map (fun y => y.frames.map (fun f => (f.complete, f.fill))) == some [(false, true)]) = true := by decide +kernel
def sTx : State := let bs : List Byte := [7, 0, 9, 0, 0, 0, 0, 0, 0x41]
  { up with
    adit := { lanes := [(5, { up := true })], quads := [(1, { enable := true })] }
    skips := [(txStreamSkip (false, 5), { words := [{ data := bytesLine bs, valid := 9, eop := true }, { data := 1, valid := 8 }], cfg := { valid := true } })] }
theorem test_transmit : transmitPacketOk false 5 sTx = true ∧ (packetOf (sTx.skip (txStreamSkip (false, 5))).words).isSome = true
    ∧ ans (exec (.transmitPacket false 5) sTx) (fun u => u.out == [.rawFrame 5 7 9 [0x41] (BitVec.ofNat 32 (crc32 [0x41])) (driftBlocks 7 9 (crc32 [0x41]) [0x41])]
      && (u.skip (txStreamSkip (false, 5))).words.length == 1) = true := by decide +kernel

def sTxEth (paused : Bool) : State := { sTx with
  adit := { lanes := [(5, { up := true, paused := paused })], quads := [(1, { enable := true, mode := 2, rate := 3 })] }
  skips := [(txStreamSkip (true, 5), { words := [{ data := bytesLine [7, 0, 9, 0, 0, 0, 0, 0, 0x41], valid := 9, eop := true }], cfg := { valid := true } })] }
theorem test_transmit_eth : (sTxEth false).ethLive 5 = true ∧ 9 ≤ 8 + datagramRoom ((sTxEth false).ethPort 5) ∧ ((sTxEth false).lane 5).paused = false
    ∧ ans (exec (.transmitPacket true 5) (sTxEth false)) (fun u => u.out.length == 1 && (u.skip (txStreamSkip (true, 5))).words == []) = true
    ∧ stops (exec (.transmitPacket true 5) (sTxEth true)) .notDue = true := by decide +kernel
/-- A stream that is full without an end of packet. -/
def sTxFull (credit : Nat) : State := { sTx with skips := [(txStreamSkip (false, 5), { words := [{ data := 1, valid := 8 }], credit := credit, cfg := { valid := true } })] }
theorem test_transmit_part : packetOf ((sTxFull 0).skip (txStreamSkip (false, 5))).words = none ∧ ((sTxFull 0).skip (txStreamSkip (false, 5))).creditAll = 0
    ∧ ans (exec (.transmitPacket false 5) (sTxFull 0)) (fun u => u.out == [] && (u.skip (txStreamSkip (false, 5))).words == []
      && look u.adit.txOpen (txStreamSkip (false, 5)) == some [1, 0, 0, 0, 0, 0, 0, 0]) = true
    ∧ stops (exec (.transmitPacket false 5) (sTxFull 1)) .notDue = true := by decide +kernel


/-! ## Riddle -/

/-- A sink table in which the valid sink of port 0 is macrocell 0; a record that registers macrocell 0 on tree 0. -/
def rSinks : List Byte := List.replicate 294 0 ++ [0, 0xC0]
def rCfg : List Byte := List.replicate 98304 0 ++ rSinks
def rCell : List Byte := List.replicate 1344 0 ++ [1, 0]
def rWord : RWordIn := { data := 5, valid := 0xFFFF, sof := true, eof := false, err := false, chid := 1, due := 9 }
/-- Block 3 with an image bound to pipeline 2; macrocell 0 holds 1. -/
def sRid (b : RBlock) : State := { up with now := 40, images := [(5, { channels := 2, bound := some 2 })], riddle := { blocks := [(3, { b with loaded := true, image := 5, q := [0] })], trees := [(0, { enabled := true }), (1, {})] } }
theorem test_rid_in : lookD ((sRid { inFifo := [(2, [rWord])] }).block 3).inFifo 2 [] = [rWord]
    ∧ ans (exec (.riddleInputWord 3 2) (sRid { inFifo := [(2, [rWord])] })) (fun u => look (u.block 3).inNow 2 == some rWord) = true := by decide +kernel
theorem getD_tail (n : Nat) (t : List Byte) (j : Nat) : (List.replicate n (0 : Byte) ++ t).getD (n + j) 0 = t.getD j 0 := by
  rw [List.getD_append_right _ _ _ _ (by simp)]; simp
theorem sink_entry (b : RBlock) (t : List Byte) (i : Nat) (h : b.config = List.replicate 98304 0 ++ t) :
    b.sinkEntry i = (t.getD (2 * i) 0).toNat + 256 * (t.getD (2 * i + 1) 0).toNat := by
  unfold RBlock.sinkEntry RBlock.cfg2 RBlock.cfgByte
  rw [h, show 64 * 1536 + 2 * i + 1 = 98304 + (2 * i + 1) from rfl, show 64 * 1536 + 2 * i = 98304 + 2 * i from rfl, getD_tail, getD_tail]
theorem rid_config : ((sRid { config := rCfg }).block 3).config = List.replicate 98304 0 ++ rSinks := rfl
theorem test_rid_sinks : (sRid { config := rCfg }).sink 3 147 = true ∧ (sRid { config := rCfg }).sink 3 144 = false ∧ (sRid { config := rCfg }).sink 3 145 = false := by
  unfold State.sink
  rw [sink_entry _ rSinks _ rid_config, sink_entry _ rSinks _ rid_config, sink_entry _ rSinks _ rid_config]
  decide +kernel
/-- Sink tables of port 0 with SOF or EOF, beside valid, from macrocell 0. -/
def rSinks4 (sof eof : Bool) : List Byte :=
  let on (b : Bool) : List Byte := if b then [0, 0xC0] else [0, 0]
  List.replicate 288 0 ++ on sof ++ on eof ++ [0, 0] ++ [0, 0xC0]
def rCfg4 (sof eof : Bool) : List Byte := List.replicate 98304 0 ++ rSinks4 sof eof
theorem test_rid_sinks4 (a b : Bool) : (sRid { config := rCfg4 a b }).sink 3 147 = true ∧ (sRid { config := rCfg4 a b }).sink 3 144 = a ∧ (sRid { config := rCfg4 a b }).sink 3 145 = b
    ∧ ∀ j, j < 8 → (sRid { config := rCfg4 a b }).sink 3 (150 + j) = false := by
  have h : ((sRid { config := rCfg4 a b }).block 3).config = List.replicate 98304 0 ++ rSinks4 a b := rfl
  refine ⟨?_, ?_, ?_, fun j hj => ?_⟩ <;> unfold State.sink <;> rw [sink_entry _ _ _ h]
  · cases a <;> cases b <;> decide +kernel
  · cases a <;> cases b <;> decide +kernel
  · cases a <;> cases b <;> decide +kernel
  · have e : (rSinks4 a b).getD (2 * (150 + j) + 1) 0 = 0 := by
      have n : (rSinks4 a b).length = 296 := by cases a <;> cases b <;> decide +kernel
      exact List.getD_eq_default _ _ (by omega)
    have z : (rSinks4 a b).getD (2 * (150 + j)) 0 = 0 := by
      have n : (rSinks4 a b).length = 296 := by cases a <;> cases b <;> decide +kernel
      exact List.getD_eq_default _ _ (by omega)
    rw [e, z]; rfl
theorem test_rid_tag (a b : Bool) : (sRid { config := rCfg4 a b }).sinks 3 150 8 < 2 := by
  have h := (test_rid_sinks4 a b).2.2.2
  have e : (List.range 8).map (fun j => boolNat ((sRid { config := rCfg4 a b }).sink 3 (150 + j)) * 2 ^ j) = (List.range 8).map (fun _ => 0) :=
    List.map_congr_left (fun j hj => by rw [h j (List.mem_range.mp hj)]; simp [boolNat])
  unfold State.sinks; rw [e]; decide
def rOut : ROut := { tag := 1, src := 2, payload := [7], err := false }
/-- The three states of an output port: a frame open, none open, and a full FIFO. -/
theorem test_rid_out : ((sRid {}).block 3).outTaken.contains 0 = false ∧ look ((sRid { outOpen := [(0, rOut)] }).block 3).outOpen 0 = some rOut ∧ look ((sRid {}).block 3).outOpen 0 = none
    ∧ lookD ((sRid { outOpen := [(0, rOut)], outFill := [(0, 1023)] }).block 3).outFill 0 0 < 1024
    ∧ 1024 ≤ lookD ((sRid { outOpen := [(0, rOut)], outFill := [(0, 1024)] }).block 3).outFill 0 0 := by decide +kernel
/-- The matching output EOF leaves at te + 32 ns; what misses it by then is late. -/
theorem test_rid_eof : ((sRid { eofs := [(2, 16)], done := [(2, rOut)] }).block 3).eofDue 2 40 = some (0, 16) ∧ ((sRid { eofs := [(2, 17)] }).block 3).eofDue 2 40 = none
    ∧ ans (exec (.riddleEofDeadline 3 2) (sRid { eofs := [(2, 16)], done := [(2, rOut)] })) (fun u =>
      u.adit.arriving.map (fun a => (a.target, a.payload, a.due)) == [(some (2, 1), [7], 976)]) = true
    ∧ ans (exec (.riddleEofDeadline 3 2) (sRid { eofs := [(2, 16)] })) (fun u => (u.block 3).late && (u.block 3).lateLanes == [2]) = true := by decide +kernel
/-- Presented one tenth of a fc after te + 32 ns. -/
theorem test_rid_eof_late : ((sRid { eofs := [(2, 16)], done := [(2, { rOut with ended := 401 })] }).block 3).eofDue 2 40 = some (0, 16)
    ∧ ((sRid {}).image 5).bound = some 2 ∧ rOut.tag < ((sRid {}).image 5).channels
    ∧ ans (exec (.riddleEofDeadline 3 2) (sRid { eofs := [(2, 16)], done := [(2, { rOut with ended := 401 })] })) (fun u =>
      (u.block 3).late && u.faults.eventSeq == 1 && u.adit.arriving.map (fun a => (a.complete, a.due)) == [(false, 977)]) = true
    ∧ ans (exec (.riddleEofDeadline 3 2) (sRid { eofs := [(2, 16)], done := [(2, { rOut with ended := 400 })] })) (fun u =>
      !(u.block 3).late && u.adit.arriving.map (fun a => (a.complete, a.due)) == [(true, 976)]) = true := by decide +kernel
theorem test_rid_reset : ans (exec (.rdBlockReset 3) (sRid {})) (fun u => (u.block 3).resetAsked) = true := by decide +kernel
/-- Macrocell 0 is registered on tree 0; its terms name no signal, so its sum is 1. -/
theorem test_rid_edge : ((sRid { config := rCell }).tree 0).enabled = true ∧ ((sRid { config := rCell }).block 3).loaded = true ∧ ((sRid { config := rCell }).block 3).portTree ≠ 1
    ∧ (((sRid { config := rCell }).block 3).cell 0).regEn = true ∧ (sRid { config := rCell }).cellNext 3 0 = true ∧ stops (exec (.treeRisingEdge ⟨1, 0, 0⟩) (sRid { config := rCell })) .notDue = true := by decide +kernel
theorem test_rid_readback : (sRid {}).riddle.readbackAt ≤ (sRid {}).now ∧ ans (exec (.riddleConfigReadback [(3, 63), (15, 0)]) (sRid {})) (fun u =>
    (u.block 3).repairs == [63] && (u.block 15).repairs == [] && u.riddle.readbackAt == 1200040) = true := by decide +kernel
theorem test_rid_repair : ((sRid { repairs := [63, 5] }).block 3).repairs ≠ [] ∧ ans (exec (.riddleRepairComplete 3) (sRid { repairs := [63, 5] })) (fun u =>
    (u.block 3).repairs == [5] && (u.block 3).configRepaired && (u.block 3).q == [0] && u.faults.eventSeq == 1) = true := by decide +kernel
theorem test_tree_frequency : ans (exec (.treeFrequencyUpdate [1, 2, 3, 4, 5, 6, 7, 8]) (sRid {})) (fun u => (u.tree 7).freqKhz == 8 && (u.tree 0).enabled) = true := by
  decide +kernel

/-- Claim 3 is open; its CVA 0x20000 is sump page 0x30000, writable, and 0x30000 a read-only page. -/
def mine : Claim := { state := .opened, srIov := true, msixMask := 0, bar4Log := 38, pages := [(2, leafEntry 0x30000 false true), (3, leafEntry 0x40000 false false)], bigPages := [] }
def entryOf (op : Nat) (args : List (Nat × Nat)) : BitVec 512 :=
  BitVec.ofNat 512 (op + 3 <<< 32 + 77 <<< 64 + (args.map (fun a => a.2 <<< (8 * a.1))).foldl (· + ·) 0)
def cmdOf (op : Nat) (args : List (Nat × Nat)) (st : CmdState := .accepted) : Cmd :=
  { seq := 8, claim := 3, ring := 1, index := 0, entry := entryOf op args, state := st }
def sClaim (c : Cmd) (x : Claim := mine) : State := { up with now := 40, host := { ready := true, seq := 20, claims := [(3, x)], cmds := [c], rings := [(48, { entries := 1024, base := ringPhys 3 0 }), (62, { entries := 1024, base := ringPhys 3 14 }), (63, { entries := 1024, base := ringPhys 3 15 })] } }
def cap (rec : List Byte) : RCapture := { seq := 8, tree := 0, shift := 4, edge := 1, dest := 0x20000, record := rec }
def sCap (rec : List Byte) : State := { sClaim (cmdOf 0x0051 [] .running) with images := [(5, { bound := some 2 })], ticks := [(0, { running := true, count := 5 })], riddle := { blocks := [(3, { capture := some (cap rec), captureBusy := true, image := 5 })] } }
theorem test_capture : ((sCap [1, 2]).endCapture 3).mapped 3 0x20000 2 true = true ∧ (cap [1, 2]).record ≠ [] ∧ ((sCap [1, 2]).cmd? 8).isSome = true
    ∧ ans (exec (.captureEdge 3) (sCap [1, 2])) (fun u => memGet u.mem 0x30001 == 2 && (u.block 3).capture.isNone
      && (u.cmd? 8).map Cmd.state == some (.ended true 0 0)) = true := by decide +kernel
theorem test_capture_timeout : captureTimeoutOk 3 (sCap []) = true ∧ ans (exec (.captureTimeout 3) (sCap [])) (fun u =>
    (u.cmd? 8).map Cmd.state == some (.ended false Reason.captureTimeout 0)) = true := by decide +kernel

/-! ## Hoists and sump ports -/

def dAt (a n : Nat) : Desc := { addr := a, length := n, count := 1, stride := 0, lst := 0, fill := false }
/-- 128 bytes within the claim's first page, the source 64 bytes before the end of a 4 KiB page. -/
def hStream (bs : List Burst) (next : Nat) : Stream := { kind := .command 8, claim := 3, src := [dAt 0x20FC0 128], dst := [dAt 0x22000 128], started := true, bursts := bs, next := next }
def sHoist (h : Hoist) : State := (sClaim (cmdOf 0x0030 [(16, 31)] .running)).modHoist 31 (fun _ => h)
def sIssue : State := sHoist { running := some (hStream [] 0) }
theorem test_hoist_issue : (sIssue.hoist 31).running = some (hStream [] 0) ∧ (hStream [] 0).canIssue = true ∧ (sIssue.hoist 31).rt = [] ∧ (placeAt (hStream [] 0).src 0 0).isSome = true
    ∧ (sIssue.translate 3 0x20FC0 false).isSome = true ∧ (sIssue.translate 3 0x22000 true).isSome = true
    ∧ ans (exec (.hoistBurstIssue 31) sIssue) (fun u => (u.hoist 31).running.map (fun y => y.bursts.map (fun b => (b.offset, b.length, b.src, b.dst)))
      == some [(0, 64, 0x30FC0, 0x32000)]) = true := by decide +kernel
def bOne : Burst := { offset := 64, length := 64, src := 0x30000, dst := 0x32000, fill := false }
def sBurst : State := { sHoist { running := some (hStream [bOne] 128) } with mem := memWrite [] 0x3003F [9] }
theorem test_hoist_complete : (hStream [bOne] 128).bursts[0]? = some bOne ∧ sBurst.burstServed 31 64 = true ∧ sBurst.MemoryOk ∧ descTotal (hStream [bOne] 128).src ≤ 128 ∧ (sBurst.cmd? 8).isSome = true
    ∧ ans (exec (.hoistBurstComplete 31 0) sBurst) (fun u => memGet u.mem 0x3203F == 9 && (u.hoist 31).running == none
      && (u.cmd? 8).map (fun c => c.state) == some (.ended true 0 128)) = true := by decide +kernel
/-- A fill of half A of tile 1 waits for it. -/
def sWaitHalf : State := ((sClaim (cmdOf 0x0026 [] .running)).modHoist 31 (fun _ => { waitHalf := true, running := some { kind := .command 8, claim := 3, src := [dAt 0x20000 halfSize], dst := [{ dAt (tileAddr 1 0) halfSize with fill := true, phys := true }], started := true } })).modTile 1 (fun x => { x with fold := true })
theorem test_wait_half : (sWaitHalf.hoist 31).waitHalf = true ∧ sWaitHalf.waitedHalf 31 = some (1, false) ∧ (sWaitHalf.tile 1).halfState false = .free ∧ (sWaitHalf.tile 1).seenFree false 40 = true
    ∧ ans (exec (.waitHalfEnd 31) sWaitHalf) (fun u => !(u.hoist 31).waitHalf) = true := by decide +kernel
/-- An entry that leads to the next table is valid and no leaf, wherever that table lies. -/
theorem table_entry (n : Nat) (h : n % 8 = 0) : leafValid (BitVec.ofNat 64 (n + 1)) = true ∧ (BitVec.ofNat 64 (n + 1)).getLsbD 2 = false := by
  constructor
  · simp only [leafValid, BitVec.getLsbD_ofNat, Nat.testBit_eq_decide_div_mod_eq]; simp; omega
  · simp only [BitVec.getLsbD_ofNat, Nat.testBit_eq_decide_div_mod_eq]; simp; omega
theorem table_addr (c l v : Nat) : tableAddr c l v % 8 = 0 := by
  unfold tableAddr
  by_cases h : l = 4 <;> simp only [h, if_true, if_false] <;> omega
theorem walk_mine : (mine.walk 3 (2 * 0x10000) 4 1).getLast? = some (leafEntry 0x30000 false true) := by
  have e (l : Nat) (h : l = 1 ∨ l = 2 ∨ l = 3) : mine.entry 3 l (2 * 0x10000) = BitVec.ofNat 64 (tableAddr 3 (l + 1) (2 * 0x10000) + 1) := by
    obtain rfl | rfl | rfl := h <;> rfl
  have f (l : Nat) (h : l = 1 ∨ l = 2 ∨ l = 3) : (!leafValid (mine.entry 3 l (2 * 0x10000)) || (mine.entry 3 l (2 * 0x10000)).getLsbD 2) = false := by
    obtain ⟨h1, h2⟩ := table_entry _ (table_addr 3 (l + 1) (2 * 0x10000))
    rw [e l h, h1, h2]; rfl
  have g : (!leafValid (mine.entry 3 4 (2 * 0x10000)) || (mine.entry 3 4 (2 * 0x10000)).getLsbD 2) = true := by decide +kernel
  simp only [Claim.walk, f 1 (by simp), f 2 (by simp), f 3 (by simp), g, Bool.false_eq_true, if_false, if_true]
  rfl
theorem test_walk : (sClaim (cmdOf 0 [])).claim 3 = mine ∧ leafValid (leafEntry 0x30000 false true) = true ∧ (leafEntry 0x30000 false true).getLsbD 2 = true := by
  decide +kernel
def hc (lost : Bool) (order : Nat := 0) : HoldCopy := { pipe := 2, claim := 3, channel := 1, number := 6, decision := 0xAB, length := 3, hold := 160, lo := 0, size := 64, store := 0x20000, record := 0x40, newHead := 0xC0, wrapAt := none, lst := 0, lost := lost, order := order }
def hCopy (c : HoldCopy) (bs : List Burst) (next : Nat) : Stream := { kind := .hold c, claim := 3, bursts := bs, next := next }
def sHold (x : Hoist) : State := { sHoist x with skips := [(160, { cfg := { segments := [(4, 0, 64)], size := 64 } })], mem := memWrite [] (tileAddr 4 0) [1, 2, 3] }
def sCopied (lost : Bool) (next : Nat) : State := sHold { running := some (hCopy (hc lost) [] next) }
/-- A copy of three bytes is a record of 128: 127 of them written are not enough. -/
theorem test_hold_copy : (sCopied true 0).sump.storeDone = [] ∧ ans (exec (.holdCopyComplete 31) (sCopied true 0)) (fun u => u.mem == (sCopied true 0).mem) = true
    ∧ stops (exec (.holdCopyComplete 31) (sCopied false 127)) .notDue = true
    ∧ ((sCopied false 128).modHoist 31 (fun y => { y with running := none })).openCopies 3 0x20000 = []
    ∧ ans (exec (.holdCopyComplete 31) (sCopied false 128)) (fun u => leNat (memRead u.mem 0x30000 8) == 0xC0 && (u.hoist 31).running == none) = true := by
  decide +kernel
/-- An earlier copy of the store is still queued: HEAD waits for it. -/
theorem test_hold_order : ans (exec (.holdCopyComplete 31) (sHold { running := some (hCopy (hc false 1) [] 128), rt := [hCopy (hc false 0) [] 0] })) (fun u =>
    leNat (memRead u.mem 0x30000 8) == 0 && u.sump.storeDone == [(3, 0x20000, 1, 0xC0)]) = true := by decide +kernel
def bRec2 : Burst := { offset := 0, length := 128, src := 0x10000000000, dst := 0x30040, fill := false }
theorem test_hold_burst : ((sHold {}).holdRecord (hc false)).length = 128 ∧ (sHold {}).burstServed 31 0 = true
    ∧ ans (exec (.hoistBurstComplete 31 0) (sHold { running := some (hCopy (hc false) [{ bRec2 with src := 0 }] 128) })) (fun u =>
      memGet u.mem 0x30040 == 6 && memGet u.mem 0x30048 == 0xAB && memRead u.mem 0x30080 4 == [1, 2, 3, 0]) = true := by decide +kernel

def run (q d : Nat) : Run := { requester := q, claim := 3, domain := 0, total := 8, left := 1, write := false, since := 0, deadline := d }
def sPortAt (x : SumpPort) : State := { sClaim (cmdOf 0 []) with sump := { ports := [(63, x)] } }
theorem test_port_request : requesterOk 87 = true ∧ requesterOk 36 = true ∧ requesterOk 37 = false ∧ requesterOk 40 = true
    ∧ ans (exec (.sumpRequest 63 5 3 0 64 9 false) (sPortAt {})) (fun u => (u.sumpPort 63).holder.map Run.deadline == some 9 && (u.sumpPort 63).grantAt == 40) = true
    ∧ ans (exec (.sumpRequest 63 5 3 0 1 9 false) (sPortAt { holder := some (run 1 5) })) (fun u => (u.sumpPort 63).pending.length == 1) = true := by decide +kernel
def pBusy : SumpPort := { holder := some (run 1 5), pending := [run 2 9, run 3 7], decisions := 4 }
theorem test_port_grants : (run 1 5).left ≤ 1 ∧ (pBusy.decisions + 1) % (sPortAt pBusy).sump.lwInterval.toNat ≠ 0
    ∧ ans (exec (.portBurstComplete ⟨63, false⟩) (sPortAt pBusy)) (fun u => (u.sumpPort 63).holder == some (run 3 7) && (u.sumpPort 63).pending == [run 2 9]) = true
    ∧ ans (exec (.portBurstComplete ⟨63, false⟩) (sPortAt { holder := some (run 1 5) })) (fun u => (u.sumpPort 63).holder == none) = true := by decide +kernel
def portsOf (n : Nat) : State := { sPortAt {} with sump := { ports := [(32, { pending := List.replicate n (run 1 5) })] } }
/-- The last request below the bound of a stack is presented; the next waits; the other stack has its own bound. -/
theorem test_port_bound : (portsOf 1023).stackRequests 1 = 1023 ∧ (portsOf 1024).stackRequests 1 = 1024 ∧ (portsOf 1024).stackRequests 0 = 0
    ∧ lstOk 5 9 = true ∧ lstOk 33 1200 = true ∧ lstOk 40 9 = false ∧ domainOk 5 7 = true ∧ domainOk 32 1 = false
    ∧ ans (exec (.sumpRequest 63 5 3 0 64 9 false) (portsOf 1023)) (fun u => (u.sumpPort 63).holder.isSome) = true
    ∧ ans (exec (.sumpRequest 63 5 3 0 64 9 false) (portsOf 1024)) (fun u => (u.sumpPort 63).waiting.map Run.lst == [9] && (u.sumpPort 63).holder.isNone) = true := by decide +kernel
theorem test_port_retry : ans (exec (.portBurstComplete ⟨63, true⟩) (sPortAt pBusy)) (fun u => (u.sumpPort 63).retried && (u.sumpPort 63).holder == some (run 1 5)) = true
    ∧ ans (exec (.portBurstComplete ⟨63, false⟩) (sPortAt { holder := some { run 1 5 with left := 2 } })) (fun u => (u.sumpPort 63).holder.map Run.left == some 1) = true := by decide +kernel
def sCanary : State := { sPortAt { holder := some (run 40 5), pending := [run 40 9] } with now := 65537 }
theorem test_canary : ((sCanary.sumpPort 63).holder = some (run 40 5)) ∧ (sCanary.sumpPort 63).limit = 65536 ∧ stops (exec (.canaryCountExpiry 63) { sCanary with now := 65536 }) .notDue = true
    ∧ ans (exec (.canaryCountExpiry 63) sCanary) (fun u => u.sump.logRequester == 40 && u.sump.enginesStopped == [40] && (u.sumpPort 63).pending == []) = true := by decide +kernel

/-! ## The headframe -/

def sDb (r : Ring) (ready : Bool := true) : State := let s := sClaim (cmdOf 0 []); { s with host := { s.host with ready := ready, rings := [(49, r)] } }
theorem test_doorbell : (sDb {}).functionOn 3 = true ∧ ans (exec (.doorbellProducerWrite 3 1 4) (sDb { entries := 64 } false)) (fun u => u == sDb { entries := 64 } false) = true
    ∧ ans (exec (.doorbellProducerWrite 3 1 1) (sDb { entries := 64, consumer := 0xFFFFFFC1, producer := 0xFFFFFFC1 })) (fun u => (u.ring 3 1).producer == 1) = true
    ∧ ans (exec (.doorbellProducerWrite 3 1 2) (sDb { entries := 64, consumer := 0xFFFFFFC1, producer := 0xFFFFFFC1 })) (fun u =>
      (u.ring 3 1).producer == 0xFFFFFFC1 && (u.ring 3 1).overrun && u.faults.eventSeq == 1) = true
    ∧ ans (exec (.doorbellProducerWrite 3 1 0) (sDb {})) (fun u => (u.ring 3 1).overrun) = true := by decide +kernel
theorem test_doorbell_consumer : ((sClaim (cmdOf 0 [])).ring 3 14).entries ≠ 0 ∧ ans (exec (.doorbellConsumerWrite 3 14 5) (sClaim (cmdOf 0 []))) (fun u =>
      (u.ring 3 14).consumer == 5) = true
    ∧ ans (exec (.doorbellProducerWrite 3 14 5) (sClaim (cmdOf 0 []))) (fun u => (u.ring 3 14).producer == 0) = true
    ∧ ans (exec (.doorbellConsumerWrite 3 13 5) (sClaim (cmdOf 0 []))) (fun u => (u.ring 3 13).consumer == 0) = true := by decide +kernel
def sMember (s : State) : State := { s with emeel := { idTaken := true, deviceId := 2, ports := [(0, { up := true })], idPort := some 0 } }
theorem test_forwarded : (sMember (sDb { entries := 64 })).emeel.head = false ∧ ans (exec (.forwardedDoorbell 3 1 64) (sMember (sDb { entries := 64 }))) (fun u =>
    (u.ring 3 1).producer == 64) = true := by decide +kernel
theorem test_doorbell_away : ans (exec (.doorbellProducerWrite 3 1 4) { sDb { entries := 64, device := 1 } with emeel := { head := true } }) (fun u => u.out == [.doorbell 1 3 1 4]) = true
    ∧ ans (exec (.forwardedDoorbell 3 1 64) (sMember (sDb {}))) (fun u => (u.ring 3 1).overrun && u.faults.eventSeq == 1) = true
    ∧ ans (exec (.forwardedDoorbell 3 1 65) (sMember (sDb { entries := 64 }))) (fun u => (u.ring 3 1).overrun && (u.ring 3 1).producer == 0) = true := by decide +kernel
/-- An entry in ring 1 of claim 3 at CVA 0x20000 + 64: RESUME, and one whose claim byte is wrong. -/
def sTake (e : BitVec 512) : State := { sDb { entries := 64, base := 0x20000, consumer := 65, producer := 66 } with mem := memWrite [] 0x30040 (lineBytes e) }
theorem test_take : (sTake (entryOf 0x0031 [(16, 5)])).nextTake = some (3, 1) ∧ ((sTake (entryOf 0x0031 [(16, 5)])).claim 3).tags = [] ∧ (sTake (entryOf 0x0031 [(16, 5)])).MemoryOk
    ∧ ans (exec (.ringEntryTake 3 1) (sTake (entryOf 0x0031 [(16, 5)]))) (fun u => u.host.cmds.map Cmd.seq == [8, 20] && (u.ring 3 1).consumer == 66
      && (u.claim 3).tags.map (fun t => t.1) == [77]) = true := by decide +kernel
theorem test_take_invalid : (sTake (entryOf 0x0031 [(22, 1)])).nextTake = some (3, 1) ∧ ans (exec (.ringEntryTake 3 1) (sTake (entryOf 0x0031 [(22, 1)]))) (fun u =>
    (u.cmd? 20).map Cmd.state == some (.ended false Reason.badCommand 0) && (u.claim 3).badCommand) = true := by decide +kernel
def sEnded : State := sClaim { cmdOf 0x0031 [] (.ended true 0 0) with record := 0xABCD }
theorem test_completion : (sEnded.nextCompletion 3).isSome = true ∧ sEnded.isMember = false ∧ ans (exec (.completionEntryPlace 3) sEnded) (fun u =>
    (u.ring 3 14).producer == 1 && u.host.cmds == [] && memRead u.mem (ringPhys 3 14) 2 == [0xCD, 0xAB] && u.out == [.msix 3 0]) = true := by decide +kernel
def sHeld : State := sClaim (cmdOf 0 []) { mine with held := [0x1234, 0x5678] }
theorem test_event_place : (sHeld.claim 3).held = [0x1234, 0x5678] ∧ ans (exec (.eventRecordPlace 3) sHeld) (fun u =>
    (u.claim 3).held == [0x5678] && memRead u.mem (ringPhys 3 15) 2 == [0x34, 0x12] && u.out == [.msix 3 1]) = true := by decide +kernel
def masked : Claim := { mine with msixMask := 3 }
theorem test_masked : ans (exec (.completionEntryPlace 3) (sClaim { cmdOf 0x0031 [] (.ended true 0 0) with record := 0xABCD } masked)) (fun u =>
      (u.ring 3 14).producer == 1 && u.out == [] && (u.claim 3).msixPending == 1) = true
    ∧ ans (exec (.eventRecordPlace 3) (sClaim (cmdOf 0 []) { masked with held := [0x1234] })) (fun u => u.out == [] && (u.claim 3).msixPending == 2) = true := by decide +kernel
theorem test_completion_member : (sMember sEnded).isMember = true ∧ ((sMember sEnded).nextCompletion 3).isSome = true
    ∧ ans (exec (.completionEntryPlace 3) (sMember sEnded)) (fun u => u.host.cmds == [] && u.mem == sEnded.mem && (u.ring 3 14).producer == 0) = true := by decide +kernel
def sBar4 : State := { sClaim (cmdOf 0 []) with mem := memWrite [] 0x30FF0 [7] }
theorem test_bar4 : sBar4.inBar4 3 (2 ^ 38 - 16) 16 = true ∧ sBar4.inBar4 3 (2 ^ 38 - 16) 17 = false ∧ sBar4.mapped 3 0x20FF0 16 false = true ∧ sBar4.mapped 3 0x30000 16 true = false ∧ sBar4.mapped 3 0x50000 4 false = false
    ∧ ans (exec (.bar4Access 3 false 0x20FF0 16 []) sBar4) (fun u => u.out == [.readBytes (7 :: List.replicate 15 0)]) = true
    ∧ ans (exec (.bar4Access 3 true 0x20FF1 2 [8, 9]) sBar4) (fun u => memRead u.mem 0x30FF0 3 == [7, 8, 9]) = true
    ∧ ans (exec (.bar4Access 3 false 0x50000 2 []) sBar4) (fun u => u.out.head? == some (.readBytes [0xFF, 0xFF]) && (u.claim 3).bar4Fault) = true
    ∧ ans (exec (.bar4Access 3 false 0x20FF0 16 []) (sDb {} false)) (fun u => u == sDb {} false) = true := by decide +kernel


/-! ## Host commands -/

/-- Command 8 of claim 3. -/
def did (r : Result) (st : CmdState) (p : State → Bool := fun _ => true) : Bool := ans r (fun u => ((u.cmd? 8).map Cmd.state == some st) && p u)
def failed (r : Result) (reason : Nat) : Bool := did r (.ended false reason 0)
def cOpen (t : Nat) : Cmd := { cmdOf 0x0001 [(16, t), (20, 9)] with claim := 0 }
def withVf (s : State) (t : Nat) : State := s.modClaim t (fun x => { x with srIov := true })
theorem test_claim_open : (withVf (sClaim (cOpen 5)) 5).Ready 8 0x0001 (cOpen 5) ∧ ((withVf (sClaim (cOpen 5)) 5).claim 5).state = .closed
    ∧ (withVf (sClaim (cOpen 5)) 5).isMember = false ∧ ((sClaim (cOpen 5)).claim 5).srIov = false
    ∧ failed (exec (.claimOpen 8) (sClaim (cOpen 5))) Reason.notPermitted = true
    ∧ did (exec (.claimOpen 8) (withVf (sClaim (cOpen 5)) 5)) (.ended true 0 0) (fun u => (u.claim 5).quota == 9 && (u.ring 5 15).entries == 1024) = true
    ∧ failed (exec (.claimOpen 8) (sClaim (cOpen 3))) Reason.claimState = true := by decide +kernel
def cmd (op : Nat) (args : List (Nat × Nat)) : State := sClaim (cmdOf op args)
def sReset (op : Nat) : State := { cmd op [(16, 3)] with pipes := [(2, { image := 5, claim := 3 }), (3, { image := 6, claim := 4 })] }
theorem test_claim_reset : (sReset 2).Ready 8 0x0002 (cmdOf 2 [(16, 3)]) ∧ ((sReset 2).claim 3).state = .opened
    ∧ did (exec (.claimReset 8) (sReset 2)) .running (fun u => (u.claim 3).state == .draining && u.pipes.map (fun p => p.2.ending) == [true, false]) = true
    ∧ failed (exec (.claimReset 8) (cmd 2 [(16, 4)])) Reason.claimState = true := by decide +kernel
theorem test_claim_close : (sReset 3).Ready 8 0x0003 (cmdOf 3 [(16, 3)]) ∧ did (exec (.claimClose 8) (sReset 3)) .running (fun u => (u.claim 3).state == .draining) = true
    ∧ failed (exec (.claimClose 8) (cmd 3 [(16, 4)])) Reason.claimState = true := by decide +kernel
theorem test_reset_draining : (sClaim (cmdOf 2 [(16, 3)]) { mine with state := .draining }).Ready 8 0x0002 (cmdOf 2 [(16, 3)])
    ∧ did (exec (.claimReset 8) (sClaim (cmdOf 2 [(16, 3)]) { mine with state := .draining })) .running (fun u => (u.claim 3).state == .draining) = true
    ∧ failed (exec (.claimClose 8) (sMember (sReset 3))) Reason.notPermitted = true := by decide +kernel
def sDraining (op : Nat) : State := { sClaim { cmdOf op [(16, 3)] .running with claim := 0 } { mine with state := .draining } with images := [(5, { claim := 3 })] }
theorem test_reset_complete : ((sDraining 2).claim 3).state = .draining ∧ (sDraining 2).pipes = [] ∧ (sDraining 2).emeel.awaiting = [] ∧ did (exec (.claimResetComplete 3) (sDraining 2)) (.ended true 0 40) (fun u =>
    (u.claim 3).state == .opened && u.images == []) = true ∧ (cmdOf 2 [(16, 3)]).resets 3 = true := by decide +kernel
theorem test_close_complete : ((sDraining 3).claim 3).state = .draining ∧ (sDraining 3).host.cmds.length = 1
    ∧ did (exec (.claimResetComplete 3) (sDraining 3)) (.ended true 0 0) (fun u => (u.claim 3).state == .closed && (u.claim 3).pages == [] && (u.ring 3 1).entries == 0) = true := by
  decide +kernel
theorem test_flr : (sReset 0).functionOn 3 = true ∧ ans (exec (.flr 3) (sReset 0)) (fun u => (u.claim 3).state == .draining && (u.ring 3 0).entries == 1024) = true
    ∧ (withVf (sReset 0) 4).functionOn 4 = true ∧ ((sReset 0).claim 4).state = .closed ∧ ans (exec (.flr 4) (withVf (sReset 0) 4)) (fun u => u == withVf (sReset 0) 4) = true
    ∧ ((sReset 0).claim 3).state = .opened ∧ ans (exec (.flr 0) (sReset 0)) (fun u => (u.claim 3).state == .draining) = true := by decide +kernel

def recTile : TileRec := { tile := 1, kind := 3, flags := 0, threads := 1, stage := 0, starts := [0], progFirst := 0, progWords := 1, counters := 0, ports := 0, bells := 0, initFirst := 0, initCount := 0 }
/-- MAP of one page at CVA 0x50000: writable sump, the window of tile 1, device 4; over a mapped page. -/
def mapArgs (cva kind page : Nat) : List (Nat × Nat) := [(16, cva), (24, 1), (28, 4), (29, kind), (30, page)]
def sMap (cva kind page : Nat) : State := let s := sClaim (cmdOf 0x0010 (mapArgs cva kind page)) { mine with quota := 1 }
  { s with images := [(5, { claim := 3, loaded := true, tiles := [recTile] })], emeel := { head := true, enumerated := true, devices := 5 } }
theorem test_map : (sMap 0x50000 0 0).Ready 8 0x0010 (cmdOf 0x0010 (mapArgs 0x50000 0 0)) ∧ inHeadframeWindow 0x50000 0x10000 = false
    ∧ ((sMap 0x50000 0 0).planPages false false true 1 5 []).isSome = true
    ∧ did (exec (.map 8) (sMap 0x50000 0 0)) .running (fun u => (u.cmd? 8).map Cmd.plan == some [(10, leafEntry 0 false true)] && u.sump.used == [0]) = true
    ∧ failed (exec (.map 8) (sMap 0x20000 0 0)) Reason.alreadyMapped = true := by decide +kernel
theorem test_map_other : (sMap 0x50000 1 1).claimOwns 3 ((sMap 0x50000 1 1).physical 1) = true
    ∧ did (exec (.map 8) (sMap 0x50000 1 1)) (.ended true 0 0) (fun u => look (u.claim 3).pages 5 == some (leafEntry (tileAddr 1 0) false true)) = true
    ∧ did (exec (.map 8) (sMap 0x50000 2 4)) .running (fun u => (u.cmd? 8).map (fun m => m.plan.length) == some 0) = true := by decide +kernel
theorem test_map_refused : inHeadframeWindow 0x0BF00000 0x10000 = true ∧ inHeadframeWindow 0x0BEF0000 0x10000 = false ∧ inHeadframeWindow 0x10000000 0x10000 = false
    ∧ failed (exec (.map 8) (sMap 0x0BF00000 0 0)) Reason.notPermitted = true ∧ failed (exec (.map 8) (sMap 0x20000 1 1)) Reason.alreadyMapped = true
    ∧ (sMap 0x50000 1 2).claimOwns 3 ((sMap 0x50000 1 2).physical 2) = false ∧ failed (exec (.map 8) (sMap 0x50000 1 2)) Reason.notPermitted = true
    ∧ failed (exec (.unmap 8) (cmd 0x0011 [(16, 0x0BF00000), (24, 1)])) Reason.notPermitted = true := by decide +kernel
def sMarking : State := { sClaim { cmdOf 0x0010 [(24, 1)] .running with plan := [(10, leafEntry 0x70000 false true)] } with mem := memWrite [] 0x70008 [1] }
theorem test_marking : (sMarking.cmd? 8).map (fun c => (c.plan.length, c.arg 24 4)) = some (1, 1) ∧ sMarking.MemoryOk ∧ did (exec (.markingComplete 8) sMarking) (.ended true 0 0) (fun u =>
    memGet u.mem 0x70008 == 0 && u.isUnwritten 0x70008 && u.isUnwritten 0x7FFF8 && !u.isUnwritten 0x80000) = true := by decide +kernel
theorem test_unmap : (cmd 0x0011 [(16, 0x20000), (24, 2)]).Ready 8 0x0011 (cmdOf 0x0011 [(16, 0x20000), (24, 2)])
    ∧ did (exec (.unmap 8) (cmd 0x0011 [(16, 0x20000), (24, 2)])) (.ended true 0 0) (fun u => (u.claim 3).pages == []) = true
    ∧ failed (exec (.unmap 8) (cmd 0x0011 [(16, 0x30000), (24, 2)])) Reason.notMapped = true
    ∧ failed (exec (.unmap 8) (sClaim (cmdOf 0x0011 [(16, 0x20000), (24, 1)]) { mine with pages := [(2, leafEntry 0x30000 false true ||| 8)] })) Reason.pinned = true := by
  decide +kernel
theorem test_ring_refused : failed (exec (.ringSetup 8) (sMember (cmd 0x0012 [(16, 13), (20, 64), (24, 0x20000)]))) Reason.notPermitted = true
    ∧ (cmd 0x0012 [(16, 13), (20, 64), (24, 0x30000)]).mapped 3 0x30000 4096 true = false
    ∧ failed (exec (.ringSetup 8) (cmd 0x0012 [(16, 13), (20, 64), (24, 0x30000)])) Reason.notMapped = true := by decide +kernel
theorem test_ring_setup : (cmd 0x0012 [(16, 13), (20, 64), (24, 0x20000)]).Ready 8 0x0012 (cmdOf 0x0012 [(16, 13), (20, 64), (24, 0x20000)])
    ∧ did (exec (.ringSetup 8) (cmd 0x0012 [(16, 13), (20, 64), (24, 0x20000)])) (.ended true 0 0) (fun u => u.ring 3 13 == { entries := 64, base := 0x20000 }) = true
    ∧ did (exec (.ringSetup 8) (cmd 0x0012 [(16, 13)])) (.ended true 0 0) (fun u => u.ring 3 13 == {}) = true
    ∧ failed (exec (.ringSetup 8) ((cmd 0x0012 [(16, 13)]).modRing 3 13 (fun r => { r with producer := 1 }))) Reason.busy = true := by decide +kernel

/- A best-effort image of one channel, as a file: M-tile 30 pops one entry of the ingest skip 2400 of A-tile 31 and pushes
one entry of the decision skip 2480; S-tile 27 holds both middles and the hold 2481. -/

def sectRow (ty size count off len : Nat) : List Byte := natLE 2 ty ++ natLE 2 size ++ natLE 4 count ++ natLE 8 off ++ natLE 8 len ++ natLE 8 0
def tileRec (t kind threads words ports counters : Nat) : List Byte :=
  natLE 2 t ++ natLE 1 kind ++ natLE 1 0 ++ natLE 1 threads ++ natLE 1 0 ++ natLE 14 0 ++ natLE 2 words ++ natLE 2 counters ++ natLE 16 ports ++ natLE 24 0
def routeRec (kind hops src entry dest path : Nat) : List Byte :=
  natLE 1 kind ++ natLE 1 hops ++ natLE 2 src ++ natLE 2 entry ++ natLE 2 dest ++ natLE 4 0 ++ natLE 4 1 ++ natLE 32 path
def skipRec (id cfg size off port role : Nat) : List Byte :=
  natLE 2 id ++ natLE 2 cfg ++ natLE 4 size ++ natLE 2 27 ++ natLE 2 0 ++ natLE 4 off ++ natLE 4 1 ++ natLE 4 1 ++ natLE 1 0 ++ natLE 1 port
    ++ natLE 4 role ++ natLE 2 1 ++ natLE 16 31
def ownRec (t use off len ref : Nat) : List Byte := natLE 2 t ++ natLE 2 use ++ natLE 4 off ++ natLE 4 len ++ natLE 4 ref
/-- A perpetual body over words 1 to 4: WAITTICK, POP of p0 to v1, PUSH of g1 to p1, COMMIT of all ports. -/
def imgProg : List Byte := natLE 8 (wd 0x08 [(4, 45)]) ++ natLE 8 (wd 0x10 []) ++ natLE 8 (wd 0x18 [(1, 46), (6, 43)])
  ++ natLE 8 (wd 0x1A [(1, 53), (1, 51), (1, 46), (2, 43)]) ++ natLE 8 (wd 0x1B [(1, 40)])
def imageBody (sum part : Nat) : List Byte :=
  natLE 4 0x4C44414F ++ natLE 2 3 ++ natLE 2 128 ++ natLE 2 0x96 ++ natLE 1 part ++ natLE 1 3 ++ natLE 4 0 ++ natLE 8 1104 ++ natLE 4 sum ++ natLE 4 6
    ++ natLE 8 128 ++ natLE 4 1200 ++ natLE 2 1 ++ natLE 2 1 ++ natLE 2 1 ++ natLE 78 0
    ++ sectRow 1 64 3 320 192 ++ sectRow 2 0 0 512 40 ++ sectRow 4 48 4 576 192 ++ sectRow 5 48 3 768 144 ++ sectRow 6 16 6 960 96
    ++ sectRow 13 16 1 1088 16
    ++ (tileRec 27 1 0 1 0 0 ++ tileRec 30 3 1 5 0xC8 8 ++ tileRec 31 0 0 1 0 0) ++ padTo 64 imgProg
    ++ (routeRec 0 1 31 0xFF 2400 3 ++ routeRec 1 1 30 1 2480 1 ++ routeRec 4 3 30 0 2400 0x3F ++ routeRec 4 4 31 0 2480 0xFF)
    ++ padTo 192 (skipRec 2400 0x60 4096 0 128 1 ++ skipRec 2480 0x120 4096 4096 0 2 ++ skipRec 2481 0x60 128 0 0 3)
    ++ padTo 128 (ownRec 30 1 0 0x28000 0 ++ ownRec 30 2 0x30000 0x8000 0 ++ ownRec 27 4 0 4096 2400 ++ ownRec 27 4 4096 4096 2480
      ++ ownRec 27 7 8192 128 2481 ++ ownRec 27 8 8320 647040 0)
    ++ [0xFF] ++ natLE 15 0
def imageFile (part : Nat) : List Byte := imageBody (crc32 (imageBody 0 part)) part
def sLoad (part : Nat) : State := { cmd 0x0020 [(16, 0x20000)] with mem := memWrite [] 0x30000 (imageFile part) }
set_option maxRecDepth 100000 in
theorem test_load_reads : (sLoad 0xB0).Ready 8 0x0020 (cmdOf 0x0020 [(16, 0x20000)]) ∧ ((sLoad 0xB0).readCva 3 0x20000 1104) = some (imageFile 0xB0)
    ∧ fieldLE (imageFile 0xB0) 16 8 = 1104 ∧ (sLoad 0xB0).freeHandle = some 1 ∧ (sLoad 0xB0).readCva 3 0x20000 128 = some ((imageFile 0xB0).take 128)
    ∧ (sLoad 0xB0).host.cmds.any (fun d => d.opcode == 0x0020 && decide (d.seq < 8)) = false
    ∧ ((sLoad 0xB0).runsOf 3 0x20000 1104 false).all (fun r => !isWindow r.2.2.addr) = true := by decide +kernel
set_option maxRecDepth 100000 in
theorem test_load : (sLoad 0xB0).loadChecks 3 1 (imageFile 0xB0) 0 (some []) = none := by decide +kernel
set_option maxRecDepth 100000 in
theorem test_load_fails : (sLoad 0xB1).loadChecks 3 1 (imageFile 0xB1) 0 (some []) = some { code := LoadCode.part } := by decide +kernel
def sShadow (busy : Bool) : State := { sClaim (cmdOf 0x0020 [] .running) with
  images := [(1, { claim := 3, loadSeq := 8, tiles := (parseImage (imageFile 0xB0) 3).tiles.take 2 })], tiles := [27, 30, 31].map (fun t => (t, { mapped := true, logical := t, enabled := true, shadowLoading := busy, shadowValid := !busy, shadowImage := 1 })) }
theorem test_shadow : ((sShadow true).tile 30).shadowLoading = true ∧ ((sShadow true).row 0).powering = false ∧ ans (exec (.shadowLoadComplete 30) (sShadow true)) (fun u => (u.tile 30).shadowValid) = true := by
  decide +kernel
theorem test_load_complete : (sShadow false).loadingImage 8 = some 1
    ∧ ((sShadow false).image 1).tiles.all (fun r => ((sShadow false).tile ((sShadow false).physical r.tile)).shadowImage == 1 && ((sShadow false).tile ((sShadow false).physical r.tile)).shadowValid) = true ∧ ((sShadow false).image 1).predecessor = none
    ∧ did (exec (.loadComplete 8) (sShadow false)) (.ended true 0 (loadResult 1 0xFFFFFFFF 0)) (fun u => (u.image 1).loaded && (u.tile 30).image == 1 && (u.tile 30).activeBank && (u.thread 30 0).mode == .running) = true := by
  decide +kernel
def sImage (op : Nat) (args : List (Nat × Nat)) (x : Image) (p : Pipe := { image := 5, claim := 3 }) : State :=
  { cmd op ([(16, 5)] ++ args) with images := [(5, { x with claim := 3, loaded := true }), (6, { x with claim := 3, loaded := true, bound := none, flags := x.flags ^^^ 16 })], pipes := if x.bound.isSome then [(34, p)] else [], ticks := [(1, { enable := true, running := true, count := 9 })] }
theorem test_unload : (sImage 0x0021 [] {}).Ready 8 0x0021 (cmdOf 0x0021 [(16, 5)]) ∧ (sImage 0x0021 [] {}).hasImage 3 5 = true
    ∧ did (exec (.unload 8) (sImage 0x0021 [] {})) (.ended true 0 0) (fun u => (look u.images 5).isNone) = true
    ∧ failed (exec (.unload 8) (sImage 0x0021 [] { bound := some 34 })) Reason.busy = true ∧ failed (exec (.unload 8) (cmd 0x0021 [(16, 5)])) Reason.badHandle = true := by
  decide +kernel
theorem test_bind : (sImage 0x0022 [(18, 1), (19, 2)] {}).Ready 8 0x0022 (cmdOf 0x0022 [(16, 5), (18, 1), (19, 2)])
    ∧ (sImage 0x0022 [(18, 1), (19, 2)] {}).bindRefusal {} 1 2 0 0 0 = none
    ∧ did (exec (.bind 8) (sImage 0x0022 [(18, 1), (19, 2)] {})) (.ended true 0 0) (fun u => (u.image 5).bound == some 34 && (u.pipe? 34).map Pipe.image == some 5) = true
    ∧ did (exec (.bind 8) (sImage 0x0022 [(18, 0), (19, 2)] {})) (.ended false Reason.bindRejected 1) = true := by decide +kernel
/-- Shift 10 has not begun, shift 9 has. -/
theorem test_start : (sImage 0x0023 [(24, 10)] { bound := some 34 }).Ready 8 0x0023 (cmdOf 0x0023 [(16, 5), (24, 10)])
    ∧ (sImage 0x0023 [(24, 10)] { bound := some 34 }).boundPipe 3 5 = some 34
    ∧ did (exec (.start 8) (sImage 0x0023 [(24, 10)] { bound := some 34 })) .running (fun u => (u.pipe? 34).map Pipe.start == some (some (10, 8)) && (u.image 5).started) = true
    ∧ failed (exec (.start 8) (sImage 0x0023 [(24, 9)] { bound := some 34 })) Reason.tooLate = true := by decide +kernel
theorem test_stop : (sImage 0x0024 [(24, 10)] { bound := some 34 }).Ready 8 0x0024 (cmdOf 0x0024 [(16, 5), (24, 10)])
    ∧ did (exec (.stop 8) (sImage 0x0024 [(24, 10)] { bound := some 34 })) .running (fun u => (u.pipe? 34).map Pipe.stop == some (some (10, 8))) = true
    ∧ failed (exec (.stop 8) (sImage 0x0024 [(24, 9)] { bound := some 34 })) Reason.tooLate = true := by decide +kernel
def sSwap (n : Nat) : State := sImage 0x0025 [(18, 6), (24, n)] { bound := some 34, swapKey := 7 }
theorem test_swap : (sSwap 10).Ready 8 0x0025 (cmdOf 0x0025 [(16, 5), (18, 6), (24, 10)]) ∧ successorOk ((sSwap 10).image 5) ((sSwap 10).image 6) = true ∧ (sSwap 10).hasImage 3 6 = true
    ∧ did (exec (.swap 8) (sSwap 10)) .running (fun u => (u.pipe? 34).map Pipe.swap == some (some (10, 8, 6))) = true
    ∧ failed (exec (.swap 8) (sSwap 9)) Reason.tooLate = true := by decide +kernel
/-- 2 bytes from CVA 0x20000 to the last two of an owned range. -/
def wArgs : List (Nat × Nat) := [(18, 4), (20, 62), (24, 2), (32, 0x20000)]
def sWu (started : Bool) : State := { sImage 0x0026 wArgs { started := started, owns := [{ tile := 4, use := 1, offset := 0, length := 64, ref := 0 }] } with mem := memWrite [] 0x30000 [5, 6] }
theorem test_weight_update : (sWu false).Ready 8 0x0026 (cmdOf 0x0026 ([(16, 5)] ++ wArgs)) ∧ (sWu false).readCva 3 0x20000 2 = some [5, 6] ∧ (sWu false).MemoryOk
    ∧ (∀ d ∈ (sWu false).host.cmds, d.claim < 256) ∧ ((sWu false).image 5).weightRange 4 62 2 = true ∧ ((sWu false).image 5).weightRange 4 63 2 = false
    ∧ did (exec (.weightUpdate 8) (sWu false)) (.ended true 0 0) (fun u => memRead u.mem (tileAddr 4 62) 2 == [5, 6]) = true
    ∧ failed (exec (.weightUpdate 8) (sWu true)) Reason.busy = true := by decide +kernel
/-- A whole half of a folding tile goes as a fill. -/
def wHalf : List (Nat × Nat) := [(18, 1), (20, 81920), (24, 81920), (32, 0x20000)]
def sWuHalf : State := (sImage 0x0026 wHalf { owns := [{ tile := 1, use := 1, offset := 0, length := 163840, ref := 0 }] }).modTile 1 (fun x => { x with fold := true })
theorem test_weight_half : sWuHalf.Ready 8 0x0026 (cmdOf 0x0026 ([(16, 5)] ++ wHalf)) ∧ (sWuHalf.image 5).weightRange 1 81920 81920 = true ∧ (sWuHalf.tile (sWuHalf.physical 1)).fold = true
    ∧ (sWuHalf.hoist sWuHalf.leastHoist).be.length = 0
    ∧ did (exec (.weightUpdate 8) sWuHalf) .running (fun u => (u.hoist sWuHalf.leastHoist).be.length == 1) = true := by decide +kernel
theorem test_hoist_command : (cmd 0x0030 [(16, 0xFF), (24, 0x20000), (32, 0x20040)]).Ready 8 0x0030 (cmdOf 0x0030 [(16, 0xFF), (24, 0x20000), (32, 0x20040)])
    ∧ (cmd 0x0030 []).hoistFull 0xFF = false
    ∧ did (exec (.hoist 8) (cmd 0x0030 [(16, 0xFF), (24, 0x20000), (32, 0x20040)])) .running (fun u => (u.hoist 0).be.map Stream.lists == [(0x20000, 0x20040)]) = true := by decide +kernel
def sResume : State := ((cmd 0x0031 [(16, 66)]).modHost (fun h => { h with cmds := h.cmds ++ [{ cmdOf 0x0030 [] .running with seq := 7, entry := BitVec.ofNat 512 (0x30 + 66 <<< 64) }] })).modHoist
  2 (fun h => { h with aside := [{ kind := .command 7, claim := 3 }] })
theorem test_resume : sResume.Ready 8 0x0031 (cmdOf 0x0031 [(16, 66)]) ∧ did (exec (.resume 8) sResume) (.ended true 0 0) (fun u => (u.hoist 2).aside == [] && (u.hoist 2).be.length == 1) = true
    ∧ failed (exec (.resume 8) (cmd 0x0031 [(16, 66)])) Reason.notFaulted = true := by decide +kernel
theorem test_scrub : (cmd 0x0040 [(16, 0x20000), (24, 64), (32, 0x20000)]).Ready 8 0x0040 (cmdOf 0x0040 [(16, 0x20000), (24, 64), (32, 0x20000)])
    ∧ did (exec (.scrub 8) (cmd 0x0040 [(16, 0x20000), (24, 64), (32, 0x20000)])) (.ended true 0 0) (fun u => memGet u.mem 0x30000 == 64) = true
    ∧ failed (exec (.scrub 8) (cmd 0x0040 [(16, 0x20000), (24, 64), (32, 0x30000)])) Reason.notMapped = true := by decide +kernel
def sCtr (i : Nat) (dest : Nat := 0x20000) : State := { cmd 0x0060 [(16, 5), (20, i), (24, 1), (32, dest)] with dbg := { counters := [(ctrOff 5 3 0, { value := 258 })] } }
theorem test_counter_read : (sCtr 3).Ready 8 0x0060 (cmdOf 0x0060 [(16, 5), (20, 3), (24, 1), (32, 0x20000)]) ∧ (sCtr 3).mayRead 3 5 3 = true
    ∧ did (exec (.counterRead 8) (sCtr 3)) (.ended true 0 0) (fun u => memRead u.mem 0x30000 3 == [2, 1, 0]) = true ∧ failed (exec (.counterRead 8) (sCtr 4)) Reason.notPermitted = true := by
  decide +kernel
theorem test_counter_unmapped : (sCtr 3 0x30000).mayRead 3 5 3 = true ∧ failed (exec (.counterRead 8) (sCtr 3 0x30000)) Reason.notMapped = true := by decide +kernel
def sJr (head : DWord) (dest : Nat := 0x20000) : State := sClaim (cmdOf 0x0080 [(16, 4), (24, 9), (32, dest)]) { mine with journalHead := head }
theorem test_journal_bounds : did (exec (.journalRead 8) (sJr 16388)) (.ended true 0 9) = true ∧ failed (exec (.journalRead 8) (sJr 6 0x30000)) Reason.notMapped = true := by decide +kernel
theorem test_journal_read : (sJr 6).Ready 8 0x0080 (cmdOf 0x0080 [(16, 4), (24, 9), (32, 0x20000)]) ∧ (sJr 6).mapped 3 0x20000 128 true = true
    ∧ did (exec (.journalRead 8) (sJr 6)) (.ended true 0 2) = true ∧ did (exec (.journalRead 8) (sJr 4)) (.ended true 0 0) = true
    ∧ failed (exec (.journalRead 8) (sJr 16389)) Reason.overwritten = true := by decide +kernel
theorem test_fence_command : (cmd 0x0090 []).Ready 8 0x0090 (cmdOf 0x0090 []) ∧ (cmd 0x0090 []).host.cmds.all (fun d => decide (8 ≤ d.seq)) = true
    ∧ did (exec (.fenceCommand 8) (cmd 0x0090 [])) (.ended true 0 0) = true := by decide +kernel
def sSnap (w : Option (Nat × Option (Nat × Nat))) (st : CmdState := .accepted) : State :=
  let s := sImage 0x0050 [(24, 10), (40, 0x20000)] { bound := some 34 }
  { s with host := { s.host with snapshot := w, cmds := [cmdOf 0x0050 [(16, 5), (24, 10), (40, 0x20000)] st] } }
theorem test_snapshot : (sSnap none).Ready 8 0x0050 (cmdOf 0x0050 [(16, 5), (24, 10), (40, 0x20000)]) ∧ (sSnap none).mapped 3 0x20000 ((sSnap none).image 5).snapshotLength true = true
    ∧ did (exec (.snapshot 8) (sSnap none)) .running (fun u => u.host.snapshot == some (8, none)) = true ∧ failed (exec (.snapshot 8) (sSnap (some (7, none)))) Reason.busy = true := by
  decide +kernel
theorem test_snapshot_latch : (sSnap (some (8, some (10, 40))) .running).snapTaken 8 = true ∧ did (exec .snapshotLatch (sSnap (some (8, some (10, 40))) .running)) (.ended true 0 0) (fun u => u.host.snapshot == none) = true
    ∧ stops (exec .snapshotLatch (sSnap (some (8, some (10, 41))) .running)) .notDue = true := by decide +kernel
def capArgs (n : Nat) : List (Nat × Nat) := [(17, 2), (24, n), (32, 1), (40, 0x20000)]
def sCapture (c : Option RCapture) : State := { sImage 0x0051 (capArgs 10) { bound := some 34 } with riddle := { blocks := [(5, { loaded := true, claim := 3, image := 5, capture := c })] } }
theorem test_capture_command : (sCapture none).Ready 8 0x0051 (cmdOf 0x0051 ([(16, 5)] ++ capArgs 10)) ∧ (sCapture none).mapped 3 0x20000 0x4100 true = true
    ∧ did (exec (.capture 8) (sCapture none)) .running (fun u => (u.block 5).captureBusy && (u.block 5).capture == some { seq := 8, tree := 2, shift := 10, edge := 1, dest := 0x20000, dom := 1 }) = true
    ∧ failed (exec (.capture 8) (sCapture (some (cap [])))) Reason.captureBusy = true := by decide +kernel
def sSelf (x : Claim) : State := sClaim { cmdOf 0x0070 [] with claim := 0 } x
theorem test_self_test : (sSelf {}).Ready 8 0x0070 { cmdOf 0x0070 [] with claim := 0 } ∧ (sSelf {}).images.any (fun i => i.2.claim == 0) = false
    ∧ did (exec (.selfTest 8) (sSelf {})) .running (fun u => u.power.rows.all (fun r => r.powered)) = true ∧ failed (exec (.selfTest 8) (sSelf mine)) Reason.claimState = true := by decide +kernel


/-! ## Pins, bring-up, rows and temperature -/

theorem test_por : up.power.porAsserted = false
    ∧ ans (exec (.porNAssert) { up with images := [(1, {})], mem := [(5, 1)] }) (fun u => u.power.porAsserted && u.images == [] && u.mem == [] && !u.host.ready) = true
    ∧ State.reset.power.porAsserted = true ∧ ans (exec (.porNDeassert true) State.reset) (fun u => !u.power.porAsserted && u.emeel.head && u.dbg.nonce.length == 8) = true
    ∧ stops (exec (.porNDeassert true) up) .notDue = true := by decide +kernel
def sPin (p : Power) : State := { State.reset with power := p }
def pOn : Power := { porAsserted := false, perstAsserted := false }
theorem test_perst : (sPin pOn).host.ready = false ∧ ans (exec .perstNAssert (sPin { pOn with linkUp := true })) (fun u => u.power.perstAsserted && !u.power.linkUp) = true
    ∧ ans (exec .perstNDeassert (sPin { porAsserted := false })) (fun u => u == sPin pOn) = true
    ∧ (sPin pOn).isMember = false ∧ ans (exec .pcieLinkUp (sPin pOn)) (fun u => u.power.linkUp) = true
    ∧ stops (exec .pcieLinkUp (sPin { porAsserted := false })) .notDue = true := by decide +kernel
theorem test_perst_busy : ans (exec .perstNAssert { sPin pOn with dbg := { busy := true } }) (fun u => !u.dbg.busy && u.free == 1 && u.power.perstAsserted) = true
    ∧ ans (exec .perstNAssert (sClaim (cmdOf 0 []))) (fun u => (u.claim 3).state == .draining) = true := by decide +kernel
theorem test_pll : ans (exec .pllLock (sPin pOn)) (fun u => u.power.pllLocked && u.power.phase == 1 && u.power.rows.all (fun r => r.powered)) = true
    ∧ stops (exec .pllLock (sPin { porAsserted := true })) .notDue = true := by decide +kernel
theorem test_sram_fill : ans (exec .tileSramFillComplete { sPin { pOn with pllLocked := true } with mem := [(tileAddr 767 0xFFFFF, 1)] }) (fun u =>
    u.power.sramFilled && memGet u.mem (tileAddr 767 0xFFFFF) == 0 && !u.isUnwritten (tileAddr 767 0xFFFFF)) = true := by decide +kernel
theorem test_checkers : ans (exec (.checkerSelfTestComplete []) (sPin { pOn with sramFilled := true })) (fun u => u.power.checkersDone && u.faults.found == []) = true
    ∧ ans (exec (.checkerSelfTestComplete [.residue 2 5]) (sPin { pOn with sramFilled := true })) (fun u =>
      u.faults.found == [.residue 2 5] && u.faults.selfTestFail && (u.tile 2).columnRetired == some 5) = true := by decide +kernel
theorem test_self_test_end : (sSelf {}).selfTest? = none
    ∧ did (exec (.checkerSelfTestComplete []) { sClaim { cmdOf 0x0070 [] .running with claim := 0 } {} with power := { pOn with checkersDone := true } }) (.ended true 0 0) = true := by
  decide +kernel
theorem test_sump_tests : ans (exec .hbmTrained (sPin { pOn with pllLocked := true })) (fun u => u.power.hbmTrained) = true
    ∧ ans (exec (.sumpAddressTestComplete []) (sPin { pOn with hbmTrained := true })) (fun u => u.power.sumpTested) = true
    ∧ ans (exec .sumpFillComplete { sPin { pOn with sumpTested := true } with mem := [(0xBFFFFFFFF, 9)] }) (fun u => u.mem == [] && u.sump.online == [true, true]) = true := by
  decide +kernel
theorem test_firmware : ans (exec (.firmwareVerified 0) (sPin { pOn with pllLocked := true })) (fun u => u.power.firmwareOk && u.host.secureBootOk) = true
    ∧ ans (exec (.firmwareVerified 4) (sPin { pOn with pllLocked := true })) (fun u => u.power.error == 4 && !u.power.firmwareOk) = true
    ∧ stops (exec (.firmwareVerified 5) (sPin { pOn with pllLocked := true })) .badOperand = true := by decide +kernel
theorem test_ready : stops (exec .headframeReady (sPin { pOn with checkersDone := true, sumpFilled := true })) .notDue = true
    ∧ ans (exec .headframeReady (sPin { pOn with checkersDone := true, firmwareOk := true, sumpFilled := true })) (fun u =>
      u.host.ready && u.power.phase == 4 && (u.claim 0).state == .opened) = true := by decide +kernel

def sRow (r : Row) : State := { up with power := { pOn with rows := List.replicate 23 {} ++ [r] } }
theorem test_row_power : (sRow { powering := true }).power.rows.length = 24 ∧ ans (exec (.rowPowerReady 23) (sRow { powering := true })) (fun u => u.row 23 == {}) = true := by decide +kernel
theorem test_droop : ans (exec (.droopSensorTrip 23) (sRow { fc := 7 })) (fun u => (u.row 23).sensor && (u.row 23).stepAt == 9) = true
    ∧ ans (exec (.droopSensorClear 23) (sRow { sensor := true, fc := 7 })) (fun u => !(u.row 23).sensor && (u.row 23).stepAt == 71) = true := by decide +kernel
theorem test_steps : ans (exec (.rowClockStepDown 23) (sRow { sensor := true, k := 13, fc := 9, stepAt := 9 })) (fun u => (u.row 23).k == 12 && (u.row 23).stepAt == 11) = true
    ∧ stops (exec (.rowClockStepDown 23) (sRow { sensor := true, k := 12, fc := 9, stepAt := 9 })) .notDue = true
    ∧ ans (exec (.rowClockStepUp 23) (sRow { k := 15, fc := 9, stepAt := 9 })) (fun u => (u.row 23).k == 16 && (u.row 23).stepAt == 73) = true
    ∧ stops (exec (.rowClockStepUp 23) (sRow { k := 15, fc := 8, stepAt := 9 })) .notDue = true := by decide +kernel
/-- 99, 100, 104, 105, 114 and 115 degrees. -/
def sHot (throttled : Bool) : State := { up with power := { pOn with throttled := throttled } }
theorem test_thermal : ans (exec (.thermalSensorRead 104) (sHot false)) (fun u => !u.power.throttled && u.power.warning) = true
    ∧ ans (exec (.thermalSensorRead 105) (sHot false)) (fun u => u.power.throttled && u.power.tripped && u.power.rows.all (fun r => r.k == 12)) = true
    ∧ ans (exec (.thermalSensorRead 114) (sHot true)) (fun u => u.power.throttled && !u.power.thermtrip) = true
    ∧ ans (exec (.thermalSensorRead 100) (sHot true)) (fun u => u.power.throttled) = true
    ∧ ans (exec (.thermalSensorRead 99) (sHot true)) (fun u => !u.power.throttled && u.power.warning) = true
    ∧ ans (exec (.thermalSensorRead 94) (sHot false)) (fun u => !u.power.warning && u.power.tjC == 94) = true
    ∧ ans (exec (.thermalSensorRead 115) (sHot true)) (fun u => u.power.thermtrip && !u.host.ready && u.out.head? == some .thermtrip) = true := by decide +kernel
theorem test_status : ans (exec (.stackTemperatureUpdate [60, 61]) up) (fun u => u.sump.temp == [60, 61]) = true
    ∧ ans (exec (.packagePowerUpdate 99) up) (fun u => u.power.powerMw == 99) = true := by decide +kernel

/-! ## Faults -/

def sThread2 : State := (seat 2 0 0 {} { issued := true, regs := { zm := 4, pc := 9 }, checkpoint := { zm := 1, pc := 3 } })
theorem test_residue : faultNames (.residue 2 32) = true ∧ faultNames (.residue 2 33) = false ∧ sThread2.sameReport (.residue 2 32) = false
    ∧ (sThread2.tile 2).enabled = true ∧ (sThread2.tile 2).group = 0 ∧ sThread2.tickNow 2 = false ∧ (sThread2.claim (sThread2.tile 2).claim).state ≠ .draining
    ∧ (sThread2.thread 2 0).replayed = true ∧ ans (exec (.faultDetection (.residue 2 32)) sThread2) (fun u =>
      (u.tile 2).restartAt == some 16 && (u.thread 2 0).regs == { zm := 1, pc := 3 } && u.faults.eventSeq == 1) = true := by decide +kernel
theorem test_corrected : faultNames (.sram 2 .weight 0x100 false) = true ∧ ans (exec (.faultDetection (.sram 2 .weight 0x100 false)) sThread2) (fun u =>
    u.tiles == sThread2.tiles && (u.counterAt (ctrOff 0 2 14)).value == 1) = true := by decide +kernel
def twice (f : FaultReport) (s : State) : Result := match exec (.faultDetection f) s with
  | .next u => exec (.faultDetection f) u
  | r => r
theorem test_switch_lost : ans (exec (.faultDetection (.shaftSwitch 767)) up) (fun u => (u.tile 767).lost && !(u.tile 766).lost) = true
    ∧ ans (twice (.shaftSwitch 767) up) (fun u => (u.tile 767).lost && u.faults.eventSeq == 1) = true
    ∧ ans (twice (.residue 2 3) up) (fun u => u.sameReport (.residue 2 3) && u.faults.eventSeq == 1) = true := by decide +kernel
theorem test_patrol : ans (exec (.patrolScrub 0xBFFFFFFFF) { up with faults := { patrolEn := true } }) (fun u => u == { up with faults := { patrolEn := true } }) = true
    ∧ isWindow 0x1002FFFFFFF = true ∧ ans (exec (.patrolScrub 0x1002FFFFFFF) { up with faults := { patrolEn := true } }) (fun u => u == { up with faults := { patrolEn := true } }) = true := by decide +kernel
theorem test_ucie : ans (exec (.uciePacketReceived 65535 false) up) (fun u => u.adit.ucieRetry == [65535] && u.faults.eventSeq == 1) = true
    ∧ ans (exec (.uciePacketReceived 65535 true) { up with adit := { ucieRetry := [65535, 3] } }) (fun u => u.adit.ucieRetry == [3]) = true := by decide +kernel
theorem test_replay_restart : ((seat 2 0 0 { restartAt := some 0, restart := [0] }).tile 2).group = 0
    ∧ ans (exec (.replayRestart 2) (seat 2 0 0 { restartAt := some 0, restart := [0] })) (fun u => (u.tile 2).restartAt == none && u.faults.eventSeq == 1) = true
    ∧ stops (exec (.replayRestart 2) (seat 2 0 0 { restartAt := some 1 })) .notDue = true := by decide +kernel
def sRetire (r : Retire) : State := { up with now := 50, faults := { retires := [r] } }
def rCol : Retire := { report := .residue 2 32, ready := true, doneAt := 50 }
def rSeq : Retire := { report := .seqVote 2 1, ready := true, doneAt := 50 }
theorem test_retire : (sRetire rCol).faults.retires.find? (fun r => r.effectDue 50) = some rCol
    ∧ ans (exec .retirementEffect (sRetire rCol)) (fun u => (u.tile 2).columnRetired == some 32 && u.faults.retires == []) = true
    ∧ ans (exec .retirementEffect (sRetire rSeq)) (fun u => (u.tile 2).copiesMasked == [1]) = true
    ∧ stops (exec .retirementEffect (sRetire { rCol with doneAt := 51 })) .notDue = true
    ∧ ans (exec .retirementCopyComplete (sRetire { rCol with copying := true })) (fun u => u.faults.retires == []) = true := by decide +kernel
theorem test_spare : ans (exec (.spareLoadComplete 15) { up with tiles := [(15, { spareLoading := true, restartAt := some 4 })] }) (fun u =>
      (u.tile 15).spareLoaded && !(u.tile 15).spareLoading && (u.tile 15).restartAt == none) = true
    ∧ stops (exec (.spareRestart 15) { up with tiles := [(15, { spareLoaded := true })] }) .notDue = true
    ∧ ans (exec (.spareRestart 15) { up with tiles := [(15, { spareLoaded := true, restartAt := some 4 })] }) (fun u => !(u.tile 15).spareLoaded) = true := by decide +kernel

/-! ## Emeel -/

def sEmPort (x : EmPort) (e : Emeel := {}) : State := { up with emeel := { e with ports := [(3, x)] } }
def flit (k : FlitKind) (n : BitVec 12) : Flit := { kind := k, device := 0, stream := 160, seq := n, stamp := 10, tag := 0, payload := 7 }
theorem test_training : ans (exec (.portTrainingComplete 3 1000 (some 63)) (sEmPort { replay := [flit .data 5] })) (fun u =>
      (u.emPort 3).up && (u.emPort 3).lFixed == 3024 && (u.emPort 3).neighbour == some 63 && u.out == [.flit 3 (flit .data 5)]) = true
    ∧ ans (exec (.portTrainingComplete 3 1001 (some 63)) (sEmPort {})) (fun u => !(u.emPort 3).up) = true
    ∧ popcount 4 (1 : BitVec 4).toNat = 1 ∧ ans (exec (.portTrainingComplete 3 1 none) (sEmPort { retired := 3 })) (fun u => !(u.emPort 3).up) = true := by decide +kernel
def xUp : EmPort := { up := true, expect := 4095, replay := [flit .data 6, flit .data 7] }
theorem test_flit : ans (exec (.flitReceived 3 (flit .data 4095) 0 true) (sEmPort xUp)) (fun u => (u.emPort 3).expect == 0 && (u.emPort 3).accepted.length == 1) = true
    ∧ (0 - (4095 : BitVec 12)).toNat = 1 ∧ ans (exec (.flitReceived 3 (flit .data 0) 0 true) (sEmPort xUp)) (fun u => u.out == [.nak 3 4095] && (u.emPort 3).accepted == []) = true
    ∧ (4094 - (4095 : BitVec 12)).toNat = 4095 ∧ ans (exec (.flitReceived 3 (flit .data 4094) 0 true) (sEmPort xUp)) (fun u => u == sEmPort xUp) = true
    ∧ ans (exec (.flitReceived 3 (flit .data 4095) 0 false) (sEmPort xUp)) (fun u => u.out == [.nak 3 4095] && (u.emPort 3).expect == 4095) = true
    ∧ ans (exec (.nakReceived 3 7) (sEmPort xUp)) (fun u => u.out == [.flit 3 (flit .data 7)]) = true := by decide +kernel
def sMark2 (t : Nat) : State := sEmPort { up := true, lFixed := 27, accepted := [(flit .commitMark 1, false)] } { meshTime := t }
theorem test_delivery : ans (exec (.flitDelivery 3) (sMark2 37)) (fun u => (u.emPort 3).accepted == [] && (u.skip 160).effective == 7 && (u.skip 160).marks == [(7, (sMark2 37).ingressDue 160 + 2)]) = true
    ∧ stops (exec (.flitDelivery 3) (sMark2 36)) .notDue = true := by decide +kernel
/-- A flit of device 1 goes on towards it, and a late mark takes effect with its event. -/
def sRelay : State := { (sMark2 37) with emeel := { (sMark2 37).emeel with xMinus1 := 1, ports := [(0, { up := true }), (3, { up := true, lFixed := 27, accepted := [({ flit .data 1 with device := 1 }, false)] })] } }
theorem test_delivery_others : sRelay.emeel.portTo 1 = some 0 ∧ ans (exec (.flitDelivery 3) sRelay) (fun u => (u.emPort 3).accepted == [] && (u.emPort 0).replay.length == 1 && u.skips == sRelay.skips) = true
    ∧ ans (exec (.flitDelivery 3) (sEmPort { up := true, lFixed := 27, accepted := [(flit .commitMark 1, true)] } { meshTime := 37 })) (fun u =>
      (u.emPort 3).retryLate && u.faults.eventSeq == 1 && (u.skip 160).effective == 7) = true := by decide +kernel
theorem test_token : ans (exec (.idTokenReceived 1 7 0 8 8) up) (fun u => u.emeel.deviceId == 0 && u.out.head? == some (.report 0 0)) = true
    ∧ ans (exec (.idTokenReceived 1 0 7 8 8) up) (fun u => u.emeel.deviceId == 57 && u.emeel.idTaken && u.emeel.idPort == some 1) = true
    ∧ ans (exec (.idTokenReceived 3 7 6 8 8) up) (fun u => u.emeel.deviceId == 63) = true ∧ stops (exec (.idTokenReceived 3 7 6 8 9) up) .badOperand = true := by decide +kernel
def eHead (rs : List (Nat × Nat)) : Emeel := { head := true, enumerating := true, xMinus1 := 2, reported := rs }
theorem test_report : ans (exec (.deviceReport 2 40) { up with emeel := eHead [(1, 90)] }) (fun u =>
      u.emeel.enumerated && u.emeel.devices == 3 && u.emeel.tickDelay == 106) = true
    ∧ ans (exec (.deviceReport 2 40) { up with emeel := eHead [(2, 90)] }) (fun u => !u.emeel.enumerated && u.emeel.reported == [(2, 40)]) = true
    ∧ stops (exec (.deviceReport 3 40) { up with emeel := eHead [] }) .notDue = true := by decide +kernel
def sMeshMember : State := { up with emeel := { idTaken := true, deviceId := 1 } }
theorem test_mesh_time : sMeshMember.isMember = true ∧ ans (exec (.meshTimeCorrection (-1)) sMeshMember) (fun u => u.emeel.slew == -1 && u.emeel.timeLocked) = true
    ∧ ans (exec (.meshTimeCorrection 2) sMeshMember) (fun u => u.emeel.slew == 2 && !u.emeel.timeLocked) = true := by decide +kernel
theorem test_enumerate : ans (exec (.enumerate 0x0A000000) { up with emeel := { head := true, enumerated := true } }) (fun u =>
    u.emeel.enumerating && !u.emeel.enumerated && u.emeel.xMinus1 == 1 && u.emeel.yMinus1 == 2 && u.out == [.idToken 2 0 0 2 3, .idToken 0 0 0 2 3]) = true := by decide +kernel
theorem test_enumerate_member : ans (exec (.enumerate 0x0A000000) sMeshMember) (fun u => u == sMeshMember) = true := by decide +kernel
def sPortUsed : State := { sEmPort xUp { yMinus1 := 2 } with images := [(1, { bound := some 2, mesh := [{ route := 0, direction := 0, peerDevice := 2, peerTile := 0, peerEntry := 0, peerCfg := 0, peerSize := 0, flits := 1, maxDx := 0 }] })] }
theorem test_retrain_used : sPortUsed.portInUse 3 = true ∧ ans (exec (.retrain 3 0x80000000) sPortUsed) (fun u => (u.emPort 3).up && u.faults.eventSeq == 1) = true := by decide +kernel
theorem test_retrain : (sEmPort xUp).portInUse 3 = false ∧ ans (exec (.retrain 3 0x80000000) (sEmPort xUp)) (fun u => !(u.emPort 3).up && (u.emPort 3).enable) = true := by decide +kernel
def eWin (on : Bool) : Emeel := { xMinus1 := 1, rwinEnable := on, rwinDevice := 1, rwinPage := 63 }
def sWin (on : Bool) : State := { up with now := 9, emeel := { eWin on with ports := [(0, { up := true })] } }
theorem test_window : ans (exec (.remoteWindowAccess false 0x3FFFFC 5) (sWin false)) (fun u => u.out == [.readValue 0]) = true
    ∧ (eWin true).portTo 1 = some 0 ∧ ans (exec (.remoteWindowAccess true 0x3FFFFC 5) (sWin true)) (fun u => u.emeel.window == some (true, 1, 0xFFFFFFC, 5, 9)) = true
    ∧ stops (exec (.remoteWindowAccess true 2 5) (sWin true)) .badOperand = true := by decide +kernel
def sWinDown : State := { up with emeel := eWin true }
theorem test_window_down : (sWinDown.emPort 0).up = false ∧ ans (exec (.remoteWindowAccess false 0 5) sWinDown) (fun u =>
    u.emeel.window == none && u.faults.eventSeq == 1 && u.out.head? == some (.readValue 0xFFFFFFFF)) = true := by decide +kernel
def sRemote (t : Nat) : State := { up with now := t, emeel := { window := some (false, 1, 4, 0, 9) } }
theorem test_window_timeout : ans (exec .remoteAccessTimeout (sRemote 65545)) (fun u => u.emeel.window == none && u.faults.eventSeq == 1 && u.out.head? == some (.readValue 0xFFFFFFFF)) = true
    ∧ stops (exec .remoteAccessTimeout (sRemote 65544)) .notDue = true := by decide +kernel

/-! ## Registers -/

def cold : State := sPin { pOn with error := 3 }
theorem test_before_ready : cold.host.ready = false ∧ cold.bar0Read 0x7000004 = 3 ∧ cold.bar0Read 0x7000008 = 0 ∧ up.bar0Read 0x7000008 = 850
    ∧ ctrLow 0x8100000 = false ∧ ctrLow 0x100000 = true ∧ cold.functionOn 0 = true := by decide +kernel
def sTick (bound : Bool) : State := { up with ticks := [(7, { count := 5 })], pipes := if bound then [(224, { image := 5, claim := 3 })] else [] }
theorem test_tick_config : (sTick true).follows 7 = false ∧ (sTick false).domainBound 7 = false ∧ (sTick true).domainBound 7 = true
    ∧ ans (exec (.hfTickCfgWrite 7 0x82050300) (sTick false)) (fun u => (u.dom 7).enable && (u.dom 7).source == 2 && (u.dom 7).lane == 5 && (u.dom 7).lvdsInput == 3 && (u.dom 7).count == 0) = true
    ∧ ans (exec (.hfTickPeriodWrite 7 120) (sTick false)) (fun u => (u.dom 7).period == 120) = true ∧ ans (exec (.hfTickPeriodWrite 7 12000000) (sTick false)) (fun u => (u.dom 7).period == 12000000) = true
    ∧ ans (exec (.hfTickPeriodWrite 7 119) (sTick false)) (fun u => u.ticks == (sTick false).ticks && u.faults.eventSeq == 1) = true
    ∧ ans (exec (.hfTickTolWrite 7 0x10009) (sTick false)) (fun u => (u.dom 7).tolerance == 9) = true
    ∧ ans (exec (.hfTickTolWrite 7 9) (sTick true)) (fun u => u.ticks == (sTick true).ticks && u.faults.eventSeq == 1) = true := by decide +kernel
theorem test_tick_rejected : ans (exec (.hfTickCfgWrite 7 0x83000000) (sTick false)) (fun u => u.ticks == (sTick false).ticks && u.faults.eventSeq == 1) = true
    ∧ ans (exec (.hfTickPeriodWrite 7 12000001) (sTick false)) (fun u => u.ticks == (sTick false).ticks && u.faults.eventSeq == 1) = true
    ∧ ([.hfTickCfgWrite 7 0x80000000, .hfTickPeriodWrite 7 120, .hfTickTolWrite 7 0] : List Instr).all (fun i => ans (exec i (sTick true)) (fun u =>
      u.ticks == (sTick true).ticks && u.faults.eventSeq == 1)) = true := by decide +kernel
def big : State := { up with host := { ready := true, seq := 0x300000004, claims := [(255, { journalHead := 0x900000001 })] }, ticks := [(7, { count := 0x200000001 })], dbg := { counters := [(0x100000, { value := 0x500000006 })] } }
theorem test_latch : ans (exec (.hfTickCountLoRead 7) big) (fun u => u.out == [.readValue 1] && (u.dom 7).countHi == 2) = true
    ∧ ans (exec (.journalHeadLoRead 255) big) (fun u => u.out == [.readValue 1] && (u.claim 255).journalHi == 9) = true
    ∧ ans (exec .hfSeqLoRead big) (fun u => u.out == [.readValue 4] && u.host.seqHi == 3) = true
    ∧ ans (exec (.counterLowRead false 0x100000) big) (fun u => u.out == [.readValue 6] && u.dbg.latchBar0 == 5) = true
    ∧ ans (exec (.counterLowRead true 0x100000) big) (fun u => u.dbg.jtagData == 6 && u.dbg.latchJtag == 5) = true := by decide +kernel
theorem test_writes : ans (exec (.hfLockSetWrite 4) { up with host := { ready := true, lockState := 1 } }) (fun u => u.host.lockState == 5) = true
    ∧ ans (exec (.hfFaultCfgWrite 0x20018000) up) (fun u => u.faults.recurCount == 2 && u.faults.recurWindowMs == 1 && u.faults.patrolEn) = true
    ∧ ans (exec (.hfFaultCfgWrite 0x10018000) up) (fun u => u == up) = true
    ∧ ans (exec (.spArbCfgWrite 0x10040) up) (fun u => u.sump.canary == 1 && u.sump.lwInterval == 64) = true ∧ ans (exec (.spArbCfgWrite 0x10003) up) (fun u => u.faults.eventSeq == 1) = true
    ∧ ans (exec (.spHoistCfgWrite 31 0x80000006) up) (fun u => (u.hoist 31).enable && (u.hoist 31).maxBurst == 6) = true
    ∧ ans (exec (.spHoistCfgWrite 31 7) up) (fun u => u.faults.eventSeq == 1) = true := by decide +kernel
theorem test_power_writes : ({ up with host := { ready := true, lockState := 4 } } : State).locked 2 = true
    ∧ ans (exec (.pwTdpCfgWrite 300) { up with host := { ready := true, lockState := 4 } }) (fun u => u.power.tdpW == 850 && u.host.lockViol == 4) = true
    ∧ (tokenShares [] (300 * 1000)).isSome = true ∧ ans (exec (.pwTdpCfgWrite 300) up) (fun u => u.power.tdpW == 300) = true ∧ ans (exec (.pwTdpCfgWrite 851) up) (fun u => u.power.tdpW == 850) = true
    ∧ ans (exec (.pwThermalCfgWrite 60) up) (fun u => u.power.warnC == 60) = true ∧ ans (exec (.pwThermalCfgWrite 101) up) (fun u => u.power.warnC == 95) = true
    ∧ ans (exec (.pwDroopCfgWrite 0x100A) up) (fun u => u.power.stepUpFc == 16 && u.power.thresholdMv == 10) = true := by decide +kernel
def sUsed : State := { up with riddle := { blocks := [(15, { loaded := true })] } }
theorem test_adit_writes : sUsed.quadUsed 15 = true ∧ (sUsed.quad 15).written 15 0x80000000 ≠ sUsed.quad 15 ∧ sUsed.quadUsed 14 = false ∧ (sUsed.quad 6).mirror = false
    ∧ ans (exec (.adQuadCfgWrite 15 0x80000000) sUsed) (fun u => u.adit == sUsed.adit && u.faults.eventSeq == 1) = true
    ∧ ans (exec (.adQuadCfgWrite 14 0xD1000000) sUsed) (fun u => (u.quad 14).enable && (u.quad 14).mode == 2 && (u.quad 14).rate == 4 && (u.quad 14).bypass) = true
    ∧ ans (exec (.adQuadChmapWrite 15 0x0003FF00) sUsed) (fun u => (u.quad 15).chBase == 3 && (u.quad 15).chCount == 255) = true
    ∧ ans (exec (.adDecLineWrite 7 0xA0000) up) (fun u => (u.decLine 7).rate == 2 && (u.decLine 7).duplicate) = true
    ∧ ans (exec (.adDecLineWrite 8 0xA0000) up) (fun u => (u.decLine 8).rate == 2 && !(u.decLine 8).duplicate) = true := by decide +kernel
def sMirrorCfg : State := { up with adit := { quads := [(14, { rate := 4 })] } }
theorem test_mirror_write : sMirrorCfg.quadUsed 6 = false ∧ ans (exec (.adQuadCfgWrite 6 0x92000000) sMirrorCfg) (fun u =>
    (u.quad 6).mirror && (u.quad 6).enable && (u.quad 6).rate == 4) = true ∧ (sMirrorCfg.decLine 15).bound = false := by decide +kernel
/-- A bit that hardware sets in the fc of the write stays set (R9). -/
theorem test_write_meets_event : ans (exec (.registerWrite 0x203FF04 1) { up with tiles := [(767, { illegal := true })], hits := [(0x203FF04, 0)] }) (fun u => (u.tile 767).illegal) = true
    ∧ ans (exec (.registerWrite 0x203FF04 1) { up with tiles := [(767, { illegal := true })] }) (fun u => !(u.tile 767).illegal) = true := by decide +kernel
theorem test_counter_jtag : ans (exec (.counterHighWrite true 0x100000 7) big) (fun u => u.dbg.stageJtag == 7 && u.dbg.stageBar0 == 0
    && ans (exec (.counterLowWrite true 0x100000 9) u) (fun w => (w.counterAt 0x100000).value == 0x700000009)) = true := by decide +kernel
theorem test_counter_write : ans (exec (.counterHighWrite false 0x100000 7) big) (fun u => u.dbg.stageBar0 == 7
      && ans (exec (.counterLowWrite false 0x100000 9) u) (fun w => (w.counterAt 0x100000).value == 0x700000009)) = true
    ∧ ans (exec (.registerWrite 0x203FF04 3) { up with tiles := [(767, { lockBroken := true, swapFailed := true, illegal := true })] }) (fun u =>
      (u.tile 767).lockBroken && !(u.tile 767).swapFailed && !(u.tile 767).illegal) = true := by decide +kernel

theorem test_doorbell_page : ans (exec (.registerWrite 0x1001F00C 2) { withVf up 1 with host := { (withVf up 1).host with rings := [(31, { overrun := true, eventsLost := true })] } })
    (fun u => !(u.ring 1 15).overrun && (u.ring 1 15).eventsLost) = true ∧ (withVf up 1).functionOn 1 = true := by decide +kernel

/-! ## Debug -/

def sDbg (y : Thread) (m : Mode) (openn : Bool := true) : State :=
  (({ seat 2 3 0 {} y with host := { ready := true }, power := pOn, dbg := { unlocked := openn, scope := 3 } } : State)).modThread 2 3 (fun x => { x with mode := m })
/-- The debug unlock, whatever the PRODUCTION fuse; without the fuse every device is unlocked. -/
theorem test_open (y : Thread) (m : Mode) : (sDbg y m).debugOpen = true := by
  have h : (sDbg y m).dbg.unlocked = true ∧ (sDbg y m).dbg.scope = 3 := ⟨rfl, rfl⟩
  unfold State.debugOpen State.unlocked State.scope
  rw [h.1, h.2]; split <;> simp [bitAt]
theorem test_shut (h : Config.production = true) : (sDbg {} .running false).debugOpen = false := by
  have g : (sDbg {} .running false).dbg.unlocked = false := rfl
  unfold State.debugOpen State.unlocked; rw [g, h]; rfl
theorem test_debug_halt : (sDbg {} .running).physical 2 = 2 ∧ ans (exec (.dbHalt 0x01080002) (sDbg {} .running)) (fun u => (u.thread 2 3).haltAsked == some 4096) = true := by
  constructor
  · decide +kernel
  · unfold exec execDbHalt State.writeHaltCtrl; rw [test_open]; decide +kernel
theorem test_halt_shut (h : Config.production = true) : ans (exec (.dbHalt 0x01080002) (sDbg {} .running false)) (fun u =>
    u.tiles == (sDbg {} .running).tiles && u.faults.eventSeq == 1) = true := by
  unfold exec execDbHalt State.writeHaltCtrl; rw [test_shut h]; decide +kernel
theorem test_resume_thread : ans (exec (.dbResume 0x02080002) (sDbg {} .debug)) (fun u => (u.thread 2 3).mode == .running) = true := by
  unfold exec execDbResume State.writeHaltCtrl; rw [test_open]; decide +kernel
theorem test_resume_tick : ((sDbg { tickPassed := true } .debug).thread 2 3).tickPassed = true ∧ ans (exec (.dbResume 0x02080002) (sDbg { tickPassed := true } .debug)) (fun u =>
    (u.thread 2 3).mode == .running && !(u.thread 2 3).tickPassed) = true := by
  constructor
  · decide +kernel
  · unfold exec execDbResume State.writeHaltCtrl; rw [test_open]; decide +kernel
theorem test_force_lock : ans (exec (.dbForce 0x04080002) (sDbg { lock := some (4, 64) } .running)) (fun u =>
    (u.thread 2 3).mode == .debug && (u.thread 2 3).lock == none && u.dbg.forced) = true := by
  unfold exec execDbForce State.writeHaltCtrl; rw [test_open]; decide +kernel
theorem test_step_thread : ans (exec (.dbStep 0x03080002) (sDbg {} .debug)) (fun u => (u.thread 2 3).mode == .running && (u.thread 2 3).stepping) = true := by
  unfold exec execDbStep State.writeHaltCtrl; rw [test_open]; decide +kernel
theorem test_force_thread : ans (exec (.dbForce 0x04080002) (sDbg {} .running)) (fun u => (u.thread 2 3).mode == .debug && u.faults.eventSeq == 1) = true := by
  unfold exec execDbForce State.writeHaltCtrl; rw [test_open]; decide +kernel
theorem test_halt_effect : (sDbg { haltAsked := some 9 } .running).tickFirst 2 = false
    ∧ ans (exec (.haltTakesEffect 2 3) (sDbg { haltAsked := some 9 } .running)) (fun u => (u.thread 2 3).mode == .debug && u.faults.eventSeq == 1) = true
    ∧ stops (exec (.haltTakesEffect 2 3) (sDbg { haltAsked := some 9, lock := some (0, 64) } .running)) .notDue = true
    ∧ stops (exec (.haltLockTimeout 2 3) (sDbg { haltAsked := some 1, lock := some (0, 64) } .running)) .notDue = true
    ∧ ans (exec (.haltLockTimeout 2 3) (sDbg { haltAsked := some 0, lock := some (0, 64) } .running)) (fun u =>
      (u.thread 2 3).mode == .debug && (u.thread 2 3).lock == none && u.dbg.forced && u.faults.eventSeq == 2) = true := by decide +kernel
def sPcBrk (y : Thread) : State := (sDbg { y with regs := { pc := 2047 } } .running).modDebug (fun d => { d with pcBrk := [(7, true, 3, 2, 2047)] })
theorem test_comparator : (sPcBrk {}).comparator 7 = (true, 2, 3, 2047) ∧ ans (exec (.pcBreakpointMatch 7) (sPcBrk {})) (fun u => (u.thread 2 3).mode == .debug && u.faults.eventSeq == 1) = true
    ∧ ans (exec (.pcBreakpointMatch 7) (sPcBrk { lock := some (0, 64) })) (fun u => (u.thread 2 3).haltAsked == some 4096 && (u.thread 2 3).mode == .running) = true
    ∧ stops (exec (.pcBreakpointMatch 7) (sPcBrk { passBreak := true })) .notDue = true := by decide +kernel
theorem test_debug_unlock : up.dbg.attempts ≠ 0 ∧ ans (exec .unlockSubmit (up.modDebug (fun d => { d with busy := true }))) (fun u => u == up.modDebug (fun d => { d with busy := true })) = true ∧ ans (exec .unlockSubmit up) (fun u => u.dbg.busy) = true
    ∧ ans (exec .unlockSubmit (up.modDebug (fun d => { d with attempts := 0 }))) (fun u => !u.dbg.busy) = true
    ∧ stops (exec .unlockCheckComplete up) .notDue = true
    ∧ (up.modDebug (fun d => { d with busy := true })).tokenValid = false
    ∧ ans (exec .unlockCheckComplete (up.modDebug (fun d => { d with busy := true }))) (fun u => !u.dbg.busy && u.dbg.attempts == 2 && u.faults.eventSeq == 1 && !u.dbg.unlocked) = true := by
  decide +kernel
/-- One update at offset o, once it is known to be allowed or not. -/
theorem dbacc_at (v : DWord) (s : State) (b : Bool) (h : s.dbaccOk (bits v.toNat 59 32) = b) : dbaccDo v s =
    (let o := bits v.toNat 59 32
     let x : Word := v.extractLsb' 0 32
     if b then (if v.getLsbD 63 then (s.regWrite true o x).modDebug (fun d => { d with jtagData := x, jtagRefused := false })
       else (s.regLatch true o).modDebug (fun d => { d with jtagData := s.regView true o, jtagRefused := false }))
     else (s.modDebug (fun d => { d with jtagData := if v.getLsbD 63 then x else BitVec.ofNat 32 s.drawn, jtagRefused := true })).draw) := by
  subst h; rfl
theorem test_dbacc_ok (s : State) : s.dbaccOk 0x80000FC = true ∧ s.dbaccOk 0x8000040 = true ∧ s.dbaccOk 0x8000010 = true := by simp [State.dbaccOk]
theorem test_dbacc_shut (h : Config.production = true) : up.dbaccOk 0x8000100 = false := by
  have g : up.dbg.unlocked = false := rfl
  unfold State.dbaccOk State.unlocked; rw [g, h]; rfl
theorem test_dbacc_refused (h : Config.production = true) : (dbaccDo 0x0800010000000000 up).dbg.jtagRefused = true ∧ (dbaccDo 0x0800010000000000 up).free = up.free + 1 := by
  rw [dbacc_at _ _ false (test_dbacc_shut h)]; exact ⟨rfl, rfl⟩
theorem test_dbacc_write : look (dbaccDo 0x880000400000007B up).dbg.token 0 = some 0x7B := by
  rw [dbacc_at _ _ true (test_dbacc_ok up).2.1]; decide +kernel
def sIdToken : State := up.modDebug (fun d => { d with nonce := [9] })
theorem test_dbacc_read : (dbaccDo 0x0800001000000000 sIdToken).dbg.jtagData = 9 := by
  rw [dbacc_at _ _ true (test_dbacc_ok sIdToken).2.2]; decide +kernel

/-! ## Ill-formed commands -/

/-- One operand out of range: the check refuses the command. -/
theorem test_wf_refuses1 : ([
    .tick 8, .tickInserted 8, .internalGeneratorTick 8, .followedTick 8, .tickMessage 8 false 0, .captureTimeout 16,
    .tickMarkArrival 768, .slotMarkArrival 768, .decisionWordTransmit 16, (.lvdsTickEdge ⟨8, true, 0, 0⟩), .frameStart 64 0 0,
    .dataBlock 64 0, .frameEnd 64 0 0, .tickBlock 64 0, .idle 64, .align 64 0, .uncorrectableCodeword 64,
    .laneLosesLock 64, .laneRegainsLock 64, .ethernetFrame 64 [], .pauseExpiry 64, .mirrorWindowEnd 64,
    .frameArrival 64, .ingestPush 8 0 0, .ingestPush 0 32 0, .ingestPush 0 0 256, .scatterDrain 48, .zeroFillPush 8
    0 0, .zeroFillPush 0 32 0, .zeroFillPush 0 0 256, .deadlineFillPush 65536, .transmitPacket false 64,
    .transmitPacket true 64, .uciePacketReceived 65536 false, .riddleInputWord 16 0, .riddleInputWord 0 4,
    .riddleOutputWord 16 0, .riddleOutputWord 0 4, .riddleEofDeadline 16 0, .riddleEofDeadline 0 4,
    .riddleConfigReadback ([(16, 0)]), .riddleRepairComplete 16, .rdBlockReset 16, .captureEdge 16, .nop 768 0, .nop
    0 4, .halt 768 0, .halt 0 4, .brk 768 0, .brk 0 4, .fn 768 0, .fn 0 4, .loop 768 0, .loop 0 4, .lidx 768 0,
    .lidx 0 4, .waittick 768 0, .waittick 0 4, .slot 768 0, .slot 0 4] : List Instr).all (fun i => !i.wf) = true := by decide +kernel
theorem test_wf_refuses2 : ([
    .bell 768 0, .bell 0 4, .waitbell 768 0, .waitbell 0 4, .pop 768 0, .pop 0 4, .peek 768 0, .peek 0 4, .push 768
    0, .push 0 4, .commit 768 0, .commit 0 4, .drop 768 0, .drop 0 4, .waitq 768 0, .waitq 0 4, .qstat 768 0, .qstat
    0 4, .ld 768 0, .ld 0 4, .st 768 0, .st 0 4, .ldv 768 0, .ldv 0 4, .stv 768 0, .stv 0 4, .fence 768 0, .fence 0
    4, .lock 768 0, .lock 0 4, .unlock 768 0, .unlock 0 4, .mms 768 0, .mms 0 4, .wcs 768 0, .wcs 0 4, .grs 768 0,
    .grs 0 4, .rq 768 0, .rq 0 4, .oq 768 0, .oq 0 4, .vadd 768 0, .vadd 0 4, .vsub 768 0, .vsub 0 4, .vmul 768 0,
    .vmul 0 4, .vmax 768 0, .vmax 0 4, .vmin 768 0, .vmin 0 4, .vcsel 768 0, .vcsel 0 4, .vshl 768 0, .vshl 0 4,
    .vshr 768 0, .vshr 0 4, .vand 768 0, .vand 0 4] : List Instr).all (fun i => !i.wf) = true := by decide +kernel
theorem test_wf_refuses3 : ([
    .vor 768 0, .vor 0 4, .vxor 768 0, .vxor 0 4, .vcvt 768 0, .vcvt 0 4, .vrelu 768 0, .vrelu 0 4, .zpack 768 0,
    .zpack 0 4, .zunpk 768 0, .zunpk 0 4, .vmovi 768 0, .vmovi 0 4, .pcBreakpointMatch 8, .macStreamStart 768,
    .macStreamComplete 768, .heavyUnitTokenGrant 24 0, .heavyUnitTokenGrant 0 256, .rqComplete 768, .oqComplete 768,
    .fnCallComplete 768 0, .fnCallComplete 0 16, .blockMoveComplete 768, .scratchLoadReturn 768 0,
    .scratchStorePerformed 768 0, .lockGrant 768 0, .weightFillArrival 768 false ⟨0, []⟩, .entryReachesTail 65536,
    .commitTakesEffect 768 0, .commitTakesEffect 0 32, .entriesBecomeVisible 65536, .creditArrival 65536,
    .discardMarkArrival 65536, .headRefill 65536, .bellTokenArrival 768 0, .bellTokenArrival 0 32, .skipTimerExpiry
    65536, .hoistBurstIssue 32, .hoistBurstComplete 32 0, .waitHalfEnd 32, .translationWalkComplete 256 0,
    .translationWalkComplete 0 4294967296, .holdCopyComplete 32, .sumpRequest 0 0 256 0 1 0 false, .sumpRequest 0 0
    0 8 1 0 false, .sumpRequest 64 0 0 0 1 0 false, .sumpRequest 0 0 0 0 0 0 false, .portBurstComplete ⟨64, false⟩,
    .canaryCountExpiry 64, .bar4Access 256 false 0 1 [], .bar4Access 0 false 0 4097 [], .bar4Access 0 false 0 0 [],
    .bar4Access 0 true 0 1 [], .bar4Access 0 false 0 0 [], .doorbellProducerWrite 256 0 0, .doorbellProducerWrite 0
    16 0, .doorbellConsumerWrite 256 0 0, .doorbellConsumerWrite 0 16 0, .forwardedDoorbell 256 1 0] : List Instr).all (fun i => !i.wf) = true := by decide +kernel
theorem test_wf_refuses4 : ([
    .forwardedDoorbell 0 14 0, .forwardedDoorbell 0 0 0, .ringEntryTake 256 0, .ringEntryTake 0 14,
    .completionEntryPlace 256, .eventRecordPlace 256, .claimResetComplete 256, .shadowLoadComplete 768, .flr 256,
    .checkerSelfTestComplete ([.residue 0 33]), .sumpAddressTestComplete ([.residue 0 33]), .firmwareVerified 5,
    .rowPowerReady 24, .droopSensorTrip 24, .droopSensorClear 24, .rowClockStepDown 24, .rowClockStepUp 24,
    .thermalSensorRead 256, .faultDetection (.residue 0 33), .faultDetection (.rescale 768), .faultDetection (.sram
    0 .weight 0x100000 false), .faultDetection (.sramRead 0 .weight 0 768 0), .faultDetection (.program 0 0 2048
    false), .faultDetection (.seqVote 0 3), .faultDetection (.skipEnd 61440 false false), .faultDetection (.fnLane 0
    16 0), .faultDetection (.ucieLane 65536), .faultDetection (.emeelLane 4 0 false), .faultDetection (.sump
    0xC00000000 false), .faultDetection (.riddleParity 16 0 0), .faultDetection (.detectorLane 64), .faultDetection
    (.shaftSwitch 768), .replayRestart 768, .spareLoadComplete 768, .spareRestart 768, .portTrainingComplete 4 0
    none, .portTrainingComplete 0 65536 none, .portTrainingComplete 0 0 (some 64), .flitReceived 4 (⟨.tick, 0, 0, 0,
    0, 0, 0⟩) 0 false, .flitReceived 0 (⟨.tick, 0, 0, 0, 0, 0, 0⟩) 4 false, .nakReceived 4 0, .nakReceived 0 4096,
    .flitDelivery 4, .idTokenReceived 1 0 0 9 1, .idTokenReceived 1 0 0 1 9, .idTokenReceived 0 0 0 1 1,
    .idTokenReceived 1 1 0 1 1, .idTokenReceived 1 0 1 1 1, .deviceReport 64 0, .deviceReport 0 0,
    .remoteWindowAccess false 2 0, .retrain 4 0, .hfTickCfgWrite 8 0, .hfTickPeriodWrite 8 0, .hfTickTolWrite 8 0,
    .hfTickCountLoRead 8, .journalHeadLoRead 256, .adQuadCfgWrite 16 0, .adQuadChmapWrite 16 0, .adDecLineWrite 16 0] : List Instr).all (fun i => !i.wf) = true := by decide +kernel
theorem test_wf_refuses5 : ([
    .spHoistCfgWrite 32 0, .counterLowRead false 1048580, .counterHighWrite false 1048580 0, .counterLowWrite false
    1048580 0, .dbHalt 117440512, .dbResume 117440512, .dbStep 117440512, .dbForce 117440512, .haltTakesEffect 768
    0, .haltTakesEffect 0 4, .haltLockTimeout 768 0, .haltLockTimeout 0 4, .dbacc 4294967296, .registerWrite 2 0,
    .registerWrite 268435456 0, .registerWrite 286261248 0, .bar4Access 0 true 0 513 (List.replicate 513 0), .registerWrite 268435460 0, .treeRisingEdge ⟨8, 0, 0⟩, .stackTemperatureUpdate [0],
    .treeFrequencyUpdate [0]] : List Instr).all (fun i => !i.wf) = true := by decide +kernel
/-- With the operands in range the check accepts them. -/
theorem test_wf_accepts1 : ([
    .tick 0, .tickInserted 0, .internalGeneratorTick 0, .followedTick 0, .tickMessage 0 false 0, .captureTimeout 0,
    .tickMarkArrival 0, .slotMarkArrival 0, .decisionWordTransmit 0, .lvdsTickEdge ⟨0, true, 0, 0⟩, .frameStart 0 0 0, .dataBlock
    0 0, .frameEnd 0 0 0, .tickBlock 0 0, .idle 0, .align 0 0, .uncorrectableCodeword 0, .laneLosesLock 0,
    .laneRegainsLock 0, .ethernetFrame 0 [], .pauseExpiry 0, .mirrorWindowEnd 0, .frameArrival 0, .ingestPush 0 0 0,
    .scatterDrain 0, .zeroFillPush 0 0 0, .deadlineFillPush 0, .transmitPacket false 0, .uciePacketReceived 0 false,
    .riddleInputWord 0 0, .riddleOutputWord 0 0, .riddleEofDeadline 0 0, .riddleConfigReadback [],
    .riddleRepairComplete 0, .rdBlockReset 0, .captureEdge 0, .nop 0 0, .halt 0 0, .brk 0 0, .fn 0 0, .loop 0 0,
    .lidx 0 0, .waittick 0 0, .slot 0 0, .bell 0 0, .waitbell 0 0, .pop 0 0, .peek 0 0, .push 0 0, .commit 0 0,
    .drop 0 0, .waitq 0 0, .qstat 0 0, .ld 0 0, .st 0 0, .ldv 0 0, .stv 0 0, .fence 0 0, .lock 0 0, .unlock 0 0] : List Instr).all (fun i => i.wf) = true := by decide +kernel
theorem test_wf_accepts2 : ([
    .mms 0 0, .wcs 0 0, .grs 0 0, .rq 0 0, .oq 0 0, .vadd 0 0, .vsub 0 0, .vmul 0 0, .vmax 0 0, .vmin 0 0, .vcsel 0
    0, .vshl 0 0, .vshr 0 0, .vand 0 0, .vor 0 0, .vxor 0 0, .vcvt 0 0, .vrelu 0 0, .zpack 0 0, .zunpk 0 0, .vmovi 0
    0, .pcBreakpointMatch 0, .macStreamStart 0, .macStreamComplete 0, .heavyUnitTokenGrant 0 0, .rqComplete 0,
    .oqComplete 0, .fnCallComplete 0 0, .blockMoveComplete 0, .scratchLoadReturn 0 0, .scratchStorePerformed 0 0,
    .lockGrant 0 0, .weightFillArrival 0 false ⟨0, []⟩, .entryReachesTail 0, .commitTakesEffect 0 0,
    .entriesBecomeVisible 0, .creditArrival 0, .discardMarkArrival 0, .headRefill 0, .bellTokenArrival 0 0,
    .skipTimerExpiry 0, .hoistBurstIssue 0, .hoistBurstComplete 0 0, .waitHalfEnd 0, .translationWalkComplete 0 0,
    .holdCopyComplete 0, .sumpRequest 0 0 0 0 1 0 false, .portBurstComplete ⟨0, false⟩, .canaryCountExpiry 0, .bar4Access 0
    false 0 1 [], .doorbellProducerWrite 0 0 0, .doorbellConsumerWrite 0 0 0, .forwardedDoorbell 0 1 0,
    .ringEntryTake 0 0, .completionEntryPlace 0, .eventRecordPlace 0, .claimResetComplete 0, .shadowLoadComplete 0,
    .flr 0, .checkerSelfTestComplete []] : List Instr).all (fun i => i.wf) = true := by decide +kernel
theorem test_wf_accepts3 : ([
    .sumpAddressTestComplete [], .firmwareVerified 0, .rowPowerReady 0, .droopSensorTrip 0, .droopSensorClear 0,
    .rowClockStepDown 0, .rowClockStepUp 0, .thermalSensorRead 0, .faultDetection (.shaftSwitch 0), .replayRestart
    0, .spareLoadComplete 0, .spareRestart 0, .portTrainingComplete 0 0 none, .flitReceived 0 (⟨.tick, 0, 0, 0, 0,
    0, 0⟩) 0 false, .nakReceived 0 0, .flitDelivery 0, .idTokenReceived 1 0 0 1 1, .deviceReport 1 0,
    .remoteWindowAccess false 0 0, .retrain 0 0, .hfTickCfgWrite 0 0, .hfTickPeriodWrite 0 0, .hfTickTolWrite 0 0,
    .hfTickCountLoRead 0, .journalHeadLoRead 0, .adQuadCfgWrite 0 0, .adQuadChmapWrite 0 0, .adDecLineWrite 0 0,
    .spHoistCfgWrite 0 0, .counterLowRead false 1048576, .counterHighWrite false 1048576 0, .counterLowWrite false
    1048576 0, .dbHalt 16777216, .dbResume 33554432, .dbStep 50331648, .dbForce 67108864, .haltTakesEffect 0 0,
    .haltLockTimeout 0 0, .dbacc 0, .registerWrite 0 0, .treeRisingEdge ⟨0, 0, 0⟩, .stackTemperatureUpdate ([0, 0]),
    .treeFrequencyUpdate ([0, 0, 0, 0, 0, 0, 0, 0])] : List Instr).all (fun i => i.wf) = true := by decide +kernel

/-! ## Worked examples of the spec -/

/-- 0xC30A_0007 is class 7 for channel 10 of pipeline 3, valid and degraded (example of R6). -/
theorem test_example_decision : decisionWord true true false 3 10 7 = 0xC30A0007 := by decide +kernel
/-- Tiles 176, 175 and 191: spare F-tile, spare M-tile, A-tile (example of R36). -/
theorem test_example_tiles : (kindOf 176, isSpare 176, kindOf 175, isSpare 175, kindOf 191) = (2, true, 3, true, 0) := by decide +kernel
/-- Table 3.4: MXFP4, MXFP6 E2M3, MXINT8, and a NaN scale. -/
theorem test_example_mx : ((mxScale 0xC 0x7C).mul (decodeElem 0xC 0b1011)).eq (.fin true 3 16 0) = true
    ∧ ((mxScale 0xB 0x81).mul (decodeElem 0xB 0b000011)).eq (.fin false 3 2 0) = true
    ∧ ((mxScale 7 0x7F).mul (decodeElem 7 0x80)).eq (.ofInt (-2)) = true ∧ ((mxScale 9 0xFF).mul (decodeElem 9 0x3C)).isNan = true := by decide +kernel
/-- E4M3: 464 ties to 448; 465 becomes NaN, or 448 with one saturation (example of R87). -/
theorem test_example_e4m3 : fmtE4M3.convert true (.ofInt 464) = (0x7E, 0) ∧ (fmtE4M3.convert false (.ofInt 465)).1 = 0x7F
    ∧ fmtE4M3.convert true (.ofInt 465) = (0x7E, 1) := by decide +kernel
/-- Row 3 of the 8 x 64 block of chapter 3. -/
def exRow : List Machine.Num := (List.range 64).map (fun k => if k = 40 then .fin true 25 4 0 else if 32 ≤ k then .fin false 1 2 0
  else if k % 2 = 0 then .fin false 5 2 0 else .fin true 5 4 0)
theorem test_example_quantise : (rowQuantise exRow 127).2 = (0x3D4A, 0, 0)
    ∧ [0, 1, 32, 40].map (fun k => (rowQuantise exRow 127).1.getD k 0) = [51, -25, 10, -127] := by decide +kernel
/-- Group sums 1,648 and -1,367 with scales 2^-7 and 3/256: 0.63494873046875 - 414,201/524,288. -/
theorem test_example_rescale : (groupRescale (.ofInt 1648) (ofBf16 0x3C00) (ofBf16 0x3D4A) .zero).eq (.fin false 166448 262144 0) = true
    ∧ (groupRescale (.ofInt (-1367)) (ofBf16 0x3C40) (ofBf16 0x3D4A) .zero).eq (.fin true 414201 524288 0) = true := by decide +kernel
/-- The words of Tables 4.6 and 4.7. -/
theorem test_example_words : wd 0x2A [(0, 56), (0, 54), (3, 51), (1, 49), (256, 38)] = 0xA81A400000000000
    ∧ wd 0x28 [(1, 56), (7, 47), (1, 39), (64, 30), (1, 14), (1, 10)] = 0xA103809000004400
    ∧ legalWord {} 3 0 0xA103809000004400 = true ∧ legalWord {} 3 0 0xA81A400000000000 = true := by decide +kernel
/-- ZPACK of lanes 1, 3 and 9 (example of R136). -/
def exLanes : Nat := 0x05 <<< 8 + 0xFD <<< 24 + 0x0C <<< 72
def sExPack : State := seat 1 0 (wd 0x3D [(1, 52), (6, 47), (5, 42)]) {} { regs := { v := [(5, BitVec.ofNat 512 exLanes)] } }
theorem test_example_zpack : ans (exec (.zpack 1 0) sExPack) (fun u => (u.thread 1 0).regs.zm == 0x20A && u.v 1 0 6 == 0x0CFD05) = true := by
  decide +kernel
/-- Three rows of 32 bytes, the last with EOP: two words of 64 and 32 bytes, credit 2 and 1 (example of R193). -/
def kExWord : Skip := { cfg := { pushWidth := 5, size := 4096 } }
theorem test_example_packing : (packWords 64 false 3 [] [{ data := 1, bytes := 32 }, { data := 2, bytes := 32 }, { data := 3, bytes := 32, eop := true }]).1.map
    (fun w => (w.valid, kExWord.wordCredit w)) = [(64, 2), (32, 1)] ∧ kExWord.cfg.initialCredit = 128 := by decide +kernel
/-- A zero-run skip of 4 KiB has credit 56, with F = 4,080 too (example of R195). -/
theorem test_example_zrc : ({ size := 4096, zrc := true } : SkipCfg).initialCredit = 56
    ∧ ({ free := 4080, cfg := { size := 4096, zrc := true } } : Skip).creditAll = 56 := by decide +kernel
/-- k-nearest-neighbour with N = 512, 3 coordinates and k = 16 takes 5,152 fc (example of R229). -/
theorem test_example_knn : ({ unit := 8, desc := 512 <<< 64 + 16 <<< 80 + 3 <<< 128, descAddr := 0, thread := 0, issuedAt := 0 } : FnCall).time = 5152 := by
  decide +kernel

end Sys2Proof.Tests
end

/-! PROOFS. Flow instructions (chapter 6): what a command that changes its thread alone answers, what a write of one
general register answers, the clauses of `advanceLoops`, and the fields of the port status. -/

namespace Sys2Proof.Machine

/-! ## Commands that change their thread alone -/

/-- A further change of the thread stays inside the frame. -/
theorem ThreadFrame.modThread {s u : State} {t th : Nat} {cs : List Nat} (h : ThreadFrame s u t th cs) (f : Thread → Thread) :
    ThreadFrame s (u.modThread t th f) t th cs := by
  obtain ⟨⟨hrest, htiles, hctrs⟩, htile, hthreads⟩ := h
  refine ⟨⟨?_, fun x hx => ?_, hctrs⟩, ?_, fun x hx => ?_⟩
  · rw [hrest]
    rfl
  · rw [State.modThread, tile_modTile_other _ _ _ _ hx, htiles x hx]
  · rw [State.modThread, tile_modTile, htile]
    rfl
  · rw [thread_modThread_other _ _ _ _ _ hx, hthreads x hx]

/-- An instruction that issues answers the state its meaning gives. -/
theorem answers_instr {s : State} {t th op : Nat} {body : Nat → State → State} {p : State → Prop} (h : s.Issues t th op)
    (hp : p (body (s.pcWord t th) (s.issued t th))) : Answers (s.instr t th op body) p :=
  ⟨_, issueWord_legal s t th op body h, hp⟩

/-- An instruction whose meaning is a change of its thread leaves everything else alone. -/
theorem answers_instr_modThread {s : State} {t th op : Nat} (f : Nat → Thread → Thread) (h : s.Issues t th op) :
    Answers (s.instr t th op (fun w u => u.modThread t th (f w)))
      (fun u => ThreadFrame s u t th [] ∧ u.thread t th = f (s.pcWord t th) (s.issuedThread t th)) :=
  answers_instr h ⟨(issued_threadFrame s t th).modThread _, by rw [thread_modThread, issued_thread]⟩

/-! ## Loop frames (R110, R165) -/

theorem advanceLoops_inside {f : LoopFrame} {rest : List LoopFrame} {pc : Nat} (h : pc ≠ f.last) :
    advanceLoops (f :: rest) pc = (f :: rest, pc + 1) := by
  simp [advanceLoops, h]

theorem advanceLoops_perpetual {f : LoopFrame} {rest : List LoopFrame} (h : f.trip = 0) :
    advanceLoops (f :: rest) f.last = ({ f with pass := (f.pass + 1) % 2 ^ 24 } :: rest, f.first) := by
  simp [advanceLoops, h]

theorem advanceLoops_return {f : LoopFrame} {rest : List LoopFrame} (h : f.trip ≠ 0) (hpass : f.pass + 1 < f.trip) :
    advanceLoops (f :: rest) f.last = ({ f with pass := f.pass + 1 } :: rest, f.first) := by
  simp [advanceLoops, h, hpass]

theorem advanceLoops_lastPass {f : LoopFrame} {rest : List LoopFrame} (h : f.trip ≠ 0) (hpass : f.trip ≤ f.pass + 1) :
    advanceLoops (f :: rest) f.last = advanceLoops rest f.last := by
  simp [advanceLoops, h, Nat.not_lt.2 hpass]

/-- Settles O8: each command is a change of its own thread after the issue, and each clause on loops is one branch of
`advanceLoops`. -/
theorem plainControlAndLoopBodies : Obligations.PlainControlAndLoopBodies := by
  refine ⟨fun t th s => ⟨fun h => ?nop, fun h => ?halt, fun h => ?waittick, fun h => ?loop, fun h => ?grs⟩,
    fun f rest pc => ⟨advanceLoops_inside, advanceLoops_perpetual, advanceLoops_return, advanceLoops_lastPass, rfl⟩⟩
  case nop => exact answers_instr h ⟨issued_threadFrame s t th, issued_thread s t th⟩
  case halt => exact answers_instr_modThread (fun _ x => { x with mode := .halted }) h
  case waittick => exact answers_instr_modThread (fun _ x => { x with wait := .tick }) h
  case loop =>
    exact answers_instr_modThread (fun w x => { x with
      regs := { x.regs with
        loops := { ctr := lCtr w, first := x.regs.pc, last := lEnd w, trip := lTrip w } :: x.regs.loops } }) h
  case grs =>
    exact answers_instr_modThread (fun w x => { x with
      regs := { x.regs with
        sd := put x.regs.sd (bits w 57 56)
          ⟨bits w 55 54, bits w 53 51, bits w 50 49, bits w 48 38, bits w 37 27, bits w 26 18⟩ } }) h

/-! ## Writing one general register -/

@[simp] theorem rowFc_modThread (s : State) (t th : Nat) (f : Thread → Thread) (x : Nat) :
    (s.modThread t th f).rowFc x = s.rowFc x := rowFc_modTile _ _ _ _

@[simp] theorem rowFc_issued (s : State) (t th x : Nat) : (s.issued t th).rowFc x = s.rowFc x := by
  simp [State.issued]

@[simp] theorem g_issued (s : State) (t th r : Nat) : (s.issued t th).g t th r = s.g t th r := by
  rw [State.g, issued_thread]
  rfl

@[simp] theorem g_setG_same (s : State) (t th r lat : Nat) (x : Word) : (s.setG t th r lat x).g t th r = x := by
  simp [State.g, State.setG]

theorem g_setG_other (s : State) (t th r r' lat : Nat) (x : Word) (h : r' ≠ r) :
    (s.setG t th r lat x).g t th r' = s.g t th r' := by
  simp [State.g, State.setG, lookD_put_other _ _ _ _ _ h, Thread.keep]

/-- Later words wait for the register until `lat` fc after the write (R114). -/
@[simp] theorem busy_setG (s : State) (t th r lat : Nat) (x : Word) :
    lookD ((s.setG t th r lat x).thread t th).busy r 0 = s.rowFc t + lat := by
  simp [State.setG]

/-- An issued instruction that writes one general register leaves every other register and the rest alone. -/
theorem regFrame_issued_setG (s : State) (t th r lat : Nat) (x : Word) :
    RegFrame s ((s.issued t th).setG t th r lat x) t th [r] [] false [] := by
  have hthread : ((s.issued t th).setG t th r lat x).thread t th
      = { (s.issuedThread t th).keep r with
          regs := { (s.issuedThread t th).regs with g := put (s.issuedThread t th).regs.g r x }
          busy := put (s.issuedThread t th).busy r (s.rowFc t + lat) } := by
    rw [State.setG, thread_modThread, issued_thread, rowFc_issued]
  refine ⟨?_, ?_, fun r' hr => ?_, fun r' _ => ?_, fun _ => ?_⟩
  · unfold State.setG
    exact (issued_threadFrame s t th).modThread _
  · rw [hthread]
    rfl
  · rw [g_setG_other _ _ _ _ _ _ _ (by simpa using hr), g_issued]
  · rw [State.v, hthread]
    rfl
  · rw [hthread]
    rfl

/-- An instruction whose meaning writes x(w) to general register r(w), to be seen `lat` fc after issue. -/
theorem answers_instr_setG {s : State} {t th op lat : Nat} (r : Nat → Nat) (x : Nat → State → Word) (h : s.Issues t th op) :
    Answers (s.instr t th op (fun w u => u.setG t th (r w) lat (x w u))) (fun u =>
      RegFrame s u t th [r (s.pcWord t th)] [] false []
        ∧ u.g t th (r (s.pcWord t th)) = x (s.pcWord t th) (s.issued t th)
        ∧ lookD (u.thread t th).busy (r (s.pcWord t th)) 0 = s.rowFc t + lat) :=
  answers_instr h ⟨regFrame_issued_setG _ _ _ _ _ _, g_setG_same _ _ _ _ _ _, by rw [busy_setG, rowFc_issued]⟩

/-- The address of R166 is a sum modulo 2^32. -/
theorem ofInt_toNat_add (a : Word) (i : Int) : BitVec.ofInt 32 (a.toNat + i) = a + BitVec.ofInt 32 i := by
  simp [BitVec.ofInt_add]

/-! ## Port status (Table 6.1) -/

@[simp] theorem skip_issued (s : State) (t th k : Nat) : (s.issued t th).skip k = s.skip k := by
  simp [State.skip, State.issued]

@[simp] theorem ports_issued (s : State) (t th : Nat) : ((s.issued t th).tile t).ports = (s.tile t).ports := by
  simp [State.issued, State.modThread, Tile.setThread, tile_countTile]

@[simp] theorem portDests_issued (s : State) (t th p : Nat) : (s.issued t th).portDests t p = s.portDests t p := by
  simp only [State.portDests, ports_issued]

@[simp] theorem portSkip_issued (s : State) (t th p : Nat) : (s.issued t th).portSkip t p = s.portSkip t p := by
  simp only [State.portSkip, portDests_issued]

@[simp] theorem portCredit_issued (s : State) (t th p : Nat) : (s.issued t th).portCredit t p = s.portCredit t p := by
  simp only [State.portCredit, portDests_issued, skip_issued, rowFc_issued]

/-- The status reads ports, skips and the row clock, which an issue leaves alone. -/
@[simp] theorem portStatus_issued (s : State) (t th p : Nat) : (s.issued t th).portStatus t p = s.portStatus t p := by
  simp only [State.portStatus, ports_issued, portCredit_issued, portSkip_issued, skip_issued, rowFc_issued]

/-- The layout of Table 6.1: a count in bits 31 to 16 and the flags of bits 15 to 10. -/
def statusWord (n : Nat) (output empty underrun dropping timeout eop : Bool) : Nat :=
  n <<< 16 + boolNat output <<< 15 + boolNat empty <<< 14 + boolNat underrun <<< 13 + boolNat dropping <<< 12
    + boolNat timeout <<< 11 + boolNat eop <<< 10

theorem portStatus_input {s : State} {t p : Nat} {x : Port} (hx : look (s.tile t).ports p = some x) (hin : x.output = false) :
    s.portStatus t p =
      let k := s.skip (s.portSkip t p)
      let n := k.countable (s.rowFc t) false
      statusWord (min n 0xFFFF) false (decide (n = 0)) k.underrun k.dropping k.timeoutBit
        ((k.words.head?).any (fun r => r.eop) && decide (0 < n)) := by
  simp only [State.portStatus, hx, hin, statusWord]
  cases (s.skip (s.portSkip t p)).words <;> simp [boolNat]

theorem portStatus_output {s : State} {t p : Nat} {x : Port} (hx : look (s.tile t).ports p = some x) (hout : x.output = true) :
    s.portStatus t p = statusWord (min (s.portCredit t p) 0xFFFF) true false (x.dests.any (fun d => (s.skip d.1).underrun))
      false (x.dests.any (fun d => (s.skip d.1).timeoutBit)) false := by
  simp [State.portStatus, hx, hout, statusWord, boolNat]

theorem boolNat_le_one (b : Bool) : boolNat b ≤ 1 := by
  cases b <;> decide

theorem bitAt_eq {x i : Nat} {b : Bool} (h : x / 2 ^ i % 2 = boolNat b) : bitAt x i = b := by
  rw [bitAt, Nat.shiftRight_eq_div_pow, h]
  cases b <;> rfl

/-- Each flag is at most 1, so no field carries into the next. -/
theorem statusWord_fields {n : Nat} (hn : n ≤ 0xFFFF) (output empty underrun dropping timeout eop : Bool) :
    let v := statusWord n output empty underrun dropping timeout eop
    bits v 31 16 = n ∧ bitAt v 15 = output ∧ bitAt v 14 = empty ∧ bitAt v 13 = underrun ∧ bitAt v 12 = dropping
      ∧ bitAt v 11 = timeout ∧ bitAt v 10 = eop ∧ bits v 9 0 = 0 := by
  have h15 := boolNat_le_one output
  have h14 := boolNat_le_one empty
  have h13 := boolNat_le_one underrun
  have h12 := boolNat_le_one dropping
  have h11 := boolNat_le_one timeout
  have h10 := boolNat_le_one eop
  simp only [statusWord, bits, Nat.shiftLeft_eq, Nat.shiftRight_eq_div_pow]
  refine ⟨?count, bitAt_eq ?output, bitAt_eq ?empty, bitAt_eq ?underrun, bitAt_eq ?dropping, bitAt_eq ?timeout,
    bitAt_eq ?eop, ?rest⟩ <;> omega

theorem bits_10_0_eq_zero {v : Nat} (h : bitAt v 10 = false) (h' : bits v 9 0 = 0) : bits v 10 0 = 0 := by
  simp only [bitAt, bits, Nat.shiftRight_eq_div_pow, beq_eq_false_iff_ne] at *
  omega

/-- Settles O9: LIDX and QSTAT are writes of one register after the issue, and the port status is the word of its
fields. -/
theorem lidxAndQstatWriteOneRegister : Obligations.LidxAndQstatWriteOneRegister := by
  refine ⟨fun t th s => ⟨fun h => ?lidx, fun h => ?qstat⟩, fun s t p x hx => ⟨fun hin => ?input, fun hout => ?output⟩⟩
  case lidx =>
    have hw := answers_instr_setG (lat := 1) lRd (fun w u => BitVec.ofInt 32 ((u.g t th (lRa w)).toNat
      + ((s.thread t th).regs.passOf (lCtr (s.pcWord t th)) : Int) * lStride w)) h
    rw [ofInt_toNat_add, g_issued] at hw
    exact hw
  case qstat =>
    have hw := answers_instr_setG (lat := 2) qReg (fun w u => BitVec.ofNat 32 (u.portStatus t (qPort w))) h
    rw [portStatus_issued] at hw
    exact hw
  case input =>
    rw [portStatus_input hx hin]
    exact statusWord_fields (Nat.min_le_right _ _) ..
  case output =>
    rw [portStatus_output hx hout]
    obtain ⟨hcount, houtput, hempty, hunderrun, hdropping, htimeout, heop, hzero⟩ := statusWord_fields (Nat.min_le_right _ _) ..
    exact ⟨hcount, houtput, hempty, hunderrun, hdropping, htimeout, bits_10_0_eq_zero heop hzero⟩

end Sys2Proof.Machine

/-! PROOFS. Doorbells and the taking of command entries (chapter 13): what a read of a line gives after its write, what an
event and the end of a host command leave alone, the clauses of a PRODUCER write, and the state in which an entry is
accepted. -/

namespace Sys2Proof.Machine

/-! ## Lines in memory -/

@[simp] theorem natLE_length (n x : Nat) : (natLE n x).length = n := by
  induction n generalizing x with
  | zero => rfl
  | succ n ih => simp [natLE, ih]

theorem leNat_natLE (n x : Nat) : leNat (natLE n x) = x % 256 ^ n := by
  induction n generalizing x with
  | zero => simp [natLE, leNat, Nat.mod_one]
  | succ n ih => simp [natLE, leNat, ih, pow_succ', Nat.mod_mul]

@[simp] theorem lineBytes_length (l : Line) : (lineBytes l).length = 64 := natLE_length 64 _

theorem toNat_lt_256_pow {n : Nat} (x : BitVec (8 * n)) : x.toNat < 256 ^ n := x.isLt.trans_eq (pow_mul 2 8 n)

@[simp] theorem leNat_lineBytes (l : Line) : leNat (lineBytes l) = l.toNat := by
  rw [lineBytes, leNat_natLE, Nat.mod_eq_of_lt (toNat_lt_256_pow (n := 64) l)]

/-- Bytes written apart from a stretch leave what is read there. -/
theorem memRead_memWrite_outside (m : List Host.Cell) (a b n : Nat) (bs : List Byte) (h : a + n ≤ b ∨ b + bs.length ≤ a) :
    memRead (memWrite m b bs) a n = memRead m a n := by
  refine List.ext_getElem (by simp only [memRead_length]) fun i h1 _ => ?_
  rw [memRead_length] at h1
  rw [memRead_get _ _ _ _ h1, memRead_get _ _ _ _ h1]
  exact memGet_memWrite_outside bs m b (a + i) (by omega)

@[simp] theorem writeBytes_mem (s : State) (a : Nat) (bs : List Byte) : (s.writeBytes a bs).mem = memWrite s.mem a bs := by
  cases bs <;> rfl

/-! ## Claims and rings after an update -/

@[simp] theorem ring_modClaim (s : State) (c y k : Nat) (f : Claim → Claim) : (s.modClaim c f).ring y k = s.ring y k := rfl

@[simp] theorem claim_modRing (s : State) (c k y : Nat) (f : Ring → Ring) : (s.modRing c k f).claim y = s.claim y := rfl

@[simp] theorem claim_hit (s : State) (o b y : Nat) : (s.hit o b).claim y = s.claim y := rfl

@[simp] theorem claim_modCmd (s : State) (q y : Nat) (f : Cmd → Cmd) : (s.modCmd q f).claim y = s.claim y := rfl

theorem ring_modRing_other (s : State) (c k y j : Nat) (f : Ring → Ring) (h : 16 * y + j ≠ 16 * c + k) :
    (s.modRing c k f).ring y j = s.ring y j := by
  simp [State.modRing, State.modHost, State.ring, lookD_put_other _ _ _ _ _ h]

/-- A field of a claim that an update leaves alone is left alone in every claim. -/
theorem field_modClaim {α : Type} (g : Claim → α) (s : State) (c y : Nat) (f : Claim → Claim) (h : ∀ x, g (f x) = g x) :
    g ((s.modClaim c f).claim y) = g (s.claim y) := by
  by_cases hy : y = c
  · rw [hy, claim_modClaim, h]
  · rw [claim_modClaim_other _ _ _ _ hy]

/-! ## What an event leaves alone -/

/-- The fields of a claim that its commands set: an event changes none of them. -/
def Claim.commandFields (x : Claim) : DWord × List (BitVec 48 × Nat × Option (Nat × Nat × BitVec 128)) × Bool :=
  (x.journalHead, x.tags, x.ringOverrun)

/-- Time, the commands, the command rings, and in each claim what commands set there are as before. -/
structure EventFrame (s u : State) : Prop where
  now : u.now = s.now
  ticks : u.ticks = s.ticks
  cmds : u.host.cmds = s.host.cmds
  seq : u.host.seq = s.host.seq
  ring : ∀ c k, k < 14 → u.ring c k = s.ring c k
  claim : ∀ c, (u.claim c).commandFields = (s.claim c).commandFields

namespace EventFrame

theorem refl (s : State) : EventFrame s s := ⟨rfl, rfl, rfl, rfl, fun _ _ _ => rfl, fun _ => rfl⟩

theorem trans {s u w : State} (h : EventFrame s u) (h' : EventFrame u w) : EventFrame s w :=
  ⟨h'.now.trans h.now, h'.ticks.trans h.ticks, h'.cmds.trans h.cmds, h'.seq.trans h.seq,
    fun c k hk => (h'.ring c k hk).trans (h.ring c k hk), fun c => (h'.claim c).trans (h.claim c)⟩

theorem of_host {s u : State} (hhost : u.host = s.host) (hnow : u.now = s.now) (hticks : u.ticks = s.ticks) :
    EventFrame s u :=
  ⟨hnow, hticks, by rw [hhost], by rw [hhost], fun _ _ _ => by rw [State.ring, hhost]; rfl,
    fun _ => by rw [State.claim, hhost]; rfl⟩

theorem modClaim (s : State) (c : Nat) (f : Claim → Claim) (h : ∀ x, (f x).commandFields = x.commandFields) :
    EventFrame s (s.modClaim c f) :=
  ⟨rfl, rfl, rfl, rfl, fun _ _ _ => rfl, fun y => field_modClaim Claim.commandFields s c y f h⟩

/-- Rings 14 and 15 are no command rings. -/
theorem modRing (s : State) (c k : Nat) (f : Ring → Ring) (h14 : 14 ≤ k) (h16 : k < 16) : EventFrame s (s.modRing c k f) :=
  ⟨rfl, rfl, rfl, rfl, fun y j hj => ring_modRing_other _ _ _ _ _ _ (by omega), fun _ => rfl⟩

theorem hit (s : State) (o b : Nat) : EventFrame s (s.hit o b) := of_host rfl rfl rfl

theorem count (s : State) (k i c n : Nat) : EventFrame s (s.count k i c n) := of_host (by simp) (by simp) (by simp)

theorem fireMsix (s : State) (c v : Nat) : EventFrame s (s.fireMsix c v) := by
  unfold State.fireMsix
  split
  · exact modClaim _ _ _ fun _ => rfl
  · exact of_host rfl rfl rfl

theorem placeEntry (s : State) (c k : Nat) (r : Record) (h14 : 14 ≤ k) (h16 : k < 16) : EventFrame s (s.placeEntry c k r) := by
  have hplaced (bs : List Byte) (a : Nat) (f : Ring → Ring) : EventFrame s ((s.writeBytes a bs).modRing c k f) :=
    (of_host (by simp) (by simp) (by simp)).trans (modRing _ _ _ _ h14 h16)
  unfold State.placeEntry
  dsimp only
  split
  · exact (hplaced _ _ _).trans (fireMsix _ _ _)
  · exact hplaced _ _ _

theorem deliver (s : State) (c : Nat) (r : Record) : EventFrame s (s.deliver c r) := by
  unfold State.deliver
  split
  · exact refl s
  · split
    · exact placeEntry s c 15 r (by omega) (by omega)
    · split
      · exact modClaim _ _ _ fun _ => rfl
      · refine trans (trans (trans (trans ?_ (modRing _ _ _ _ ?_ ?_)) (hit _ _ _)) (hit _ _ _)) (count _ _ _ _ _)
        · exact modClaim _ _ _ fun _ => rfl
        · omega
        · omega

theorem raise (s : State) (k : EvKind) (e : EvArgs) : EventFrame s (s.raise k e) := by
  have hnumber (u : State) (f : Faults → Faults) : EventFrame u (u.modFaults f) := of_host rfl rfl rfl
  unfold State.raise
  refine trans ?_ (hnumber _ _)
  cases k.audience with
  | pf => exact deliver _ _ _
  | claim => exact deliver _ _ _
  | both =>
    dsimp only
    split
    · exact deliver _ _ _
    · exact (deliver _ _ _).trans (deliver _ _ _)

end EventFrame

/-! ## A PRODUCER write (R324) -/

/-- A PRODUCER write that leaves no more entries than the ring has changes that ring alone. -/
theorem setProducer_fits {s : State} {c k : Nat} {v : Word} (hne : (s.ring c k).entries ≠ 0)
    (hfit : (v - (s.ring c k).consumer).toNat ≤ (s.ring c k).entries) :
    s.setProducer c k v = s.modRing c k (fun r => { r with producer := v }) := by
  rw [State.setProducer, if_neg (by omega)]

theorem setProducer_overruns {s : State} {c k : Nat} {v : Word}
    (h : (s.ring c k).entries = 0 ∨ (s.ring c k).entries < (v - (s.ring c k).consumer).toNat) :
    s.setProducer c k v = s.ringOverrun c k := by
  rw [State.setProducer, if_pos h]

/-- An overrun leaves PRODUCER, sets its two status bits and raises one event. -/
theorem ringOverrun_notes (s : State) (c k : Nat) (hk : k < 14) :
    ((s.ringOverrun c k).ring c k).producer = (s.ring c k).producer ∧ ((s.ringOverrun c k).ring c k).overrun = true
      ∧ ((s.ringOverrun c k).claim c).ringOverrun = true ∧ (s.ringOverrun c k).faults.eventSeq = s.faults.eventSeq + 1 := by
  have hframe : EventFrame (((s.modRing c k (fun r => { r with overrun := true })).modClaim c
      (fun x => { x with ringOverrun := true }))) (s.ringOverrun c k) :=
    ((EventFrame.hit _ _ _).trans (EventFrame.hit _ _ _)).trans (EventFrame.raise _ _ _)
  have hring := hframe.ring c k hk
  rw [ring_modClaim, ring_modRing] at hring
  have hclaim := congrArg (·.2.2) (hframe.claim c)
  rw [claim_modClaim] at hclaim
  exact ⟨by rw [hring], by rw [hring], hclaim, by simp [State.ringOverrun]⟩

/-! ## Doorbells (R324, R325, R363, R407) -/

theorem answers_next {u : State} {p : State → Prop} (h : p u) : Answers (.next u) p := ⟨u, rfl, h⟩

theorem exec_doorbellProducerWrite {c k : Nat} {v : Word} {s : State} (hon : s.functionOn c = true) (hk : k < 16) :
    exec (.doorbellProducerWrite c k v) s = .next (doorbellProducerWriteDo c k v s) := by
  simp [exec, execDoorbellProducerWrite, hon, whenValid, hk]

theorem exec_doorbellConsumerWrite {c k : Nat} {v : Word} {s : State} (hon : s.functionOn c = true) (hk : k < 16) :
    exec (.doorbellConsumerWrite c k v) s = .next (doorbellConsumerWriteDo c k v s) := by
  simp [exec, execDoorbellConsumerWrite, hon, whenValid, hk]

theorem exec_forwardedDoorbell {c k : Nat} {v : Word} {s : State} (hhead : s.emeel.head = false)
    (hid : s.emeel.idTaken = true) (hc : c < 256) (h1 : 1 ≤ k) (h13 : k ≤ 13) :
    exec (.forwardedDoorbell c k v) s = .next (s.setProducer c k v) := by
  simp [exec, execForwardedDoorbell, whenDue, hhead, hid, hc, h1, h13]

theorem doorbellProducerWriteDo_ignored {c k : Nat} {v : Word} {s : State} (h : s.host.ready = false ∨ 14 ≤ k) :
    doorbellProducerWriteDo c k v s = s := by
  rw [doorbellProducerWriteDo, if_pos (by simpa using h)]

theorem doorbellProducerWriteDo_here {c k : Nat} {v : Word} {s : State} (hready : s.host.ready = true) (hk : k < 14)
    (hhere : (s.ring c k).device = 0 ∨ s.emeel.head = false) :
    doorbellProducerWriteDo c k v s = s.setProducer c k v := by
  have hhere' : ¬((s.ring c k).device ≠ 0 ∧ s.emeel.head = true) := fun ⟨hdevice, hhead⟩ => by simp_all
  rw [doorbellProducerWriteDo, if_neg (by simp [hready, hk]), if_neg hhere']

theorem doorbellProducerWriteDo_away {c k : Nat} {v : Word} {s : State} (hready : s.host.ready = true) (hk : k < 14)
    (hdevice : (s.ring c k).device ≠ 0) (hhead : s.emeel.head = true) :
    doorbellProducerWriteDo c k v s = s.emit (.doorbell (s.ring c k).device c k v) := by
  rw [doorbellProducerWriteDo, if_neg (by simp [hready, hk]), if_pos ⟨hdevice, hhead⟩]

theorem doorbellConsumerWriteDo_ignored {c k : Nat} {v : Word} {s : State} (h : s.host.ready = false ∨ k < 14) :
    doorbellConsumerWriteDo c k v s = s := by
  rw [doorbellConsumerWriteDo, if_pos (by obtain h | h := h <;> simp [h])]

theorem doorbellConsumerWriteDo_taken {c k : Nat} {v : Word} {s : State} (hready : s.host.ready = true) (hk : 14 ≤ k)
    (hne : (s.ring c k).entries ≠ 0) :
    doorbellConsumerWriteDo c k v s = s.modRing c k (fun r => { r with consumer := v }) := by
  rw [doorbellConsumerWriteDo, if_neg (by simp [hready, hk, hne])]

/-! ## Reading an entry: the events that the read may raise -/

/-- A read of marked words changes nothing, or is counted and noted in the claim, with its event or without (R303). -/
theorem uninitRead_cases (s : State) (c a n : Nat) :
    s.uninitRead c a n = s
      ∨ ∃ f : Claim → Claim, (∀ x, (f x).commandFields = x.commandFields)
        ∧ ((∃ k e, s.uninitRead c a n = (((s.count 5 c 0 n).raise k e).modClaim c f).hit (sumpClaim c) 0)
          ∨ s.uninitRead c a n = ((s.count 5 c 0 n).modClaim c f).hit (sumpClaim c) 0) := by
  rw [State.uninitRead]
  by_cases hn : n = 0
  · exact .inl (if_pos hn)
  · rw [if_neg hn]
    dsimp only
    refine .inr ((ite_eq_or_eq _ _ _).elim (fun h => ⟨_, ?_, .inl ⟨_, _, h⟩⟩) (fun h => ⟨_, ?_, .inr h⟩))
    · exact fun _ => rfl
    · exact fun _ => rfl

theorem EventFrame.uninitRead (s : State) (c a n : Nat) : EventFrame s (s.uninitRead c a n) := by
  obtain h | ⟨f, hf, ⟨k, e, h⟩ | h⟩ := uninitRead_cases s c a n <;> rw [h]
  · exact refl s
  · exact (((count _ _ _ _ _).trans (raise _ _ _)).trans (modClaim _ _ _ hf)).trans (hit _ _ _)
  · exact ((count _ _ _ _ _).trans (modClaim _ _ _ hf)).trans (hit _ _ _)

theorem uninitRead_memoryOk (s : State) (c a n : Nat) (hs : s.MemoryOk) : (s.uninitRead c a n).MemoryOk := by
  have hcount : (s.count 5 c 0 n).MemoryOk := memoryOk_of_mem _ _ hs (by simp)
  obtain h | ⟨f, _, ⟨k, e, h⟩ | h⟩ := uninitRead_cases s c a n <;> rw [h]
  · exact hs
  · exact memoryOk_of_mem _ _ (raise_memoryOk _ k e hcount) rfl
  · exact memoryOk_of_mem _ _ hcount rfl

theorem EventFrame.windowViolation (s : State) (c : Nat) (bad : Option Nat) : EventFrame s (s.windowViolation c bad) := by
  cases bad with
  | none => exact refl s
  | some a =>
    unfold State.windowViolation
    exact raise _ _ _

theorem windowViolation_memoryOk (s : State) (c : Nat) (bad : Option Nat) (hs : s.MemoryOk) :
    (s.windowViolation c bad).MemoryOk := by
  cases bad with
  | none => exact hs
  | some a => exact raise_memoryOk _ _ _ hs

theorem EventFrame.noteCvaRead (s : State) (c a n : Nat) : EventFrame s (s.noteCvaRead c a n) := by
  unfold State.noteCvaRead
  dsimp only
  split
  · exact windowViolation _ _ _
  · exact (windowViolation _ _ _).trans (uninitRead _ _ _ _)

theorem noteCvaRead_memoryOk (s : State) (c a n : Nat) (hs : s.MemoryOk) : (s.noteCvaRead c a n).MemoryOk := by
  unfold State.noteCvaRead
  dsimp only
  split
  · exact windowViolation_memoryOk _ _ _ hs
  · exact uninitRead_memoryOk _ _ _ _ (windowViolation_memoryOk _ _ _ hs)

/-- The state after the read of the entry at CONSUMER; that of ring 0 goes without translation. -/
def State.afterEntryRead (s : State) (c k : Nat) : State :=
  if k = 0 then s
  else s.noteCvaRead c ((s.ring c k).base + 64 * ((s.ring c k).consumer.toNat % (s.ring c k).entries)) 64

theorem EventFrame.afterEntryRead (s : State) (c k : Nat) : EventFrame s (s.afterEntryRead c k) := by
  unfold State.afterEntryRead
  split
  · exact refl s
  · exact noteCvaRead _ _ _ _

theorem afterEntryRead_memoryOk (s : State) (c k : Nat) (hs : s.MemoryOk) : (s.afterEntryRead c k).MemoryOk := by
  unfold State.afterEntryRead
  split
  · exact hs
  · exact noteCvaRead_memoryOk _ _ _ _ hs

theorem EventFrame.stamp {s u : State} (h : EventFrame s u) (d : Nat) : u.stamp d = s.stamp d := by
  have hdom : u.dom d = s.dom d := by rw [State.dom, h.ticks]; rfl
  rw [State.stamp, hdom, h.now]
  rfl

/-- A journal record is made of SEQ, the time and its command. -/
theorem EventFrame.journalRecord {s u : State} (h : EventFrame s u) (m : Cmd) (st origin reason : Nat) (result : BitVec 128) :
    u.journalRecord m st origin reason result = s.journalRecord m st origin reason result := by
  simp only [State.journalRecord, h.stamp, h.seq]

/-! ## Journal records (R334) -/

@[simp] theorem journal_cmds (s : State) (c : Nat) (r : Record) : (s.journal c r).host.cmds = s.host.cmds := by
  simp [State.journal, State.modHost, State.modClaim]

@[simp] theorem journal_rings (s : State) (c : Nat) (r : Record) : (s.journal c r).host.rings = s.host.rings := by
  simp [State.journal, State.modHost, State.modClaim]

@[simp] theorem journal_seq (s : State) (c : Nat) (r : Record) : (s.journal c r).host.seq = s.host.seq + 1 := by
  simp [State.journal, State.modHost, State.modClaim]

theorem claim_journal (s : State) (c y : Nat) (r : Record) :
    (s.journal c r).claim y = (s.modClaim c (fun x => { x with journalHead := x.journalHead + 1 })).claim y := by
  simp [State.journal, State.modHost, State.modClaim, State.claim]

/-- The primary copy of a record reads back; the mirror lies 8 KiB above. -/
theorem leNat_memRead_journal (s : State) (c : Nat) (r : Record) (hs : s.MemoryOk) :
    leNat (memRead (s.journal c r).mem (journalAddr c (s.claim c).journalHead.toNat) 64) = r.toNat := by
  have hmem : (s.journal c r).mem = memWrite (memWrite s.mem (journalAddr c (s.claim c).journalHead.toNat) (lineBytes r))
      (journalAddr c (s.claim c).journalHead.toNat + 0x2000) (lineBytes r) := by
    simp [State.journal, State.modHost]
  have hback := memRead_memWrite s.mem (journalAddr c (s.claim c).journalHead.toNat) (lineBytes r) hs
  rw [lineBytes_length] at hback
  rw [hmem, memRead_memWrite_outside _ _ _ _ _ (.inl (by omega)), hback, leNat_lineBytes]

/-! ## The end of a host command -/

/-- Rings and BAD_COMMAND are as before, and SEQ does not fall. -/
structure EndFrame (s u : State) : Prop where
  seq : s.host.seq ≤ u.host.seq
  rings : u.host.rings = s.host.rings
  badCommand : ∀ c, (u.claim c).badCommand = (s.claim c).badCommand

namespace EndFrame

theorem ring {s u : State} (h : EndFrame s u) (c k : Nat) : u.ring c k = s.ring c k := by
  rw [State.ring, h.rings]
  rfl

theorem refl (s : State) : EndFrame s s := ⟨le_rfl, rfl, fun _ => rfl⟩

theorem trans {s u w : State} (h : EndFrame s u) (h' : EndFrame u w) : EndFrame s w :=
  ⟨h.seq.trans h'.seq, h'.rings.trans h.rings, fun c => (h'.badCommand c).trans (h.badCommand c)⟩

theorem modClaim (s : State) (c : Nat) (f : Claim → Claim) (h : ∀ x, (f x).badCommand = x.badCommand) :
    EndFrame s (s.modClaim c f) :=
  ⟨le_rfl, rfl, fun y => field_modClaim Claim.badCommand s c y f h⟩

theorem finishOne (s : State) (c : Cmd) (ok : Bool) (n : Nat) (r : BitVec 128) : EndFrame s (s.finishOne c ok n r) := by
  refine ⟨?_, ?_, fun y => ?_⟩
  · simp [State.finishOne, State.modCmd, State.modHost]
  · simp [State.finishOne, State.modCmd, State.modHost]
  · rw [State.finishOne, claim_modCmd, claim_journal]
    exact field_modClaim Claim.badCommand s c.claim y _ fun _ => rfl

theorem finish (s : State) (seq : Nat) (ok : Bool) (n : Nat) (r : BitVec 128) : EndFrame s (s.finish seq ok n r) := by
  unfold State.finish
  split
  next => exact refl s
  next c _ =>
    exact foldl_keeps (EndFrame s) _ (fun u x h => h.trans (finishOne u x ok n r)) _ _
      ((finishOne s c ok n r).trans (modClaim _ _ _ fun _ => rfl))

end EndFrame

/-- Some command of the list holds an entry and has ended in a given way. -/
def State.HoldsEnded (u : State) (entry : BitVec 512) (ok : Bool) (reason : Nat) (result : BitVec 128) : Prop :=
  ∃ d ∈ u.host.cmds, d.entry = entry ∧ d.state = .ended ok reason result

theorem holdsEnded_modClaim {u : State} {c : Nat} {f : Claim → Claim} {entry : BitVec 512} {ok : Bool} {reason : Nat}
    {result : BitVec 128} : (u.modClaim c f).HoldsEnded entry ok reason result ↔ u.HoldsEnded entry ok reason result := Iff.rfl

theorem finishOne_cmds (s : State) (c : Cmd) (ok : Bool) (n : Nat) (r : BitVec 128) :
    (s.finishOne c ok n r).host.cmds = s.host.cmds.map (fun d => if d.seq == c.seq then
      { d with state := .ended ok n r, record := s.journalRecord c (if ok then 2 else 3) c.seq n r } else d) := by
  simp [State.finishOne, State.modCmd, State.modHost]

theorem finishOne_holdsEnded_of_seq {s : State} {c d : Cmd} (hd : d ∈ s.host.cmds) (hseq : d.seq = c.seq) (ok : Bool) (n : Nat)
    (r : BitVec 128) : (s.finishOne c ok n r).HoldsEnded d.entry ok n r := by
  refine ⟨_, by rw [finishOne_cmds]; exact List.mem_map_of_mem hd, ?_⟩
  simp [hseq]

theorem finishOne_keeps_holdsEnded {s : State} {entry : BitVec 512} {ok : Bool} {n : Nat} {r : BitVec 128} (c : Cmd)
    (h : s.HoldsEnded entry ok n r) : (s.finishOne c ok n r).HoldsEnded entry ok n r := by
  obtain ⟨d, hd, hentry, hstate⟩ := h
  refine ⟨_, by rw [finishOne_cmds]; exact List.mem_map_of_mem hd, ?_⟩
  by_cases hseq : d.seq = c.seq
  · simp [hseq, hentry]
  · simp [hseq, hentry, hstate]

/-- The command that ends is the first with its SEQ, and every command with that SEQ ends with it. -/
theorem finish_holdsEnded {s : State} {m : Cmd} (hm : m ∈ s.host.cmds) (ok : Bool) (n : Nat) (r : BitVec 128) :
    (s.finish m.seq ok n r).HoldsEnded m.entry ok n r := by
  unfold State.finish
  split
  next hnone => exact absurd (beq_self_eq_true m.seq) (List.find?_eq_none.1 hnone m hm)
  next c hc =>
    have hseq : c.seq = m.seq := beq_iff_eq.1 (List.find?_some (p := fun d : Cmd => d.seq == m.seq) hc)
    exact foldl_keeps (fun u => u.HoldsEnded m.entry ok n r) _ (fun u x h => finishOne_keeps_holdsEnded x h) _ _
      (holdsEnded_modClaim.2 (finishOne_holdsEnded_of_seq hm hseq.symm ok n r))

/-- A command that fails as bad notes it in its claim, moves no ring and leaves its entry among the ended commands. -/
theorem fail_badCommand {s : State} (c : Nat) {m : Cmd} (hm : m ∈ s.host.cmds) (reason : Nat) :
    let u := ((s.modClaim c (fun x => { x with badCommand := true })).hit (claimStatus c) 24).fail m.seq reason
    (∀ y k, u.ring y k = s.ring y k) ∧ s.host.seq ≤ u.host.seq ∧ (u.claim c).badCommand = true
      ∧ u.HoldsEnded m.entry false reason 0 := by
  have hend := EndFrame.finish ((s.modClaim c (fun x => { x with badCommand := true })).hit (claimStatus c) 24) m.seq false
    reason 0
  refine ⟨hend.ring, hend.seq, (hend.badCommand c).trans ?_, finish_holdsEnded ?_ false reason 0⟩
  · rw [claim_hit, claim_modClaim]
  · exact hm

/-! ## Taking an entry (R328, R332) -/

/-- Round-robin goes over rings 0 to 13. -/
theorem nextTake_ring_lt {s : State} {c k : Nat} (h : s.nextTake = some (c, k)) : k < 14 := by
  obtain ⟨a, -, ha⟩ := List.exists_of_findSome?_eq_some h
  obtain ⟨j, hj, hpair⟩ := Option.map_eq_some_iff.1 ha
  obtain ⟨-, rfl⟩ := Prod.mk.inj hpair
  unfold State.nextRingOf at hj
  split at hj
  · cases hj
  · obtain ⟨i, -, rfl⟩ := List.mem_map.1 (List.mem_of_find?_eq_some hj)
    exact Nat.mod_lt _ (by omega)

/-- The command that the entry at CONSUMER makes while its tag is fresh. -/
def State.takenCmd (s : State) (c k : Nat) : Cmd :=
  let entry := s.ringEntry c k (s.ring c k).consumer
  { seq := s.host.seq, claim := c, ring := k, index := (s.ring c k).consumer, entry := entry
    extra := decide (16 ≤ s.inflight c) && opcodeExempt (bits entry.toNat 15 0) }

/-- The state after a fresh entry's ACCEPTED record, its place among the commands and the note of its tag. -/
def State.acceptEntry (s : State) (c k : Nat) (m : Cmd) : State :=
  (((((s.journal c (s.journalRecord m 1 0 0 0)).modRing c k (fun r => { r with consumer := r.consumer + 1 })).modHost
    (fun h => { h with cmds := h.cmds ++ [m], nextClaim := (c + 1) % 256 })).modClaim c
    (fun x => { x with nextRing := (k + 1) % 14 })).count 5 c 2 1).modClaim c
    (fun x => { x with tags := ((m.tag, m.seq, none) :: x.tags).take 1024 })

theorem acceptEntry_cmds (s : State) (c k : Nat) (m : Cmd) : (s.acceptEntry c k m).host.cmds = s.host.cmds ++ [m] := by
  simp [State.acceptEntry, State.modClaim, State.modRing, State.modHost]

theorem acceptEntry_seq (s : State) (c k : Nat) (m : Cmd) : (s.acceptEntry c k m).host.seq = s.host.seq + 1 := by
  simp [State.acceptEntry, State.modClaim, State.modRing, State.modHost]

theorem ring_acceptEntry (s : State) (c k : Nat) (m : Cmd) :
    (s.acceptEntry c k m).ring c k = { s.ring c k with consumer := (s.ring c k).consumer + 1 } := by
  simp [State.acceptEntry, State.modClaim, State.modRing, State.modHost, State.ring]

theorem claim_acceptEntry (s : State) (c k : Nat) (m : Cmd) :
    (s.acceptEntry c k m).claim c = { s.claim c with
      journalHead := (s.claim c).journalHead + 1, nextRing := (k + 1) % 14
      tags := ((m.tag, m.seq, none) :: (s.claim c).tags).take 1024 } := by
  have hjournal := claim_journal s c c (s.journalRecord m 1 0 0 0)
  rw [claim_modClaim] at hjournal
  have hcount (u : State) : (u.count 5 c 2 1).claim c = u.claim c := by simp [State.claim]
  rw [State.acceptEntry, claim_modClaim, hcount, claim_modClaim]
  simp only [State.modHost, State.modRing, State.claim] at hjournal ⊢
  rw [hjournal]

theorem acceptEntry_mem (s : State) (c k : Nat) (m : Cmd) :
    (s.acceptEntry c k m).mem = (s.journal c (s.journalRecord m 1 0 0 0)).mem := by
  simp [State.acceptEntry, State.modHost]

theorem exec_ringEntryTake {c k : Nat} {s : State} (hready : s.host.ready = true) (hnext : s.nextTake = some (c, k)) :
    exec (.ringEntryTake c k) s = .next (ringEntryTakeDo c k s) := by
  simp [exec, execRingEntryTake, ringEntryTakeOk, whenDue, hready, hnext]

/-- The state after a fresh entry that the checks forbid: it was accepted and has failed at once (R326, R327). -/
def State.rejectEntry (s : State) (c k : Nat) (m : Cmd) (reason : Nat) : State :=
  (((s.acceptEntry c k m).modClaim c (fun x => { x with badCommand := true })).hit (claimStatus c) 24).fail m.seq reason

/-- An entry with a fresh tag is accepted after its read, and waits unless the checks forbid it. -/
theorem ringEntryTakeDo_fresh {s : State} {c k : Nat}
    (hfresh : (s.claim c).tags.find? (fun t => t.1 == (s.takenCmd c k).tag) = none) :
    ((s.takenCmd c k).invalid = none → ringEntryTakeDo c k s = (s.afterEntryRead c k).acceptEntry c k (s.takenCmd c k))
      ∧ ∀ reason, (s.takenCmd c k).invalid = some reason →
        ringEntryTakeDo c k s = (s.afterEntryRead c k).rejectEntry c k (s.takenCmd c k) reason := by
  have hfind := hfresh
  simp only [State.takenCmd, Cmd.tag, Cmd.arg] at hfind
  simp only [ringEntryTakeDo, Cmd.tag, Cmd.arg, hfind]
  refine ⟨fun hvalid => ?_, fun reason hinvalid => ?_⟩
  · split
    next reason hreason => cases hreason.symm.trans hvalid
    next => rfl
  · split
    next reason' hreason =>
      cases hreason.symm.trans hinvalid
      rfl
    next hnone => cases hnone.symm.trans hinvalid

/-- What the taking of a valid entry leaves (R328, R332). -/
theorem acceptEntry_afterEntryRead {s : State} {c k : Nat} (hk : k < 14) (hs : s.MemoryOk) (m : Cmd) :
    let u := (s.afterEntryRead c k).acceptEntry c k m
    u.host.cmds = s.host.cmds ++ [m] ∧ (u.ring c k).consumer = (s.ring c k).consumer + 1 ∧ u.host.seq = s.host.seq + 1
      ∧ (u.claim c).journalHead = (s.claim c).journalHead + 1
      ∧ (u.claim c).tags = ((m.tag, m.seq, none) :: (s.claim c).tags).take 1024
      ∧ leNat (memRead u.mem (journalAddr c (s.claim c).journalHead.toNat) 64) = (s.journalRecord m 1 0 0 0).toNat := by
  have hread := EventFrame.afterEntryRead s c k
  have hhead := congrArg (·.1) (hread.claim c)
  have htags := congrArg (·.2.1) (hread.claim c)
  dsimp only [Claim.commandFields] at hhead htags
  have hrecord := leNat_memRead_journal (s.afterEntryRead c k) c ((s.afterEntryRead c k).journalRecord m 1 0 0 0)
    (afterEntryRead_memoryOk s c k hs)
  dsimp only
  rw [acceptEntry_cmds, acceptEntry_seq, ring_acceptEntry, claim_acceptEntry, acceptEntry_mem, hread.cmds, hread.seq,
    hread.ring c k hk]
  dsimp only
  rw [hread.journalRecord, hhead] at hrecord
  rw [hread.journalRecord, hhead, htags]
  exact ⟨rfl, rfl, rfl, rfl, rfl, hrecord⟩

/-- What the taking of a forbidden entry leaves (R326, R327). -/
theorem rejectEntry_afterEntryRead {s : State} {c k : Nat} (hk : k < 14) (m : Cmd) (reason : Nat) :
    let u := (s.afterEntryRead c k).rejectEntry c k m reason
    (u.ring c k).consumer = (s.ring c k).consumer + 1 ∧ s.host.seq < u.host.seq ∧ (u.claim c).badCommand = true
      ∧ u.HoldsEnded m.entry false reason 0 := by
  have hread := EventFrame.afterEntryRead s c k
  have hmem : m ∈ ((s.afterEntryRead c k).acceptEntry c k m).host.cmds := by simp [acceptEntry_cmds]
  obtain ⟨hring, hseq, hbad, hended⟩ := fail_badCommand c hmem reason
  rw [acceptEntry_seq, hread.seq] at hseq
  refine ⟨?_, hseq, hbad, hended⟩
  rw [State.rejectEntry, hring, ring_acceptEntry, hread.ring c k hk]

/-- Settles O43: each doorbell is one branch of its command, and a fresh entry is accepted after a read whose events leave
its claim's journal and commands alone. -/
theorem doorbellsMoveRingPointers : Obligations.DoorbellsMoveRingPointers := by
  refine ⟨fun c k v s hk => ⟨fun hon hready => ?notReady, fun hon hready hk14 hhere hne => ⟨fun hfit => ?fits, fun hover => ?overruns⟩,
    fun hon hready hk14 hhere hover => ?noted, fun hon hready hk14 hdevice hhead => ?away, fun i => ?entry,
    fun hon hready hk14 hne => ?completions, fun hon hready hk14 => ?readOnly,
    fun hhead hid hc h1 h13 => ⟨fun hne hfit => ?forwardedFits, fun hover => ?forwardedNoted⟩⟩, ?take⟩
  case notReady =>
    rw [exec_doorbellProducerWrite hon hk, exec_doorbellConsumerWrite hon hk, doorbellProducerWriteDo_ignored (.inl hready),
      doorbellConsumerWriteDo_ignored (.inl hready)]
    exact ⟨rfl, rfl⟩
  case fits =>
    rw [exec_doorbellProducerWrite hon hk, doorbellProducerWriteDo_here hready hk14 hhere, setProducer_fits hne hfit]
    exact answers_next ⟨ring_modRing _ _ _ _, rfl⟩
  case overruns =>
    rw [exec_doorbellProducerWrite hon hk, doorbellProducerWriteDo_here hready hk14 hhere, setProducer_overruns (.inr hover)]
    exact answers_next (ringOverrun_notes s c k hk14)
  case noted =>
    rw [exec_doorbellProducerWrite hon hk, doorbellProducerWriteDo_here hready hk14 hhere, setProducer_overruns hover]
    rfl
  case away =>
    rw [exec_doorbellProducerWrite hon hk, doorbellProducerWriteDo_away hready hk14 hdevice hhead]
    rfl
  case entry =>
    by_cases h0 : k = 0
    · subst h0
      rfl
    · simp only [State.ringEntry, if_neg h0]
  case completions =>
    rw [exec_doorbellProducerWrite hon hk, exec_doorbellConsumerWrite hon hk, doorbellProducerWriteDo_ignored (.inr hk14),
      doorbellConsumerWriteDo_taken hready hk14 hne]
    exact ⟨rfl, answers_next ⟨ring_modRing _ _ _ _, rfl⟩⟩
  case readOnly =>
    rw [exec_doorbellConsumerWrite hon hk, doorbellConsumerWriteDo_ignored (.inr hk14)]
  case forwardedFits =>
    rw [exec_forwardedDoorbell hhead hid hc h1 h13, setProducer_fits hne hfit]
    exact answers_next ⟨ring_modRing _ _ _ _, rfl⟩
  case forwardedNoted =>
    rw [exec_forwardedDoorbell hhead hid hc h1 h13, setProducer_overruns hover]
    rfl
  case take =>
    intro c k s hready hnext hs m hfresh
    have hk := nextTake_ring_lt hnext
    obtain ⟨haccepts, hrejects⟩ := ringEntryTakeDo_fresh (k := k) hfresh
    rw [exec_ringEntryTake hready hnext]
    refine ⟨fun hvalid => ?_, fun reason hinvalid => ?_⟩
    · rw [haccepts hvalid]
      exact answers_next (acceptEntry_afterEntryRead hk hs _)
    · rw [hrejects reason hinvalid]
      exact answers_next (rejectEntry_afterEntryRead hk _ reason)

end Sys2Proof.Machine

/-! PROOFS. Host accesses before READY (R407): the register-space operations, the doorbell pages and BAR4 each test READY
once; a row that goes through one of them then changes nothing, or answers 0. -/

namespace Sys2Proof.Machine

/-! ## BAR0 -/

theorem bar0_ignored {s : State} (hready : s.host.ready = false) (t : State) : s.bar0 t = s := by
  simp [State.bar0, hready]

theorem bar0Read_notReady {s : State} (hready : s.host.ready = false) (o : Nat) :
    s.bar0Read o = if o = 0x4 ∨ o = 0x7000004 ∨ o = 0x7000018 then s.regView false o else 0 := by
  simp [State.bar0Read, hready]

/-- A read of any other register answers 0 and latches nothing. -/
theorem readBar0_notReady {s : State} (hready : s.host.ready = false) {o : Nat}
    (ho : ¬(o = 0x4 ∨ o = 0x7000004 ∨ o = 0x7000018)) : s.readBar0 o = s.emit (.readValue 0) := by
  rw [State.readBar0, bar0Read_notReady hready, if_neg ho, hready]
  rfl

theorem whenValid_bar0_ignored {s : State} (hready : s.host.ready = false) {ok : Bool} (hok : ok = true) (t : State) :
    whenValid ok (s.bar0 t) = .next s :=
  (whenValid_next _ _ _).2 ⟨hok, (bar0_ignored hready t).symm⟩

theorem whenValid_readBar0_notReady {s : State} (hready : s.host.ready = false) {ok : Bool} (hok : ok = true) {o : Nat}
    (ho : ¬(o = 0x4 ∨ o = 0x7000004 ∨ o = 0x7000018)) : whenValid ok (s.readBar0 o) = .next (s.emit (.readValue 0)) :=
  (whenValid_next _ _ _).2 ⟨hok, (readBar0_notReady hready ho).symm⟩

theorem next_bar0_ignored {s : State} (hready : s.host.ready = false) (t : State) : (.next (s.bar0 t) : Result) = .next s := by
  rw [bar0_ignored hready]

theorem next_readBar0_notReady {s : State} (hready : s.host.ready = false) {o : Nat}
    (ho : ¬(o = 0x4 ∨ o = 0x7000004 ∨ o = 0x7000018)) : (.next (s.readBar0 o) : Result) = .next (s.emit (.readValue 0)) := by
  rw [readBar0_notReady hready ho]

theorem exec_registerWrite_bar0 {o : Nat} (ho : o < 0x10000000) (v : Word) (s : State) :
    exec (.registerWrite o v) s = whenValid (o % 4 == 0) (s.bar0 (s.regWrite false o v)) :=
  if_pos ho

/-- Counters lie behind the three registers that answer. -/
theorem le_of_ctrLow {o : Nat} (ho : ctrLow o = true) : 0x100000 ≤ o := by
  simp only [ctrLow, Bool.and_eq_true, decide_eq_true_eq] at ho
  exact ho.1.2

theorem forall_mem_triple {α : Type} {p : α → Prop} {a b c : α} (ha : p a) (hb : p b) (hc : p c) : ∀ x ∈ [a, b, c], p x := by
  simp [ha, hb, hc]

/-! ## BAR2 -/

theorem bar2Write_ignored {s : State} (hready : s.host.ready = false) (c k o : Nat) (v : Word) : s.bar2Write c k o v = s := by
  simp [State.bar2Write, hready]

/-- The operand of a doorbell page gives back its function, its ring and the offset in the page. -/
theorem exec_registerWrite_bar2 {c k o : Nat} {s : State} (hon : s.functionOn c = true) (hc : c < 256) (hk : k < 16)
    (h4 : o % 4 = 0) (h8 : 8 ≤ o) (ho : o < 0x1000) (v : Word) :
    exec (.registerWrite (0x10000000 + 0x10000 * c + 0x1000 * k + o) v) s = .next (s.bar2Write c k o v) := by
  have hfunction : (0x10000000 + 0x10000 * c + 0x1000 * k + o) / 0x10000 % 256 = c := by omega
  have hring : (0x10000000 + 0x10000 * c + 0x1000 * k + o) / 0x1000 % 16 = k := by omega
  have hoffset : (0x10000000 + 0x10000 * c + 0x1000 * k + o) % 0x1000 = o := by omega
  have hvalid : (0x10000000 + 0x10000 * c + 0x1000 * k + o) % 4 = 0 ∧ 0x10000000 + 0x10000 * c + 0x1000 * k + o < 0x11000000 := by
    omega
  change execRegisterWrite _ _ _ = _
  rw [execRegisterWrite, if_neg (by omega), if_neg (by omega), hfunction, hring, hoffset, if_pos hon, whenValid_next]
  exact ⟨by simp [hvalid, h8], rfl⟩

/-! ## BAR4 -/

theorem bar4AccessDo_ignored {s : State} (hready : s.host.ready = false) (c : Nat) (write : Bool) (cva len : Nat)
    (data : List Byte) : bar4AccessDo c write cva len data s = s := by
  simp [bar4AccessDo, hready]

theorem exec_bar4Read {s : State} {c cva len : Nat} (hin : s.inBar4 c cva len = true) (h1 : 1 ≤ len) (hmax : len ≤ 4096) :
    exec (.bar4Access c false cva len []) s = .next (bar4AccessDo c false cva len [] s) := by
  simp [exec, execBar4Access, whenValid, hin, h1, hmax]

theorem exec_bar4Write {s : State} {c cva len : Nat} {data : List Byte} (hin : s.inBar4 c cva data.length = true)
    (h1 : 1 ≤ data.length) (hmax : data.length ≤ 512) :
    exec (.bar4Access c true cva len data) s = .next (bar4AccessDo c true cva len data s) := by
  simp [exec, execBar4Access, whenValid, hin, h1, hmax]

/-- Settles O57: each row of BAR0 is its operation behind the test of READY, and so are the doorbell pages and BAR4; the
registers whose reads latch are none of the three that answer. -/
theorem hostWaitsForReady : Obligations.HostWaitsForReady := by
  intro s hready
  have hwrite {ok : Bool} (hok : ok = true) (t : State) := whenValid_bar0_ignored hready hok t
  have hplain (t : State) := next_bar0_ignored hready t
  refine ⟨bar0Read_notReady hready, next_readBar0_notReady hready (by omega), next_readBar0_notReady hready (by omega),
    next_readBar0_notReady hready (by omega), fun d hd => ?tickCount,
    fun c hc => ?journalHead, fun o v h4 ho => ?register,
    fun v => ⟨hplain _, hplain _, hplain _, hplain _, hplain _, hplain _, hplain _, hplain _⟩,
    fun d v hd => ?domain, fun n v hn => ?quadOrLine, fun h v hh => hwrite (decide_eq_true hh) _,
    fun p v hp => hwrite (decide_eq_true hp) _, fun o v ho => ⟨hwrite ho _, hwrite ho _, ?counterRead⟩,
    fun c k v hon hk => ?doorbell, fun c k o v hon hc hk h4 h8 ho => ?doorbellPage, fun c cva len hin h1 hmax => ?bar4Read,
    fun c cva len data hin h1 hmax => ?bar4Write⟩
  case tickCount => exact whenValid_readBar0_notReady hready (decide_eq_true hd) (by omega)
  case journalHead => exact whenValid_readBar0_notReady hready (decide_eq_true hc) (by omega)
  case register =>
    rw [exec_registerWrite_bar0 ho]
    exact hwrite (beq_iff_eq.2 h4) _
  case domain =>
    have hok := decide_eq_true hd
    exact forall_mem_triple (hwrite hok _) (hwrite hok _) (hwrite hok _)
  case quadOrLine =>
    have hok := decide_eq_true hn
    exact forall_mem_triple (hwrite hok _) (hwrite hok _) (hwrite hok _)
  case counterRead =>
    have hbase := le_of_ctrLow ho
    exact whenValid_readBar0_notReady hready ho (by omega)
  case doorbell =>
    rw [exec_doorbellProducerWrite hon hk, exec_doorbellConsumerWrite hon hk, doorbellProducerWriteDo_ignored (.inl hready),
      doorbellConsumerWriteDo_ignored (.inl hready)]
    exact ⟨rfl, rfl⟩
  case doorbellPage => rw [exec_registerWrite_bar2 hon hc hk h4 h8 ho, bar2Write_ignored hready]
  case bar4Read => rw [exec_bar4Read hin h1 hmax, bar4AccessDo_ignored hready]
  case bar4Write => rw [exec_bar4Write hin h1 hmax, bar4AccessDo_ignored hready]

end Sys2Proof.Machine

/-! PROOFS. What every command keeps (95_what_each_step_holds.md): the queue, the canonical form of memory and the range
of the row clocks. `Keeps s u` says so of two states; each operation of the model has one lemma, which carries `Keeps`
from its operand to its result, in the order of the definitions, and `exec` has one case for each command. -/

namespace Sys2Proof.Machine

/-- The row runs at 12/16 to 16/16 of the nominal rate (R399). -/
abbrev Row.InRange (r : Row) : Prop := 12 ≤ r.k ∧ r.k ≤ 16 ∧ r.acc < 16

theorem Row.InRange.slowest {r : Row} (h : r.InRange) : 12 ≤ 12 ∧ 12 ≤ 16 ∧ r.acc < 16 := ⟨by decide, by decide, h.2.2⟩

theorem Row.InRange.advance {r : Row} (h : r.InRange) : r.advance.InRange := by
  obtain ⟨hlo, hhi, hacc⟩ := h
  unfold Row.advance
  split
  next hlt => exact ⟨hlo, hhi, hlt⟩
  · exact ⟨hlo, hhi, show r.acc + r.k - 16 < 16 by omega⟩

theorem Row.default_inRange : ({} : Row).InRange := by decide

theorem reset_rowsOk : State.reset.RowsOk := by decide

/-- The part of the state that `Keeps` speaks of. -/
def State.kept (s : State) : List Instr × List Host.Cell × List Row := (s.pending, s.mem, s.power.rows)

theorem State.kept_inj {s u : State} :
    s.kept = u.kept ↔ s.pending = u.pending ∧ s.mem = u.mem ∧ s.power.rows = u.power.rows := by
  simp [State.kept]

/-- From `s` to `u` the queue stays as it is, and the invariants of memory and row clocks carry over. -/
structure Keeps (s u : State) : Prop where
  pending : u.pending = s.pending
  memory : s.MemoryOk → u.MemoryOk
  rows : s.RowsOk → u.RowsOk

namespace Keeps
variable {s u : State}

theorem refl (s : State) : Keeps s s := ⟨rfl, id, id⟩

theorem trans {w : State} (hs : Keeps s u) (h' : Keeps u w) : Keeps s w :=
  ⟨h'.pending.trans hs.pending, h'.memory ∘ hs.memory, h'.rows ∘ hs.rows⟩

/-- An update that writes neither queue nor row clocks, and memory in its canonical form. -/
theorem remember {w : State} (hs : Keeps s u) (hqueue : w.pending = u.pending) (hmem : u.MemoryOk → w.MemoryOk)
    (hrows : w.power.rows = u.power.rows) : Keeps s w :=
  hs.trans ⟨hqueue, hmem, fun hr => by rw [State.RowsOk, hrows]; exact hr⟩

/-- An update that writes neither queue nor memory nor row clocks. -/
theorem same {w : State} (hs : Keeps s u) (hw : w.kept = u.kept) : Keeps s w := by
  obtain ⟨hqueue, hmem, hrows⟩ := State.kept_inj.1 hw
  exact hs.remember hqueue (fun hm => memoryOk_of_mem _ _ hm hmem) hrows

/-- An update of the row clocks alone, each from one that was in range. -/
theorem reclock {w : State} (hs : Keeps s u) (hqueue : w.pending = u.pending) (hmem : w.mem = u.mem)
    (hlen : w.power.rows.length = u.power.rows.length)
    (hrow : ∀ x ∈ w.power.rows, ∃ y ∈ u.power.rows, y.InRange → x.InRange) : Keeps s w := by
  refine hs.trans ⟨hqueue, fun hm => memoryOk_of_mem _ _ hm hmem, fun ⟨h24, hall⟩ => ⟨hlen.trans h24, fun x hx => ?_⟩⟩
  obtain ⟨y, hy, hyx⟩ := hrow x hx
  exact hyx (hall y hy)

theorem ite {c : Prop} [Decidable c] {a b : State} (ha : Keeps s a) (hb : Keeps s b) : Keeps s (if c then a else b) := by
  split
  · exact ha
  · exact hb

theorem foldl {α : Type} {f : State → α → State} {l : List α} (hf : ∀ u x, Keeps s u → Keeps s (f u x)) (hs : Keeps s u) :
    Keeps s (l.foldl f u) :=
  foldl_keeps (Keeps s) f hf l u hs

theorem upTo {n : Nat} {f : State → Nat → State} (hf : ∀ u x, Keeps s u → Keeps s (f u x)) (hs : Keeps s u) :
    Keeps s (Machine.upTo n f u) :=
  foldl hf hs

theorem modPower (hs : Keeps s u) {f : Power → Power} (hf : (f u.power).rows = u.power.rows) : Keeps s (u.modPower f) :=
  hs.same (State.kept_inj.2 ⟨rfl, rfl, hf⟩)

/-- A row that is in range may become another one that is. -/
theorem modRow (hs : Keeps s u) {r : Nat} {f : Row → Row} (hf : (u.row r).InRange → (f (u.row r)).InRange) :
    Keeps s (u.modRow r f) := by
  refine hs.trans ⟨rfl, id, fun ⟨hlen, hall⟩ => ⟨(List.length_set ..).trans hlen, fun x hx => ?_⟩⟩
  obtain hx | rfl := List.mem_or_eq_of_mem_set hx
  · exact hall x hx
  · refine hf ?_
    unfold State.row
    rw [List.getD_eq_getElem?_getD]
    cases hget : u.power.rows[r]? with
    | none => exact Row.default_inRange
    | some y => exact hall y (List.mem_of_getElem? hget)

theorem modHost (hs : Keeps s u) {f : HostIf → HostIf} : Keeps s (u.modHost f) := by
  unfold State.modHost
  exact .same hs (by rfl)

theorem takeSnapshot (hs : Keeps s u) {stepped : Nat → Bool} : Keeps s (u.takeSnapshot stepped) := by
  unfold State.takeSnapshot
  split
  · split
    · exact .ite hs (.modHost hs)
    · exact hs
  · exact hs

theorem enterRows (hs : Keeps s u) {stepped : Nat → Bool} : Keeps s (u.enterRows stepped) := by
  unfold State.enterRows
  exact .same hs (by rfl)

theorem modDebug (hs : Keeps s u) {f : Debug → Debug} : Keeps s (u.modDebug f) := by
  unfold State.modDebug
  exact .same hs (by rfl)

theorem count (hs : Keeps s u) {k i c n : Nat} : Keeps s (u.count k i c n) := by
  unfold State.count
  exact .ite hs (.modDebug hs)

theorem advanceRows (hs : Keeps s u) : Keeps s u.advanceRows := by
  unfold State.advanceRows
  extract_lets s1
  have hs1 : Keeps s s1 := .upTo (fun _ _ hs => .ite (.count (.count hs)) hs) hs
  clear_value s1
  refine hs1.reclock rfl rfl (List.length_map _) fun x hx => ?_
  obtain ⟨y, hy, rfl⟩ := List.mem_map.1 hx
  exact ⟨y, hy, Row.InRange.advance⟩

theorem modDom (hs : Keeps s u) {d : Nat} {f : TickDomain → TickDomain} : Keeps s (u.modDom d f) := by
  unfold State.modDom
  exact .same hs (by rfl)

theorem dropTicks (hs : Keeps s u) : Keeps s u.dropTicks := by
  unfold State.dropTicks
  exact .upTo (fun _ _ hs => .ite (.modDom hs) hs) hs

theorem modEmeel (hs : Keeps s u) {f : Emeel → Emeel} : Keeps s (u.modEmeel f) := by
  unfold State.modEmeel
  exact .same hs (by rfl)

theorem settleFc (hs : Keeps s u) : Keeps s u.settleFc := by
  unfold State.settleFc
  exact .modDebug (.same hs (by rfl))

theorem modSkip (hs : Keeps s u) {k : Nat} {f : Skip → Skip} : Keeps s (u.modSkip k f) := by
  unfold State.modSkip
  exact .same hs (by rfl)

theorem modEmPort (hs : Keeps s u) {p : Nat} {f : EmPort → EmPort} : Keeps s (u.modEmPort p f) := by
  unfold State.modEmPort
  exact .modEmeel hs

theorem countPort (hs : Keeps s u) {p c : Nat} : Keeps s (u.countPort p c) := by
  unfold State.countPort
  exact .count hs

theorem emit (hs : Keeps s u) {o : Out} : Keeps s (u.emit o) := by
  unfold State.emit
  exact .same hs (by rfl)

theorem sendOn (hs : Keeps s u) {p : Nat} {f : Flit} {delay : Nat} : Keeps s (u.sendOn p f delay) := by
  unfold State.sendOn
  extract_lets x g s1
  have hs1 : Keeps s s1 := .modEmPort hs
  exact .ite (.countPort (.emit hs1)) hs1

theorem sendFlit (hs : Keeps s u) {device : Nat} {kind : FlitKind} {stream tag : Nat} {payload : Line} {delay : Nat} :
    Keeps s (u.sendFlit device kind stream tag payload delay) := by
  unfold State.sendFlit
  split
  · exact .sendOn hs
  · exact hs

theorem sendEgress (hs : Keeps s u) {k : Nat} : Keeps s (u.sendEgress k) := by
  unfold State.sendEgress
  extract_lets x
  split
  · exact .ite hs (.sendFlit (.modSkip hs))
  · exact hs

theorem drainEgress (hs : Keeps s u) {k : Nat} : Keeps s (u.drainEgress k) := by
  unfold State.drainEgress
  exact .upTo (fun _ _ hs => .sendEgress hs) hs

theorem drainEgresses (hs : Keeps s u) : Keeps s u.drainEgresses := by
  unfold State.drainEgresses
  exact .foldl (fun _ _ hs => .drainEgress hs) hs

theorem modSump (hs : Keeps s u) {f : Sump → Sump} : Keeps s (u.modSump f) := by
  unfold State.modSump
  exact .same hs (by rfl)

theorem modSumpPort (hs : Keeps s u) {p : Nat} {f : SumpPort → SumpPort} : Keeps s (u.modSumpPort p f) := by
  unfold State.modSumpPort
  exact .modSump hs

theorem portDecide (hs : Keeps s u) {port : Nat} : Keeps s (u.portDecide port) := by
  unfold State.portDecide
  refine .ite hs ?_
  extract_lets n lw
  split
  · exact hs
  · exact .count (.count (.modSumpPort hs))

theorem presentRun (hs : Keeps s u) {port : Nat} {r : Run} : Keeps s (u.presentRun port r) := by
  unfold State.presentRun
  refine .ite (.modSumpPort hs) ?_
  extract_lets r1 s1
  have hs1 : Keeps s s1 := .modSumpPort hs
  exact .ite (.portDecide hs1) hs1

theorem admitRuns (hs : Keeps s u) : Keeps s u.admitRuns := by
  unfold State.admitRuns
  exact .foldl (fun _ _ hs => .foldl (fun _ _ hs => .presentRun (.modSumpPort hs)) hs) hs

theorem modAdit (hs : Keeps s u) {f : Adit → Adit} : Keeps s (u.modAdit f) := by
  unfold State.modAdit
  exact .same hs (by rfl)

theorem takeBuffers (hs : Keeps s u) : Keeps s u.takeBuffers := by
  unfold State.takeBuffers
  refine .upTo (fun _ _ hs => ?_) hs
  split
  · split
    · exact .ite (.modAdit hs) hs
    · exact hs
  · exact hs

theorem modRiddle (hs : Keeps s u) {f : Riddle → Riddle} : Keeps s (u.modRiddle f) := by
  unfold State.modRiddle
  exact .same hs (by rfl)

theorem drainRiddle (hs : Keeps s u) : Keeps s u.drainRiddle := by
  unfold State.drainRiddle
  exact .modRiddle hs

theorem countRings (hs : Keeps s u) : Keeps s u.countRings := by
  unfold State.countRings
  exact .foldl (fun _ _ hs => .ite (.count hs) hs) hs

theorem countHoists (hs : Keeps s u) : Keeps s u.countHoists := by
  unfold State.countHoists
  exact .foldl (fun _ _ hs => .ite (.count hs) hs) hs

theorem setTile (hs : Keeps s u) {t : Nat} {x : Tile} : Keeps s (u.setTile t x) := by
  unfold State.setTile
  exact .same hs (by rfl)

theorem modTile (hs : Keeps s u) {t : Nat} {f : Tile → Tile} : Keeps s (u.modTile t f) := by
  unfold State.modTile
  exact .setTile hs

theorem modThread (hs : Keeps s u) {t th : Nat} {f : Thread → Thread} : Keeps s (u.modThread t th f) := by
  unfold State.modThread
  exact .modTile hs

theorem wakeThread (hs : Keeps s u) {t th : Nat} : Keeps s (u.wakeThread t th) := by
  unfold State.wakeThread
  exact .modThread hs

theorem bellSend (hs : Keeps s u) {t route : Nat} {v : Byte} : Keeps s (u.bellSend t route v) := by
  unfold State.bellSend
  split
  · exact .foldl (fun _ _ hs => .modTile hs) hs
  · exact hs

theorem retryBells (hs : Keeps s u) {stepped : Nat → Bool} : Keeps s (u.retryBells stepped) := by
  unfold State.retryBells
  refine .foldl (fun _ _ hs => ?_) hs
  refine .ite hs (.upTo (fun _ _ hs => ?_) hs)
  split
  · exact .ite hs (.wakeThread (.bellSend hs))
  · exact hs

theorem writeBytes (hs : Keeps s u) {a : Nat} {bs : List Byte} : Keeps s (u.writeBytes a bs) :=
  hs.remember (by simp) (writeBytes_memoryOk u a bs) (by simp)

theorem oqWriteRow (hs : Keeps s u) {t : Nat} {m : MacOp} {r : Nat} : Keeps s (u.oqWriteRow t m r) := by
  unfold State.oqWriteRow
  exact .writeBytes hs

theorem oqAdvance (hs : Keeps s u) {t : Nat} : Keeps s (u.oqAdvance t) := by
  unfold State.oqAdvance
  exact .ite hs (.modTile (.foldl (fun _ _ hs => .foldl (fun _ _ hs => .oqWriteRow hs) hs) hs))

theorem rowWork (hs : Keeps s u) {stepped : Nat → Bool} : Keeps s (u.rowWork stepped) := by
  unfold State.rowWork
  exact .retryBells (.foldl (fun _ _ hs => .oqAdvance hs) hs)

theorem countSkipFc (hs : Keeps s u) {k : Nat} : Keeps s (u.countSkipFc k) := by
  unfold State.countSkipFc
  extract_lets x fc s0 s1
  have hs0 : Keeps s s0 := .ite (.modSkip hs) hs
  have hs1 : Keeps s s1 := .ite (.count hs0) hs0
  exact .ite (.modSkip hs1) (.ite hs1 (.modSkip hs1))

theorem countTile (hs : Keeps s u) {t c n : Nat} : Keeps s (u.countTile t c n) := by
  unfold State.countTile
  exact .count hs

theorem countTileFc (hs : Keeps s u) {t : Nat} : Keeps s (u.countTileFc t) := by
  unfold State.countTileFc
  refine .countTile (.countTile (.countTile (.countTile (.upTo (fun _ _ hs => ?_) hs))))
  split
  · exact .countTile hs
  · exact hs

theorem countRows (hs : Keeps s u) {stepped : Nat → Bool} : Keeps s (u.countRows stepped) := by
  unfold State.countRows
  exact .foldl (fun _ _ hs => .countSkipFc hs) (.foldl (fun _ _ hs => .countTileFc hs) hs)

theorem clockTick (hs : Keeps s u) : Keeps s u.clockTick := by
  unfold State.clockTick
  extract_lets stepped s0 s1
  have hs0 : Keeps s s0 := .ite hs (.takeSnapshot hs)
  have hs1 : Keeps s s1 := .same hs0 (by rfl)
  exact .ite hs1 (.drainEgresses (.admitRuns (.takeBuffers (.drainRiddle (.countRings (.countHoists (.rowWork (.countRows
      (.enterRows (.advanceRows (.dropTicks (.modEmeel (.settleFc hs1)))))))))))))

theorem modRing (hs : Keeps s u) {c k : Nat} {f : Machine.Ring → Machine.Ring} : Keeps s (u.modRing c k f) := by
  unfold State.modRing
  exact .modHost hs

theorem modClaim (hs : Keeps s u) {c : Nat} {f : Claim → Claim} : Keeps s (u.modClaim c f) := by
  unfold State.modClaim
  exact .modHost hs

theorem fireMsix (hs : Keeps s u) {c v : Nat} : Keeps s (u.fireMsix c v) := by
  unfold State.fireMsix
  exact .ite (.modClaim hs) (.emit hs)

theorem placeEntry (hs : Keeps s u) {c k : Nat} {r : Record} : Keeps s (u.placeEntry c k r) := by
  unfold State.placeEntry
  extract_lets g s1 s2
  have hs2 : Keeps s s2 := .modRing (.writeBytes hs)
  exact .ite (.fireMsix hs2) hs2

theorem hit (hs : Keeps s u) {o b : Nat} : Keeps s (u.hit o b) := by
  unfold State.hit
  exact .same hs (by rfl)

theorem deliver (hs : Keeps s u) {c : Nat} {r : Record} : Keeps s (u.deliver c r) := by
  unfold State.deliver
  exact .ite hs (.ite (.placeEntry hs) (.ite (.modClaim hs) (.count (.hit (.hit (.modRing (.modClaim hs)))))))

theorem modFaults (hs : Keeps s u) {f : Faults → Faults} : Keeps s (u.modFaults f) := by
  unfold State.modFaults
  exact .same hs (by rfl)

theorem raise (hs : Keeps s u) {k : EvKind} {e : EvArgs} : Keeps s (u.raise k e) := by
  unfold State.raise
  refine .modFaults ?_
  split
  · exact .deliver hs
  · exact .deliver hs
  · extract_lets s1
    have hs1 : Keeps s s1 := .deliver hs
    exact .ite hs1 (.deliver hs1)

theorem droopCheck (hs : Keeps s u) {d : Nat} : Keeps s (u.droopCheck d) := by
  unfold State.droopCheck
  refine .upTo (fun _ _ hs => ?_) hs
  extract_lets ps
  split
  · exact .ite hs (.foldl (fun _ _ hs => .raise hs) (.count (.hit (.modRow hs (by exact id)))))
  · exact hs

theorem countPipe (hs : Keeps s u) {p c n : Nat} : Keeps s (u.countPipe p c n) := by
  unfold State.countPipe
  exact .count hs

theorem modLine (hs : Keeps s u) {l : Nat} {f : DecLine → DecLine} : Keeps s (u.modLine l f) := by
  unfold State.modLine
  exact .modAdit hs

theorem queueWord (hs : Keeps s u) {x : Pipe} {tick pos ch : Nat} {w : Word} : Keeps s (u.queueWord x tick pos ch w) := by
  unfold State.queueWord
  refine .ite hs ?_
  extract_lets l at_ s1
  have hs1 : Keeps s s1 := .modLine hs
  exact .ite (.modLine hs1) hs1

theorem sumpWord (hs : Keeps s u) {x : Pipe} {w : Word} : Keeps s (u.sumpWord x w) := by
  unfold State.sumpWord
  split
  · exact hs
  · exact .modSkip hs

theorem windowViolation (hs : Keeps s u) {claim : Nat} {bad : Option Nat} : Keeps s (u.windowViolation claim bad) := by
  unfold State.windowViolation
  split
  · exact hs
  · exact .raise hs

theorem uninitRead (hs : Keeps s u) {claim addr n : Nat} : Keeps s (u.uninitRead claim addr n) := by
  unfold State.uninitRead
  refine .ite hs ?_
  extract_lets x first total s1 due
  have hs1 : Keeps s s1 := .count hs
  exact .ite (.hit (.modClaim (.raise hs1))) (.hit (.modClaim hs1))

theorem noteCvaRead (hs : Keeps s u) {claim cva n : Nat} : Keeps s (u.noteCvaRead claim cva n) := by
  unfold State.noteCvaRead
  extract_lets s1 marked
  have hs1 : Keeps s s1 := .windowViolation hs
  clear_value marked
  split
  · exact hs1
  · exact .uninitRead hs1

theorem modHoist (hs : Keeps s u) {h : Nat} {f : Hoist → Hoist} : Keeps s (u.modHoist h f) := by
  unfold State.modHoist
  exact .modSump hs

theorem keepFrame (hs : Keeps s u) {p : Nat} {x : Pipe} {f : Frame} {w : Word} : Keeps s (u.keepFrame p x f w) := by
  unfold State.keepFrame
  extract_lets img len full
  have hfull {v : State} (hv : Keeps s v) : Keeps s (full v) := .countPipe (.countPipe (.raise hv))
  split
  · extract_lets head s0
    have hs0 : Keeps s s0 := .noteCvaRead hs
    split
    · exact .modHoist (.modSump hs0)
    · exact hfull hs0
  · exact hfull hs

theorem modPipe (hs : Keeps s u) {p : Nat} {f : Pipe → Pipe} : Keeps s (u.modPipe p f) := by
  unfold State.modPipe
  split
  · exact .same hs (by rfl)
  · exact hs

theorem releaseChannel (hs : Keeps s u) {p n k per : Nat} {reset : Bool} {ch : Nat} :
    Keeps s (u.releaseChannel p n k per reset ch) := by
  unfold State.releaseChannel
  split
  · exact hs
  · extract_lets img f valid sk taken s1 miss got cls degraded w s2 s3 keep s4
    have hs1 : Keeps s s1 := by
      unfold s1
      clear_value sk
      refine .ite hs ?_
      split
      · exact .modSkip hs
      · exact hs
    have hs2 : Keeps s s2 := .countPipe (.countPipe (.countPipe hs1))
    have hs3 : Keeps s s3 := .ite (.queueWord hs2) (.sumpWord hs2)
    refine .modPipe ?_
    unfold s4
    clear_value f
    split
    · exact .ite (.ite (.keepFrame (.countPipe hs3)) (.countPipe hs3)) hs3
    · exact hs3

theorem releaseFrame (hs : Keeps s u) {p n k : Nat} {reset : Bool} : Keeps s (u.releaseFrame p n k reset) := by
  unfold State.releaseFrame
  split
  · exact hs
  · exact .foldl (fun _ _ hs => .releaseChannel hs) hs

theorem modImage (hs : Keeps s u) {h : Nat} {f : Image → Image} : Keeps s (u.modImage h f) := by
  unfold State.modImage
  exact .same hs (by rfl)

theorem unbind (hs : Keeps s u) {p : Nat} : Keeps s (u.unbind p) := by
  unfold State.unbind
  split
  · exact hs
  · exact .modAdit (.modImage (.foldl (fun _ _ hs => .modSkip hs) (.same hs (by rfl))))

theorem freeLine (hs : Keeps s u) {t th st line : Nat} : Keeps s (u.freeLine t th st line) := by
  unfold State.freeLine
  exact .modTile hs

theorem freeUnlocks (hs : Keeps s u) {t th : Nat} : Keeps s (u.freeUnlocks t th) := by
  unfold State.freeUnlocks
  exact .modThread (.foldl (fun _ _ hs => .freeLine hs) hs)

theorem draw (hs : Keeps s u) : Keeps s u.draw := by
  unfold State.draw
  exact .same hs (by rfl)

theorem scramble (hs : Keeps s u) {a n : Nat} : Keeps s (u.scramble a n) := by
  unfold State.scramble
  exact .draw (.writeBytes hs)

theorem freeLock (hs : Keeps s u) {t th : Nat} : Keeps s (u.freeLock t th) := by
  unfold State.freeLock
  split
  · exact .modThread (.freeLine hs)
  · exact hs

theorem breakLock (hs : Keeps s u) {t th : Nat} : Keeps s (u.breakLock t th) := by
  unfold State.breakLock
  split
  · extract_lets s0 s1
    have hs1 : Keeps s s1 := .hit (.modTile (.scramble (.freeLock hs)))
    exact .raise hs1
  · exact hs

theorem modRegs (hs : Keeps s u) {t th : Nat} {f : Regs → Regs} : Keeps s (u.modRegs t th f) := by
  unfold State.modRegs
  exact .modThread hs

theorem settleUnlocks (hs : Keeps s u) {t th : Nat} : Keeps s (u.settleUnlocks t th) := by
  unfold State.settleUnlocks
  exact .ite hs (.modThread (.foldl (fun _ _ hs => .freeLine hs) hs))

theorem scratchSettled (hs : Keeps s u) {t th : Nat} : Keeps s (u.scratchSettled t th) := by
  unfold State.scratchSettled
  extract_lets s1
  have hs1 : Keeps s s1 := .settleUnlocks hs
  refine .ite hs1 ?_
  split
  · exact .wakeThread hs1
  · exact hs1

theorem sendEntry (hs : Keeps s u) {t p delay : Nat} {e : Entry} : Keeps s (u.sendEntry t p delay e) := by
  unfold State.sendEntry
  exact .foldl (fun _ _ hs => .modSkip hs) hs

theorem pushEntry (hs : Keeps s u) {t p delay seq after : Nat} {e : Entry} : Keeps s (u.pushEntry t p delay seq after e)
    := by
  unfold State.pushEntry
  exact .sendEntry (.ite (.draw hs) hs)

theorem oqSend (hs : Keeps s u) {t : Nat} {m : MacOp} {base : Nat} : Keeps s (u.oqSend t m base) := by
  unfold State.oqSend
  exact .upTo (fun _ _ hs => .pushEntry hs) hs

theorem markMiss (hs : Keeps s u) {t : Nat} : Keeps s (u.markMiss t) := by
  unfold State.markMiss
  exact .foldl (fun _ _ hs => .foldl (fun _ _ hs => .ite (.foldl (fun _ _ hs => .modSkip hs) hs) hs) (.modTile hs)) hs

theorem noteTileRead (hs : Keeps s u) {t o n : Nat} : Keeps s (u.noteTileRead t o n) := by
  -- The kernel would evaluate the match's list on the applied function, so it is unfolded before it is applied.
  have unfolded (f) (hf : f = @State.noteTileRead) : Keeps s (f u t o n) := by
    delta State.noteTileRead at hf
    subst hf
    beta_reduce
    generalize u.unwrittenWords (tileAddr t o) n = ws
    cases ws with
    | nil => exact hs
    | cons => exact .ite (.markMiss hs) (.uninitRead hs)
  exact unfolded _ rfl

theorem moveSend (hs : Keeps s u) {t : Nat} {m : BlockMove} {base : Nat} : Keeps s (u.moveSend t m base) := by
  unfold State.moveSend
  exact .upTo (fun _ _ hs => .pushEntry (.noteTileRead hs)) hs

theorem startUnits (hs : Keeps s u) {t base : Nat} : Keeps s (u.startUnits t base) := by
  unfold State.startUnits
  exact .foldl (fun _ _ hs => .ite (.moveSend hs) hs) (.foldl (fun _ _ hs => .ite (.oqSend hs) hs) (.modTile hs))

theorem leaveTokens (hs : Keeps s u) {t : Nat} {old : Option MacOp} : Keeps s (u.leaveTokens t old) := by
  unfold State.leaveTokens
  exact .ite hs (.modRow hs (by exact id))

theorem stopUnits (hs : Keeps s u) {t : Nat} {sel : Nat → Bool} : Keeps s (u.stopUnits t sel) := by
  unfold State.stopUnits
  extract_lets x macs moves fns loads off s1 s2 s3 s4 s5 s6
  have hs6 : Keeps s s6 := by
    unfold s6
    refine .upTo (fun _ _ hs => .ite (.scratchSettled (.modThread hs)) hs) (.foldl (fun _ _ hs => .ite (.draw (.modRegs
        hs)) (.draw (.modRegs hs))) (.foldl (fun _ _ hs => .foldl (fun _ _ hs => .scramble hs) hs) (.foldl (fun _ _ hs =>
        .scramble hs) (.foldl (fun _ _ hs => ?_) (.modTile hs)))))
    extract_lets k s1 s2
    have hs1 : Keeps s s1 := .foldl (fun _ _ hs => .scramble hs) hs
    have hs2 : Keeps s s2 := by
      unfold s2
      split
      · exact .scramble hs1
      · exact hs1
    split
    · exact .foldl (fun _ _ hs => .draw (.modTile hs)) hs2
    · exact hs2
  exact .startUnits (.leaveTokens hs6)

theorem haltImage (hs : Keeps s u) {h : Nat} : Keeps s (u.haltImage h) := by
  unfold State.haltImage
  exact .foldl (fun _ _ hs => .upTo (fun _ _ hs => .freeUnlocks (.breakLock hs)) (.modTile (.stopUnits hs))) hs

theorem resetRelease (hs : Keeps s u) {p n : Nat} : Keeps s (u.resetRelease p n) := by
  unfold State.resetRelease
  split
  · exact hs
  · extract_lets img first last s1 held
    have hs1 : Keeps s s1 := .ite (.foldl (fun _ _ hs => .releaseFrame hs) hs) hs
    exact .unbind (.haltImage (.countPipe hs1))

theorem uncommitNow (hs : Keeps s u) {h : Nat} : Keeps s (u.uncommitNow h) := by
  unfold State.uncommitNow
  exact .foldl (fun _ _ hs => .foldl (fun _ _ hs => .ite (.foldl (fun _ _ hs => .modSkip hs) hs) hs) hs) hs

theorem abortClear (hs : Keeps s u) {t th : Nat} : Keeps s (u.abortClear t th) := by
  unfold State.abortClear
  extract_lets s1 s2 routes s3 ins s4
  have hs1 : Keeps s s1 := .breakLock (.stopUnits hs)
  have hs2 : Keeps s s2 := by
    unfold s2
    split
    · exact .modTile hs1
    · exact hs1
  have hs3 : Keeps s s3 := .modTile hs2
  exact .modRegs (.foldl (fun _ _ hs => .modSkip hs) hs3)

theorem abortThread (hs : Keeps s u) {t th : Nat} : Keeps s (u.abortThread t th) := by
  unfold State.abortThread
  extract_lets s1 r regs s2
  have hs1 : Keeps s s1 := .abortClear hs
  exact .modThread (.modTile hs1)

theorem placeFills (hs : Keeps s u) {k n : Nat} : Keeps s (u.placeFills k n) := by
  induction n generalizing u with
  | zero => exact hs
  | succ n ih =>
    unfold State.placeFills
    exact .ite (ih (.modSkip hs)) hs

theorem oweFills (hs : Keeps s u) {k : Nat} : Keeps s (u.oweFills k) := by
  unfold State.oweFills
  exact .ite hs (.placeFills (.modSkip hs))

theorem modPort (hs : Keeps s u) {t p : Nat} {f : Port → Port} : Keeps s (u.modPort t p f) := by
  unfold State.modPort
  exact .modTile hs

theorem discardPort (hs : Keeps s u) {t p keep : Nat} : Keeps s (u.discardPort t p keep) := by
  unfold State.discardPort
  exact .modPort (.foldl (fun _ _ hs => .ite (.modSkip hs) (.modSkip hs)) hs)

theorem oweReleases (hs : Keeps s u) {k : Nat} : Keeps s (u.oweReleases k) := by
  unfold State.oweReleases
  exact .modSkip hs

theorem missTile (hs : Keeps s u) {t : Nat} : Keeps s (u.missTile t) := by
  unfold State.missTile
  exact .foldl (fun _ _ hs => .ite (.foldl (fun _ _ hs => .oweFills hs) (.discardPort hs)) (.oweReleases hs)) (.modTile hs)

theorem missStage (hs : Keeps s u) {tiles : List Nat} : Keeps s (u.missStage tiles) := by
  unfold State.missStage
  exact .foldl (fun _ _ hs => .missTile hs) (.raise hs)

theorem endShift (hs : Keeps s u) {h : Nat} {run : Bool} : Keeps s (u.endShift h run) := by
  unfold State.endShift
  extract_lets s' missed s1 s2
  have hs' : Keeps s s' := .uncommitNow hs
  have hs2 : Keeps s s2 := .foldl (fun _ _ hs => .missStage hs) (.foldl (fun _ _ hs => .upTo (fun _ _ hs => .ite
      (.abortThread hs) hs) hs) hs')
  exact .foldl (fun _ _ hs => .modTile hs) hs2

theorem countChannel (hs : Keeps s u) {p ch c : Nat} : Keeps s (u.countChannel p ch c) := by
  unfold State.countChannel
  exact .count hs

theorem dueEntries (hs : Keeps s u) {h ch : Nat} : Keeps s (u.dueEntries h ch) := by
  unfold State.dueEntries
  split
  · exact .modSkip hs
  · exact hs

theorem missingFrames (hs : Keeps s u) {p n : Nat} : Keeps s (u.missingFrames p n) := by
  unfold State.missingFrames
  split
  · exact hs
  · refine .ite (.foldl (fun _ _ hs => ?_) hs) hs
    refine .ite hs ?_
    extract_lets early s1 s2
    have hs1 : Keeps s s1 := .countChannel (.dueEntries hs)
    exact .modPipe (.ite hs1 (.modAdit hs1))

theorem noteTick (hs : Keeps s u) {h : Nat} : Keeps s (u.noteTick h) := by
  unfold State.noteTick
  exact .foldl (fun _ _ hs => .modTile hs) hs

theorem checkRate (hs : Keeps s u) {k : Nat} : Keeps s (u.checkRate k) := by
  unfold State.checkRate
  refine .ite (.modSkip hs) ?_
  extract_lets p q s1 s2 s3
  have hs1 : Keeps s s1 := .modSkip hs
  have hs2 : Keeps s s2 := .ite (.hit hs1) hs1
  have hs3 : Keeps s s3 := .ite (.hit hs2) hs2
  exact .ite (.raise hs3) hs3

theorem releaseReady (hs : Keeps s u) {p n : Nat} : Keeps s (u.releaseReady p n) := by
  unfold State.releaseReady
  split
  · exact hs
  · exact .foldl (fun _ _ hs => .foldl (fun _ _ hs => .ite (.releaseChannel hs) hs) hs) hs

theorem modCmd (hs : Keeps s u) {seq : Nat} {f : Cmd → Cmd} : Keeps s (u.modCmd seq f) := by
  unfold State.modCmd
  exact .modHost hs

theorem journal (hs : Keeps s u) {claim : Nat} {r : Record} : Keeps s (u.journal claim r) := by
  unfold State.journal
  exact .modHost (.modClaim (.writeBytes (.writeBytes hs)))

theorem finishOne (hs : Keeps s u) {c : Cmd} {ok : Bool} {reason : Nat} {result : BitVec 128} : Keeps s (u.finishOne c ok
    reason result) := by
  unfold State.finishOne
  exact .modCmd (.journal hs)

theorem finish (hs : Keeps s u) {seq : Nat} {ok : Bool} {reason : Nat} {result : BitVec 128} : Keeps s (u.finish seq ok
    reason result) := by
  unfold State.finish
  split
  · exact hs
  · extract_lets s1 s2 dups
    have hs2 : Keeps s s2 := .modClaim (.finishOne hs)
    exact .foldl (fun _ _ hs => .finishOne hs) hs2

theorem fail (hs : Keeps s u) {seq reason : Nat} : Keeps s (u.fail seq reason) := by
  unfold State.fail
  exact .finish hs

theorem swapRefused (hs : Keeps s u) {ts : List Nat} : Keeps s (u.swapRefused ts) := by
  unfold State.swapRefused
  exact .foldl (fun _ _ hs => .hit (.modTile hs)) hs

theorem unland (hs : Keeps s u) {t : Nat} : Keeps s (u.unland t).1 := by
  unfold State.unland
  dsimp only
  exact .modTile (.foldl (fun _ _ hs => .foldl (fun _ _ hs => .writeBytes hs) hs) hs)

theorem complete (hs : Keeps s u) {seq : Nat} {result : BitVec 128} : Keeps s (u.complete seq result) := by
  unfold State.complete
  exact .finish hs

theorem taintStreams (hs : Keeps s u) {t o n : Nat} : Keeps s (u.taintStreams t o n) := by
  unfold State.taintStreams
  exact .modTile hs

theorem fillHalf (hs : Keeps s u) {t : Nat} {b : Bool} {o total : Nat} {data : List Byte} : Keeps s (u.fillHalf t b o
    total data) := by
  unfold State.fillHalf
  exact .ite (.raise hs) (.modTile (.writeBytes hs))

theorem windowWrite (hs : Keeps s u) {claim t o : Nat} {access : Nat × Nat} {noted : Bool} {bs : List Byte} :
    Keeps s (u.windowWrite claim t o access noted bs) := by
  unfold State.windowWrite
  extract_lets x ok banked old s1 s2 a b s3
  have hs1 : Keeps s s1 := by
    unfold s1
    clear_value banked
    split
    · exact hs
    · exact .modTile hs
  have hs2 : Keeps s s2 := .ite (.taintStreams hs1) hs1
  have hs3 : Keeps s s3 := .ite hs2 (.fillHalf hs2)
  exact .ite (.ite hs3 (.fillHalf hs3)) (.foldl (fun _ _ hs => .writeBytes hs) hs2)

theorem reland (hs : Keeps s u) {t : Nat} {ws : List WindowWrite} : Keeps s (u.reland t ws) := by
  unfold State.reland
  exact .foldl (fun _ _ hs => .windowWrite (.ite hs (.windowViolation hs))) hs

theorem startStreams (hs : Keeps s u) {h : Nat} {r : TileRec} : Keeps s (u.startStreams h r) := by
  unfold State.startStreams
  exact .upTo (fun _ _ hs => .foldl (fun _ _ hs => .modSkip hs) hs) hs

theorem startTile (hs : Keeps s u) {h : Nat} {r : TileRec} : Keeps s (u.startTile h r) := by
  unfold State.startTile
  exact .modTile hs

theorem skipEnds (hs : Keeps s u) {h : Nat} {k : SkipRec} : Keeps s (u.skipEnds h k) := by
  unfold State.skipEnds
  exact .modSkip hs

theorem startImage (hs : Keeps s u) {h : Nat} : Keeps s (u.startImage h) := by
  unfold State.startImage
  extract_lets s1
  have hs1 : Keeps s s1 := .foldl (fun _ _ hs => .startStreams (.startTile hs)) hs
  exact .foldl (fun _ _ hs => .skipEnds hs) hs1

theorem swapTick (hs : Keeps s u) {p n : Nat} : Keeps s (u.swapTick p n) := by
  unfold State.swapTick
  split
  · exact hs
  · split
    · exact hs
    · extract_lets s1 tiles back
      have hs1 : Keeps s s1 := .modImage (.modImage (.modPipe hs))
      have hback : Keeps s back.1 :=
        List.foldlRecOn (motive := fun a : State × _ => Keeps s a.1) tiles _ hs1 (fun _ ha _ _ => .unland ha)
      exact .ite hs (.ite (.fail (.modPipe (.swapRefused hs)))
        (.complete (.foldl (fun _ _ hs => .reland hs) (.startImage hback))))

theorem dropFrames (hs : Keeps s u) {p : Nat} : Keeps s (u.dropFrames p) := by
  unfold State.dropFrames
  split
  · exact hs
  · exact .modPipe hs

theorem startStopTick (hs : Keeps s u) {p n : Nat} : Keeps s (u.startStopTick p n) := by
  unfold State.startStopTick
  split
  · exact hs
  · extract_lets s1
    have hs1 : Keeps s s1 := by
      unfold s1
      split
      · exact .ite (.complete (.modPipe hs)) hs
      · exact hs
    split
    · exact .ite (.complete (.unbind hs1)) hs1
    · exact hs1

theorem queueStanding (hs : Keeps s u) {p : Nat} : Keeps s (u.queueStanding p) := by
  unfold State.queueStanding
  split
  · exact hs
  · exact .foldl (fun _ _ hs => .ite (.raise hs) (.modHoist hs)) hs

theorem tickPipe (hs : Keeps s u) {p n : Nat} : Keeps s (u.tickPipe p n) := by
  unfold State.tickPipe
  split
  · exact hs
  · refine .ite (.resetRelease hs) ?_
    extract_lets s1 s2 s3 s4 s5
    have hs2 : Keeps s s2 := .missingFrames (.noteTick (.ite (.endShift hs) hs))
    have hs3 : Keeps s s3 := .foldl (fun _ _ hs => .checkRate hs) hs2
    exact .startStopTick (.queueStanding (.swapTick (.modPipe (.dropFrames (.ite (.releaseReady hs3) (.ite (.releaseFrame
        hs3) hs3))))))

theorem armTick (hs : Keeps s u) {d n : Nat} : Keeps s (u.armTick d n) := by
  unfold State.armTick
  extract_lets s1
  have hs1 : Keeps s s1 := .modRiddle hs
  split
  · split
    · exact .ite (.modHost hs1) hs1
    · exact hs1
  · exact hs1

theorem tickEffect (hs : Keeps s u) {d at_ : Nat} : Keeps s (u.tickEffect d at_) := by
  unfold State.tickEffect
  extract_lets x n s1 ps tiles s2 s3
  have hs1 : Keeps s s1 := .droopCheck (.modDom hs)
  exact .armTick (.foldl (fun _ _ hs => .modTile hs) (.modDom (.foldl (fun _ _ hs => .tickPipe hs) hs1)))

theorem acceptTick (hs : Keeps s u) {d at_ : Nat} : Keeps s (u.acceptTick d at_) := by
  unfold State.acceptTick
  extract_lets s1 t
  have hs1 : Keeps s s1 := .modDom hs
  exact .ite (.emit (.modDom hs1)) (.tickEffect hs1)

theorem tickDo (hs : Keeps s u) {d : Nat} : Keeps s (Machine.tickDo d u) := by
  unfold Machine.tickDo
  split
  · exact hs
  · extract_lets s1
    have hs1 : Keeps s s1 := .modDom hs
    split
    · exact .ite (.raise (.hit (.modDom hs1))) (.acceptTick hs1)
    · exact .acceptTick hs1

theorem tickInsertedDo (hs : Keeps s u) {d : Nat} : Keeps s (Machine.tickInsertedDo d u) := by
  unfold Machine.tickInsertedDo
  exact .acceptTick (.raise (.hit (.modDom hs)))

theorem internalGeneratorTickDo (hs : Keeps s u) {d : Nat} : Keeps s (Machine.internalGeneratorTickDo d u) := by
  unfold Machine.internalGeneratorTickDo
  exact .tickEffect (.modDom hs)

theorem followedTickDo (hs : Keeps s u) {d : Nat} : Keeps s (Machine.followedTickDo d u) := by
  unfold Machine.followedTickDo
  exact .tickEffect (.modDom hs)

theorem tickMessageDo (hs : Keeps s u) {d : Nat} {isStart : Bool} {time : Nat} : Keeps s (Machine.tickMessageDo d isStart
    time u) := by
  unfold Machine.tickMessageDo
  exact .modDom hs

theorem modBlock (hs : Keeps s u) {q : Nat} {f : RBlock → RBlock} : Keeps s (u.modBlock q f) := by
  unfold State.modBlock
  exact .modRiddle hs

theorem endCapture (hs : Keeps s u) {q : Nat} : Keeps s (u.endCapture q) := by
  unfold State.endCapture
  exact .modBlock hs

theorem captureTimeoutDo (hs : Keeps s u) {block : Nat} : Keeps s (Machine.captureTimeoutDo block u) := by
  unfold Machine.captureTimeoutDo
  split
  · exact .fail (.endCapture hs)
  · exact hs

theorem boundary (hs : Keeps s u) {t : Nat} : Keeps s (u.boundary t) := by
  unfold State.boundary
  exact .modFaults hs

theorem unmarkMiss (hs : Keeps s u) {t : Nat} : Keeps s (u.unmarkMiss t) := by
  unfold State.unmarkMiss
  exact .ite hs (.foldl (fun _ _ hs => .ite (.foldl (fun _ _ hs => .modSkip hs) hs) hs) hs)

theorem takeCheckpoint (hs : Keeps s u) {t th : Nat} : Keeps s (u.takeCheckpoint t th) := by
  unfold State.takeCheckpoint
  exact .modThread (.modTile hs)

theorem markArrives (hs : Keeps s u) {t n : Nat} {isTick : Bool} : Keeps s (u.markArrives t n isTick) := by
  unfold State.markArrives
  refine .upTo (fun _ _ hs => ?_) (.boundary (.modTile (.unmarkMiss hs)))
  split
  · exact .ite (.takeCheckpoint (.wakeThread (.modThread hs))) hs
  · exact .ite (.wakeThread hs) hs
  · exact .ite (.wakeThread hs) hs
  · exact .wakeThread hs
  · exact hs

theorem tickMarkArrivalDo (hs : Keeps s u) {t : Nat} : Keeps s (Machine.tickMarkArrivalDo t u) := by
  unfold Machine.tickMarkArrivalDo
  exact .markArrives (.modTile hs)

theorem slotMarkArrivalDo (hs : Keeps s u) {t : Nat} : Keeps s (Machine.slotMarkArrivalDo t u) := by
  unfold Machine.slotMarkArrivalDo
  exact .markArrives (.modTile hs)

theorem decisionWordTransmitDo (hs : Keeps s u) {line : Nat} : Keeps s (Machine.decisionWordTransmitDo line u) := by
  unfold Machine.decisionWordTransmitDo
  split
  · exact .emit (.modLine hs)
  · exact hs

theorem scheduleTick (hs : Keeps s u) {key at_ : Nat} : Keeps s (u.scheduleTick key at_) := by
  unfold State.scheduleTick
  exact .upTo (fun _ _ hs => .modDom hs) hs

theorem lvdsTickEdgeDo (hs : Keeps s u) {pair : Nat} {rising : Bool} {before after : Nat} : Keeps s
    (Machine.lvdsTickEdgeDo pair rising before after u) := by
  unfold Machine.lvdsTickEdgeDo
  exact .ite (.scheduleTick (.draw hs)) hs

theorem noteGap (hs : Keeps s u) {q : Nat} {gap : Bool} : Keeps s (u.noteGap q gap) := by
  unfold State.noteGap
  exact .ite (.hit hs) hs

theorem modQuad (hs : Keeps s u) {q : Nat} {f : Quad → Quad} : Keeps s (u.modQuad q f) := by
  unfold State.modQuad
  exact .modAdit hs

theorem noteSeq (hs : Keeps s u) {l : Nat} {chan : Half} {seq : Word} : Keeps s (u.noteSeq l chan seq) := by
  unfold State.noteSeq
  split
  · exact .noteGap (.modQuad hs)
  · extract_lets qi q pk lk own
    split
    · exact .modQuad hs
    · exact .noteGap (.modQuad hs)

theorem countLane (hs : Keeps s u) {l c n : Nat} : Keeps s (u.countLane l c n) := by
  unfold State.countLane
  exact .count hs

theorem modLane (hs : Keeps s u) {l : Nat} {f : Lane → Lane} : Keeps s (u.modLane l f) := by
  unfold State.modLane
  exact .modAdit hs

theorem mirrorCopy (hs : Keeps s u) {l : Nat} {chan : Half} {seq : Word} {c : Bool × List Byte × Word} : Keeps s
    (u.mirrorCopy l chan seq c) := by
  unfold State.mirrorCopy
  extract_lets second known mine
  split
  · exact .ite (.modAdit hs) (.ite (.modAdit hs) (.modAdit hs))
  · exact .modAdit hs

theorem sendArriving (hs : Keeps s u) {a : Arriving} : Keeps s (u.sendArriving a) := by
  unfold State.sendArriving
  exact .modAdit hs

theorem feedWord (hs : Keeps s u) {q port : Nat} {full : Bool} {w : RWordIn} : Keeps s (u.feedWord q port full w) := by
  unfold State.feedWord
  refine .ite (.ite (.modBlock hs) hs) (.ite ?_ (.modBlock hs))
  extract_lets s1
  have hs1 : Keeps s s1 := .raise (.count (.hit (.modBlock hs)))
  exact .ite (.modBlock hs1) hs1

theorem feedWords (hs : Keeps s u) {q port : Nat} {ws : List RWordIn} : Keeps s (u.feedWords q port ws) := by
  unfold State.feedWords
  exact .foldl (fun _ _ hs => .feedWord hs) hs

theorem feedFrame (hs : Keeps s u) {q port : Nat} {chan : Half} {payload : List Byte} {sent due : Nat} {err : Bool} :
    Keeps s (u.feedFrame q port chan payload sent due err) := by
  unfold State.feedFrame
  exact .count (.modBlock (.feedWords hs))

theorem forwardFrame (hs : Keeps s u) {l : Nat} {chan : Half} {payload : List Byte} {complete : Bool} {sent port lat te
    id : Nat} : Keeps s (u.forwardFrame l chan payload complete sent port lat te id) := by
  unfold State.forwardFrame
  exact .ite (.sendArriving hs) (.ite (.feedFrame hs) (.countLane hs))

theorem frameDone (hs : Keeps s u) {l : Nat} {f : OpenFrame} {payload : List Byte} {complete : Bool} {crc : Word} : Keeps
    s (u.frameDone l f payload complete crc) := by
  unfold State.frameDone
  extract_lets s1
  have hs1 : Keeps s s1 := .countLane (.modLane hs)
  split
  · exact .mirrorCopy hs1
  · exact .forwardFrame hs1

theorem endOpen (hs : Keeps s u) {l : Nat} : Keeps s (u.endOpen l) := by
  unfold State.endOpen
  split
  · exact .frameDone hs
  · exact hs

theorem openArriving (hs : Keeps s u) {l : Nat} {target : Option (Nat × Nat)} : Keeps s (u.openArriving l target).1 := by
  unfold State.openArriving
  split
  · exact hs
  · dsimp only
    exact .modAdit hs

theorem frameStartDo (hs : Keeps s u) {lane : Nat} {chan : Half} {seq : Word} : Keeps s (Machine.frameStartDo lane chan
    seq u) := by
  unfold Machine.frameStartDo
  extract_lets s1 q r
  have hs1 : Keeps s s1 := .noteSeq (.endOpen hs)
  exact .modLane (.openArriving hs1)

theorem streamBytes (hs : Keeps s u) {id due sure : Nat} {payload : List Byte} : Keeps s (u.streamBytes id due sure
    payload) := by
  unfold State.streamBytes
  exact .ite hs (.modAdit hs)

theorem feedAhead (hs : Keeps s u) {l : Nat} {f : OpenFrame} : Keeps s (u.feedAhead l f) := by
  unfold State.feedAhead
  exact .ite hs (.modLane (.feedWords hs))

theorem dataBlockDo (hs : Keeps s u) {lane : Nat} {data : DWord} : Keeps s (Machine.dataBlockDo lane data u) := by
  unfold Machine.dataBlockDo
  split
  · exact .countLane hs
  · exact .streamBytes (.feedAhead (.modLane hs))

theorem frameEndDo (hs : Keeps s u) {lane : Nat} {crc : Word} {len : BitVec 24} : Keeps s (Machine.frameEndDo lane crc
    len u) := by
  unfold Machine.frameEndDo
  split
  · exact .countLane hs
  · exact .frameDone hs

theorem tickBlockDo (hs : Keeps s u) {lane : Nat} {seq : Byte} : Keeps s (Machine.tickBlockDo lane seq u) := by
  unfold Machine.tickBlockDo
  split
  · exact .scheduleTick hs
  · exact .ite (.modAdit hs) (.scheduleTick (.modAdit hs))

theorem uncorrectableCodewordDo (hs : Keeps s u) {lane : Nat} : Keeps s (Machine.uncorrectableCodewordDo lane u) := by
  unfold Machine.uncorrectableCodewordDo
  exact .countLane (.endOpen hs)

theorem track (hs : Keeps s u) {key : Nat} {link : Bool} : Keeps s (u.track key link).1 := by
  unfold State.track
  extract_lets f set
  have hset (ts : List Track) : Keeps s (set ts) := .modFaults hs
  split
  · exact hset _
  · split
    · exact hset _
    · split
      · exact hset _
      · dsimp only
        exact .raise (.hit (.modFaults hs))

theorem decideRetire (hs : Keeps s u) {r : FaultReport} : Keeps s (u.decideRetire r) := by
  unfold State.decideRetire
  exact .ite hs (.modFaults hs)

theorem occur (hs : Keeps s u) {r : FaultReport} : Keeps s (u.occur r).1 := by
  unfold State.occur
  extract_lets key failed s1 s2
  have hs2 : Keeps s s2 := .modFaults (.track hs)
  exact .ite (.decideRetire hs2) hs2

theorem laneEventDown (hs : Keeps s u) {l : Nat} : Keeps s (u.laneEventDown l) := by
  unfold State.laneEventDown
  extract_lets s1
  have hs1 : Keeps s s1 := .raise (.hit (.modQuad hs))
  split
  · exact .ite (.raise hs1) hs1
  · exact hs1

theorem laneLosesLockDo (hs : Keeps s u) {lane : Nat} : Keeps s (Machine.laneLosesLockDo lane u) := by
  unfold Machine.laneLosesLockDo
  extract_lets s1 s2
  have hs1 : Keeps s s1 := .endOpen hs
  have hs2 : Keeps s s2 := by
    unfold s2
    split
    · exact .modAdit hs1
    · exact hs1
  exact .occur (.laneEventDown (.modLane hs2))

theorem forgetSeq (hs : Keeps s u) {q : Nat} : Keeps s (u.forgetSeq q) := by
  unfold State.forgetSeq
  extract_lets s1
  have hs1 : Keeps s s1 := .modQuad hs
  exact .ite (.modQuad hs1) hs1

theorem laneRegainsLockDo (hs : Keeps s u) {lane : Nat} : Keeps s (Machine.laneRegainsLockDo lane u) := by
  unfold Machine.laneRegainsLockDo
  exact .forgetSeq (.modLane hs)

theorem assembled (hs : Keeps s u) {p : Nat} {a : Assembly} {complete : Bool} : Keeps s (u.assembled p a complete) := by
  unfold State.assembled
  exact .forwardFrame (.countLane (.modAdit hs))

theorem datagram (hs : Keeps s u) {p : Nat} {bs : List Byte} : Keeps s (u.datagram p bs) := by
  unfold State.datagram
  extract_lets chan flags seq off crc data first last open_ s1 q r s2 cur
  have hs1 : Keeps s s1 := by
    unfold s1
    clear_value open_
    split
    · exact .ite (.assembled hs) hs
    · exact hs
  have hs2 : Keeps s s2 := by
    unfold s2 r
    split
    · exact .openArriving hs1
    · exact hs1
  clear_value cur
  split
  · exact hs2
  · exact .ite (.assembled hs2) (.streamBytes (.modAdit hs2))

theorem ethernetFrameDo (hs : Keeps s u) {port : Nat} {bytes : List Byte} : Keeps s (Machine.ethernetFrameDo port bytes
    u) := by
  unfold Machine.ethernetFrameDo
  split
  · exact .countLane hs
  · exact .modLane hs
  · exact .ite (.countLane hs) (.datagram hs)

theorem mirrorWindowEndDo (hs : Keeps s u) {lane : Nat} : Keeps s (Machine.mirrorWindowEndDo lane u) := by
  unfold Machine.mirrorWindowEndDo
  split
  · exact hs
  · exact .forwardFrame (.countLane (.modAdit hs))

theorem addFrame (hs : Keeps s u) {p : Nat} {f : Frame} : Keeps s (u.addFrame p f) := by
  unfold State.addFrame
  exact .modPipe hs

theorem modAtile (hs : Keeps s u) {a : Nat} {f : ATile → ATile} : Keeps s (u.modAtile a f) := by
  unfold State.modAtile
  exact .modAdit hs

theorem replaceCopies (hs : Keeps s u) {claim cva : Nat} : Keeps s (u.replaceCopies claim cva) := by
  unfold State.replaceCopies
  refine .foldl (fun _ _ hs => ?_) hs
  split
  · extract_lets head
    split
    · exact .modSump hs
    · exact hs
  · exact hs

theorem holdTake (hs : Keeps s u) {p : Nat} {x : Pipe} {k n : Nat} : Keeps s (u.holdTake p x k n).1 := by
  unfold State.holdTake
  extract_lets size lo h streams lostCopies hit lostFrames s1 s2 lost s3 s4
  have hs2 : Keeps s s2 := .modPipe (.modHoist hs)
  have hs3 : Keeps s s3 := by
    unfold s3
    split
    · exact .ite hs2 (.replaceCopies hs2)
    · exact hs2
  have hs4 : Keeps s s4 := .upTo (fun _ _ hs => .raise hs) hs3
  dsimp only
  exact .modSkip (.countPipe (.countPipe hs4))

theorem holdWrite (hs : Keeps s u) {k lo : Nat} {bs : List Byte} : Keeps s (u.holdWrite k lo bs) := by
  unfold State.holdWrite
  refine .foldl (fun _ _ hs => ?_) hs
  split
  · exact .writeBytes hs
  · exact hs

theorem acceptFrame (hs : Keeps s u) {p : Nat} {x : Pipe} {ch n : Nat} {a_ : Arriving} :
    Keeps s (u.acceptFrame p x ch n a_) := by
  unfold State.acceptFrame
  extract_lets complete payload img at_ ai a fc lacking s0 partial_ s1 hits s2
  have hpartial {v : State} (hv : Keeps s v) : Keeps s (partial_ v) := .addFrame (.countChannel hv)
  have hs0 : Keeps s s0 := .modPipe hs
  have hs1 : Keeps s s1 := .dueEntries hs0
  have hs2 : Keeps s s2 := .ite (.modAtile (.countTile (.count (.count (.draw hs1))))) hs1
  refine .ite (.addFrame (.countPipe (.countPipe hs0)))
    (.ite (hpartial hs1) (.ite (hpartial hs1) (.ite (hpartial (.count hs1)) ?_)))
  split
  · exact .addFrame (.holdWrite (.holdTake hs2))
  · exact .addFrame hs2

theorem frameArrivalDo (hs : Keeps s u) {lane : Nat} : Keeps s (Machine.frameArrivalDo lane u) := by
  unfold Machine.frameArrivalDo
  split
  · exact hs
  · extract_lets s1
    have hs1 : Keeps s s1 := .modAdit hs
    split
    · exact .countLane hs1
    · split
      · exact .countLane hs1
      · exact .ite (.countLane hs1) (.ite (.countPipe hs1) (.ite (.countPipe (.countChannel (.raise hs1))) (.acceptFrame
            hs1)))

theorem pushIngest (hs : Keeps s u) {p k ch i : Nat} {data : Line} : Keeps s (u.pushIngest p k ch i data) := by
  unfold State.pushIngest
  exact .count (.modSkip hs)

theorem pushFrameEntry (hs : Keeps s u) {p k : Nat} {f : Frame} {data : Line} : Keeps s (u.pushFrameEntry p k f data) := by
  unfold State.pushFrameEntry
  exact .modPipe (.pushIngest hs)

theorem ingestOverflow (hs : Keeps s u) {p : Nat} {f : Frame} : Keeps s (u.ingestOverflow p f) := by
  unfold State.ingestOverflow
  exact .modPipe (.modAtile (.countChannel (.countPipe hs)))

theorem pushEarly (hs : Keeps s u) {p ch : Nat} : Keeps s (u.pushEarly p ch) := by
  unfold State.pushEarly
  split
  · exact hs
  · exact .ite (.modAdit (.pushIngest hs)) (.modAdit (.countPipe hs))

theorem ingestPushDo (hs : Keeps s u) {d p c : Nat} : Keeps s (Machine.ingestPushDo d p c u) := by
  unfold Machine.ingestPushDo
  extract_lets q
  split
  · exact .pushFrameEntry hs
  · exact .ingestOverflow hs
  · exact .pushEarly hs

theorem scatterDrainDo (hs : Keeps s u) {a : Nat} : Keeps s (Machine.scatterDrainDo a u) := by
  unfold Machine.scatterDrainDo
  split
  · exact hs
  · exact .modAtile (.pushFrameEntry hs)
  · exact .ingestOverflow hs

theorem zeroFillPushDo (hs : Keeps s u) {d p c : Nat} : Keeps s (Machine.zeroFillPushDo d p c u) := by
  unfold Machine.zeroFillPushDo
  split
  · exact .pushFrameEntry hs
  · exact hs

theorem releaseWords (hs : Keeps s u) {k n : Nat} : Keeps s (u.releaseWords k n) := by
  unfold State.releaseWords
  exact .modSkip hs

theorem sendFrame (hs : Keeps s u) {eth : Bool} {n : Nat} {bs : List Byte} : Keeps s (u.sendFrame eth n bs) := by
  unfold State.sendFrame
  exact .ite (.foldl (fun _ _ hs => .draw (.emit hs)) hs) (.emit hs)

theorem transmitPacketDo (hs : Keeps s u) {eth : Bool} {n : Nat} : Keeps s (Machine.transmitPacketDo eth n u) := by
  unfold Machine.transmitPacketDo
  extract_lets k fc
  split
  · exact hs
  · extract_lets bs s1
    have hs1 : Keeps s s1 := .releaseWords (.modSkip hs)
    exact .ite (.sendFrame (.modAdit hs1)) (.modAdit hs1)

theorem ucieError (hs : Keeps s u) {l : Nat} : Keeps s (u.ucieError l) := by
  unfold State.ucieError
  extract_lets r again s1 s2
  have hs2 : Keeps s s2 := .modAdit (.raise (.occur hs))
  exact .ite (.decideRetire hs2) hs2

theorem uciePacketReceivedDo (hs : Keeps s u) {lane : Nat} {crcOk : Bool} : Keeps s (Machine.uciePacketReceivedDo lane
    crcOk u) := by
  unfold Machine.uciePacketReceivedDo
  exact .ite (.modAdit hs) (.ucieError hs)

theorem riddleInputWordDo (hs : Keeps s u) {block port : Nat} : Keeps s (Machine.riddleInputWordDo block port u) := by
  unfold Machine.riddleInputWordDo
  exact .modBlock hs

theorem passFrame (hs : Keeps s u) {q : Nat} {f : ROut} {err : Bool} {due : Nat} : Keeps s (u.passFrame q f err due) := by
  unfold State.passFrame
  extract_lets img
  split
  · exact hs
  · exact .ite hs (.sendArriving hs)

theorem endOutput (hs : Keeps s u) {q : Nat} {f : ROut} {err : Bool} : Keeps s (u.endOutput q f err) := by
  unfold State.endOutput
  extract_lets b e s1
  have hs1 : Keeps s s1 := .count (.modBlock hs)
  exact .ite (.passFrame (.modBlock hs1)) (.modBlock hs1)

theorem abortOutput (hs : Keeps s u) {q port : Nat} : Keeps s (u.abortOutput q port) := by
  unfold State.abortOutput
  split
  · exact .endOutput (.modBlock hs)
  · exact hs

theorem openOutput (hs : Keeps s u) {q port : Nat} : Keeps s (u.openOutput q port) := by
  unfold State.openOutput
  extract_lets tag f img s0 r s1
  have hs1 : Keeps s s1 := .modBlock (.openArriving (.abortOutput hs))
  exact .ite (.raise (.count (.hit (.modBlock hs1)))) hs1

theorem riddleOutputWordDo (hs : Keeps s u) {block port : Nat} : Keeps s (Machine.riddleOutputWordDo block port u) := by
  unfold Machine.riddleOutputWordDo
  extract_lets b data n sof eof err full src s1 s2 s3 s4
  have hs1 : Keeps s s1 := .modBlock hs
  have hs2 : Keeps s s2 := .ite (.openOutput hs1) hs1
  have hs3 : Keeps s s3 := .modBlock hs2
  have hs4 : Keeps s s4 := by
    unfold s4
    split
    · exact .streamBytes hs3
    · exact hs3
  refine .ite (.abortOutput hs2) (.ite ?_ hs4)
  split
  · exact .endOutput (.modBlock hs4)
  · exact hs4

theorem riddleEofDeadlineDo (hs : Keeps s u) {block lane : Nat} : Keeps s (Machine.riddleEofDeadlineDo block lane u) := by
  unfold Machine.riddleEofDeadlineDo
  split
  · exact hs
  · extract_lets s1 late
    have hs1 : Keeps s s1 := .modBlock hs
    have hlate {v : State} (hv : Keeps s v) : Keeps s (late v) := .raise (.count (.hit (.modBlock hv)))
    split
    · exact .ite (.passFrame (.modBlock hs1)) (.passFrame (hlate (.modBlock hs1)))
    · exact hlate (.modBlock hs1)

theorem riddleConfigReadbackDo (hs : Keeps s u) {bad : List (Nat × Nat)} : Keeps s (Machine.riddleConfigReadbackDo bad u)
    := by
  unfold Machine.riddleConfigReadbackDo
  exact .foldl (fun _ _ hs => .ite (.track (.modBlock hs)) hs) (.modRiddle hs)

theorem riddleRepairCompleteDo (hs : Keeps s u) {block : Nat} : Keeps s (Machine.riddleRepairCompleteDo block u) := by
  unfold Machine.riddleRepairCompleteDo
  exact .raise (.hit (.modBlock hs))

theorem putRun (hs : Keeps s u) {claim : Nat} {p : Phys} {access : Nat × Nat} {noted : Bool} {bs : List Byte} : Keeps s
    (u.putRun claim p access noted bs) := by
  unfold State.putRun
  refine .ite ?_ (.ite (.windowWrite hs) ?_)
  · extract_lets s1
    have hs1 : Keeps s s1 := .emit hs
    exact .ite (.emit hs1) hs1
  · extract_lets s1
    have hs1 : Keeps s s1 := .writeBytes hs
    exact .ite (.writeBytes hs1) hs1

theorem putCva (hs : Keeps s u) {claim cva : Nat} {bs : List Byte} : Keeps s (u.putCva claim cva bs) := by
  unfold State.putCva
  exact .foldl (fun _ _ hs => .putRun hs) (.windowViolation hs)

theorem writeCva {w : State} (hs : Keeps s u) {claim cva : Nat} {bs : List Byte} (hw : u.writeCva claim cva bs = some w) :
    Keeps s w := by
  obtain ⟨-, hput⟩ := Option.ite_none_right_eq_some.1 hw
  exact Option.some.inj hput ▸ .putCva hs

theorem captureEdgeDo (hs : Keeps s u) {block : Nat} : Keeps s (Machine.captureEdgeDo block u) := by
  unfold Machine.captureEdgeDo
  split
  · exact hs
  · extract_lets s1
    have hs1 : Keeps s s1 := .endCapture hs
    split
    · exact hs1
    · split
      next hw => exact .complete (.writeCva hs1 hw)
      · exact .fail hs1

theorem issued (hs : Keeps s u) {t th : Nat} : Keeps s (u.issued t th) := by
  unfold State.issued
  exact .modThread (.modTile (.countTile hs))

theorem mustMiss (hs : Keeps s u) {t : Nat} : Keeps s (u.mustMiss t) := by
  unfold State.mustMiss
  exact .modTile hs

theorem illegalWord (hs : Keeps s u) {t th : Nat} : Keeps s (u.illegalWord t th) := by
  unfold State.illegalWord
  exact .mustMiss (.hit (.modTile (.modThread (.raise hs))))

theorem issueWord (hs : Keeps s u) {t th : Nat} {body : Nat → State → State}
    (hbody : ∀ {w v}, Keeps s v → Keeps s (body w v)) : Keeps s (u.issueWord t th body) := by
  unfold State.issueWord
  exact .ite (hbody (.issued hs)) (.illegalWord (.issued hs))

theorem breakHalt (hs : Keeps s u) {t th data : Nat} : Keeps s (u.breakHalt t th data) := by
  unfold State.breakHalt
  extract_lets fc s1
  have hs1 : Keeps s s1 := .modThread hs
  exact .raise hs1

theorem beginWait (hs : Keeps s u) {t th : Nat} {w : Wait} : Keeps s (u.beginWait t th w) := by
  unfold State.beginWait
  exact .modThread hs

theorem setG (hs : Keeps s u) {t th r lat : Nat} {x : Word} : Keeps s (u.setG t th r lat x) := by
  unfold State.setG
  exact .modThread hs

theorem takeBell (hs : Keeps s u) {t th route : Nat} {any : Bool} {value rd n : Nat} :
    Keeps s (u.takeBell t th route any value rd n) := by
  induction n generalizing u with
  | zero => exact .beginWait hs
  | succ n ih =>
    unfold State.takeBell
    split
    · exact .beginWait hs
    · extract_lets s1
      have hs1 : Keeps s s1 := .modTile hs
      exact .ite (.wakeThread (.setG hs1)) (.ite (.wakeThread hs1) (ih (.mustMiss (.raise hs1))))

theorem widthMismatch (hs : Keeps s u) {t p : Nat} : Keeps s (u.widthMismatch t p) := by
  unfold State.widthMismatch
  extract_lets s1
  have hs1 : Keeps s s1 := .foldl (fun _ _ hs => .hit (.modSkip hs)) hs
  exact .mustMiss (.raise hs1)

theorem underrun (hs : Keeps s u) {t k : Nat} : Keeps s (u.underrun t k) := by
  unfold State.underrun
  extract_lets s1
  have hs1 : Keeps s s1 := .count (.hit (.modSkip hs))
  exact .ite (.mustMiss (.raise hs1)) hs1

theorem markDegraded (hs : Keeps s u) {t : Nat} : Keeps s (u.markDegraded t) := by
  unfold State.markDegraded
  exact .foldl (fun _ _ hs => .modTile hs) hs

theorem markFrom (hs : Keeps s u) {t : Nat} {ws : List RWord} : Keeps s (u.markFrom t ws) := by
  unfold State.markFrom
  extract_lets s1
  have hs1 : Keeps s s1 := .ite (.markMiss hs) hs
  exact .ite (.markDegraded hs1) hs1

theorem popBlock (hs : Keeps s u) {t th w : Nat} : Keeps s (u.popBlock t th w) := by
  unfold State.popBlock
  refine .ite (.mustMiss (.raise hs)) (.ite (.widthMismatch hs) ?_)
  extract_lets last s1 s2 s3 mv s4
  have hs1 : Keeps s s1 := .modSkip hs
  have hs3 : Keeps s s3 := .markFrom (.ite (.upTo (fun _ _ hs => .underrun hs) hs1) hs1)
  exact .startUnits (.modTile (.modRegs hs3))

theorem setV (hs : Keeps s u) {t th r lat : Nat} {x : Line} : Keeps s (u.setV t th r lat x) := by
  unfold State.setV
  exact .modThread hs

theorem popWrite (hs : Keeps s u) {t th w : Nat} {x : Line} : Keeps s (u.popWrite t th w x) := by
  unfold State.popWrite
  exact .ite (.setV hs) (.setG hs)

theorem setZM (hs : Keeps s u) {t th lat : Nat} {x : DWord} : Keeps s (u.setZM t th lat x) := by
  unfold State.setZM
  exact .modThread hs

theorem awaitReg (hs : Keeps s u) {t th r : Nat} : Keeps s (u.awaitReg t th r) := by
  unfold State.awaitReg
  exact .modThread hs

theorem popRegister (hs : Keeps s u) {t th w : Nat} {peek : Bool} : Keeps s (u.popRegister t th w peek) := by
  unfold State.popRegister
  refine .ite (.widthMismatch hs) (.ite (.underrun (.modSkip (.popWrite hs))) ?_)
  split
  · exact hs
  · refine .ite (.widthMismatch hs) ?_
    extract_lets s1 s2 s3 s4
    have hs1 : Keeps s s1 := .popWrite hs
    have hs3 : Keeps s s3 := .markFrom (.ite (.setZM hs1) hs1)
    have hs4 : Keeps s s4 := .ite (.modSkip hs3) (.modRegs (.modSkip hs3))
    exact .ite (.modSkip (.awaitReg hs4)) hs4

theorem portFills (hs : Keeps s u) {t p : Nat} : Keeps s (u.portFills t p) := by
  unfold State.portFills
  exact .foldl (fun _ _ hs => .placeFills hs) hs

theorem creditViolation (hs : Keeps s u) {t p : Nat} : Keeps s (u.creditViolation t p) := by
  unfold State.creditViolation
  extract_lets s1
  have hs1 : Keeps s s1 := .foldl (fun _ _ hs => .hit (.modSkip hs)) hs
  exact .mustMiss (.raise hs1)

theorem portUse (hs : Keeps s u) {t p n stored : Nat} : Keeps s (u.portUse t p n stored) := by
  unfold State.portUse
  exact .foldl (fun _ _ hs => .modSkip hs) hs

theorem pushBlock (hs : Keeps s u) {t th w : Nat} : Keeps s (u.pushBlock t th w) := by
  unfold State.pushBlock
  refine .ite (.mustMiss (.raise hs)) (.ite (.widthMismatch hs) ?_)
  extract_lets s1
  have hs1 : Keeps s s1 := .portFills hs
  exact .ite (.creditViolation hs1) (.startUnits (.modTile (.modPort (.portUse hs1))))

theorem pushRegister (hs : Keeps s u) {t th w : Nat} : Keeps s (u.pushRegister t th w) := by
  unfold State.pushRegister
  refine .ite (.widthMismatch hs) ?_
  extract_lets s1 r n bytes data e
  have hs1 : Keeps s s1 := .portFills hs
  exact .ite (.creditViolation hs1) (.modPort (.pushEntry (.portUse hs1)))

theorem lateResult (hs : Keeps s u) {t p upTo : Nat} : Keeps s (u.lateResult t p upTo) := by
  unfold State.lateResult
  exact .countTile (.discardPort hs)

theorem commitOut (hs : Keeps s u) {t p upTo : Nat} : Keeps s (u.commitOut t p upTo) := by
  unfold State.commitOut
  exact .foldl (fun _ _ hs => .modSkip hs) hs

theorem commitEffect (hs : Keeps s u) {t p upTo : Nat} : Keeps s (u.commitEffect t p upTo) := by
  unfold State.commitEffect
  split
  · exact .ite (.commitOut hs) (.releaseWords hs)
  · exact hs

theorem commitPort (hs : Keeps s u) {t p : Nat} : Keeps s (u.commitPort t p) := by
  unfold State.commitPort
  split
  · exact hs
  · extract_lets n s0 s1
    have hs0 : Keeps s s0 := .ite hs (.modSkip hs)
    have hs1 : Keeps s s1 := .modPort hs0
    exact .ite (.lateResult hs0) (.ite (.modPort hs1) (.commitEffect hs1))

theorem lockSequence (hs : Keeps s u) {t th : Nat} : Keeps s (u.lockSequence t th) := by
  unfold State.lockSequence
  exact .mustMiss (.raise (.freeLock hs))

theorem scratchAccess (hs : Keeps s u) {t th w : Nat} {body : Nat → State → State}
    (hbody : ∀ {a v}, Keeps s v → Keeps s (body a v)) : Keeps s (u.scratchAccess t th w body) := by
  unfold State.scratchAccess
  exact .ite (.mustMiss (.raise hs)) (.ite (.lockSequence hs) (hbody hs))

theorem scratchLoad (hs : Keeps s u) {t th w : Nat} {vector : Bool} : Keeps s (u.scratchLoad t th w vector) := by
  unfold State.scratchLoad
  exact .scratchAccess hs fun hv => .awaitReg (.modThread (.modTile hv))

theorem scratchStore (hs : Keeps s u) {t th w : Nat} {vector : Bool} : Keeps s (u.scratchStore t th w vector) := by
  unfold State.scratchStore
  exact .scratchAccess hs fun hv => .modThread (.modTile (.ite (.draw hv) hv))

theorem enterMac (hs : Keeps s u) {t th w : Nat} {k : MacKind} {upTo : Nat} : Keeps s (u.enterMac t th w k upTo) := by
  unfold State.enterMac
  exact .modTile hs

theorem vWrite (hs : Keeps s u) {t th w lat : Nat} {ls : List (Nat × Nat)} : Keeps s (u.vWrite t th w lat ls) := by
  unfold State.vWrite
  exact .countTile (.ite (.setG hs) (.setV hs))

theorem drawImm (hs : Keeps s u) {w : Nat} : Keeps s (u.drawImm w) := by
  unfold State.drawImm
  exact .ite hs (.draw hs)

theorem vLaneOp (hs : Keeps s u) {t th w : Nat} : Keeps s (u.vLaneOp t th w) := by
  unfold State.vLaneOp
  exact .vWrite (.ite (.drawImm hs) hs)

theorem pcBreakpointMatchDo (hs : Keeps s u) {n : Nat} : Keeps s (Machine.pcBreakpointMatchDo n u) := by
  unfold Machine.pcBreakpointMatchDo
  exact .modThread (.breakHalt hs)

theorem startStream (hs : Keeps s u) {t : Nat} {m : MacOp} : Keeps s (u.startStream t m) := by
  unfold State.startStream
  exact .modTile hs

theorem macStreamStartDo (hs : Keeps s u) {t : Nat} : Keeps s (Machine.macStreamStartDo t u) := by
  unfold Machine.macStreamStartDo
  split
  · exact hs
  · exact .ite (.startStream hs) (.ite (.startStream hs) (.modRow hs (by exact id)))

theorem noteTouch (hs : Keeps s u) {t off : Nat} {k : List (Nat × Nat)} : Keeps s (u.noteTouch t off k) := by
  unfold State.noteTouch
  exact .foldl (fun _ _ hs => .noteTileRead hs) hs

theorem writeBank (hs : Keeps s u) {t : Nat} {m : MacOp} : Keeps s (u.writeBank t m) := by
  unfold State.writeBank
  exact .ite (.scramble hs) (.countTile (.upTo (fun _ _ hs => .writeBytes hs) hs))

theorem macStreamCompleteDo (hs : Keeps s u) {t : Nat} : Keeps s (Machine.macStreamCompleteDo t u) := by
  unfold Machine.macStreamCompleteDo
  split
  · exact hs
  · exact .startUnits (.modTile (.noteTouch (.noteTouch (.writeBank hs))))

theorem heavyUnitTokenGrantDo (hs : Keeps s u) {row claim : Nat} : Keeps s (Machine.heavyUnitTokenGrantDo row claim u) := by
  unfold Machine.heavyUnitTokenGrantDo
  split
  · exact hs
  · extract_lets s1
    have hs1 : Keeps s s1 := .modRow hs (by exact id)
    split
    · exact .startStream hs1
    · exact hs1

theorem rqRow (hs : Keeps s u) {t : Nat} {m : MacOp} {r : Nat} : Keeps s (u.rqRow t m r) := by
  unfold State.rqRow
  exact .countTile (.countTile (.modTile (.writeBytes hs)))

theorem holdStreams (hs : Keeps s u) {t issued : Nat} {k : Touch} : Keeps s (u.holdStreams t issued k) := by
  unfold State.holdStreams
  exact .modTile hs

theorem rqCompleteDo (hs : Keeps s u) {t : Nat} : Keeps s (Machine.rqCompleteDo t u) := by
  unfold Machine.rqCompleteDo
  split
  · exact hs
  · extract_lets s1 s2
    have hs2 : Keeps s s2 := .modTile (.upTo (fun _ _ hs => .rqRow hs) (.noteTouch hs))
    exact .startUnits (.holdStreams hs2)

theorem oqWrite (hs : Keeps s u) {t : Nat} {m : MacOp} : Keeps s (u.oqWrite t m) := by
  unfold State.oqWrite
  extract_lets w d nr scales s1
  have hs1 : Keeps s s1 := .upTo (fun _ _ hs => .ite hs (.oqWriteRow hs)) hs
  exact .ite (.writeBytes hs1) hs1

theorem oqCompleteDo (hs : Keeps s u) {t : Nat} : Keeps s (Machine.oqCompleteDo t u) := by
  unfold Machine.oqCompleteDo
  split
  · exact hs
  · extract_lets sat s1 s2
    have hs2 : Keeps s s2 := .modTile (.countTile (.ite hs (.oqWrite hs)))
    exact .startUnits hs2

theorem fnCallCompleteDo (hs : Keeps s u) {t unit : Nat} : Keeps s (Machine.fnCallCompleteDo t unit u) := by
  unfold Machine.fnCallCompleteDo
  split
  · exact hs
  · extract_lets o s1 s2 s3 s4
    have hs3 : Keeps s s3 := .modTile (.countTile (.writeBytes (.writeBytes (.foldl (fun _ _ hs => .noteTileRead hs) hs))))
    have hs4 : Keeps s s4 := .startUnits hs3
    split
    · exact .ite (.wakeThread hs4) hs4
    · exact hs4

theorem blockMoveCompleteDo (hs : Keeps s u) {t : Nat} : Keeps s (Machine.blockMoveCompleteDo t u) := by
  unfold Machine.blockMoveCompleteDo
  split
  · exact hs
  · extract_lets s1 off s2
    have hs1 : Keeps s s1 := .modTile hs
    exact .startUnits (.holdStreams (.ite hs1 (.writeBytes hs1)))

theorem arriveReg (hs : Keeps s u) {t th r : Nat} : Keeps s (u.arriveReg t th r) := by
  unfold State.arriveReg
  exact .modThread hs

theorem scratchLoadReturnDo (hs : Keeps s u) {t i : Nat} : Keeps s (Machine.scratchLoadReturnDo t i u) := by
  unfold Machine.scratchLoadReturnDo
  split
  · exact hs
  · extract_lets owned x s1 s2 r s3
    have hs2 : Keeps s s2 := .modTile (.ite (.noteTileRead hs) (.draw hs))
    exact .scratchSettled (.arriveReg (.ite (.setV hs2) (.setG hs2)))

theorem takeEarlier (hs : Keeps s u) {t : Nat} {q : Scratch} : Keeps s (u.takeEarlier t q) := by
  unfold State.takeEarlier
  exact .modTile hs

theorem scratchStorePerformedDo (hs : Keeps s u) {t i : Nat} : Keeps s (Machine.scratchStorePerformedDo t i u) := by
  unfold Machine.scratchStorePerformedDo
  split
  · exact hs
  · exact .scratchSettled (.modTile (.ite (.writeBytes (.takeEarlier hs)) hs))

theorem lockGrantDo (hs : Keeps s u) {t line : Nat} : Keeps s (Machine.lockGrantDo t line u) := by
  unfold Machine.lockGrantDo
  split
  · exact hs
  · exact .wakeThread (.modThread (.modTile hs))

theorem noteOccupancy (hs : Keeps s u) {k : Nat} : Keeps s (u.noteOccupancy k) := by
  unfold State.noteOccupancy
  exact .ite (.count hs) hs

theorem entryReachesTailDo (hs : Keeps s u) {k : Nat} : Keeps s (Machine.entryReachesTailDo k u) := by
  unfold Machine.entryReachesTailDo
  exact .noteOccupancy (.modSkip hs)

theorem commitTakesEffectDo (hs : Keeps s u) {t p : Nat} : Keeps s (Machine.commitTakesEffectDo t p u) := by
  unfold Machine.commitTakesEffectDo
  split
  · split
    · exact .commitEffect (.modPort hs)
    · exact hs
  · exact hs

theorem wakeQueues (hs : Keeps s u) {t : Nat} : Keeps s (u.wakeQueues t) := by
  unfold State.wakeQueues
  refine .upTo (fun _ _ hs => ?_) hs
  split
  · exact .ite (.wakeThread hs) hs
  · exact hs

theorem entriesBecomeVisibleDo (hs : Keeps s u) {k : Nat} : Keeps s (Machine.entriesBecomeVisibleDo k u) := by
  unfold Machine.entriesBecomeVisibleDo
  extract_lets fc pfc s1
  have hs1 : Keeps s s1 := .modSkip hs
  exact .wakeQueues hs1

theorem creditHome (hs : Keeps s u) {k n : Nat} : Keeps s (u.creditHome k n) := by
  unfold State.creditHome
  split
  · exact .ite (.sendFlit hs) hs
  · exact hs

theorem creditArrivalDo (hs : Keeps s u) {k : Nat} : Keeps s (Machine.creditArrivalDo k u) := by
  unfold Machine.creditArrivalDo
  extract_lets fc s' s1
  have hs1 : Keeps s s1 := .modSkip (.creditHome hs)
  split
  · exact .wakeQueues hs1
  · exact hs1

theorem discardMarkArrivalDo (hs : Keeps s u) {k : Nat} : Keeps s (Machine.discardMarkArrivalDo k u) := by
  unfold Machine.discardMarkArrivalDo
  exact .modSkip hs

theorem arriveMove (hs : Keeps s u) {t th k : Nat} : Keeps s (u.arriveMove t th k) := by
  unfold State.arriveMove
  extract_lets fc
  split
  · exact .modTile hs
  · exact hs

theorem headRefillDo (hs : Keeps s u) {k : Nat} : Keeps s (Machine.headRefillDo k u) := by
  unfold Machine.headRefillDo
  extract_lets fc s1
  have hs1 : Keeps s s1 := .modSkip hs
  split
  · extract_lets s2
    have hs2 : Keeps s s2 := .modSkip hs1
    exact .ite (.arriveMove hs2) (.arriveReg hs2)
  · exact .modSkip hs1

theorem bellTokenArrivalDo (hs : Keeps s u) {t route : Nat} : Keeps s (Machine.bellTokenArrivalDo t route u) := by
  unfold Machine.bellTokenArrivalDo
  split
  · exact hs
  · refine .upTo (fun _ _ hs => ?_) (.modTile hs)
    split
    · exact .ite (.takeBell hs) hs
    · exact hs

theorem skipTimerExpiryDo (hs : Keeps s u) {k : Nat} : Keeps s (Machine.skipTimerExpiryDo k u) := by
  unfold Machine.skipTimerExpiryDo
  extract_lets fc pfc s1 s2
  have hs2 : Keeps s s2 := .modSkip (.count (.hit (.raise hs)))
  exact .wakeQueues hs2

theorem hoistFault (hs : Keeps s u) {h off cva : Nat} {write : Bool} : Keeps s (u.hoistFault h off cva write) := by
  unfold State.hoistFault
  split
  · exact hs
  · exact .modHoist (.raise (.count (.hit (.modClaim (.modHoist hs)))))

theorem presentSide (hs : Keeps s u) {h claim domain offset lst a n : Nat} {write : Bool} : Keeps s (u.presentSide h
    claim domain offset lst a n write) := by
  unfold State.presentSide
  exact .ite hs (.foldl (fun _ _ hs => .presentRun hs) hs)

theorem presentBurst (hs : Keeps s u) {h : Nat} {x : Machine.Stream} {y : Burst} {srcLst dstLst : Nat} : Keeps s
    (u.presentBurst h x y srcLst dstLst) := by
  unfold State.presentBurst
  extract_lets s1 s2
  have hs2 : Keeps s s2 := .presentSide (.ite hs (.presentSide hs))
  exact .ite (.presentSide hs2) hs2

theorem issueCopy (hs : Keeps s u) {h : Nat} {x : Machine.Stream} {c : HoldCopy} : Keeps s (u.issueCopy h x c) := by
  unfold State.issueCopy
  extract_lets o cva cfg row n s1
  have hs1 : Keeps s s1 := by
    unfold s1
    split
    · exact .ite (.putCva hs) hs
    · exact hs
  split
  · exact .hoistFault hs
  · exact .presentBurst (.modHoist hs1)

theorem endStream (hs : Keeps s u) {h : Nat} {x : Machine.Stream} {ok : Bool} {reason : Nat} : Keeps s (u.endStream h x
    ok reason) := by
  unfold State.endStream
  extract_lets s1
  have hs1 : Keeps s s1 := .modHoist hs
  split
  · exact .finish hs1
  · exact hs1

theorem issueBurst (hs : Keeps s u) {h : Nat} {x : Machine.Stream} : Keeps s (u.issueBurst h x) := by
  unfold State.issueBurst
  split
  · refine .ite (.ite (.endStream hs) hs) (.ite (.modHoist hs) ?_)
    extract_lets n
    split
    · exact .hoistFault hs
    · exact .hoistFault hs
    · exact .presentBurst (.modHoist hs)
  · exact .ite (.ite (.endStream hs) (.endStream hs)) hs

theorem beginStream (hs : Keeps s u) {h : Nat} {x : Machine.Stream} : Keeps s (u.beginStream h x) := by
  unfold State.beginStream
  split
  · exact .ite (.endStream (.noteCvaRead (.noteCvaRead hs))) (.modHoist (.noteCvaRead (.noteCvaRead hs)))
  · exact .hoistFault hs
  · exact .hoistFault hs

theorem hoistBurstIssueDo (hs : Keeps s u) {h : Nat} : Keeps s (Machine.hoistBurstIssueDo h u) := by
  unfold Machine.hoistBurstIssueDo
  extract_lets s1
  have hs1 : Keeps s s1 := .modHoist hs
  split
  · exact hs1
  · split
    · exact .ite (.issueCopy hs1) hs1
    · refine .ite (.issueBurst hs1) ?_
      extract_lets s2
      have hs2 : Keeps s s2 := .beginStream hs1
      split
      · exact .ite (.issueBurst hs2) hs2
      · exact hs2

theorem runWrite (hs : Keeps s u) {claim : Nat} {p : Phys} {bs : List Byte} : Keeps s (u.runWrite claim p bs) := by
  unfold State.runWrite
  exact .putRun (.windowViolation hs)

theorem takeRun (hs : Keeps s u) {claim cva : Nat} {p : Phys} {n : Nat} : Keeps s (u.takeRun claim cva p n).1 := by
  unfold State.takeRun
  extract_lets bs
  split
  · exact .emit (.draw hs)
  · refine .draw ?_
    split
    · exact hs
    · exact .uninitRead hs

theorem runRead (hs : Keeps s u) {claim cva : Nat} {p : Phys} {n : Nat} : Keeps s (u.runRead claim cva p n).1 := by
  unfold State.runRead
  exact .takeRun (.windowViolation hs)

theorem moveBurst (hs : Keeps s u) {x : Machine.Stream} {y : Burst} : Keeps s (u.moveBurst x y) := by
  unfold State.moveBurst
  extract_lets dest
  split
  · exact .ite hs (.runWrite hs)
  · exact .runWrite (.runRead hs)

theorem stopAtHalf (hs : Keeps s u) {h : Nat} {x : Machine.Stream} {y : Burst} : Keeps s (u.stopAtHalf h x y) := by
  unfold State.stopAtHalf
  exact .modHoist hs

theorem hoistBurstCompleteDo (hs : Keeps s u) {h i : Nat} : Keeps s (Machine.hoistBurstCompleteDo h i u) := by
  unfold Machine.hoistBurstCompleteDo
  split
  · exact hs
  · split
    · exact hs
    · extract_lets s1 bursts x1 s2
      have hs2 : Keeps s s2 := .modHoist (.count (.count (.moveBurst hs)))
      exact .ite (.stopAtHalf hs2) (.ite (.ite (.endStream hs2) (.endStream hs2)) (.modHoist hs2))

theorem translationWalkCompleteDo (hs : Keeps s u) {claim page : Nat} : Keeps s (Machine.translationWalkCompleteDo claim
    page u) := by
  unfold Machine.translationWalkCompleteDo
  split
  · exact .modSump hs
  · exact hs

theorem advanceHead (hs : Keeps s u) {claim cva : Nat} : Keeps s (u.advanceHead claim cva) := by
  unfold State.advanceHead
  extract_lets before ready
  clear_value ready
  split
  · exact hs
  · exact .putCva (.modSump hs)

theorem holdCopyCompleteDo (hs : Keeps s u) {h : Nat} : Keeps s (Machine.holdCopyCompleteDo h u) := by
  unfold Machine.holdCopyCompleteDo
  split
  · exact hs
  · split
    · extract_lets s1 s2
      have hs1 : Keeps s s1 := .modHoist hs
      exact .advanceHead (.ite hs1 (.modSump hs1))
    · exact hs

theorem sumpRequestDo (hs : Keeps s u) {port req claim d len lst : Nat} {write : Bool} : Keeps s (Machine.sumpRequestDo
    port req claim d len lst write u) := by
  unfold Machine.sumpRequestDo
  exact .presentRun hs

theorem portBurstCompleteDo (hs : Keeps s u) {port : Nat} {retry : Bool} : Keeps s (Machine.portBurstCompleteDo port
    retry u) := by
  unfold Machine.portBurstCompleteDo
  split
  · exact hs
  · exact .ite (.modSumpPort hs) (.portDecide (.modSumpPort hs))

theorem stopRequester (hs : Keeps s u) {req : Nat} : Keeps s (u.stopRequester req) := by
  unfold State.stopRequester
  extract_lets s1
  have hs1 : Keeps s s1 := .upTo (fun _ _ hs => .modSumpPort hs) hs
  refine .ite ?_ (.ite (.modSump hs1) hs1)
  split
  · exact .endStream hs1
  · exact hs1

theorem canaryCountExpiryDo (hs : Keeps s u) {port : Nat} : Keeps s (Machine.canaryCountExpiryDo port u) := by
  unfold Machine.canaryCountExpiryDo
  split
  · exact hs
  · exact .portDecide (.raise (.count (.stopRequester (.hit (.hit (.modClaim (.modSump (.modSumpPort hs))))))))

theorem markRange (hs : Keeps s u) {a n : Nat} : Keeps s (u.markRange a n) :=
  hs.remember rfl (markRange_memoryOk u a n) rfl

theorem install (hs : Keeps s u) {c : Nat} {plan : List (Nat × DWord)} : Keeps s (u.install c plan) := by
  unfold State.install
  exact .modClaim hs

theorem markingCompleteDo (hs : Keeps s u) {seq : Nat} : Keeps s (Machine.markingCompleteDo seq u) := by
  unfold Machine.markingCompleteDo
  split
  · exact hs
  · exact .complete (.modCmd (.install (.foldl (fun _ _ hs => .ite (.markRange hs) hs) hs)))

theorem bar4Fault (hs : Keeps s u) {claim cva : Nat} : Keeps s (u.bar4Fault claim cva) := by
  unfold State.bar4Fault
  exact .raise (.count (.hit (.modClaim hs)))

theorem accessRead (hs : Keeps s u) {claim cva n : Nat} : Keeps s (u.accessRead claim cva n).1 := by
  unfold State.accessRead
  extract_lets runs s1
  exact List.foldlRecOn (motive := fun a : State × _ => Keeps s a.1) runs _ (.windowViolation hs) (fun _ ha _ _ =>
      .takeRun ha)

theorem bar4AccessDo (hs : Keeps s u) {claim : Nat} {write : Bool} {cva len : Nat} {data : List Byte} : Keeps s
    (Machine.bar4AccessDo claim write cva len data u) := by
  unfold Machine.bar4AccessDo
  refine .ite hs ?_
  split
  · extract_lets s1
    have hs1 : Keeps s s1 := .bar4Fault hs
    exact .ite hs1 (.emit hs1)
  · exact .ite (.putCva hs) (.emit (.accessRead hs))

theorem ringOverrun (hs : Keeps s u) {c k : Nat} : Keeps s (u.ringOverrun c k) := by
  unfold State.ringOverrun
  exact .raise (.hit (.hit (.modClaim (.modRing hs))))

theorem setProducer (hs : Keeps s u) {c k : Nat} {v : Word} : Keeps s (u.setProducer c k v) := by
  unfold State.setProducer
  exact .ite (.ringOverrun hs) (.modRing hs)

theorem doorbellProducerWriteDo (hs : Keeps s u) {claim ring : Nat} {value : Word} : Keeps s
    (Machine.doorbellProducerWriteDo claim ring value u) := by
  unfold Machine.doorbellProducerWriteDo
  exact .ite hs (.ite (.emit hs) (.setProducer hs))

theorem doorbellConsumerWriteDo (hs : Keeps s u) {claim ring : Nat} {value : Word} : Keeps s
    (Machine.doorbellConsumerWriteDo claim ring value u) := by
  unfold Machine.doorbellConsumerWriteDo
  exact .ite hs (.modRing hs)

theorem ringEntryTakeDo (hs : Keeps s u) {claim ring : Nat} : Keeps s (Machine.ringEntryTakeDo claim ring u) := by
  unfold Machine.ringEntryTakeDo
  extract_lets r x base old c s0 s1 s2 s3 s4 s5
  have hs0 : Keeps s s0 := .ite hs (.noteCvaRead hs)
  have hs3 : Keeps s s3 := .count (.modClaim (.modHost (.modRing (.journal hs0))))
  have hs4 : Keeps s s4 := .count hs3
  have hs5 : Keeps s s5 := .modClaim hs3
  clear_value s4 s5 old
  split
  · split
    · exact .finishOne hs4
    · exact hs4
  · split
    · exact .fail (.hit (.modClaim hs5))
    · exact hs5

theorem placeCompletion (hs : Keeps s u) {claim : Nat} {r : Record} : Keeps s (u.placeCompletion claim r) := by
  unfold State.placeCompletion
  exact .ite (.sendFlit hs) (.placeEntry hs)

theorem completionEntryPlaceDo (hs : Keeps s u) {claim : Nat} : Keeps s (Machine.completionEntryPlaceDo claim u) := by
  unfold Machine.completionEntryPlaceDo
  split
  · exact .modHost (.placeCompletion hs)
  · exact hs

theorem eventRecordPlaceDo (hs : Keeps s u) {claim : Nat} : Keeps s (Machine.eventRecordPlaceDo claim u) := by
  unfold Machine.eventRecordPlaceDo
  split
  · exact .modClaim (.placeEntry hs)
  · exact hs

theorem tellMembers (hs : Keeps s u) {op : Nat} {entry : BitVec 512} : Keeps s (u.tellMembers op entry) := by
  unfold State.tellMembers
  exact .ite (.foldl (fun _ _ hs => .sendFlit hs) hs) hs

theorem zeroRange (hs : Keeps s u) {a n : Nat} : Keeps s (u.zeroRange a n) :=
  hs.remember rfl (zeroRange_memoryOk u a n) rfl

theorem openClaim (hs : Keeps s u) {c quota : Nat} {signed : Bool} {mask : Byte} : Keeps s (u.openClaim c quota signed
    mask) := by
  unfold State.openClaim
  exact .foldl (fun _ _ hs => .modRing hs) (.modClaim (.zeroRange hs))

theorem claimOpenDo (hs : Keeps s u) {c : Cmd} : Keeps s (Machine.claimOpenDo c u) := by
  unfold Machine.claimOpenDo
  exact .ite (.fail hs) (.ite (.fail hs) (.complete (.tellMembers (.openClaim hs))))

theorem running (hs : Keeps s u) {seq : Nat} : Keeps s (u.running seq) := by
  unfold State.running
  exact .modCmd hs

theorem drainPorts (hs : Keeps s u) {claim : Nat} : Keeps s (u.drainPorts claim) := by
  unfold State.drainPorts
  exact .upTo (fun _ _ hs => .modSumpPort hs) hs

theorem dropQueued (hs : Keeps s u) {x : Machine.Stream} : Keeps s (u.dropQueued x) := by
  unfold State.dropQueued
  split
  · exact .finish hs
  · exact hs

theorem drainHoist (hs : Keeps s u) {claim h : Nat} : Keeps s (u.drainHoist claim h) := by
  unfold State.drainHoist
  refine .modHoist (.foldl (fun _ _ hs => .dropQueued hs) ?_)
  split
  · exact .ite (.endStream (.foldl (fun _ _ hs => .count (.count (.moveBurst hs))) hs)) hs
  · exact hs

theorem clearTile (hs : Keeps s u) {t : Nat} : Keeps s (u.clearTile t) := by
  unfold State.clearTile
  exact .modTile (.ite (.markRange (.markRange hs)) (.markRange hs))

theorem zeroRow (hs : Keeps s u) {r : Nat} : Keeps s (u.zeroRow r) :=
  hs.remember rfl (zeroRow_memoryOk u r) rfl

theorem repower (hs : Keeps s u) : Keeps s u.repower := by
  unfold State.repower
  exact .upTo (fun _ _ hs => .ite (.modRow (.zeroRow hs) (by exact id)) (.ite (.modRow (.zeroRow hs) (by exact id)) hs)) hs

theorem setShares (hs : Keeps s u) {on : Bool} {l : List Share} : Keeps s (u.setShares on l) := by
  unfold State.setShares
  refine hs.reclock rfl rfl (by simp [State.modPower]) fun x hx => ?_
  obtain ⟨y, hy, rfl⟩ := List.mem_map.1 hx
  exact ⟨y.1, List.fst_mem_of_mem_zipIdx hy, id⟩

theorem reshare (hs : Keeps s u) : Keeps s u.reshare := by
  unfold State.reshare
  split
  · exact .setShares hs
  · exact hs

theorem repin (hs : Keeps s u) {c : Nat} : Keeps s (u.repin c) := by
  unfold State.repin
  exact .modClaim hs

theorem clearRiddle (hs : Keeps s u) {h : Nat} {x : Image} : Keeps s (u.clearRiddle h x) := by
  unfold State.clearRiddle
  split
  · exact hs
  · extract_lets free s1 s2 gone s3 s4
    have hs1 : Keeps s s1 := by
      refine .foldl (fun _ _ hs => ?_) hs
      split
      · exact .modBlock hs
      · exact .modQuad (.modBlock hs)
    exact .foldl (fun _ _ hs => .modAtile hs) (.foldl (fun _ _ hs => .modAdit hs) (.modRiddle (.modAdit hs1)))

theorem unloadImage (hs : Keeps s u) {h : Nat} : Keeps s (u.unloadImage h) := by
  unfold State.unloadImage
  extract_lets x s1 shared cleared s2 s3
  have hs1 : Keeps s s1 := .same hs (by rfl)
  have hs2 : Keeps s s2 := by
    unfold s2
    clear_value shared
    split
    · exact .foldl (fun _ _ hs => .modSkip hs) (.foldl (fun _ _ hs => .clearTile hs) hs1)
    · exact .ite (.modImage (.startImage hs1)) (.foldl (fun _ _ hs => .modTile hs) hs1)
  have hs3 : Keeps s s3 := .same hs2 (by rfl)
  exact .repower (.reshare (.repin (.clearRiddle hs3)))

theorem cancel (hs : Keeps s u) {c : Cmd} : Keeps s (u.cancel c) := by
  unfold State.cancel
  extract_lets units s1 s2 s3 s4
  have hs1 : Keeps s s1 := .modClaim (.modSump hs)
  have hs2 : Keeps s s2 := by
    unfold s2
    split
    · exact .unloadImage hs1
    · exact hs1
  exact .finish (.modCmd (.upTo (fun _ _ hs => .ite (.endCapture hs) hs) (.modHost hs2)))

theorem beginReset (hs : Keeps s u) {t : Nat} : Keeps s (u.beginReset t) := by
  unfold State.beginReset
  extract_lets s1 s2 s3 s4 loose s5 s6
  have hs2 : Keeps s s2 := .drainPorts (.modSump (.upTo (fun _ _ hs => .drainHoist hs) (.modClaim hs)))
  have hs3 : Keeps s s3 := .foldl (fun _ _ hs => .cancel hs) hs2
  clear_value s3
  have hs6 : Keeps s s6 := .tellMembers (.foldl (fun _ _ hs => .haltImage hs) (.same hs3 (by rfl)))
  exact .ite (.modEmeel hs6) hs6

theorem resetClaim (hs : Keeps s u) {t : Nat} : Keeps s (u.resetClaim t) := by
  unfold State.resetClaim
  exact .ite (.beginReset hs) hs

theorem claimResetDo (hs : Keeps s u) {c : Cmd} : Keeps s (Machine.claimResetDo c u) := by
  unfold Machine.claimResetDo
  exact .ite (.fail hs) (.running (.resetClaim hs))

theorem clearIndices (hs : Keeps s u) {claim : Nat} : Keeps s (u.clearIndices claim) := by
  unfold State.clearIndices
  exact .upTo (fun _ _ hs => .modRing hs) hs

theorem closeClaim (hs : Keeps s u) {t : Nat} : Keeps s (u.closeClaim t) := by
  unfold State.closeClaim
  exact .modHost (.upTo (fun _ _ hs => .modRing hs) (.modClaim (.modSump hs)))

theorem claimResetCompleteDo (hs : Keeps s u) {claim : Nat} : Keeps s (Machine.claimResetCompleteDo claim u) := by
  unfold Machine.claimResetCompleteDo
  extract_lets s1 s2 s3 took resets s4 s5 s6 s7 closes
  have hs1 : Keeps s s1 := .same hs (by rfl)
  have hs3 : Keeps s s3 := .reshare (.repin (.foldl (fun _ _ hs => .unloadImage hs) hs1))
  have hs5 : Keeps s s5 := .modClaim (.foldl (fun _ _ hs => .complete hs) hs3)
  have hs6 : Keeps s s6 := .ite (.modHost (.clearIndices (.foldl (fun _ _ hs => .journal hs) hs5))) hs5
  have hs7 : Keeps s s7 := .ite (.sendFlit hs6) hs6
  exact .ite hs7 (.foldl (fun _ _ hs => .complete hs) (.tellMembers (.closeClaim hs7)))

theorem claimCloseDo (hs : Keeps s u) {c : Cmd} : Keeps s (Machine.claimCloseDo c u) := by
  unfold Machine.claimCloseDo
  exact .ite (.fail hs) (.ite (.fail hs) (.running (.resetClaim hs)))

theorem planPages {w : State} (hs : Keeps s u) {big dual write : Bool} {n page : Nat} {acc plan : List (Nat × DWord)}
    (hw : u.planPages big dual write n page acc = some (w, plan)) : Keeps s w := by
  induction n generalizing u page acc with
  | zero =>
    obtain ⟨rfl, -⟩ := Prod.mk.inj (Option.some.inj hw)
    exact hs
  | succ n ih =>
    unfold State.planPages at hw
    extract_lets at hw
    split at hw
    · cases hw
    · exact ih (.modSump hs) hw

theorem mapDo (hs : Keeps s u) {c : Cmd} : Keeps s (Machine.mapDo c u) := by
  unfold Machine.mapDo
  extract_lets big dual write n cva len x t units
  refine .ite (.fail hs) (.ite (.ite (.fail hs) (.ite (.fail hs) (.complete (.install hs)))) (.ite (.fail hs)
    (.ite (.ite (.fail hs) (.ite (.fail hs) (.sendFlit (.running hs)))) (.ite (.fail hs) ?_))))
  split
  · exact .fail hs
  next hplan =>
    obtain ⟨-, hplan⟩ := Option.ite_none_left_eq_some.1 hplan
    exact .modCmd (.running (.modClaim (.planPages hs hplan)))

theorem removeLeaves (hs : Keeps s u) {claim : Nat} {big : Bool} {ps : List (Nat × DWord)} : Keeps s (u.removeLeaves
    claim big ps) := by
  unfold State.removeLeaves
  exact .modSump (.modClaim hs)

theorem unmapDo (hs : Keeps s u) {c : Cmd} : Keeps s (Machine.unmapDo c u) := by
  unfold Machine.unmapDo
  exact .ite (.fail hs) (.ite (.fail hs) (.ite (.fail hs) (.complete (.removeLeaves hs))))

theorem tellRing (hs : Keeps s u) {dev claim ring n addr : Nat} : Keeps s (u.tellRing dev claim ring n addr) := by
  unfold State.tellRing
  exact .ite hs (.sendFlit hs)

theorem ringSetupDo (hs : Keeps s u) {c : Cmd} : Keeps s (Machine.ringSetupDo c u) := by
  unfold Machine.ringSetupDo
  exact .ite (.fail hs) (.ite (.fail hs) (.ite (.complete (.tellRing (.repin (.modRing hs)))) (.ite (.fail hs) (.complete
      (.tellRing (.repin (.modRing hs)))))))

theorem failLoad (hs : Keeps s u) {seq : Nat} {f : LoadFail} : Keeps s (u.failLoad seq f) := by
  unfold State.failLoad
  exact .finish hs

theorem markOwned (hs : Keeps s u) {x : Image} : Keeps s (u.markOwned x) := by
  unfold State.markOwned
  exact .foldl (fun _ _ hs => .markRange hs) hs

theorem egressFor (hs : Keeps s u) {h i : Nat} {x : Image} {m : MeshRec} : Keeps s (u.egressFor h i x m) := by
  unfold State.egressFor
  split
  · exact .modSkip hs
  · exact hs

theorem loadSkips (hs : Keeps s u) {h : Nat} {x : Image} : Keeps s (u.loadSkips h x) := by
  unfold State.loadSkips
  exact .foldl (fun _ _ hs => .ite (.egressFor hs) hs) (.foldl (fun _ _ hs => .modSkip hs) hs)

theorem writeBlob (hs : Keeps s u) {x : Image} {data : List Byte} {b : BlobRec} : Keeps s (u.writeBlob x data b) := by
  unfold State.writeBlob
  refine .ite (.writeBytes hs) (.ite (.writeBytes hs) ?_)
  split
  · exact .putCva hs
  · exact hs

theorem writeStore (hs : Keeps s u) {x : Image} : Keeps s (u.writeStore x) := by
  unfold State.writeStore
  exact .foldl (fun _ _ hs => .scramble hs) hs

theorem loadShadow (hs : Keeps s u) {h : Nat} {x : Image} {r : TileRec} : Keeps s (u.loadShadow h x r) := by
  unfold State.loadShadow
  exact .modTile (.writeBytes hs)

theorem loadBlock (hs : Keeps s u) {h : Nat} {x : Image} {b : RiddleBits} {q : Nat} : Keeps s (u.loadBlock h x b q) := by
  unfold State.loadBlock
  exact .modQuad (.modBlock hs)

theorem loadFrame (hs : Keeps s u) {h : Nat} {x : Image} {f : RiddleFrame} : Keeps s (u.loadFrame h x f) := by
  unfold State.loadFrame
  split
  · exact .modRiddle hs
  · exact .modAdit (.modRiddle hs)
  · exact .modAtile hs
  · exact hs

theorem loadRiddle (hs : Keeps s u) {h : Nat} {x : Image} : Keeps s (u.loadRiddle h x) := by
  unfold State.loadRiddle
  split
  · exact hs
  · exact .modRiddle (.foldl (fun _ _ hs => .loadFrame hs) (.foldl (fun _ _ hs => .loadBlock hs) hs))

theorem installImage (hs : Keeps s u) {h : Nat} {x : Image} : Keeps s (u.installImage h x) := by
  unfold State.installImage
  extract_lets data new kept s1 s2 s3 s4 s5
  have hs1 : Keeps s s1 := .repower (.same hs (by rfl))
  have hs2 : Keeps s s2 := .ite (.markOwned hs1) hs1
  exact .reshare (.repin (.loadRiddle (.foldl (fun _ _ hs => .loadShadow hs) (.foldl (fun _ _ hs => .writeBlob hs)
      (.writeStore (.ite (.loadSkips hs2) (.foldl (fun _ _ hs => .ite (.egressFor hs) hs) hs2)))))))

theorem loadDo (hs : Keeps s u) {c : Cmd} : Keeps s (Machine.loadDo c u) := by
  unfold Machine.loadDo
  extract_lets cva count region
  split
  · exact .failLoad hs
  · extract_lets size s0 s1 table
    have hs1 : Keeps s s1 := .ite (.noteCvaRead (.noteCvaRead hs)) (.noteCvaRead hs)
    clear_value s1
    split
    · exact .failLoad hs
    · split
      · exact .finish hs1
      · split
        · exact .failLoad hs1
        · exact .running (.installImage hs1)

theorem loadCompleteDo (hs : Keeps s u) {seq : Nat} : Keeps s (Machine.loadCompleteDo seq u) := by
  unfold Machine.loadCompleteDo
  split
  · exact hs
  · extract_lets s1 s2
    have hs1 : Keeps s s1 := .modImage hs
    exact .complete (.ite (.startImage hs1) hs1)

theorem shadowLoadCompleteDo (hs : Keeps s u) {t : Nat} : Keeps s (Machine.shadowLoadCompleteDo t u) := by
  unfold Machine.shadowLoadCompleteDo
  exact .modTile hs

theorem unloadDo (hs : Keeps s u) {c : Cmd} : Keeps s (Machine.unloadDo c u) := by
  unfold Machine.unloadDo
  exact .ite (.fail hs) (.ite (.fail hs) (.complete (.unloadImage hs)))

theorem bindQuads (hs : Keeps s u) {x : Image} {d id quads : Nat} : Keeps s (u.bindQuads x d id quads) := by
  unfold State.bindQuads
  exact .foldl (fun _ _ hs => .ite (.forgetSeq (.modQuad hs)) (.ite (.forgetSeq hs) hs)) hs

theorem bindLines (hs : Keeps s u) {d id base n channels : Nat} : Keeps s (u.bindLines d id base n channels) := by
  unfold State.bindLines
  exact .foldl (fun _ _ hs => .modAdit (.modLine hs)) hs

theorem bindPipe (hs : Keeps s u) {h d id base n hoist quads : Nat} : Keeps s (u.bindPipe h d id base n hoist quads) := by
  unfold State.bindPipe
  exact .bindQuads (.bindLines (.foldl (fun _ _ hs => .modSkip hs) (.modImage (.same hs (by rfl)))))

theorem bindDo (hs : Keeps s u) {c : Cmd} : Keeps s (Machine.bindDo c u) := by
  unfold Machine.bindDo
  refine .ite (.fail hs) (.ite (.fail hs) ?_)
  extract_lets x s1
  have hs1 : Keeps s s1 := .ite hs (.draw hs)
  split
  · exact .finish hs1
  · exact .complete (.bindPipe hs1)

theorem startDo (hs : Keeps s u) {c : Cmd} : Keeps s (Machine.startDo c u) := by
  unfold Machine.startDo
  extract_lets h
  split
  · exact .fail hs
  · exact .ite (.fail hs) (.ite (.fail hs) (.running (.modImage (.modPipe hs))))

theorem stopDo (hs : Keeps s u) {c : Cmd} : Keeps s (Machine.stopDo c u) := by
  unfold Machine.stopDo
  split
  · exact .fail hs
  · exact .ite (.fail hs) (.ite (.fail hs) (.running (.modPipe hs)))

theorem swapDo (hs : Keeps s u) {c : Cmd} : Keeps s (Machine.swapDo c u) := by
  unfold Machine.swapDo
  extract_lets h g
  split
  · exact .fail hs
  · exact .ite (.fail hs) (.ite (.fail hs) (.ite (.fail hs) (.ite (.fail hs) (.running (.modPipe hs)))))

theorem fillByHoist (hs : Keeps s u) {c : Cmd} {t : Nat} : Keeps s (u.fillByHoist c t) := by
  unfold State.fillByHoist
  exact .ite (.fail hs) (.running (.modHoist hs))

theorem keepCopy (hs : Keeps s u) {h tile offset : Nat} {bs : List Byte} : Keeps s (u.keepCopy h tile offset bs) := by
  unfold State.keepCopy
  exact .modImage hs

theorem weightUpdateDo (hs : Keeps s u) {c : Cmd} : Keeps s (Machine.weightUpdateDo c u) := by
  unfold Machine.weightUpdateDo
  refine .ite (.fail hs) (.ite (.fail hs) (.ite (.ite (.fillByHoist hs) (.fail hs)) (.ite (.fail hs) ?_)))
  split
  · exact .fail hs
  · exact .complete (.keepCopy (.writeBytes (.noteCvaRead hs)))

theorem hoistDo (hs : Keeps s u) {c : Cmd} : Keeps s (Machine.hoistDo c u) := by
  unfold Machine.hoistDo
  exact .running (.modHoist hs)

theorem resumeDo (hs : Keeps s u) {c : Cmd} : Keeps s (Machine.resumeDo c u) := by
  unfold Machine.resumeDo
  split
  · exact .complete (.modHoist hs)
  · exact .fail hs

theorem scrubDo (hs : Keeps s u) {c : Cmd} : Keeps s (Machine.scrubDo c u) := by
  unfold Machine.scrubDo
  split
  next hw => exact .complete (.writeCva hs hw)
  · exact .fail hs

theorem snapshotDo (hs : Keeps s u) {c : Cmd} : Keeps s (Machine.snapshotDo c u) := by
  unfold Machine.snapshotDo
  extract_lets h
  split
  · exact .fail hs
  · exact .ite (.fail hs) (.ite (.fail hs) (.ite (.fail hs) (.running (.modHost hs))))

theorem snapshotLatchDo (hs : Keeps s u) : Keeps s (Machine.snapshotLatchDo u) := by
  unfold Machine.snapshotLatchDo
  split
  · extract_lets s1
    have hs1 : Keeps s s1 := .modHost hs
    split
    · exact hs1
    · extract_lets h
      split
      next hw => exact .complete (.writeCva hs1 hw)
      · exact .fail hs1
  · exact hs

theorem captureDo (hs : Keeps s u) {c : Cmd} : Keeps s (Machine.captureDo c u) := by
  unfold Machine.captureDo
  extract_lets q b
  split
  · exact .fail hs
  · exact .ite (.fail hs) (.ite (.fail hs) (.ite (.fail hs) (.running (.modBlock hs))))

theorem counterReadDo (hs : Keeps s u) {c : Cmd} : Keeps s (Machine.counterReadDo c u) := by
  unfold Machine.counterReadDo
  refine .ite (.fail hs) ?_
  split
  next hw => exact .complete (.writeCva hs hw)
  · exact .fail hs

theorem selfTestDo (hs : Keeps s u) {c : Cmd} : Keeps s (Machine.selfTestDo c u) := by
  unfold Machine.selfTestDo
  exact .ite (.fail hs) (.ite (.fail hs) (.running (.upTo (fun _ _ hs => .modRow hs (by exact id)) hs)))

theorem journalReadDo (hs : Keeps s u) {c : Cmd} : Keeps s (Machine.journalReadDo c u) := by
  unfold Machine.journalReadDo
  extract_lets head first n bs
  refine .ite (.fail hs) ?_
  split
  next hw => exact .complete (.writeCva hs hw)
  · exact .fail hs

theorem flrClaim (hs : Keeps s u) {claim : Nat} : Keeps s (u.flrClaim claim) := by
  unfold State.flrClaim
  exact .ite hs (.ite (.resetClaim (.clearIndices hs)) (.resetClaim (.clearIndices (.modHost (.journal hs)))))

theorem flrDo (hs : Keeps s u) {claim : Nat} : Keeps s (Machine.flrDo claim u) := by
  unfold Machine.flrDo
  exact .ite (.flrClaim (.upTo (fun _ _ hs => .flrClaim hs) hs)) (.flrClaim hs)

theorem newNonce (hs : Keeps s u) : Keeps s u.newNonce := by
  unfold State.newNonce
  exact .draw (.modDebug hs)

theorem perstNAssertDo (hs : Keeps s u) : Keeps s (Machine.perstNAssertDo u) := by
  unfold Machine.perstNAssertDo
  extract_lets s0 s1
  have hs1 : Keeps s s1 := .modPower (.ite (.newNonce (.modDebug hs)) hs) (by rfl)
  exact .ite (.flrDo hs1) hs1

/-- Power-on reset starts again from the state after reset, which meets both invariants. -/
theorem porNAssertDo (hs : Keeps s u) : Keeps s (Machine.porNAssertDo u) :=
  hs.trans ⟨rfl, fun _ => reset_memoryOk, fun _ => reset_rowsOk⟩

theorem porNDeassertDo (hs : Keeps s u) {meshHead : Bool} : Keeps s (Machine.porNDeassertDo meshHead u) := by
  unfold Machine.porNDeassertDo
  exact .newNonce (.modEmeel (.modPower hs (by rfl)))

theorem bringUp (hs : Keeps s u) {f : Power → Power} (hf : (f u.power).rows = u.power.rows) :
    Keeps s (u.bringUp f) :=
  hs.modPower hf

theorem pllLockDo (hs : Keeps s u) : Keeps s (Machine.pllLockDo u) := by
  unfold Machine.pllLockDo
  exact .draw (.upTo (fun _ _ hs => .modRow hs fun hx => ⟨hx.1, hx.2.1, Nat.mod_lt _ (by decide)⟩) (.bringUp hs (by rfl)))

theorem zeroTiles (hs : Keeps s u) : Keeps s u.zeroTiles := by
  unfold State.zeroTiles
  exact .zeroRange hs

theorem tileSramFillCompleteDo (hs : Keeps s u) : Keeps s (Machine.tileSramFillCompleteDo u) := by
  unfold Machine.tileSramFillCompleteDo
  exact .bringUp (.zeroTiles hs) (by rfl)

theorem selfTestEvents (hs : Keeps s u) {fs : List FaultReport} : Keeps s (u.selfTestEvents fs) := by
  unfold State.selfTestEvents
  exact .foldl (fun _ _ hs => .raise hs) hs

theorem noteFailures (hs : Keeps s u) {fs : List FaultReport} : Keeps s (u.noteFailures fs) := by
  unfold State.noteFailures
  exact .ite hs (.hit (.modFaults hs))

theorem settleRetire (hs : Keeps s u) {key : Nat} : Keeps s (u.settleRetire key) := by
  unfold State.settleRetire
  exact .modFaults hs

theorem loseTile (hs : Keeps s u) {t : Nat} : Keeps s (u.loseTile t) := by
  unfold State.loseTile
  exact .ite hs (.modTile (.raise hs))

theorem rewindPort (hs : Keeps s u) {t p keep : Nat} {port : Port} : Keeps s (u.rewindPort t p keep port) := by
  unfold State.rewindPort
  exact .ite (.discardPort hs) (.modSkip hs)

theorem dropRequests (hs : Keeps s u) {t th : Nat} : Keeps s (u.dropRequests t th) := by
  unfold State.dropRequests
  split
  · exact .modTile hs
  · exact hs

theorem restoreThread (hs : Keeps s u) {t th fc : Nat} : Keeps s (u.restoreThread t th fc) := by
  unfold State.restoreThread
  exact .modThread (.modTile (.dropRequests (.breakLock hs)))

theorem stopTile (hs : Keeps s u) {t : Nat} : Keeps s (u.stopTile t) := by
  unfold State.stopTile
  extract_lets x ths s1 s2 s3 s4
  have hs3 : Keeps s s3 := .foldl (fun _ _ hs => .restoreThread hs) (.foldl (fun _ _ hs => .ite (.rewindPort hs) hs)
      (.stopUnits hs))
  exact .modTile (.ite (.mustMiss hs3) hs3)

theorem moveWindow (hs : Keeps s u) {t p : Nat} : Keeps s (u.moveWindow t p) := by
  unfold State.moveWindow
  exact .modHost (.modSump hs)

theorem rebind (hs : Keeps s u) {h : Nat} : Keeps s (u.rebind h) := by
  unfold State.rebind
  exact .foldl (fun _ _ hs => .ite (.skipEnds hs) hs) (.foldl (fun _ _ hs => .ite (.modTile hs) hs) hs)

theorem copyWindow (hs : Keeps s u) {t p o n : Nat} : Keeps s (u.copyWindow t p o n) := by
  unfold State.copyWindow
  exact .writeBytes hs

theorem loadSpare (hs : Keeps s u) {t p id h : Nat} : Keeps s (u.loadSpare t p id h) := by
  unfold State.loadSpare
  extract_lets s1 s2
  have hs1 : Keeps s s1 := .copyWindow hs
  exact .foldl (fun _ _ hs => .writeBytes hs) (.ite (.markRange (.markRange (.copyWindow hs1))) (.markRange hs1))

theorem moveTile (hs : Keeps s u) {t p : Nat} {warm : Bool} : Keeps s (u.moveTile t p warm) := by
  unfold State.moveTile
  extract_lets x y a b depth new old s1
  have hs1 : Keeps s s1 := .setTile (.setTile hs)
  exact .same hs1 (by rfl)

theorem replaceTile (hs : Keeps s u) {t p : Nat} : Keeps s (u.replaceTile t p) := by
  unfold State.replaceTile
  exact .repower (.modTile (.modRow (.rebind (.loadSpare (.moveTile (.moveWindow (.stopTile (.raise hs)))))) (by exact id)))

theorem failTile (hs : Keeps s u) {t : Nat} : Keeps s (u.failTile t) := by
  unfold State.failTile
  refine .ite hs ?_
  extract_lets s1
  have hs1 : Keeps s s1 := .modFaults hs
  split
  · exact .ite (.loseTile hs1) (.replaceTile hs1)
  · exact .loseTile hs1

theorem startCopy (hs : Keeps s u) {r : FaultReport} {n : Nat} : Keeps s (u.startCopy r n) := by
  unfold State.startCopy
  exact .modFaults hs

theorem remapLine (hs : Keeps s u) {r : FaultReport} {t : Nat} {b n line : Nat} {k : TileUnit} {full : State → State}
    (hfull : Keeps s u → Keeps s (full u)) : Keeps s (u.remapLine r t k b n line full) := by
  unfold State.remapLine
  exact .ite (hfull hs) (.startCopy (.raise (.modTile hs)))

theorem replaceBank (hs : Keeps s u) {r : FaultReport} {t b : Nat} : Keeps s (u.replaceBank r t b) := by
  unfold State.replaceBank
  exact .ite (.failTile hs) (.startCopy (.raise (.modTile hs)))

theorem retireWord (hs : Keeps s u) {r : FaultReport} {t o : Nat} {k : TileUnit} : Keeps s (u.retireWord r t k o) := by
  unfold State.retireWord
  exact .remapLine hs fun hs => .ite (.replaceBank hs) (.failTile hs)

theorem portDown (hs : Keeps s u) {p : Nat} : Keeps s (u.portDown p) := by
  unfold State.portDown
  exact .modEmPort hs

theorem retireEmeelLane (hs : Keeps s u) {p l : Nat} : Keeps s (u.retireEmeelLane p l) := by
  unfold State.retireEmeelLane
  refine .ite hs ?_
  extract_lets s1
  have hs1 : Keeps s s1 := .modEmPort hs
  exact .ite (.raise hs1) (.raise (.hit (.modEmPort (.portDown hs1))))

theorem retireStack (hs : Keeps s u) {k pc : Nat} : Keeps s (u.retireStack k pc) := by
  unfold State.retireStack
  refine .ite hs (.foldl (fun _ _ hs => ?_) (.raise (.modSump hs)))
  split
  · exact .raise hs
  · exact hs

theorem retireSumpLine (hs : Keeps s u) {a : Nat} : Keeps s (u.retireSumpLine a) := by
  unfold State.retireSumpLine
  exact .ite (.retireStack hs) (.raise (.count (.modSump hs)))

theorem retireLane (hs : Keeps s u) {l : Nat} : Keeps s (u.retireLane l) := by
  unfold State.retireLane
  exact .ite hs (.laneEventDown (.modLane (.endOpen hs)))

theorem retireUnit (hs : Keeps s u) {r : FaultReport} : Keeps s (u.retireUnit r) := by
  unfold State.retireUnit
  split
  · split
    · exact .ite hs (.failTile hs)
    · exact .raise (.modTile hs)
  · exact .failTile hs
  · exact .retireWord hs
  · exact .retireWord hs
  · exact .remapLine hs fun hs => .failTile hs
  · exact .ite hs (.ite (.failTile hs) (.raise (.modTile hs)))
  · exact .ite (.failTile hs) (.raise (.modTile hs))
  · exact .ite hs (.ite (.failTile hs) (.raise (.modTile hs)))
  · exact .raise (.modAdit hs)
  · exact .retireEmeelLane hs
  · exact .retireSumpLine hs
  · exact hs
  · exact .retireLane hs
  · exact .loseTile hs

theorem spareFailures (hs : Keeps s u) {fs : List FaultReport} : Keeps s (u.spareFailures fs) := by
  unfold State.spareFailures
  exact .foldl (fun _ _ hs => .settleRetire (.retireUnit hs)) hs

theorem endSelfTest (hs : Keeps s u) {c : Cmd} {fs : List FaultReport} : Keeps s (u.endSelfTest c fs) := by
  unfold State.endSelfTest
  extract_lets scope s1 s2 s3 n
  have hs1 : Keeps s s1 := .ite (.zeroTiles hs) hs
  have hs3 : Keeps s s3 := .repower (.selfTestEvents (.noteFailures (.spareFailures (.ite (.zeroRange hs1) hs1))))
  exact .ite (.finish hs3) (.complete hs3)

theorem testsDone (hs : Keeps s u) : Keeps s u.testsDone := by
  unfold State.testsDone
  exact .modFaults hs

theorem startFailures (hs : Keeps s u) {fs : List FaultReport} : Keeps s (u.startFailures fs) := by
  unfold State.startFailures
  exact .testsDone (.noteFailures (.modFaults (.spareFailures hs)))

theorem checkerSelfTestCompleteDo (hs : Keeps s u) {fs : List FaultReport} : Keeps s (Machine.checkerSelfTestCompleteDo
    fs u) := by
  unfold Machine.checkerSelfTestCompleteDo
  refine .ite ?_ (.repower (.startFailures (.bringUp hs (by rfl))))
  split
  · exact .endSelfTest hs
  · exact hs

theorem firmwareVerifiedDo (hs : Keeps s u) {error : Nat} : Keeps s (Machine.firmwareVerifiedDo error u) := by
  unfold Machine.firmwareVerifiedDo
  exact .ite (.modHost (.bringUp hs (by rfl))) (.bringUp hs (by rfl))

theorem sumpFillCompleteDo (hs : Keeps s u) : Keeps s (Machine.sumpFillCompleteDo u) := by
  unfold Machine.sumpFillCompleteDo
  exact .bringUp (.modSump (.zeroRange hs)) (by rfl)

theorem headframeReadyDo (hs : Keeps s u) : Keeps s (Machine.headframeReadyDo u) := by
  unfold Machine.headframeReadyDo
  extract_lets s1
  have hs1 : Keeps s s1 := .openClaim (.bringUp (.modHost hs) (by rfl))
  exact .modFaults (.selfTestEvents hs1)

theorem holdRows (hs : Keeps s u) : Keeps s u.holdRows := by
  unfold State.holdRows
  exact .upTo (fun _ _ hs => .modRow hs fun hx => hx.slowest) hs

theorem releaseRows (hs : Keeps s u) : Keeps s u.releaseRows := by
  unfold State.releaseRows
  exact .upTo (fun _ _ hs => .modRow hs fun hx => hx.slowest) hs

theorem thermalThrottle (hs : Keeps s u) {c : Nat} : Keeps s (u.thermalThrottle c) := by
  unfold State.thermalThrottle
  exact .ite (.ite hs (.raise (.holdRows (.hit (.modPower hs (by rfl)))))) (.ite (.releaseRows (.modPower hs (by rfl))) hs)

theorem thermalWarn (hs : Keeps s u) {c : Nat} : Keeps s (u.thermalWarn c) := by
  unfold State.thermalWarn
  extract_lets p above s0 s1
  have hs0 : Keeps s s0 := .modPower hs (by rfl)
  have hs1 : Keeps s s1 := .ite (.hit hs0) hs0
  exact .ite (.ite (.modPower hs1 (by rfl)) (.modPower (.raise hs1) (by rfl))) hs1

/-- The power-off leaves no byte of memory and no row powered. -/
theorem thermalOff (hs : Keeps s u) : Keeps s u.thermalOff := by
  refine hs.trans ⟨rfl, fun _ => rfl, fun ⟨hlen, hall⟩ => ⟨by rw [← hlen]; exact List.length_map _, fun x hx => ?_⟩⟩
  obtain ⟨y, hy, rfl⟩ := List.mem_map.1 hx
  exact hall y hy

theorem thermalSensorReadDo (hs : Keeps s u) {c : Nat} : Keeps s (Machine.thermalSensorReadDo c u) := by
  unfold Machine.thermalSensorReadDo
  extract_lets s1
  have hs1 : Keeps s s1 := .thermalThrottle (.thermalWarn hs)
  exact .ite (.thermalOff hs1) hs1

theorem parityError (hs : Keeps s u) {q : Nat} : Keeps s (u.parityError q) := by
  unfold State.parityError
  exact .raise (.count (.hit (.modBlock hs)))

theorem emeelLaneError (hs : Keeps s u) {p l : Nat} {lostLock : Bool} : Keeps s (u.emeelLaneError p l lostLock) := by
  unfold State.emeelLaneError
  extract_lets r s1
  have hs1 : Keeps s s1 := .occur hs
  exact .ite (.decideRetire hs1) hs1

theorem replay (hs : Keeps s u) {t key cause : Nat} : Keeps s (u.replay t key cause) := by
  unfold State.replay
  exact .ite hs (.foldl (fun _ _ hs => .boundary (.modTile (.stopTile hs))) hs)

theorem restoreLine (hs : Keeps s u) {t o : Nat} : Keeps s (u.restoreLine t o) := by
  unfold State.restoreLine
  exact .ite hs (.foldl (fun _ _ hs => .writeBytes hs) hs)

theorem replaceLost (hs : Keeps s u) {x : Pipe} {n : Nat} : Keeps s (u.replaceLost x n) := by
  unfold State.replaceLost
  split
  · exact .ite hs (.replaceCopies hs)
  · exact hs

theorem loseHeld (hs : Keeps s u) {t o : Nat} : Keeps s (u.loseHeld t o) := by
  unfold State.loseHeld
  refine .foldl (fun _ _ hs => ?_) hs
  refine .foldl (fun _ _ hs => ?_) (.countPipe (.modPipe hs))
  split
  · exact .countPipe (.replaceLost (.modHoist hs))
  · exact hs

theorem lostTileWord (hs : Keeps s u) {t : Nat} {y : TileUnit} {o key cause : Nat} : Keeps s (u.lostTileWord t y o key
    cause) := by
  unfold State.lostTileWord
  split
  · exact .restoreLine (.mustMiss hs)
  · exact .mustMiss hs
  · exact .replay hs
  · exact .replay hs
  · exact .replay hs
  · exact .replay hs
  · exact hs
  · exact hs
  · exact hs
  · exact .loseHeld hs

theorem retryNext (hs : Keeps s u) {r : FaultReport} : Keeps s (u.retryNext r) := by
  unfold State.retryNext
  exact .modFaults hs

theorem raiseFolded (hs : Keeps s u) {loc : Nat} {k : EvKind} {e : EvArgs} : Keeps s (u.raiseFolded loc k e) := by
  unfold State.raiseFolded
  extract_lets key
  split
  · exact .ite (.modFaults hs) (.modFaults (.raise hs))
  · exact .modFaults (.raise hs)

theorem corrected (hs : Keeps s u) {r : FaultReport} {t : Nat} {k : EvKind} {e : EvArgs} : Keeps s (u.corrected r t k e)
    := by
  unfold State.corrected
  exact .retryNext (.raiseFolded (.countTile hs))

theorem lostSumpWord (hs : Keeps s u) {a : Nat} {dual : Bool} : Keeps s (u.lostSumpWord a dual) := by
  unfold State.lostSumpWord
  extract_lets w other s1
  have hs1 : Keeps s s1 := .modSump hs
  exact .ite (.scramble (.scramble hs1)) (.ite (.count (.writeBytes hs1)) (.scramble hs1))

theorem respond (hs : Keeps s u) {r : FaultReport} {failed : Bool} : Keeps s (u.respond r failed) := by
  unfold State.respond
  extract_lets key cause
  split
  · exact .replay (.raise hs)
  · exact .replay (.raise hs)
  · exact .ite (.lostTileWord (.raise hs)) (.corrected hs)
  · exact .mustMiss (.raise hs)
  · exact .ite (.modThread (.mustMiss (.raise hs))) (.modThread (.corrected hs))
  · exact .ite hs (.ite (.corrected hs) (.replay hs))
  · extract_lets src e s1 fc
    have hs1 : Keeps s s1 := .raise hs
    refine .ite (.corrected hs) (.ite ?_ (.modSkip hs1))
    split
    · exact .replay hs1
    · exact hs1
  · exact .replay (.raise hs)
  · exact .ite (.lostSumpWord (.raise hs)) (.retryNext (.raiseFolded (.count hs)))
  · exact .ucieError hs
  · exact hs
  · exact hs
  · exact hs
  · exact .loseTile hs

theorem faultDetectionDo (hs : Keeps s u) {f : FaultReport} : Keeps s (Machine.faultDetectionDo f u) := by
  unfold Machine.faultDetectionDo
  refine .ite hs ?_
  split
  · exact .parityError hs
  · exact .ite (.laneLosesLockDo hs) (.occur hs)
  · exact .ucieError hs
  · exact .emeelLaneError hs
  · exact .respond (.occur hs)

theorem replayRestartDo (hs : Keeps s u) {t : Nat} : Keeps s (Machine.replayRestartDo t u) := by
  unfold Machine.replayRestartDo
  extract_lets s1
  have hs1 : Keeps s s1 := .foldl (fun _ _ hs => .boundary (.modTile hs)) hs
  exact .raise (.countTile hs1)

theorem retirementEffectDo (hs : Keeps s u) : Keeps s (Machine.retirementEffectDo u) := by
  unfold Machine.retirementEffectDo
  split
  · exact .settleRetire (.retireUnit hs)
  · exact hs

theorem retirementCopyCompleteDo (hs : Keeps s u) : Keeps s (Machine.retirementCopyCompleteDo u) := by
  unfold Machine.retirementCopyCompleteDo
  split
  · exact .modFaults hs
  · exact hs

theorem resend (hs : Keeps s u) {p : Nat} {fs : List Flit} : Keeps s (u.resend p fs) := by
  unfold State.resend
  exact .foldl (fun _ _ hs => .countPort (.emit hs)) hs

theorem portTrainingCompleteDo (hs : Keeps s u) {port lMeas : Nat} {neighbour : Option Nat} : Keeps s
    (Machine.portTrainingCompleteDo port lMeas neighbour u) := by
  unfold Machine.portTrainingCompleteDo
  exact .ite hs (.resend (.modEmPort hs))

theorem nak (hs : Keeps s u) {p : Nat} : Keeps s (u.nak p) := by
  unfold State.nak
  exact .modEmPort (.countPort (.emit hs))

theorem flitReceivedDo (hs : Keeps s u) {port : Nat} {f : Flit} {corrected : Nat} {crcOk : Bool} : Keeps s
    (Machine.flitReceivedDo port f corrected crcOk u) := by
  unfold Machine.flitReceivedDo
  extract_lets s1 x
  have hs1 : Keeps s s1 := .ite (.countPort hs) hs
  exact .ite (.nak hs1) (.ite (.countPort (.modEmPort hs1)) (.ite (.nak hs1) hs1))

theorem nakReceivedDo (hs : Keeps s u) {port seq : Nat} : Keeps s (Machine.nakReceivedDo port seq u) := by
  unfold Machine.nakReceivedDo
  exact .resend hs

theorem deliverSkip (hs : Keeps s u) {f : Flit} : Keeps s (u.deliverSkip f) := by
  unfold State.deliverSkip
  extract_lets k due n
  split
  · exact .modSkip hs
  · exact .modSkip hs
  · exact .modSkip hs
  · exact hs

theorem deliverCredit (hs : Keeps s u) {dest dev n : Nat} : Keeps s (u.deliverCredit dest dev n) := by
  unfold State.deliverCredit
  split
  · exact .modSkip hs
  · exact hs

theorem deliverMemory (hs : Keeps s u) {f : Flit} : Keeps s (u.deliverMemory f) := by
  unfold State.deliverMemory
  exact .ite hs (.ite (.writeBytes hs) (.sendFlit hs))

theorem memberStatus (hs : Keeps s u) {v : Nat} : Keeps s (u.memberStatus v) := by
  unfold State.memberStatus
  extract_lets s1 s2
  have hs2 : Keeps s s2 := .modEmeel (.ite (.modEmeel hs) hs)
  exact .ite (.raise (.modEmeel hs2)) hs2

theorem enableDomain (hs : Keeps s u) {d : Nat} {on : Bool} : Keeps s (u.enableDomain d on) := by
  unfold State.enableDomain
  refine .ite ?_ (.ite (.modDom hs) hs)
  extract_lets start own s1
  have hs1 : Keeps s s1 := .modDom hs
  exact .ite (.emit hs1) hs1

theorem copyWrite (hs : Keeps s u) {o : Nat} {v : Word} : Keeps s (u.copyWrite o v) := by
  unfold State.copyWrite
  refine .ite (.modEmeel hs) (.ite (.modEmeel hs) (.ite ?_ hs))
  extract_lets d
  split
  · exact .enableDomain hs
  · exact .modDom hs
  · exact .modDom hs
  · exact hs

theorem tickRejected (hs : Keeps s u) {d : Nat} : Keeps s (u.tickRejected d) := by
  unfold State.tickRejected
  exact .raise hs

theorem copyToMembers (hs : Keeps s u) {offset : Nat} {v : Word} : Keeps s (u.copyToMembers offset v) := by
  unfold State.copyToMembers
  exact .ite (.foldl (fun _ _ hs => .sendFlit hs) hs) hs

theorem writeTickCfg (hs : Keeps s u) {d : Nat} {v : Word} : Keeps s (u.writeTickCfg d v) := by
  unfold State.writeTickCfg
  refine .ite (.tickRejected hs) ?_
  extract_lets s1 s2
  have hs2 : Keeps s s2 := .enableDomain (.modDom hs)
  exact .ite (.copyToMembers hs2) hs2

theorem writeTickPeriod (hs : Keeps s u) {d : Nat} {v : Word} : Keeps s (u.writeTickPeriod d v) := by
  unfold State.writeTickPeriod
  refine .ite (.tickRejected hs) ?_
  extract_lets s1
  have hs1 : Keeps s s1 := .modDom hs
  exact .ite (.copyToMembers hs1) hs1

theorem writeTickTol (hs : Keeps s u) {d : Nat} {v : Word} : Keeps s (u.writeTickTol d v) := by
  unfold State.writeTickTol
  refine .ite (.tickRejected hs) ?_
  extract_lets s1
  have hs1 : Keeps s s1 := .modDom hs
  exact .ite (.copyToMembers hs1) hs1

theorem lockViolation (hs : Keeps s u) {k offset : Nat} {value : Word} : Keeps s (u.lockViolation k offset value) := by
  unfold State.lockViolation
  exact .raise (.hit (.modHost hs))

theorem writeKey (hs : Keeps s u) {o : Nat} {v : Word} : Keeps s (u.writeKey o v) := by
  unfold State.writeKey
  exact .ite (.ite (.lockViolation hs) (.modHost hs)) hs

theorem writeLockSet (hs : Keeps s u) {v : Word} : Keeps s (u.writeLockSet v) := by
  unfold State.writeLockSet
  exact .modHost hs

theorem writeSecure (hs : Keeps s u) {v : Word} : Keeps s (u.writeSecure v) := by
  unfold State.writeSecure
  exact .ite (.lockViolation hs) (.modHost hs)

theorem writeFaultCfg (hs : Keeps s u) {v : Word} : Keeps s (u.writeFaultCfg v) := by
  unfold State.writeFaultCfg
  exact .ite hs (.modFaults hs)

theorem hfWrite (hs : Keeps s u) {o : Nat} {v : Word} : Keeps s (u.hfWrite o v) := by
  unfold State.hfWrite
  refine .ite ?_ (.ite (.ite (.modClaim hs) hs) (.ite (.writeKey hs) ?_))
  · extract_lets d
    split
    · exact .writeTickCfg hs
    · exact .writeTickPeriod hs
    · exact .writeTickTol hs
    · exact .modDom hs
    · exact hs
  · split
    · exact .writeLockSet hs
    · exact .modHost hs
    · exact .writeSecure hs
    · exact .writeFaultCfg hs
    · exact .modFaults hs
    · exact hs

theorem shWrite (hs : Keeps s u) {o : Nat} {v : Word} : Keeps s (u.shWrite o v) := by
  unfold State.shWrite
  exact .ite (.ite (.modSkip hs) (.ite (.modSkip hs) hs)) hs

theorem stWrite (hs : Keeps s u) {o : Nat} {v : Word} : Keeps s (u.stWrite o v) := by
  unfold State.stWrite
  exact .ite (.modTile hs) hs

theorem quadRejected (hs : Keeps s u) {addr : Nat} : Keeps s (u.quadRejected addr) := by
  unfold State.quadRejected
  exact .raise hs

theorem retrainQuad (hs : Keeps s u) {q : Nat} : Keeps s (u.retrainQuad q) := by
  unfold State.retrainQuad
  exact .forgetSeq (.foldl (fun _ _ hs => .modLane (.endOpen hs)) hs)

theorem writeQuadCfg (hs : Keeps s u) {q : Nat} {v : Word} : Keeps s (u.writeQuadCfg q v) := by
  unfold State.writeQuadCfg
  exact .ite (.ite hs (.quadRejected hs)) (.ite (.quadRejected hs) (.retrainQuad (.modQuad hs)))

theorem writeChmap (hs : Keeps s u) {q : Nat} {v : Word} : Keeps s (u.writeChmap q v) := by
  unfold State.writeChmap
  exact .ite (.quadRejected hs) (.modQuad hs)

theorem writeLvds (hs : Keeps s u) {i : Nat} {v : Word} : Keeps s (u.writeLvds i v) := by
  unfold State.writeLvds
  exact .modAdit hs

theorem writeDecLine (hs : Keeps s u) {l : Nat} {v : Word} : Keeps s (u.writeDecLine l v) := by
  unfold State.writeDecLine
  exact .ite (.quadRejected hs) (.modLine hs)

theorem writeEth (hs : Keeps s u) {p i : Nat} {v : Word} : Keeps s (u.writeEth p i v) := by
  unfold State.writeEth
  exact .modAdit hs

theorem adWrite (hs : Keeps s u) {o : Nat} {v : Word} : Keeps s (u.adWrite o v) := by
  unfold State.adWrite
  refine .ite ?_ (.ite (.ite (.writeLvds hs) hs) (.ite (.ite (.writeDecLine hs) hs) (.ite (.writeEth hs) hs)))
  extract_lets q
  split
  · exact .writeQuadCfg hs
  · exact .writeChmap hs
  · exact .modQuad hs
  · exact hs

theorem rdWrite (hs : Keeps s u) {o : Nat} {v : Word} : Keeps s (u.rdWrite o v) := by
  unfold State.rdWrite
  refine .ite ?_ hs
  extract_lets q
  split
  · exact .ite (.modBlock hs) hs
  · exact .modBlock hs
  · exact hs

theorem spRejected (hs : Keeps s u) : Keeps s u.spRejected := by
  unfold State.spRejected
  exact .raise hs

theorem writeHoistCfg (hs : Keeps s u) {h : Nat} {v : Word} : Keeps s (u.writeHoistCfg h v) := by
  unfold State.writeHoistCfg
  exact .ite (.spRejected hs) (.modHoist hs)

theorem writeArbCfg (hs : Keeps s u) {v : Word} : Keeps s (u.writeArbCfg v) := by
  unfold State.writeArbCfg
  exact .ite (.spRejected hs) (.modSump hs)

theorem spWrite (hs : Keeps s u) {o : Nat} {v : Word} : Keeps s (u.spWrite o v) := by
  unfold State.spWrite
  refine .ite (.ite (.modClaim hs) hs) (.ite (.ite (.writeHoistCfg hs) hs) ?_)
  split
  · exact .writeArbCfg hs
  · exact .modSump hs
  · exact hs

theorem retrainPort (hs : Keeps s u) {p : Nat} : Keeps s (u.retrainPort p) := by
  unfold State.retrainPort
  exact .ite (.raise hs) (.portDown hs)

theorem writePortCfg (hs : Keeps s u) {p : Nat} {v : Word} : Keeps s (u.writePortCfg p v) := by
  unfold State.writePortCfg
  extract_lets s1 s2
  have hs1 : Keeps s s1 := .modEmPort hs
  have hs2 : Keeps s s2 := .ite hs1 (.portDown hs1)
  exact .ite (.retrainPort hs2) hs2

theorem windowFails (hs : Keeps s u) {write : Bool} : Keeps s (u.windowFails write) := by
  unfold State.windowFails
  extract_lets s1
  have hs1 : Keeps s s1 := .raise (.modEmeel hs)
  exact .ite hs1 (.emit hs1)

theorem windowAccess (hs : Keeps s u) {write : Bool} {o : Nat} {v : Word} : Keeps s (u.windowAccess write o v) := by
  unfold State.windowAccess
  refine .ite (.ite hs (.emit hs)) ?_
  extract_lets dev at_
  split
  · exact .windowFails hs
  · exact .ite (.windowFails hs) (.sendFlit (.emit (.modEmeel hs)))

theorem forwardToken (hs : Keeps s u) {x y : Nat} : Keeps s (u.forwardToken x y) := by
  unfold State.forwardToken
  extract_lets xs ys s1
  have hs1 : Keeps s s1 := .ite (.emit hs) hs
  exact .ite (.emit hs1) hs1

theorem enumerateMesh (hs : Keeps s u) : Keeps s u.enumerateMesh := by
  unfold State.enumerateMesh
  exact .ite (.forwardToken (.modEmeel hs)) hs

theorem writeMeshCfg (hs : Keeps s u) {v : Word} : Keeps s (u.writeMeshCfg v) := by
  unfold State.writeMeshCfg
  refine .ite ?_ hs
  extract_lets s1
  have hs1 : Keeps s s1 := .modEmeel hs
  exact .ite (.enumerateMesh hs1) hs1

theorem writeTickFollow (hs : Keeps s u) {v : Word} : Keeps s (u.writeTickFollow v) := by
  unfold State.writeTickFollow
  refine .ite ?_ hs
  extract_lets s1
  have hs1 : Keeps s s1 := .modEmeel hs
  exact .copyToMembers hs1

theorem emWrite (hs : Keeps s u) {o : Nat} {v : Word} : Keeps s (u.emWrite o v) := by
  unfold State.emWrite
  refine .ite ?_ (.ite (.windowAccess hs) ?_)
  · extract_lets p
    split
    · exact .writePortCfg hs
    · exact .modEmPort hs
    · exact hs
  · split
    · exact .writeMeshCfg hs
    · exact .modEmeel hs
    · exact .writeTickFollow hs
    · exact .modEmeel hs
    · exact hs

theorem pwRejected (hs : Keeps s u) : Keeps s u.pwRejected := by
  unfold State.pwRejected
  exact .raise hs

theorem writeTdp (hs : Keeps s u) {v : Word} : Keeps s (u.writeTdp v) := by
  unfold State.writeTdp
  exact .ite (.lockViolation hs) (.ite (.pwRejected hs) (.reshare (.modPower hs (by rfl))))

theorem writeThermal (hs : Keeps s u) {v : Word} : Keeps s (u.writeThermal v) := by
  unfold State.writeThermal
  exact .ite (.pwRejected hs) (.modPower hs (by rfl))

theorem writeDroop (hs : Keeps s u) {v : Word} : Keeps s (u.writeDroop v) := by
  unfold State.writeDroop
  exact .ite (.pwRejected hs) (.modPower hs (by rfl))

theorem pwWrite (hs : Keeps s u) {o : Nat} {v : Word} : Keeps s (u.pwWrite o v) := by
  unfold State.pwWrite
  refine .ite (.modRow hs (by exact id)) ?_
  split
  · exact .writeTdp hs
  · exact .writeThermal hs
  · exact .modPower hs (by rfl)
  · exact .writeDroop hs
  · exact hs

theorem counterSet (hs : Keeps s u) {jtag : Bool} {o : Nat} {v : Word} : Keeps s (u.counterSet jtag o v) := by
  unfold State.counterSet
  exact .modDebug hs

theorem counterStage (hs : Keeps s u) {jtag : Bool} {o : Nat} {v : Word} : Keeps s (u.counterStage jtag o v) := by
  unfold State.counterStage
  exact .modDebug hs

theorem unlockRejected (hs : Keeps s u) : Keeps s u.unlockRejected := by
  unfold State.unlockRejected
  exact .raise hs

theorem whenOpen {w : State} (hs : Keeps s u) (hw : Keeps s w) : Keeps s (u.whenOpen w) := by
  unfold State.whenOpen
  exact .ite hw (.unlockRejected hs)

theorem submit (hs : Keeps s u) : Keeps s u.submit := by
  unfold State.submit
  exact .ite hs (.modDebug hs)

theorem askHalt (hs : Keeps s u) {t th : Nat} : Keeps s (u.askHalt t th) := by
  unfold State.askHalt
  exact .modThread hs

theorem resumeThread (hs : Keeps s u) {t th : Nat} : Keeps s (u.resumeThread t th) := by
  unfold State.resumeThread
  exact .ite (.modThread (.ite (.abortThread hs) hs)) (.modThread hs)

theorem stepThread (hs : Keeps s u) {t th : Nat} : Keeps s (u.stepThread t th) := by
  unfold State.stepThread
  exact .modThread hs

theorem haltNow (hs : Keeps s u) {t th : Nat} {broken : Bool} : Keeps s (u.haltNow t th broken) := by
  unfold State.haltNow
  extract_lets s1
  have hs1 : Keeps s s1 := .modThread hs
  exact .raise hs1

theorem haltForced (hs : Keeps s u) {t th : Nat} : Keeps s (u.haltForced t th) := by
  unfold State.haltForced
  exact .ite (.haltNow (.hit (.modDebug (.breakLock hs)))) (.haltNow hs)

theorem forceThread (hs : Keeps s u) {t th : Nat} : Keeps s (u.forceThread t th) := by
  unfold State.forceThread
  exact .ite (.haltForced hs) hs

theorem writeHaltCtrl (hs : Keeps s u) {v : Word} : Keeps s (u.writeHaltCtrl v) := by
  unfold State.writeHaltCtrl
  extract_lets id ths cmd s1 t act
  have hs1 : Keeps s s1 := .modDebug hs
  have hact {f : State → Nat → Nat → State} (hf : ∀ {v t th}, Keeps s v → Keeps s (f v t th)) : Keeps s (act f) :=
    .upTo (fun _ _ hs => .ite (hf hs) hs) hs1
  exact .ite hs1 (.ite (.unlockRejected hs1) (.ite (hact fun hv => .askHalt hv) (.ite (hact fun hv => .resumeThread hv)
    (.ite (hact fun hv => .stepThread hv) (hact fun hv => .forceThread hv)))))

theorem dbWrite (hs : Keeps s u) {jtag : Bool} {o : Nat} {v : Word} : Keeps s (u.dbWrite jtag o v) := by
  unfold State.dbWrite
  refine .ite (.ite hs (.ite (.counterSet hs) (.counterStage hs))) (.ite (.modDebug hs)
    (.ite (.whenOpen hs (.modDebug hs)) (.ite (.whenOpen hs (.modDebug hs)) ?_)))
  split
  · exact .ite (.submit hs) hs
  · exact .writeHaltCtrl hs
  · exact .modDebug hs
  · exact .modDebug hs
  · exact hs

theorem regWrite (hs : Keeps s u) {jtag : Bool} {o : Nat} {w : Word} : Keeps s (u.regWrite jtag o w) := by
  unfold State.regWrite
  extract_lets r v
  split
  · exact .hfWrite hs
  · exact .shWrite hs
  · exact .stWrite hs
  · exact .adWrite hs
  · exact .rdWrite hs
  · exact .spWrite hs
  · exact .emWrite hs
  · exact .pwWrite hs
  · exact .dbWrite hs
  · exact hs

theorem regLatch (hs : Keeps s u) {jtag : Bool} {o : Nat} : Keeps s (u.regLatch jtag o) := by
  unfold State.regLatch
  exact .ite (.modDom hs) (.ite (.modClaim hs) (.ite (.modHost hs) (.ite (.modFaults hs) (.ite (.modEmeel hs) (.ite
      (.modDebug hs) hs)))))

theorem deliverRegister (hs : Keeps s u) {f : Flit} : Keeps s (u.deliverRegister f) := by
  unfold State.deliverRegister
  refine .ite (.memberStatus hs) (.ite (.copyWrite hs) (.ite ?_ (.ite (.sendFlit (.regWrite hs)) (.sendFlit (.regLatch
      hs)))))
  split
  · refine .ite ?_ hs
    extract_lets s1
    have hs1 : Keeps s s1 := .modEmeel hs
    exact .ite hs1 (.emit hs1)
  · exact hs

theorem remoteMap (hs : Keeps s u) {entry : BitVec 512} : Keeps s (u.remoteMap entry) := by
  unfold State.remoteMap
  extract_lets c t big n cva units x answer
  have hanswer {v : State} (hv : Keeps s v) {i addr reason : Nat} : Keeps s (answer v i addr reason) := .sendFlit hv
  refine .ite (hanswer hs) (.ite (hanswer hs) (.ite (hanswer hs) (.ite (hanswer hs) ?_)))
  split
  · exact hanswer hs
  next hplan =>
    exact .foldl (fun _ _ hs => hanswer hs) (.foldl (fun _ _ hs => .markRange hs) (.modClaim (.install (.planPages hs
        hplan))))

theorem serveRing (hs : Keeps s u) {claim ring n addr : Nat} : Keeps s (u.serveRing claim ring n addr) := by
  unfold State.serveRing
  exact .repin (.modRing hs)

theorem mapAnswer (hs : Keeps s u) {dev : Nat} {p : BitVec 512} : Keeps s (u.mapAnswer dev p) := by
  unfold State.mapAnswer
  extract_lets seq
  split
  · exact hs
  · exact .ite hs (.ite (.fail hs) (.modCmd hs))

theorem deliverCommand (hs : Keeps s u) {f : Flit} : Keeps s (u.deliverCommand f) := by
  unfold State.deliverCommand
  extract_lets t
  split
  · exact .ite (.openClaim hs) (.ite (.ite (.sendFlit hs) (.resetClaim hs)) (.ite (.remoteMap hs) (.ite (.serveRing hs)
        (.closeClaim hs))))
  · exact .mapAnswer hs
  · exact .modEmeel hs
  · exact .modHost hs

theorem deliverHere (hs : Keeps s u) {f : Flit} : Keeps s (u.deliverHere f) := by
  unfold State.deliverHere
  split
  · exact .deliverSkip hs
  · exact .deliverSkip hs
  · exact .deliverSkip hs
  · exact .deliverCredit hs
  · exact .ite (.tickMessageDo hs) hs
  · exact .deliverMemory hs
  · exact .deliverRegister hs
  · exact .deliverCommand hs

theorem deliver1 (hs : Keeps s u) {f : Flit} : Keeps s (u.deliver1 f) := by
  unfold State.deliver1
  exact .ite (.deliverHere hs) (.sendFlit hs)

theorem flitDeliveryDo (hs : Keeps s u) {port : Nat} : Keeps s (Machine.flitDeliveryDo port u) := by
  unfold Machine.flitDeliveryDo
  split
  · exact hs
  · extract_lets s1 cause s2 s3
    have hs1 : Keeps s s1 := .modEmPort hs
    have hs2 : Keeps s s2 := .raise (.countPort (.hit (.modEmPort hs1)))
    exact .ite (.deliver1 (.ite (.modTile hs2) hs2)) (.deliver1 hs1)

theorem reportStatus (hs : Keeps s u) {v : Nat} : Keeps s (u.reportStatus v) := by
  unfold State.reportStatus
  exact .sendFlit hs

theorem idTokenReceivedDo (hs : Keeps s u) {port x y xSize ySize : Nat} : Keeps s (Machine.idTokenReceivedDo port x y
    xSize ySize u) := by
  unfold Machine.idTokenReceivedDo
  refine .ite ?_ (.ite hs (.emit (.forwardToken (.modPower (.modEmeel hs) (by rfl)))))
  extract_lets s1
  have hs1 : Keeps s s1 := .hit (.modEmeel hs)
  exact .ite (.raise (.modEmeel hs1)) (.reportStatus hs1)

theorem deviceReportDo (hs : Keeps s u) {id latency : Nat} : Keeps s (Machine.deviceReportDo id latency u) := by
  unfold Machine.deviceReportDo
  extract_lets s1 n s2
  have hs1 : Keeps s s1 := .modEmeel hs
  exact .ite (.copyToMembers (.copyToMembers (.modEmeel hs1))) hs1

theorem meshTimeCorrectionDo (hs : Keeps s u) {offset : ℤ} : Keeps s (Machine.meshTimeCorrectionDo offset u) := by
  unfold Machine.meshTimeCorrectionDo
  extract_lets s1
  have hs1 : Keeps s s1 := .modEmeel hs
  exact .ite (.reportStatus (.modEmeel hs1)) hs1

theorem bar0 {w : State} (hs : Keeps s u) (hw : Keeps s w) : Keeps s (u.bar0 w) := by
  unfold State.bar0
  exact .ite hw hs

theorem remoteAccessTimeoutDo (hs : Keeps s u) : Keeps s (Machine.remoteAccessTimeoutDo u) := by
  unfold Machine.remoteAccessTimeoutDo
  split
  · exact .windowFails hs
  · exact hs

theorem readBar0 (hs : Keeps s u) {o : Nat} : Keeps s (u.readBar0 o) := by
  unfold State.readBar0
  exact .emit (.ite (.regLatch hs) hs)

theorem counterLowReadDo (hs : Keeps s u) {jtag : Bool} {offset : Nat} : Keeps s (Machine.counterLowReadDo jtag offset u)
    := by
  unfold Machine.counterLowReadDo
  exact .ite (.modDebug (.regLatch hs)) (.readBar0 hs)

theorem unlockCheckCompleteDo (hs : Keeps s u) : Keeps s (Machine.unlockCheckCompleteDo u) := by
  unfold Machine.unlockCheckCompleteDo
  extract_lets s1
  have hs1 : Keeps s s1 := .modDebug hs
  exact .ite (.modDebug hs1) (.newNonce (.modDebug (.unlockRejected hs1)))

theorem dbaccDo (hs : Keeps s u) {value : DWord} : Keeps s (Machine.dbaccDo value u) := by
  unfold Machine.dbaccDo
  exact .ite (.ite (.modDebug (.regWrite hs)) (.modDebug (.regLatch hs))) (.draw (.modDebug hs))

theorem pcieWrite (hs : Keeps s u) {f o : Nat} {w : Word} : Keeps s (u.pcieWrite f o w) := by
  unfold State.pcieWrite
  refine .ite hs ?_
  split
  · exact .ite (.upTo (fun _ _ hs => .modClaim hs) hs) hs
  · exact .upTo (fun _ _ hs => .ite (.emit hs) hs) (.modClaim hs)
  · exact .ite (.modClaim hs) hs
  · exact hs

theorem bar2Write (hs : Keeps s u) {claim ring o : Nat} {w : Word} : Keeps s (u.bar2Write claim ring o w) := by
  unfold State.bar2Write
  exact .ite (.modRing hs) hs

theorem pairEdge {w : State} (hw : Keeps s w) {tree i : Nat} {rise fall : Bool} : Keeps s (u.pairEdge w tree i rise fall)
    := by
  unfold State.pairEdge
  exact .ite hw (.ite (.modRiddle hw) (.modRiddle hw))

theorem blockEdge {w : State} (hw : Keeps s w) {q tree : Nat} : Keeps s (u.blockEdge w q tree) := by
  unfold State.blockEdge
  extract_lets b ms bad port reset w1 w2 w3 n c1 c2
  have hw2 : Keeps s w2 := .upTo (fun _ _ hs => .raise (.count hs)) (.modBlock hw)
  have hw3 : Keeps s w3 := .ite (.upTo (fun _ _ hs => .abortOutput hs) hw2) hw2
  refine .ite hw ?_
  split
  · exact .ite (.modBlock hw3) hw3
  · exact hw3

theorem treeRisingEdgeDo (hs : Keeps s u) {tree : Nat} {rise fall : Byte} : Keeps s (Machine.treeRisingEdgeDo tree rise
    fall u) := by
  unfold Machine.treeRisingEdgeDo
  exact .upTo (fun _ _ hs => .pairEdge hs) (.upTo (fun _ _ hs => .blockEdge hs) hs)

theorem treeFrequencyUpdateDo (hs : Keeps s u) {kilohertz : List (BitVec 20)} : Keeps s (Machine.treeFrequencyUpdateDo
    kilohertz u) := by
  unfold Machine.treeFrequencyUpdateDo
  exact .modRiddle hs

end Keeps

/-- Whatever state the outcome gives, it is one that `s` keeps its queue and its invariants to. -/
def KeepsNext (s : State) (r : Result) : Prop := ∀ u, r = .next u → Keeps s u

namespace KeepsNext
variable {s u : State}

theorem next (hs : Keeps s u) : KeepsNext s (.next u) := fun _ h => Host.Outcome.next.inj h ▸ hs

theorem fault {f : Fault} : KeepsNext s (.fault f) := fun _ h => nomatch h

theorem ite {c : Prop} [Decidable c] {a b : Result} (ha : KeepsNext s a) (hb : KeepsNext s b) :
    KeepsNext s (if c then a else b) := by
  split
  · exact ha
  · exact hb

theorem whenDue_of {ok : Bool} (hs : ok = true → Keeps s u) : KeepsNext s (Machine.whenDue ok u) := by
  intro w hw
  obtain ⟨hok, rfl⟩ := (whenDue_next _ _ _).1 hw
  exact hs hok

theorem whenDue {ok : Bool} (hs : Keeps s u) : KeepsNext s (Machine.whenDue ok u) := whenDue_of fun _ => hs

theorem whenValid {ok : Bool} (hs : Keeps s u) : KeepsNext s (Machine.whenValid ok u) := by
  intro w hw
  obtain ⟨-, rfl⟩ := (whenValid_next _ _ _).1 hw
  exact hs

theorem hostCmd {seq op : Nat} {f : Cmd → State → State} (hf : ∀ c, Keeps s (f c s)) : KeepsNext s (s.hostCmd seq op f)
    := by
  intro w hw
  obtain ⟨c, -, rfl⟩ := (hostCmd_next _ _ _ _ _).1 hw
  exact hf c

theorem instr {t th op : Nat} {body : Nat → State → State} (hbody : ∀ {w v}, Keeps s v → Keeps s (body w v)) :
    KeepsNext s (s.instr t th op body) :=
  ite (next (Keeps.issueWord (Keeps.refl s) hbody)) fault

theorem execRowClockStepDown {row : Nat} : KeepsNext s (Machine.execRowClockStepDown row s) :=
  whenDue_of fun hok => by
    simp only [Bool.and_eq_true, decide_eq_true_eq] at hok
    obtain ⟨⟨-, hk⟩, -⟩ := hok
    refine (Keeps.refl s).modRow fun hx => ⟨show 12 ≤ (s.row row).k - 1 by omega, ?_, hx.2.2⟩
    exact (Nat.sub_le _ _).trans hx.2.1

theorem execRowClockStepUp {row : Nat} : KeepsNext s (Machine.execRowClockStepUp row s) :=
  whenDue_of fun hok => by
    simp only [Bool.and_eq_true, decide_eq_true_eq] at hok
    obtain ⟨⟨-, hk⟩, -⟩ := hok
    exact (Keeps.refl s).modRow fun hx => ⟨hx.1.trans (Nat.le_succ _), hk, hx.2.2⟩

theorem execFn {t th : Nat} : KeepsNext s (Machine.execFn t th s) := by
  refine .instr fun hs => ?_
  extract_lets a d fc s1 f s2
  have hs1 : Keeps s s1 := .noteTileRead hs
  have hs2 : Keeps s s2 := .modTile hs1
  exact .ite (.mustMiss (.raise hs1)) (.startUnits (.ite (.beginWait hs2) hs2))

theorem execOq {t th : Nat} : KeepsNext s (Machine.execOq t th s) := by
  refine .instr fun hs => ?_
  extract_lets fc p m fits s1
  have hs1 : Keeps s s1 := .portFills hs
  exact .ite (.startUnits (.enterMac hs)) (.ite (.widthMismatch hs)
    (.ite (.creditViolation hs1) (.startUnits (.enterMac (.modPort (.portUse hs1))))))

theorem execUnmap {seq : Nat} : KeepsNext s (Machine.execUnmap seq s) := by
  unfold Machine.execUnmap
  split
  · exact .ite .fault (.hostCmd fun _ => .unmapDo (.refl s))
  · exact .fault

theorem execUnload {seq : Nat} : KeepsNext s (Machine.execUnload seq s) := by
  unfold Machine.execUnload
  split
  · exact .ite .fault (.hostCmd fun _ => .unloadDo (.refl s))
  · exact .fault

theorem execHoist {seq : Nat} : KeepsNext s (Machine.execHoist seq s) := by
  unfold Machine.execHoist
  split
  · exact .ite .fault (.hostCmd fun _ => .hoistDo (.refl s))
  · exact .fault

theorem execResume {seq : Nat} : KeepsNext s (Machine.execResume seq s) := by
  unfold Machine.execResume
  split
  · exact .ite .fault (.hostCmd fun _ => .resumeDo (.refl s))
  · exact .fault

theorem execFenceCommand {seq : Nat} : KeepsNext s (Machine.execFenceCommand seq s) := by
  unfold Machine.execFenceCommand
  split
  · exact .ite (.hostCmd fun _ => .complete (.refl s)) .fault
  · exact .fault

end KeepsNext

/-- Every command keeps the queue and both invariants. -/
theorem exec_keepsNext (i : Instr) (s : State) : KeepsNext s (exec i s) := by
  have hs := Keeps.refl s
  cases i with
  | tick => exact .whenDue (.tickDo hs)
  | tickInserted => exact .whenDue (.tickInsertedDo hs)
  | internalGeneratorTick => exact .whenDue (.internalGeneratorTickDo hs)
  | followedTick => exact .whenDue (.followedTickDo hs)
  | tickMessage => exact .whenDue (.tickMessageDo hs)
  | captureTimeout => exact .whenDue (.captureTimeoutDo hs)
  | tickMarkArrival => exact .whenDue (.tickMarkArrivalDo hs)
  | slotMarkArrival => exact .whenDue (.slotMarkArrivalDo hs)
  | decisionWordTransmit => exact .whenDue (.decisionWordTransmitDo hs)
  | lvdsTickEdge => exact .whenValid (.lvdsTickEdgeDo hs)
  | frameStart => exact .whenDue (.frameStartDo hs)
  | dataBlock => exact .whenDue (.dataBlockDo hs)
  | frameEnd => exact .whenDue (.frameEndDo hs)
  | tickBlock => exact .whenDue (.tickBlockDo hs)
  | idle => exact .whenValid hs
  | align => exact .whenValid hs
  | uncorrectableCodeword => exact .whenDue (.uncorrectableCodewordDo hs)
  | laneLosesLock => exact .whenDue (.laneLosesLockDo hs)
  | laneRegainsLock => exact .whenDue (.laneRegainsLockDo hs)
  | ethernetFrame => exact .whenDue (.ethernetFrameDo hs)
  | pauseExpiry => exact .whenDue (.modLane hs)
  | mirrorWindowEnd => exact .whenDue (.mirrorWindowEndDo hs)
  | frameArrival => exact .whenDue (.frameArrivalDo hs)
  | ingestPush => exact .whenDue (.ingestPushDo hs)
  | scatterDrain => exact .whenDue (.scatterDrainDo hs)
  | zeroFillPush => exact .whenDue (.zeroFillPushDo hs)
  | deadlineFillPush => exact .whenDue (.placeFills hs)
  | transmitPacket => exact .whenDue (.transmitPacketDo hs)
  | uciePacketReceived => exact .whenValid (.uciePacketReceivedDo hs)
  | riddleInputWord => exact .whenDue (.riddleInputWordDo hs)
  | riddleOutputWord => exact .whenDue (.riddleOutputWordDo hs)
  | riddleEofDeadline => exact .whenDue (.riddleEofDeadlineDo hs)
  | riddleConfigReadback => exact .whenDue (.riddleConfigReadbackDo hs)
  | riddleRepairComplete => exact .whenDue (.riddleRepairCompleteDo hs)
  | rdBlockReset => exact .whenValid (.modBlock hs)
  | captureEdge => exact .whenDue (.captureEdgeDo hs)
  | nop => exact .instr fun hs => hs
  | halt => exact .instr fun hs => .modThread hs
  | brk => exact .instr fun hs => .ite (.breakHalt hs) hs
  | fn => exact .execFn
  | loop => exact .instr fun hs => .modRegs hs
  | lidx => exact .instr fun hs => .setG hs
  | waittick => exact .instr fun hs => .beginWait hs
  | slot => exact .instr fun hs => .ite (.beginWait hs) (.ite (.countTile hs) (.beginWait hs))
  | bell => exact .instr fun hs => .ite (.beginWait hs) (.bellSend hs)
  | waitbell => exact .instr fun hs => .modThread (.takeBell hs)
  | pop => exact .instr fun hs => .ite (.popBlock hs) (.popRegister hs)
  | peek => exact .instr fun hs => .popRegister hs
  | push => exact .instr fun hs => .ite (.pushBlock hs) (.pushRegister hs)
  | commit => exact .instr fun hs => .ite (.takeCheckpoint (.foldl (fun _ _ hs => .commitPort hs) hs)) (.modThread
      (.commitPort hs))
  | drop => exact .instr fun hs => .modSkip hs
  | waitq => exact .instr fun hs => .ite hs (.ite (.modThread hs) (.beginWait hs))
  | qstat => exact .instr fun hs => .setG hs
  | ld => exact .instr fun hs => .scratchLoad hs
  | st => exact .instr fun hs => .scratchStore hs
  | ldv => exact .instr fun hs => .scratchLoad hs
  | stv => exact .instr fun hs => .scratchStore hs
  | fence => exact .instr fun hs => .ite (.beginWait hs) hs
  | lock => exact .instr fun hs => .scratchAccess hs fun hv => .beginWait (.modTile hv)
  | unlock => exact .instr fun hs => .scratchAccess hs fun hv => .ite (.modThread hv) (.freeLock hv)
  | mms => exact .instr fun hs => .enterMac hs
  | wcs => exact .instr fun hs => .enterMac hs
  | grs => exact .instr fun hs => .modRegs hs
  | rq => exact .instr fun hs => .startUnits (.enterMac hs)
  | oq => exact .execOq
  | vadd => exact .instr fun hs => .vLaneOp hs
  | vsub => exact .instr fun hs => .vLaneOp hs
  | vmul => exact .instr fun hs => .vLaneOp hs
  | vmax => exact .instr fun hs => .vLaneOp hs
  | vmin => exact .instr fun hs => .vLaneOp hs
  | vcsel => exact .instr fun hs => .vLaneOp hs
  | vshl => exact .instr fun hs => .vLaneOp hs
  | vshr => exact .instr fun hs => .vLaneOp hs
  | vand => exact .instr fun hs => .vLaneOp hs
  | vor => exact .instr fun hs => .vLaneOp hs
  | vxor => exact .instr fun hs => .vLaneOp hs
  | vcvt => exact .instr fun hs => .countTile (.setV hs)
  | vrelu => exact .instr fun hs => .vLaneOp hs
  | zpack => exact .instr fun hs => .setZM (.setV hs)
  | zunpk => exact .instr fun hs => .setV hs
  | vmovi => exact .instr fun hs => .ite (.setG hs) (.setV (.drawImm hs))
  | pcBreakpointMatch => exact .whenDue (.pcBreakpointMatchDo hs)
  | macStreamStart => exact .whenDue (.macStreamStartDo hs)
  | macStreamComplete => exact .whenDue (.macStreamCompleteDo hs)
  | heavyUnitTokenGrant => exact .whenDue (.heavyUnitTokenGrantDo hs)
  | rqComplete => exact .whenDue (.rqCompleteDo hs)
  | oqComplete => exact .whenDue (.oqCompleteDo hs)
  | fnCallComplete => exact .whenDue (.fnCallCompleteDo hs)
  | blockMoveComplete => exact .whenDue (.blockMoveCompleteDo hs)
  | scratchLoadReturn => exact .whenDue (.scratchLoadReturnDo hs)
  | scratchStorePerformed => exact .whenDue (.scratchStorePerformedDo hs)
  | lockGrant => exact .whenDue (.lockGrantDo hs)
  | weightFillArrival => exact .whenValid (.fillHalf hs)
  | entryReachesTail => exact .whenDue (.entryReachesTailDo hs)
  | commitTakesEffect => exact .whenDue (.commitTakesEffectDo hs)
  | entriesBecomeVisible => exact .whenDue (.entriesBecomeVisibleDo hs)
  | creditArrival => exact .whenDue (.creditArrivalDo hs)
  | discardMarkArrival => exact .whenDue (.discardMarkArrivalDo hs)
  | headRefill => exact .whenDue (.headRefillDo hs)
  | bellTokenArrival => exact .whenDue (.bellTokenArrivalDo hs)
  | skipTimerExpiry => exact .whenDue (.skipTimerExpiryDo hs)
  | hoistBurstIssue => exact .whenDue (.hoistBurstIssueDo hs)
  | hoistBurstComplete => exact .whenDue (.hoistBurstCompleteDo hs)
  | waitHalfEnd => exact .whenDue (.modHoist hs)
  | translationWalkComplete => exact .whenValid (.translationWalkCompleteDo hs)
  | holdCopyComplete => exact .whenDue (.holdCopyCompleteDo hs)
  | sumpRequest => exact .whenValid (.sumpRequestDo hs)
  | portBurstComplete => exact .whenDue (.portBurstCompleteDo hs)
  | canaryCountExpiry => exact .whenDue (.canaryCountExpiryDo hs)
  | markingComplete => exact .whenDue (.markingCompleteDo hs)
  | patrolScrub => exact .whenDue hs
  | bar4Access => exact .ite (.whenValid (.bar4AccessDo hs)) .fault
  | doorbellProducerWrite => exact .ite (.whenValid (.doorbellProducerWriteDo hs)) .fault
  | doorbellConsumerWrite => exact .ite (.whenValid (.doorbellConsumerWriteDo hs)) .fault
  | forwardedDoorbell => exact .whenDue (.setProducer hs)
  | ringEntryTake => exact .whenDue (.ringEntryTakeDo hs)
  | completionEntryPlace => exact .whenDue (.completionEntryPlaceDo hs)
  | eventRecordPlace => exact .whenDue (.eventRecordPlaceDo hs)
  | claimOpen => exact .hostCmd fun _ => .claimOpenDo hs
  | claimReset => exact .hostCmd fun _ => .claimResetDo hs
  | claimResetComplete => exact .whenDue (.claimResetCompleteDo hs)
  | claimClose => exact .hostCmd fun _ => .claimCloseDo hs
  | map => exact .hostCmd fun _ => .mapDo hs
  | unmap => exact .execUnmap
  | ringSetup => exact .hostCmd fun _ => .ringSetupDo hs
  | load => exact .ite .fault (.hostCmd fun _ => .loadDo hs)
  | loadComplete => exact .whenDue (.loadCompleteDo hs)
  | shadowLoadComplete => exact .whenDue (.shadowLoadCompleteDo hs)
  | unload => exact .execUnload
  | bind => exact .hostCmd fun _ => .bindDo hs
  | start => exact .hostCmd fun _ => .startDo hs
  | stop => exact .hostCmd fun _ => .stopDo hs
  | swap => exact .hostCmd fun _ => .swapDo hs
  | weightUpdate => exact .hostCmd fun _ => .weightUpdateDo hs
  | hoist => exact .execHoist
  | resume => exact .execResume
  | scrub => exact .hostCmd fun _ => .scrubDo hs
  | snapshot => exact .hostCmd fun _ => .snapshotDo hs
  | snapshotLatch => exact .whenDue (.snapshotLatchDo hs)
  | capture => exact .hostCmd fun _ => .captureDo hs
  | counterRead => exact .hostCmd fun _ => .counterReadDo hs
  | selfTest => exact .hostCmd fun _ => .selfTestDo hs
  | journalRead => exact .hostCmd fun _ => .journalReadDo hs
  | fenceCommand => exact .execFenceCommand
  | flr => exact .whenValid (.flrDo hs)
  | perstNAssert => exact .whenDue (.perstNAssertDo hs)
  | porNAssert => exact .whenDue (.porNAssertDo hs)
  | porNDeassert => exact .whenDue (.porNDeassertDo hs)
  | pllLock => exact .whenDue (.pllLockDo hs)
  | tileSramFillComplete => exact .whenDue (.tileSramFillCompleteDo hs)
  | checkerSelfTestComplete => exact .ite (.whenDue (.checkerSelfTestCompleteDo hs)) .fault
  | hbmTrained => exact .whenDue (.bringUp hs (by rfl))
  | sumpAddressTestComplete => exact .ite (.whenDue (.startFailures (.bringUp hs (by rfl)))) .fault
  | firmwareVerified => exact .ite (.whenDue (.firmwareVerifiedDo hs)) .fault
  | sumpFillComplete => exact .whenDue (.sumpFillCompleteDo hs)
  | headframeReady => exact .whenDue (.headframeReadyDo hs)
  | pcieLinkUp => exact .whenDue (.modPower hs (by rfl))
  | rowPowerReady => exact .whenDue (.modRow hs (by exact id))
  | droopSensorTrip => exact .whenDue (.modRow hs (by exact id))
  | droopSensorClear => exact .whenDue (.modRow hs (by exact id))
  | rowClockStepDown => exact .execRowClockStepDown
  | rowClockStepUp => exact .execRowClockStepUp
  | thermalSensorRead => exact .ite (.whenDue (.thermalSensorReadDo hs)) .fault
  | faultDetection => exact .whenValid (.faultDetectionDo hs)
  | replayRestart => exact .whenDue (.replayRestartDo hs)
  | retirementEffect => exact .whenDue (.retirementEffectDo hs)
  | retirementCopyComplete => exact .whenDue (.retirementCopyCompleteDo hs)
  | spareLoadComplete => exact .whenDue (.modTile hs)
  | spareRestart => exact .whenDue (.boundary (.modTile hs))
  | portTrainingComplete => exact .ite (.whenDue (.portTrainingCompleteDo hs)) .fault
  | flitReceived => exact .ite (.whenDue (.flitReceivedDo hs)) .fault
  | nakReceived => exact .ite (.whenDue (.nakReceivedDo hs)) .fault
  | flitDelivery => exact .whenDue (.flitDeliveryDo hs)
  | idTokenReceived => exact .ite (.whenDue (.idTokenReceivedDo hs)) .fault
  | deviceReport => exact .whenDue (.deviceReportDo hs)
  | meshTimeCorrection => exact .whenDue (.meshTimeCorrectionDo hs)
  | remoteWindowAccess => exact .ite (.whenDue (.bar0 hs (.windowAccess hs))) .fault
  | remoteAccessTimeout => exact .whenDue (.remoteAccessTimeoutDo hs)
  | enumerate => exact .next (.bar0 hs (.writeMeshCfg hs))
  | retrain => exact .whenValid (.bar0 hs (.writePortCfg hs))
  | hfTickCfgWrite => exact .whenValid (.bar0 hs (.writeTickCfg hs))
  | hfTickPeriodWrite => exact .whenValid (.bar0 hs (.writeTickPeriod hs))
  | hfTickTolWrite => exact .whenValid (.bar0 hs (.writeTickTol hs))
  | hfTickCountLoRead => exact .whenValid (.readBar0 hs)
  | journalHeadLoRead => exact .whenValid (.readBar0 hs)
  | hfSeqLoRead => exact .next (.readBar0 hs)
  | hfEventSeqLoRead => exact .next (.readBar0 hs)
  | emTimeLoRead => exact .next (.readBar0 hs)
  | hfLockSetWrite => exact .next (.bar0 hs (.writeLockSet hs))
  | hfFaultCfgWrite => exact .next (.bar0 hs (.writeFaultCfg hs))
  | adQuadCfgWrite => exact .whenValid (.bar0 hs (.writeQuadCfg hs))
  | adQuadChmapWrite => exact .whenValid (.bar0 hs (.writeChmap hs))
  | adDecLineWrite => exact .whenValid (.bar0 hs (.writeDecLine hs))
  | spArbCfgWrite => exact .next (.bar0 hs (.writeArbCfg hs))
  | spHoistCfgWrite => exact .whenValid (.bar0 hs (.writeHoistCfg hs))
  | pwTdpCfgWrite => exact .next (.bar0 hs (.writeTdp hs))
  | pwThermalCfgWrite => exact .next (.bar0 hs (.writeThermal hs))
  | pwDroopCfgWrite => exact .next (.bar0 hs (.writeDroop hs))
  | counterLowRead => exact .whenValid (.counterLowReadDo hs)
  | counterHighWrite => exact .whenValid (.ite (.counterStage hs) (.bar0 hs (.counterStage hs)))
  | counterLowWrite => exact .whenValid (.ite (.counterSet hs) (.bar0 hs (.counterSet hs)))
  | dbHalt => exact .whenValid (.bar0 hs (.writeHaltCtrl hs))
  | dbResume => exact .whenValid (.bar0 hs (.writeHaltCtrl hs))
  | dbStep => exact .whenValid (.bar0 hs (.writeHaltCtrl hs))
  | dbForce => exact .whenValid (.bar0 hs (.writeHaltCtrl hs))
  | haltTakesEffect => exact .whenDue (.haltNow hs)
  | haltLockTimeout => exact .whenDue (.haltForced hs)
  | unlockSubmit => exact .next (.bar0 hs (.submit hs))
  | unlockCheckComplete => exact .whenDue (.unlockCheckCompleteDo hs)
  | dbacc => exact .whenValid (.dbaccDo hs)
  | registerWrite => exact .ite (.whenValid (.bar0 hs (.regWrite hs))) (.ite (.ite (.whenValid (.pcieWrite hs)) .fault)
      (.ite (.whenValid (.bar2Write hs)) .fault))
  | perstNDeassert => exact .whenDue (.modPower hs (by rfl))
  | treeRisingEdge => exact .whenDue (.treeRisingEdgeDo hs)
  | stackTemperatureUpdate => exact .whenValid (.modSump hs)
  | packagePowerUpdate => exact .next (.modPower hs (by rfl))
  | treeFrequencyUpdate => exact .whenValid (.treeFrequencyUpdateDo hs)

/-- A step keeps both invariants; on an empty queue it is one fc of the clock. -/
theorem step_keeps {s u : State} (hstep : step s = .next u) :
    (s.MemoryOk → u.MemoryOk) ∧ (s.RowsOk → u.RowsOk) := by
  unfold step at hstep
  split at hstep
  · have hu : Keeps s u := Host.Outcome.next.inj hstep ▸ .clockTick (.refl s)
    exact ⟨hu.memory, hu.rows⟩
  · have hu := exec_keepsNext _ _ u hstep
    exact ⟨hu.memory, hu.rows⟩

/-- Settles O2: no case of `exec_keepsNext` writes the queue. -/
theorem execKeepsQueue : Obligations.ExecKeepsQueue :=
  fun c s u hexec => (exec_keepsNext c s u hexec).pending

/-- Settles O6, by the lemma of each operation that writes memory. -/
theorem stepKeepsMemoryCanonical : Obligations.StepKeepsMemoryCanonical :=
  fun _ _ hmem hstep => (step_keeps hstep).1 hmem

/-- Settles O7, by the lemma of each operation that writes row clocks. -/
theorem stepKeepsRowClocks : Obligations.StepKeepsRowClocks :=
  fun _ _ hrows hstep => (step_keeps hstep).2 hrows

/-- Settles O1: it is the second case of `step`. -/
theorem stepRunsFrontCommand : Obligations.StepRunsFrontCommand := by
  intro c rest s hqueue
  rw [step, hqueue]

/-- Settles O5, by the values of `State.reset`. -/
theorem resetMeetsInvariants : Obligations.ResetMeetsInvariants := ⟨reset_memoryOk, reset_rowsOk⟩

end Sys2Proof.Machine

/-! PROOFS. What a reset leaves (Tables 1.1 to 17.2). -/

namespace Sys2Proof.Machine

/-- Settles O4: a table that a reset leaves empty gives the default of each object, and those defaults are the values of
the register tables. -/
theorem resetValues : Obligations.ResetValues :=
  ⟨fun _ => ⟨rfl, rfl, rfl, rfl, rfl⟩, fun _ => ⟨rfl, rfl, rfl⟩, fun _ => rfl, fun _ => rfl, fun _ => ⟨rfl, rfl⟩,
    rfl, rfl, rfl, rfl, rfl, rfl, rfl, rfl, rfl, rfl, rfl, rfl, rfl, rfl, rfl, rfl, fun _ => rfl⟩

end Sys2Proof.Machine

/-! PROOFS. Waits, breakpoints and illegal words (R50, R171, R418): what an event leaves alone in tiles and skips, and in
which bytes of memory it may write. -/

namespace Sys2Proof.Machine

/-! ## Objects after an event, a status bit and a count -/

@[simp] theorem tile_raise (s : State) (k : EvKind) (e : EvArgs) (x : Nat) : (s.raise k e).tile x = s.tile x := by
  simp [State.tile]

@[simp] theorem thread_raise (s : State) (k : EvKind) (e : EvArgs) (x th : Nat) : (s.raise k e).thread x th = s.thread x th := by
  simp [State.thread]

@[simp] theorem skip_raise (s : State) (k : EvKind) (e : EvArgs) (x : Nat) : (s.raise k e).skip x = s.skip x := by
  simp [State.skip]

@[simp] theorem tile_hit (s : State) (o b x : Nat) : (s.hit o b).tile x = s.tile x := rfl

@[simp] theorem thread_hit (s : State) (o b x th : Nat) : (s.hit o b).thread x th = s.thread x th := rfl

@[simp] theorem skip_hit (s : State) (o b x : Nat) : (s.hit o b).skip x = s.skip x := rfl

@[simp] theorem thread_countTile (s : State) (t c n x th : Nat) : (s.countTile t c n).thread x th = s.thread x th := by
  simp [State.thread, tile_countTile]

theorem tile_modThread_other (s : State) (t th x : Nat) (f : Thread → Thread) (h : x ≠ t) :
    (s.modThread t th f).tile x = s.tile x :=
  tile_modTile_other _ _ _ _ h

/-- A change of a tile that keeps its threads keeps every thread. -/
theorem thread_modTile (s : State) (t x th : Nat) (f : Tile → Tile) (h : ∀ y, (f y).threads = y.threads) :
    (s.modTile t f).thread x th = s.thread x th := by
  by_cases hx : x = t
  · subst hx
    simp only [State.thread, tile_modTile, Tile.thread, h]
  · simp only [State.thread, tile_modTile_other _ _ _ _ hx]

/-- An issue leaves the other tiles alone. -/
theorem tile_issued_other (s : State) (t th x : Nat) (h : x ≠ t) : (s.issued t th).tile x = s.tile x := by
  obtain ⟨⟨-, htiles, -⟩, -⟩ := issued_threadFrame s t th
  exact htiles x h

/-- What an issue leaves in its tile. -/
theorem tile_issued (s : State) (t th : Nat) :
    (s.issued t th).tile t = { s.tile t with threads := ((s.issued t th).tile t).threads, lastIssued := th, issueFc := s.rowFc t + 1 } := by
  obtain ⟨-, htile, -⟩ := issued_threadFrame s t th
  exact htile

/-! ## Waits -/

/-- A count of the tile's own counter stays inside the frame that names that counter. -/
theorem ThreadFrame.countTile {s u : State} {t th : Nat} (h : ThreadFrame s u t th []) (c n : Nat)
    (hlogical : (u.tile t).logical = (s.tile t).logical) :
    ThreadFrame s (u.countTile t c n) t th [ctrOff 0 (s.tile t).logical c] := by
  obtain ⟨⟨hrest, htiles, hctrs⟩, htile, hthreads⟩ := h
  refine ⟨⟨?_, fun x hx => ?_, fun o ho => ?_⟩, ?_, fun x hx => ?_⟩
  · rw [hrest, State.countTile, State.count]
    split <;> rfl
  · rw [tile_countTile, htiles x hx]
  · obtain ⟨hissue, hown⟩ : o ≠ ctrOff 0 (s.tile t).logical 0 ∧ o ≠ ctrOff 0 (s.tile t).logical c := by simpa using ho
    rw [State.countTile, hlogical, counterAt_count _ _ _ _ _ _ hown]
    exact hctrs o (by simpa using hissue)
  · rw [tile_countTile]
    exact htile
  · rw [thread_countTile, hthreads x hx]

@[simp] theorem logical_issued (s : State) (t th : Nat) : ((s.issued t th).tile t).logical = (s.tile t).logical := by
  rw [tile_issued]

theorem counterAt_countTile (s : State) (t c : Nat) :
    (s.countTile t c 1).counterAt (ctrOff 0 (s.tile t).logical c) = (s.counterAt (ctrOff 0 (s.tile t).logical c)).add 1 := by
  simp [State.countTile, State.count, State.counterAt, State.modDebug]

@[simp] theorem waitqHolds_issued (s : State) (t th p n : Nat) (all : Bool) :
    (s.issued t th).waitqHolds t p n all = s.waitqHolds t p n all := by
  simp only [State.waitqHolds, State.portCreditFree, ports_issued, portDests_issued, portSkip_issued, skip_issued, rowFc_issued]
  rfl

/-- An instruction that, after its issue, sets a wait or nothing. -/
theorem answers_instr_wait {s : State} {t th op : Nat} {body : Nat → State → State} (f : Thread → Thread)
    (h : s.Issues t th op) (hbody : body (s.pcWord t th) (s.issued t th) = (s.issued t th).modThread t th f) :
    Answers (s.instr t th op body) (fun u => ThreadFrame s u t th [] ∧ u.thread t th = f (s.issuedThread t th)) := by
  refine answers_instr h ?_
  rw [hbody]
  exact ⟨(issued_threadFrame s t th).modThread _, by rw [thread_modThread, issued_thread]⟩

/-- An instruction that, after its issue, does nothing. -/
theorem answers_instr_nothing {s : State} {t th op : Nat} {body : Nat → State → State} (h : s.Issues t th op)
    (hbody : body (s.pcWord t th) (s.issued t th) = s.issued t th) :
    Answers (s.instr t th op body) (fun u => ThreadFrame s u t th [] ∧ u.thread t th = s.issuedThread t th) := by
  refine answers_instr h ?_
  rw [hbody]
  exact ⟨issued_threadFrame s t th, issued_thread s t th⟩

theorem ctrOff_tile_injective {i a b : Nat} (h : a ≠ b) : ctrOff 0 i a ≠ ctrOff 0 i b := by
  simp only [ctrOff]
  omega

/-- Settles O10: each command returns, or sets its wait, as one test on the issued state says, and that test reads what an
issue leaves alone. -/
theorem slotFenceWaitq : Obligations.SlotFenceWaitq := by
  refine fun t th s => ⟨fun h => ⟨fun hnext => ?next, fun hnext hshift hpast => ?past, fun hnext hahead => ?ahead⟩,
    fun h => ?fence, fun h => ?waitq⟩
  case next => exact answers_instr_wait (fun x => { x with wait := .nextMark }) h (if_pos hnext)
  case past =>
    have hmark : ((s.issued t th).tile t).shiftFc.isSome = true ∧ yValue (s.pcWord t th) < ((s.issued t th).tile t).nextSlot := by
      rw [tile_issued]
      exact ⟨hshift, hpast⟩
    refine answers_instr h ?_
    simp only [if_neg (Bool.eq_false_iff.1 hnext), if_pos hmark]
    refine ⟨(issued_threadFrame s t th).countTile _ _ (logical_issued s t th), ?_, ?_⟩
    · rw [thread_countTile, issued_thread]
    · have hcount := counterAt_countTile (s.issued t th) t 11
      obtain ⟨⟨-, -, hctrs⟩, -⟩ := issued_threadFrame s t th
      rw [logical_issued] at hcount
      rw [hcount, hctrs _ (by simpa using ctrOff_tile_injective (by decide))]
  case ahead =>
    have hmark : ¬(((s.issued t th).tile t).shiftFc.isSome = true
        ∧ yValue (s.pcWord t th) < ((s.issued t th).tile t).nextSlot) := by
      rw [tile_issued]
      exact hahead
    refine answers_instr_wait (fun x => { x with wait := .slot (yValue (s.pcWord t th)) }) h ?_
    exact (if_neg (Bool.eq_false_iff.1 hnext)).trans (if_neg hmark)
  case fence =>
    have hpending : ((s.issued t th).tile t).scratchPending th = (s.tile t).scratch.any (fun q => q.thread == th) := by
      rw [tile_issued]
      rfl
    cases hany : (s.tile t).scratch.any (fun q => q.thread == th) with
    | true => exact answers_instr_wait (fun x => { x with wait := .fence }) h (if_pos (hpending.trans hany))
    | false => exact answers_instr_nothing h (if_neg (Bool.eq_false_iff.1 (hpending.trans hany)))
  case waitq =>
    have hbody := waitqHolds_issued s t th (qPort (s.pcWord t th)) (qCount (s.pcWord t th))
    simp only
    split
    next hnow => exact answers_instr_nothing h (if_pos ((hbody false).trans hnow))
    next hnow =>
      have hwaits := Bool.eq_false_iff.1 ((hbody false).trans (Bool.eq_false_iff.2 hnow))
      split
      next hlater =>
        refine answers_instr_wait (fun x => { x with readyAt := s.rowFc t + 2 }) h ?_
        simp only [if_neg hwaits, if_pos ((hbody true).trans hlater), rowFc_issued]
      next hlater =>
        refine answers_instr_wait (fun x => { x with wait := .queue (qPort (s.pcWord t th)) (qCount (s.pcWord t th)) }) h ?_
        exact (if_neg hwaits).trans (if_neg (Bool.eq_false_iff.1 ((hbody true).trans (Bool.eq_false_iff.2 hlater))))

/-! ## Bytes that an event may write -/

theorem memGet_placeEntry_outside (s : State) (c k b : Nat) (r : Record) (h : b < ringPhys c k ∨ ringPhys c k + 0x10000 ≤ b) :
    memGet (s.placeEntry c k r).mem b = memGet s.mem b := by
  have hmem : (s.placeEntry c k r).mem
      = memWrite s.mem (ringPhys c k + 64 * ((s.ring c k).producer.toNat % 1024)) (lineBytes r) := by
    unfold State.placeEntry
    dsimp only
    split <;> simp
  rw [hmem]
  refine memGet_memWrite_outside _ _ _ _ ?_
  rw [lineBytes_length]
  omega

/-- A delivered record is in the claim's event ring, held, or lost. -/
theorem memGet_deliver_outside (s : State) (c b : Nat) (r : Record) (h : b < ringPhys c 15 ∨ ringPhys c 15 + 0x10000 ≤ b) :
    memGet (s.deliver c r).mem b = memGet s.mem b := by
  unfold State.deliver
  split
  · rfl
  · split
    · exact memGet_placeEntry_outside s c 15 b r h
    · split <;> simp

/-- An event for the physical function writes its event ring alone. -/
theorem sameBytes_raise_pf (s : State) {k : EvKind} (e : EvArgs) (hk : k.audience = .pf) :
    SameBytes s (s.raise k e) (ringPhys 0 15) 0x10000 := fun b hb => by
  simp only [State.raise, hk, modFaults_mem]
  exact memGet_deliver_outside s 0 b _ hb

@[simp] theorem breakEnabled_issued (s : State) (t th : Nat) : (s.issued t th).breakEnabled t = s.breakEnabled t := by
  have hbrk : (s.issued t th).dbg.brkEn = s.dbg.brkEn := by
    obtain ⟨⟨hrest, -⟩, -⟩ := issued_threadFrame s t th
    rw [hrest]
  simp only [State.breakEnabled, logical_issued, hbrk]

@[simp] theorem issued_faults (s : State) (t th : Nat) : (s.issued t th).faults = s.faults := by simp [State.issued]
@[simp] theorem issued_skips (s : State) (t th : Nat) : (s.issued t th).skips = s.skips := by simp [State.issued]
@[simp] theorem issued_mem (s : State) (t th : Nat) : (s.issued t th).mem = s.mem := by simp [State.issued]

/-- What a breakpoint leaves of a thread that holds no lock, and of the rest (R418). -/
theorem breakHalt_unlocked {s : State} {t th : Nat} (hlock : (s.thread t th).lock = none) (data : Nat) :
    let u := s.breakHalt t th data
    u.thread t th = { s.thread t th with mode := .debug, tickPassed := false } ∧ u.faults.eventSeq = s.faults.eventSeq + 1
      ∧ (∀ x, x ≠ t → u.tile x = s.tile x) ∧ u.skips = s.skips ∧ SameBytes s u (ringPhys 0 15) 0x10000 := by
  unfold State.breakHalt
  refine ⟨?_, ?_, fun x hx => ?_, ?_, ?_⟩
  · rw [thread_raise, thread_modThread, if_neg (by simp [hlock])]
  · rw [raise_faults]
    rfl
  · rw [tile_raise, tile_modThread_other _ _ _ _ _ hx]
  · rw [raise_skips]
    rfl
  · exact sameBytes_raise_pf _ _ rfl

/-- Settles O11: BRK is the issue alone, or the issue and a breakpoint. -/
theorem brkHaltsOnlyWhenEnabled : Obligations.BrkHaltsOnlyWhenEnabled := by
  refine fun t th s h => ⟨fun hoff => ?off, fun hon hlock => ?on⟩
  case off => exact answers_instr_nothing h (if_neg (by rw [breakEnabled_issued, hoff]; decide))
  case on =>
    refine answers_instr h ?_
    have hlock' : ((s.issued t th).thread t th).lock = none := by
      rw [issued_thread]
      exact hlock
    obtain ⟨hthread, hevents, htiles, hskips, hbytes⟩ := breakHalt_unlocked hlock' (bits (s.pcWord t th) 15 0)
    rw [if_pos ((breakEnabled_issued s t th).trans hon)]
    refine ⟨?_, ?_, fun x hx => ?_, ?_, fun b hb => ?_⟩
    · rw [hthread, issued_thread]
    · rw [hevents, issued_faults]
    · rw [htiles x hx, tile_issued_other _ _ _ _ hx]
    · rw [hskips, issued_skips]
    · rw [hbytes b hb, issued_mem]

/-! ## Illegal words (R50) -/

/-- A word that its tile does not allow goes to `State.illegalWord`. -/
theorem answers_instr_illegal {s : State} {t th op : Nat} {body : Nat → State → State} {p : State → Prop}
    (hissue : s.canIssue t th op = true) (hlegal : legalWord (s.tile t) (kindOf t) th (s.pcWord t th) = false)
    (hp : p ((s.issued t th).illegalWord t th)) : Answers (s.instr t th op body) p :=
  ⟨_, by simp [State.instr, State.issueWord, hissue, hlegal], hp⟩

/-- Settles O13: the issued state, then the event, the stop of the thread and the two flags of the tile. -/
theorem illegalWordStopsThread : Obligations.IllegalWordStopsThread := by
  refine fun t th s hissue hlegal => answers_instr_illegal hissue hlegal ?_
  unfold State.illegalWord State.mustMiss
  extract_lets u
  refine ⟨?_, ?_, ?_, ?_, ?_, fun x hx => ?_, ?_⟩
  · rw [thread_modTile _ _ _ _ _ (fun _ => by rfl), thread_hit, thread_modTile _ _ _ _ _ (fun _ => by rfl), thread_modThread]
  · rw [tile_modTile, tile_hit, tile_modTile]
  · rw [tile_modTile]
  · rw [thread_modTile _ _ _ _ _ (fun _ => by rfl), thread_hit, thread_modTile _ _ _ _ _ (fun _ => by rfl), thread_modThread,
      thread_raise, issued_thread]
  · simp [u]
  · rw [tile_modTile_other _ _ _ _ hx, tile_hit, tile_modTile_other _ _ _ _ hx, tile_modThread_other _ _ _ _ _ hx, tile_raise,
      tile_issued_other _ _ _ _ hx]
  · simp [u]

end Sys2Proof.Machine

/-! PROOFS. Vector and scalar instructions (R133 to R137): what a write of a register, of ZM and of the saturation
counter leaves alone after an issue, the lanes of a packed register, and the results of the lanes. -/

namespace Sys2Proof.Machine

/-! ## Writes after an issue -/

@[simp] theorem v_issued (s : State) (t th r : Nat) : (s.issued t th).v t th r = s.v t th r := by
  rw [State.v, issued_thread]
  rfl

@[simp] theorem zm_issued (s : State) (t th : Nat) :
    ((s.issued t th).thread t th).regs.zm = (s.thread t th).regs.zm := by
  rw [issued_thread]
  rfl

@[simp] theorem drawn_issued (s : State) (t th : Nat) : (s.issued t th).drawn = s.drawn := by
  simp [State.drawn, State.issued]

@[simp] theorem v_countTile (s : State) (t c n x th r : Nat) : (s.countTile t c n).v x th r = s.v x th r := by
  simp [State.v]

@[simp] theorem g_countTile (s : State) (t c n x th r : Nat) : (s.countTile t c n).g x th r = s.g x th r := by
  simp [State.g]

@[simp] theorem v_setV_same (s : State) (t th r lat : Nat) (x : Line) : (s.setV t th r lat x).v t th r = x := by
  simp [State.v, State.setV]

theorem v_setV_other (s : State) (t th r r' lat : Nat) (x : Line) (h : r' ≠ r) :
    (s.setV t th r lat x).v t th r' = s.v t th r' := by
  simp [State.v, State.setV, lookD_put_other _ _ _ _ _ h, Thread.keep]

@[simp] theorem v_setZM (s : State) (t th r lat : Nat) (x : DWord) : (s.setZM t th lat x).v t th r = s.v t th r := by
  simp [State.v, State.setZM, Thread.keep]

/-- An issue alone is inside the frame of no register. -/
theorem regFrame_issued (s : State) (t th : Nat) : RegFrame s (s.issued t th) t th [] [] false [] := by
  refine ⟨issued_threadFrame s t th, ?_, fun r _ => g_issued s t th r, fun r _ => v_issued s t th r, fun _ => zm_issued s t th⟩
  rw [issued_thread]

section
variable {s u : State} {t th : Nat} {gs vs cs : List Nat} {zm : Bool}

/-- A write of a v register adds it to the frame. -/
theorem RegFrame.setV (h : RegFrame s u t th gs vs zm cs) (r lat : Nat) (x : Line) :
    RegFrame s (u.setV t th r lat x) t th gs (r :: vs) zm cs := by
  obtain ⟨hframe, hthread, hg, hv, hzm⟩ := h
  refine ⟨by unfold State.setV; exact hframe.modThread _, ?_, fun r' hr => ?_, fun r' hr => ?_, fun hz => ?_⟩
  · rw [State.setV, thread_modThread, hthread]
    rfl
  · rw [← hg r' hr]
    simp [State.g, State.setV, Thread.keep]
  · obtain ⟨hne, hrest⟩ : r' ≠ r ∧ r' ∉ vs := by simpa using hr
    rw [v_setV_other _ _ _ _ _ _ _ hne, hv r' hrest]
  · rw [← hzm hz]
    simp [State.setV, Thread.keep]

/-- A write of a g register adds it to the frame. -/
theorem RegFrame.setG (h : RegFrame s u t th gs vs zm cs) (r lat : Nat) (x : Word) :
    RegFrame s (u.setG t th r lat x) t th (r :: gs) vs zm cs := by
  obtain ⟨hframe, hthread, hg, hv, hzm⟩ := h
  refine ⟨by unfold State.setG; exact hframe.modThread _, ?_, fun r' hr => ?_, fun r' hr => ?_, fun hz => ?_⟩
  · rw [State.setG, thread_modThread, hthread]
    rfl
  · obtain ⟨hne, hrest⟩ : r' ≠ r ∧ r' ∉ gs := by simpa using hr
    rw [g_setG_other _ _ _ _ _ _ _ hne, hg r' hrest]
  · rw [← hv r' hr]
    simp [State.v, State.setG, Thread.keep]
  · rw [← hzm hz]
    simp [State.setG, Thread.keep]

/-- A write of ZM opens the frame for it. -/
theorem RegFrame.setZM (h : RegFrame s u t th gs vs zm cs) (lat : Nat) (x : DWord) :
    RegFrame s (u.setZM t th lat x) t th gs vs true cs := by
  obtain ⟨hframe, hthread, hg, hv, -⟩ := h
  refine ⟨by unfold State.setZM; exact hframe.modThread _, ?_, fun r' hr => ?_, fun r' hr => ?_, fun hz => nomatch hz⟩
  · rw [State.setZM, thread_modThread, hthread]
    rfl
  · rw [← hg r' hr]
    simp [State.g, State.setZM, Thread.keep]
  · rw [← hv r' hr, v_setZM]

/-- A draw of a free value stays inside every frame. -/
theorem RegFrame.draw (h : RegFrame s u t th gs vs zm cs) : RegFrame s u.draw t th gs vs zm cs := by
  obtain ⟨⟨⟨hrest, htiles, hctrs⟩, htile, hthreads⟩, hregs⟩ := h
  refine ⟨⟨⟨?_, htiles, hctrs⟩, htile, hthreads⟩, hregs⟩
  rw [hrest]
  rfl

/-- A count of the tile's own counter adds it to the frame. -/
theorem RegFrame.countTile (h : RegFrame s u t th gs vs zm []) (c n : Nat) :
    RegFrame s (u.countTile t c n) t th gs vs zm [ctrOff 0 (s.tile t).logical c] := by
  obtain ⟨hframe, hthread, hg, hv, hzm⟩ := h
  obtain ⟨-, htile, -⟩ := id hframe
  refine ⟨hframe.countTile c n (by rw [htile]), ?_, fun r hr => ?_, fun r hr => ?_, fun hz => ?_⟩
  · rw [thread_countTile]
    exact hthread
  · rw [g_countTile, hg r hr]
  · rw [v_countTile, hv r hr]
  · rw [thread_countTile, hzm hz]

end

/-! ## Packed lanes -/

theorem elemAt_eq (b x k : Nat) : elemAt b x k = x / (2 ^ b) ^ k % 2 ^ b := by
  rw [elemAt, Nat.shiftRight_eq_div_pow, Nat.mul_comm, pow_mul]

/-- Lane i of packed lanes is the i-th, in its own bits. -/
theorem elemAt_packElems (b : Nat) (ls : List Nat) (i : Nat) : elemAt b (packElems b ls) i = ls.getD i 0 % 2 ^ b := by
  have hpos : 0 < 2 ^ b := Nat.two_pow_pos b
  induction ls generalizing i with
  | nil => simp [packElems, elemAt]
  | cons x xs ih =>
    cases i with
    | zero => simp [packElems, elemAt]
    | succ i =>
      have htail : packElems b (x :: xs) / 2 ^ b = packElems b xs := by
        rw [packElems, Nat.add_mul_div_left _ _ hpos, Nat.div_eq_of_lt (Nat.mod_lt _ hpos), Nat.zero_add]
      rw [elemAt_eq, pow_succ', ← Nat.div_div_eq_div_mul, htail, ← elemAt_eq, ih, List.getD_cons_succ]

theorem packElems_lt (b : Nat) (ls : List Nat) : packElems b ls < 2 ^ (b * ls.length) := by
  induction ls with
  | nil => simp [packElems]
  | cons x xs ih =>
    have hlane : x % 2 ^ b < 2 ^ b := Nat.mod_lt _ (Nat.two_pow_pos b)
    calc packElems b (x :: xs) < 2 ^ b + 2 ^ b * packElems b xs := by
          rw [packElems]
          omega
      _ = 2 ^ b * (packElems b xs + 1) := by ring
      _ ≤ 2 ^ b * 2 ^ (b * xs.length) := Nat.mul_le_mul_left _ ih
      _ = 2 ^ (b * (x :: xs).length) := by rw [← pow_add, List.length_cons, Nat.mul_succ, Nat.add_comm]

/-- A register that packed lanes fit in holds them. -/
theorem toNat_packElems {n b : Nat} {ls : List Nat} (h : b * ls.length ≤ n) :
    (BitVec.ofNat n (packElems b ls)).toNat = packElems b ls := by
  rw [BitVec.toNat_ofNat, Nat.mod_eq_of_lt]
  exact (packElems_lt b ls).trans_le (Nat.pow_le_pow_right (by decide) h)

theorem length_lanesOf (b x : Nat) : (lanesOf b x).length = 512 / b := by simp [lanesOf]

theorem getD_map_range (f : Nat → Nat) {n i : Nat} (h : i < n) : ((List.range n).map f).getD i 0 = f i := by
  simp [List.getD_eq_getElem?_getD, h]

theorem getD_lanesOf {b i : Nat} (x : Nat) (h : i < 512 / b) : (lanesOf b x).getD i 0 = elemAt b x i :=
  getD_map_range _ h

/-! ## Lane instructions -/

/-- The opcode of an issued word. -/
theorem wOp_of_issues {s : State} {t th op : Nat} (h : s.Issues t th op) (hop : op ≠ 0) : wOp (s.pcWord t th) = op := by
  obtain ⟨hissue, -, -⟩ := h
  simp only [State.canIssue, opMatches, if_neg hop, Bool.and_eq_true, beq_iff_eq] at hissue
  exact hissue.2.2

theorem formOk_of_issues {s : State} {t th op : Nat} (h : s.Issues t th op) : formOk (kindOf t) (s.pcWord t th) = true := by
  obtain ⟨-, hlegal, -⟩ := h
  simp only [legalWord, Bool.and_eq_true] at hlegal
  exact hlegal.1.2

/-- The form of a word that reads or writes lanes: with S = 1, TYPE has 32 bits (Table 4.3). -/
theorem laneBits_of_vTypeOk {w : Nat} (h : vTypeOk w = true) (hs : vS w = true) : laneBits (vType w) = 32 := by
  simp only [vTypeOk, hs, if_true, Bool.or_eq_true, beq_iff_eq] at h
  obtain h | h := h <;> rw [h] <;> rfl

theorem vTypeOk_of_laneRows : ∀ p ∈ laneRows, ∀ kind w, formOk kind w = true → wOp w = p.2 → vTypeOk w = true := by
  intro p hp kind w hform hop
  rw [formOk, hop] at hform
  simp only [laneRows, List.mem_cons, List.not_mem_nil, or_false] at hp
  rcases hp with rfl | rfl | rfl | rfl | rfl | rfl | rfl | rfl | rfl | rfl | rfl | rfl <;>
    simp only [Bool.and_eq_true] at hform <;> tauto

theorem exec_laneRows : ∀ p ∈ laneRows, p.2 ≠ 0 ∧ ∀ t th s, exec (p.1 t th) s = s.instr t th p.2 (fun w u => u.vLaneOp t th w) := by
  simp only [laneRows, List.forall_mem_cons]
  exact ⟨⟨by decide, fun _ _ _ => rfl⟩, ⟨by decide, fun _ _ _ => rfl⟩, ⟨by decide, fun _ _ _ => rfl⟩, ⟨by decide, fun _ _ _ => rfl⟩,
    ⟨by decide, fun _ _ _ => rfl⟩, ⟨by decide, fun _ _ _ => rfl⟩, ⟨by decide, fun _ _ _ => rfl⟩, ⟨by decide, fun _ _ _ => rfl⟩,
    ⟨by decide, fun _ _ _ => rfl⟩, ⟨by decide, fun _ _ _ => rfl⟩, ⟨by decide, fun _ _ _ => rfl⟩, ⟨by decide, fun _ _ _ => rfl⟩,
    by simp⟩

section
variable {s u : State} {t th : Nat} {gs vs : List Nat} {zm : Bool}

theorem RegFrame.drawImm (h : RegFrame s u t th gs vs zm []) (w : Nat) : RegFrame s (u.drawImm w) t th gs vs zm [] := by
  unfold State.drawImm
  split
  · exact h
  · exact h.draw

end

/-- The frame of a lane instruction: RD and the saturation counter. -/
theorem regFrame_vWrite {s u : State} {t th : Nat} (h : RegFrame s u t th [] [] false []) (w lat : Nat) (ls : List (Nat × Nat)) :
    RegFrame s (u.vWrite t th w lat ls) t th (if vS w then [vRd w] else []) (if vS w then [] else [vRd w]) false
      [ctrOff 0 (s.tile t).logical 9] := by
  unfold State.vWrite
  cases vS w with
  | true => exact (h.setG _ _ _).countTile _ _
  | false => exact (h.setV _ _ _).countTile _ _

/-- Lane i of RD in the v form. -/
theorem regLane_vWrite {u : State} {t th w : Nat} (hs : vS w = false) (lat : Nat) {ls : List (Nat × Nat)}
    (hlen : ls.length = 512 / laneBits (vType w)) (i : Nat) :
    (u.vWrite t th w lat ls).regLane t th (vType w) (vRd w) i = (ls.map (·.1)).getD i 0 % 2 ^ laneBits (vType w) := by
  have hfit : laneBits (vType w) * (ls.map (·.1)).length ≤ 512 := by
    rw [List.length_map, hlen]
    exact Nat.mul_div_le 512 _
  simp only [State.vWrite, hs, State.regLane, v_countTile]
  rw [if_neg (by decide), v_setV_same, toNat_packElems hfit, elemAt_packElems]

/-- RD in the g form, where TYPE has 32 bits. -/
theorem g_vWrite {u : State} {t th w : Nat} (hs : vS w = true) (h32 : laneBits (vType w) = 32) (lat : Nat) (x : Nat × Nat) :
    (u.vWrite t th w lat [x]).g t th (vRd w) = BitVec.ofNat 32 x.1 := by
  simp only [State.vWrite, hs, g_countTile, if_true, g_setG_same, h32, List.map_cons, List.map_nil, packElems, Nat.mul_zero,
    Nat.add_zero]
  apply BitVec.eq_of_toNat_eq
  simp

theorem getD_zipLanes (f : Nat → Nat → Nat → Nat × Nat) (as bs cs : List Nat) {i : Nat} (h : i < as.length) :
    ((zipLanes f as bs cs).map (·.1)).getD i 0 = (f (as.getD i 0) (bs.getD i 0) (cs.getD i 0)).1 := by
  rw [zipLanes, List.map_map]
  exact getD_map_range _ h

theorem zipLanes_singleton (f : Nat → Nat → Nat → Nat × Nat) (a b c : Nat) : zipLanes f [a] [b] [c] = [f a b c] := rfl

/-- The second operand's lanes: an immediate in each, or RB's. -/
theorem getD_laneB (s : State) (t th w i : Nat) (hs : vS w = false)
    (hi : i < 512 / laneBits (vType w)) :
    (if vI w then (lanesOf (laneBits (vType w)) (s.v t th (vRa w)).toNat).map (fun _ => immLane (vType w) (vImm w) s.drawn)
      else s.vLanes t th w (vRb w)).getD i 0 = s.laneB t th w i := by
  unfold State.laneB
  split
  · rw [lanesOf, List.map_map]
    exact getD_map_range _ hi
  · simp only [State.vLanes, hs, State.regLane]
    exact getD_lanesOf _ hi

@[simp] theorem vLanes_issued (s : State) (t th w r : Nat) : (s.issued t th).vLanes t th w r = s.vLanes t th w r := by
  simp [State.vLanes]

/-- The lanes that a lane instruction writes. -/
def State.laneWrites (s : State) (t th w : Nat) : List (Nat × Nat) :=
  let as := s.vLanes t th w (vRa w)
  zipLanes (laneResult (wOp w) (vType w) (vCond w)) as
    (if vI w then as.map (fun _ => immLane (vType w) (vImm w) s.drawn) else s.vLanes t th w (vRb w)) (s.vLanes t th w (vRc w))

/-- A lane instruction after its issue: a draw at most, then the write of its lanes. -/
theorem vLaneOp_issued (s : State) (t th w : Nat) :
    (s.issued t th).vLaneOp t th w
      = (if vI w then (s.issued t th).drawImm w else s.issued t th).vWrite t th w (vLatency w) (s.laneWrites t th w) := by
  simp only [State.vLaneOp, State.laneWrites, vLanes_issued, drawn_issued]

/-- The lanes written in the v form. -/
theorem getD_laneWrites {s : State} {t th w i : Nat} (hs : vS w = false) (hi : i < 512 / laneBits (vType w)) :
    ((s.laneWrites t th w).map (·.1)).getD i 0
      = (laneResult (wOp w) (vType w) (vCond w) (s.regLane t th (vType w) (vRa w) i) (s.laneB t th w i)
          (s.regLane t th (vType w) (vRc w) i)).1 := by
  have hlanes (r : Nat) : s.vLanes t th w r = lanesOf (laneBits (vType w)) (s.v t th r).toNat := by simp [State.vLanes, hs]
  have hb := getD_laneB s t th w i hs hi
  rw [State.laneWrites, getD_zipLanes _ _ _ _ (by rw [hlanes, length_lanesOf]; exact hi), hlanes (vRa w), hb, hlanes (vRc w),
    getD_lanesOf _ hi, getD_lanesOf _ hi]
  rfl

theorem length_laneWrites {s : State} {t th w : Nat} (hs : vS w = false) :
    (s.laneWrites t th w).length = 512 / laneBits (vType w) := by
  simp [State.laneWrites, zipLanes, State.vLanes, hs, length_lanesOf]

/-- The one value written in the g form. -/
theorem laneWrites_g {s : State} {t th w : Nat} (hs : vS w = true) :
    s.laneWrites t th w
      = [laneResult (wOp w) (vType w) (vCond w) (s.g t th (vRa w)).toNat
          (if vI w then immLane (vType w) (vImm w) s.drawn else (s.g t th (vRb w)).toNat) (s.g t th (vRc w)).toNat] := by
  simp only [State.laneWrites, State.vLanes, hs, if_true, List.map_cons, List.map_nil, ← apply_ite (fun b => [b]),
    zipLanes_singleton]

/-- Settles O14: each row is the same meaning under its opcode, which writes RD and the saturation counter alone; lane i of
what it packs is the result of the operands' lanes i. -/
theorem laneInstructionsWriteRd : Obligations.LaneInstructionsWriteRd := by
  intro p hp t th s h
  obtain ⟨hop0, hexec⟩ := exec_laneRows p hp
  have hop := wOp_of_issues h hop0
  have hty := vTypeOk_of_laneRows p hp _ _ (formOk_of_issues h) hop
  rw [hexec]
  refine answers_instr h ?_
  rw [vLaneOp_issued, ← hop]
  refine ⟨?frame, fun hs i hi => ?vform, fun hs => ?gform⟩
  case frame =>
    refine regFrame_vWrite ?_ _ _ _
    split
    · exact (regFrame_issued s t th).drawImm _
    · exact regFrame_issued s t th
  case vform =>
    rw [regLane_vWrite hs _ (length_laneWrites hs), getD_laneWrites hs hi]
  case gform =>
    rw [laneWrites_g hs]
    exact g_vWrite hs (laneBits_of_vTypeOk hty hs) _ _

end Sys2Proof.Machine

/-! PROOFS. Conversions, zero runs and immediates (R134 to R136). -/

namespace Sys2Proof.Machine

@[simp] theorem zm_setZM (s : State) (t th lat : Nat) (x : DWord) : ((s.setZM t th lat x).thread t th).regs.zm = x := by
  simp [State.setZM]

/-- Every TYPE that VCVT names fills a register with whole lanes, and so do the lanes that two of them share. -/
theorem codeBits_mul_min_le (ty dt : Nat) : codeBits dt * min (512 / codeBits ty) (512 / codeBits dt) ≤ 512 :=
  (Nat.mul_le_mul_left _ (Nat.min_le_right _ _)).trans (Nat.mul_div_le 512 _)

theorem testBit_packElems_one (ls : List Nat) (i : Nat) : (packElems 1 ls).testBit i = decide (ls.getD i 0 % 2 = 1) := by
  rw [Nat.testBit_eq_decide_div_mod_eq, ← Nat.pow_one 2, ← elemAt_packElems, elemAt_eq, Nat.pow_one]

/-- A zero mask has a bit for each nonzero lane. -/
theorem getLsbD_zeroMask {ls : List Nat} {i : Nat} (hi : i < 64) (hlen : i < ls.length) :
    (BitVec.ofNat 64 (zeroMask ls)).getLsbD i = decide (ls.getD i 0 ≠ 0) := by
  rw [BitVec.getLsbD_ofNat, zeroMask, testBit_packElems_one]
  simp only [hi, decide_true, Bool.true_and, List.getD_eq_getElem?_getD, List.getElem?_map, List.getElem?_eq_getElem hlen,
    Option.map_some, Option.getD_some]
  split <;> simp_all

theorem getD_mod_of_lt {ls : List Nat} {m : Nat} (hm : 0 < m) (h : ∀ x ∈ ls, x < m) (i : Nat) : ls.getD i 0 % m = ls.getD i 0 := by
  refine Nat.mod_eq_of_lt ?_
  by_cases hi : i < ls.length
  · rw [List.getD_eq_getElem _ _ hi]
    exact h _ (List.getElem_mem hi)
  · rw [List.getD_eq_default _ _ (Nat.not_lt.1 hi)]
    exact hm

theorem lt_of_mem_lanesOf {b x y : Nat} (h : y ∈ lanesOf b x) : y < 2 ^ b := by
  simp only [lanesOf, List.mem_map] at h
  obtain ⟨i, -, rfl⟩ := h
  exact Nat.mod_lt _ (Nat.two_pow_pos b)

/-! ## Expansion under a mask (R136) -/

theorem popcount_le (n x : Nat) : popcount n x ≤ n := by
  induction n generalizing x with
  | zero => exact Nat.le_refl 0
  | succ n ih =>
    have hrest := ih (x / 2)
    rw [popcount]
    omega

/-- Each set bit of the mask takes the next byte; a clear one gives 0. -/
theorem getD_zunpk (mask : Nat) (bytes : List Nat) {n j : Nat} (hj : j < n) (i p : Nat) :
    (zunpk mask bytes n i p).getD j 0 = if bitAt mask (i + j) then bytes.getD (p + popcount j (mask >>> i)) 0 else 0 := by
  induction n generalizing i p j with
  | zero => exact absurd hj (Nat.not_lt_zero j)
  | succ n ih =>
    cases j with
    | zero =>
      rw [zunpk]
      split <;> simp_all [popcount]
    | succ j =>
      have hshift : mask >>> i / 2 = mask >>> (i + 1) := by rw [Nat.shiftRight_succ]
      have hbit : mask >>> i % 2 = if bitAt mask i then 1 else 0 := by
        simp only [bitAt, beq_iff_eq]
        split <;> omega
      have hnext : i + (j + 1) = i + 1 + j := by omega
      rw [zunpk, popcount, hshift, hbit, hnext]
      split
      · rw [List.getD_cons_succ, ih (Nat.lt_of_succ_lt_succ hj), Nat.add_assoc p]
      · rw [List.getD_cons_succ, ih (Nat.lt_of_succ_lt_succ hj), Nat.zero_add]

theorem length_zunpk (mask : Nat) (bytes : List Nat) (n i p : Nat) : (zunpk mask bytes n i p).length = n := by
  induction n generalizing i p with
  | zero => rfl
  | succ n ih =>
    rw [zunpk]
    split <;> rw [List.length_cons, ih]

theorem lt_of_mem_zunpk {mask m : Nat} {bytes : List Nat} (hm : 0 < m) (h : ∀ x ∈ bytes, x < m) (n i p : Nat) :
    ∀ x ∈ zunpk mask bytes n i p, x < m := by
  induction n generalizing i p with
  | zero => simp [zunpk]
  | succ n ih =>
    have hbyte : bytes.getD p 0 < m := by
      rw [← getD_mod_of_lt hm h]
      exact Nat.mod_lt _ hm
    rw [zunpk]
    split
    · exact List.forall_mem_cons.2 ⟨hbyte, ih _ _⟩
    · exact List.forall_mem_cons.2 ⟨hm, ih _ _⟩

theorem bitAt_toNat {n : Nat} (x : BitVec n) (i : Nat) : bitAt x.toNat i = x.getLsbD i := by
  rw [bitAt, BitVec.getLsbD, Nat.testBit_eq_decide_div_mod_eq, Nat.shiftRight_eq_div_pow]
  rfl

/-! ## Immediates (R104) -/

theorem immLane_int32 (imm free : Nat) : BitVec.ofNat 32 (immLane 2 imm free) = (BitVec.ofNat 16 imm).signExtend 32 := by
  apply BitVec.eq_of_toInt_eq
  rw [BitVec.toInt_signExtend_of_le (by decide)]
  simp only [immLane, wrapInt, signedOf, BitVec.toInt_eq_toNat_cond, BitVec.toNat_ofNat]
  split <;> split <;> omega

theorem immLane_fp32 (imm free : Nat) : BitVec.ofNat 32 (immLane 6 imm free) = BitVec.ofNat 16 imm ++ (0 : Half) := by
  apply BitVec.eq_of_toNat_eq
  simp only [immLane, BitVec.toNat_append, BitVec.toNat_ofNat, Nat.shiftLeft_eq]
  simp
  omega

theorem upperHalf (imm : Nat) (old : Word) :
    BitVec.ofNat 32 (imm * 0x10000 + old.toNat % 0x10000) = BitVec.ofNat 16 imm ++ old.extractLsb' 0 16 := by
  apply BitVec.eq_of_toNat_eq
  have hlow : old.toNat % 2 ^ 16 < 2 ^ 16 := Nat.mod_lt _ (by decide)
  rw [BitVec.toNat_append, ← Nat.shiftLeft_add_eq_or_of_lt (by simpa using hlow)]
  simp only [BitVec.toNat_ofNat, BitVec.extractLsb'_toNat, Nat.shiftRight_zero, Nat.shiftLeft_eq]
  omega

/-! ## The four instructions -/

theorem lanesOf_eight (x : Nat) : lanesOf 8 x = (List.range 64).map (elemAt 8 x) := rfl

/-- Lane i of a v register that packed lanes were written to. -/
theorem elemAt_v_setV_packElems (s : State) (t th r lat : Nat) {b : Nat} {ls : List Nat} (h : b * ls.length ≤ 512) (i : Nat) :
    elemAt b ((s.setV t th r lat (BitVec.ofNat 512 (packElems b ls))).v t th r).toNat i = ls.getD i 0 % 2 ^ b := by
  rw [v_setV_same, toNat_packElems h, elemAt_packElems]

theorem length_vcvtLanes (ty dt : Nat) (satfp : Bool) (x : Nat) :
    ((vcvtLanes ty dt satfp x).map (·.1)).length = min (512 / codeBits ty) (512 / codeBits dt) := by
  simp [vcvtLanes]

theorem getD_vcvtLanes {ty dt i : Nat} (satfp : Bool) (x : Nat) (hi : i < min (512 / codeBits ty) (512 / codeBits dt)) :
    ((vcvtLanes ty dt satfp x).map (·.1)).getD i 0 = (convertTo dt satfp (decodeElem ty (elemAt (codeBits ty) x i))).1 := by
  rw [vcvtLanes, List.map_map, getD_map_range _ hi]
  rfl

/-- ZPACK packs at most 64 bytes. -/
theorem length_filter_lanesOf_le (x : Nat) : 8 * ((lanesOf 8 x).filter (fun y => y != 0)).length ≤ 512 := by
  have hfilter := List.length_filter_le (fun y => y != 0) (lanesOf 8 x)
  rw [length_lanesOf] at hfilter
  omega

theorem getD_filter_lanesOf (x i : Nat) :
    ((lanesOf 8 x).filter (fun y => y != 0)).getD i 0 % 2 ^ 8 = ((lanesOf 8 x).filter (fun y => y != 0)).getD i 0 :=
  getD_mod_of_lt (by decide) (fun _ hy => lt_of_mem_lanesOf (List.mem_of_mem_filter hy)) i

theorem getD_zunpk_lanesOf (mask : DWord) (x : Nat) {i : Nat} (hi : i < 64) :
    (zunpk mask.toNat (lanesOf 8 x) 64 0 0).getD i 0 % 2 ^ 8
      = if mask.getLsbD i then elemAt 8 x (popcount i mask.toNat) else 0 := by
  rw [getD_mod_of_lt (by decide) (lt_of_mem_zunpk (by decide) (fun x hx => lt_of_mem_lanesOf hx) _ _ _), getD_zunpk _ _ hi,
    Nat.zero_add, Nat.zero_add, Nat.shiftRight_zero, bitAt_toNat, getD_lanesOf _ ((popcount_le _ _).trans_lt hi)]

theorem length_replicate_le (b x : Nat) : b * (List.replicate (512 / b) x).length ≤ 512 := by
  rw [List.length_replicate]
  exact Nat.mul_div_le 512 _

theorem getD_replicate {n i : Nat} (x : Nat) (hi : i < n) : (List.replicate n x).getD i 0 = x := by
  simp [List.getD_eq_getElem?_getD, hi]

/-- Settles O16: each instruction packs its lanes into RD, and the lanes of a packed register are those packed. -/
theorem conversionsAndZeroRuns : Obligations.ConversionsAndZeroRuns := by
  refine ⟨fun t th s h => answers_instr h ?vcvt,
    fun t th s => ⟨fun h => answers_instr h ?zpack, fun h => answers_instr h ?zunpk⟩, fun t th s h => answers_instr h ?vmovi⟩
  all_goals generalize s.pcWord t th = w
  case vcvt =>
    have hfit := codeBits_mul_min_le (vType w) (vDtype w)
    rw [← length_vcvtLanes _ _ (vSatfp w) (s.v t th (vRa w)).toNat] at hfit
    simp only [v_issued, v_countTile]
    refine ⟨((regFrame_issued s t th).setV _ _ _).countTile _ _, fun i hi => ?_, ?_⟩
    · rw [elemAt_v_setV_packElems _ _ _ _ _ hfit, getD_vcvtLanes _ _ hi]
    · rw [v_setV_same, toNat_packElems hfit, Nat.mul_comm, ← length_vcvtLanes _ _ (vSatfp w) (s.v t th (vRa w)).toNat]
      exact packElems_lt _ _
  case zpack =>
    simp only [v_issued, zm_setZM, v_setZM]
    refine ⟨((regFrame_issued s t th).setV _ _ _).setZM _ _, fun i hi => ?_, fun i hi => ?_⟩
    · rw [getLsbD_zeroMask hi (by rw [length_lanesOf]; exact hi), getD_lanesOf _ hi]
    · rw [elemAt_v_setV_packElems _ _ _ _ _ (length_filter_lanesOf_le _), getD_filter_lanesOf, lanesOf_eight]
  case zunpk =>
    simp only [v_issued, zm_issued]
    refine ⟨(regFrame_issued s t th).setV _ _ _, fun i hi => ?_⟩
    rw [elemAt_v_setV_packElems _ _ _ _ _ (by rw [length_zunpk]), getD_zunpk_lanesOf _ _ hi]
  case vmovi =>
    simp only [g_issued, drawn_issued]
    cases hs : vS w with
    | true =>
      simp only [if_true, g_setG_same]
      refine ⟨(regFrame_issued s t th).setG _ _ _, nofun, fun _ hra hty => ?_, fun _ hra hty => ?_, fun _ hra => ?_⟩
      · rw [hra, hty, if_neg (by decide)]
        exact immLane_int32 _ _
      · rw [hra, hty, if_neg (by decide)]
        exact immLane_fp32 _ _
      · rw [hra, if_pos rfl]
        exact upperHalf _ _
    | false =>
      refine ⟨((regFrame_issued s t th).drawImm _).setV _ _ _, fun _ i hi => ?_, nofun, nofun, nofun⟩
      rw [State.regLane, if_neg (by decide), elemAt_v_setV_packElems _ _ _ _ _ (length_replicate_le _ _), getD_replicate _ hi]

end Sys2Proof.Machine

/-! PROOFS. Results of the lanes (Table 5.1): signed integers, comparisons and NaN. -/

namespace Sys2Proof.Machine

/-! ## Signed integers -/

theorem signedOf_toNat {n : Nat} (hn : 0 < n) (a : BitVec n) : signedOf n a.toNat = a.toInt := by
  have hlt := a.isLt
  have hdouble : 2 ^ n = 2 * 2 ^ (n - 1) := by
    rw [← pow_succ']
    congr 1
    omega
  rw [signedOf, Nat.mod_eq_of_lt hlt, BitVec.toInt_eq_toNat_cond]
  split <;> split <;> omega

theorem wrapInt_eq_ofInt (n : Nat) (i : Int) : wrapInt n i = (BitVec.ofInt n i).toNat := by
  rw [wrapInt, BitVec.toNat_ofInt]

theorem wrapInt_sshiftRight {n : Nat} (a : BitVec n) (k : Nat) : wrapInt n (a.toInt / (2 ^ k : Nat)) = (a.sshiftRight k).toNat := by
  rw [wrapInt_eq_ofInt, BitVec.sshiftRight, Int.shiftRight_eq_div_pow]

/-- What INT8 results clamp to, and the saturation they count. -/
theorem intResult_int8 (i : Int) :
    intResult 1 i = ((BitVec.ofInt 8 (max (-128) (min 127 i))).toNat, if -128 ≤ i ∧ i ≤ 127 then 0 else 1) := by
  simp only [intResult, if_true, clampInt, wrapInt_eq_ofInt]
  split
  · rw [if_neg (by omega), max_eq_left (by omega)]
  · split
    · rw [if_neg (by omega), min_eq_left (by omega)]
      rfl
    · rw [if_pos (by omega), min_eq_right (by omega), max_eq_right (by omega)]

theorem intResult_int32 (i : Int) : intResult 2 i = ((BitVec.ofInt 32 i).toNat, 0) := by
  rw [intResult, if_neg (by decide), wrapInt_eq_ofInt]

section
variable {n : Nat} (a b : BitVec n)

theorem ofInt_toInt_add : BitVec.ofInt n (a.toInt + b.toInt) = a + b := by
  rw [BitVec.ofInt_add, BitVec.ofInt_toInt, BitVec.ofInt_toInt]

theorem ofInt_toInt_sub : BitVec.ofInt n (a.toInt - b.toInt) = a - b := by
  rw [Int.sub_eq_add_neg, BitVec.ofInt_add, BitVec.ofInt_neg, BitVec.ofInt_toInt, BitVec.ofInt_toInt, BitVec.sub_eq_add_neg]

theorem ofInt_toInt_mul : BitVec.ofInt n (a.toInt * b.toInt) = a * b := by
  rw [BitVec.ofInt_mul, BitVec.ofInt_toInt, BitVec.ofInt_toInt]

end

/-- Lanes of INT32. -/
theorem laneResult_int32 (a b : BitVec 32) (c : Nat) :
    laneResult 0x30 2 0 a.toNat b.toNat c = ((a + b).toNat, 0)
      ∧ laneResult 0x31 2 0 a.toNat b.toNat c = ((a - b).toNat, 0)
      ∧ laneResult 0x32 2 0 a.toNat b.toNat c = ((a * b).toNat, 0)
      ∧ laneResult 0x33 2 0 a.toNat b.toNat c = (if a.slt b then b.toNat else a.toNat, 0)
      ∧ laneResult 0x34 2 0 a.toNat b.toNat c = (if a.slt b then a.toNat else b.toNat, 0)
      ∧ laneResult 0x36 2 0 a.toNat b.toNat c = ((a <<< (b.toNat % 32)).toNat, 0)
      ∧ laneResult 0x37 2 0 a.toNat b.toNat c = ((a.sshiftRight (b.toNat % 32)).toNat, 0)
      ∧ laneResult 0x3C 2 0 a.toNat b.toNat c = (if a.slt 0 then 0 else a.toNat, 0) := by
  have ha : signedOf 32 a.toNat = a.toInt := signedOf_toNat (by decide) a
  have hb : signedOf 32 b.toNat = b.toInt := signedOf_toNat (by decide) b
  have hbits : laneBits 2 = 32 := rfl
  have hint : intType 2 = true := rfl
  refine ⟨?_, ?_, ?_, ?_, ?_, ?_, ?_, ?_⟩ <;> simp only [laneResult, hbits, hint, if_true, ha, hb]
  · rw [intResult_int32, ofInt_toInt_add]
  · rw [intResult_int32, ofInt_toInt_sub]
  · rw [intResult_int32, ofInt_toInt_mul]
  · simp only [BitVec.slt, decide_eq_true_eq]
  · simp only [BitVec.slt, decide_eq_true_eq]
  · rw [BitVec.toNat_shiftLeft]
  · rw [wrapInt_sshiftRight]
  · simp only [BitVec.slt, decide_eq_true_eq, BitVec.ofNat_eq_ofNat, BitVec.toInt_zero]

/-- Lanes of INT8. -/
theorem laneResult_int8 (a b : BitVec 8) (c : Nat) :
    let clamp (i : Int) : Nat × Nat :=
      ((BitVec.ofInt 8 (max (-128) (min 127 i))).toNat, if -128 ≤ i ∧ i ≤ 127 then 0 else 1)
    laneResult 0x30 1 0 a.toNat b.toNat c = clamp (a.toInt + b.toInt)
      ∧ laneResult 0x31 1 0 a.toNat b.toNat c = clamp (a.toInt - b.toInt)
      ∧ laneResult 0x32 1 0 a.toNat b.toNat c = clamp (a.toInt * b.toInt)
      ∧ laneResult 0x33 1 0 a.toNat b.toNat c = (if a.slt b then b.toNat else a.toNat, 0)
      ∧ laneResult 0x34 1 0 a.toNat b.toNat c = (if a.slt b then a.toNat else b.toNat, 0)
      ∧ laneResult 0x36 1 0 a.toNat b.toNat c = ((a <<< (b.toNat % 8)).toNat, 0)
      ∧ laneResult 0x37 1 0 a.toNat b.toNat c = ((a.sshiftRight (b.toNat % 8)).toNat, 0) := by
  have ha : signedOf 8 a.toNat = a.toInt := signedOf_toNat (by decide) a
  have hb : signedOf 8 b.toNat = b.toInt := signedOf_toNat (by decide) b
  have hbits : laneBits 1 = 8 := rfl
  have hint : intType 1 = true := rfl
  refine ⟨?_, ?_, ?_, ?_, ?_, ?_, ?_⟩ <;> simp only [laneResult, hbits, hint, if_true, ha, hb]
  · exact intResult_int8 _
  · exact intResult_int8 _
  · exact intResult_int8 _
  · simp only [BitVec.slt, decide_eq_true_eq]
  · simp only [BitVec.slt, decide_eq_true_eq]
  · rw [BitVec.toNat_shiftLeft]
  · rw [wrapInt_sshiftRight]

/-! ## Comparisons -/

theorem scaledInt_ofInt (i : Int) : scaledInt (decide (i < 0)) i.natAbs 1 0 = i := by
  simp only [scaledInt, Int.toNat_zero, pow_zero, Nat.mul_one, decide_eq_true_eq]
  split <;> omega

theorem ofInt_lt_ofInt (i j : Int) : (Num.ofInt i).lt (Num.ofInt j) = decide (i < j) := by
  simp only [Num.ofInt, Num.lt, min_self, sub_self, scaledInt_ofInt]

/-- COND of INT32 lanes. -/
theorem laneCond_int32 (a b : BitVec 32) :
    laneCond 2 0 a.toNat b.toNat = (a == b) ∧ laneCond 2 1 a.toNat b.toNat = (a != b) ∧ laneCond 2 2 a.toNat b.toNat = a.slt b
      ∧ laneCond 2 3 a.toNat b.toNat = a.sle b ∧ laneCond 2 4 a.toNat b.toNat = b.slt a ∧ laneCond 2 5 a.toNat b.toNat = b.sle a := by
  have hdecode (x : BitVec 32) : decodeElem 2 x.toNat = .ofInt x.toInt :=
    congrArg Num.ofInt (signedOf_toNat (by decide) x)
  have hnan (i : Int) : (Num.ofInt i).isNan = false := rfl
  have heq : (Num.ofInt a.toInt).eq (Num.ofInt b.toInt) = (a == b) := by
    rw [Bool.eq_iff_iff, Num.eq, hnan, hnan, ofInt_lt_ofInt, ofInt_lt_ofInt, beq_iff_eq, ← BitVec.toInt_inj]
    simp only [Bool.not_false, Bool.true_and, Bool.and_eq_true, Bool.not_eq_true', decide_eq_false_iff_not]
    omega
  have hle (x y : BitVec 32) : (!decide (y.toInt < x.toInt)) = x.sle y := by
    rw [BitVec.sle, ← decide_not]
    simp only [not_lt]
  refine ⟨?_, ?_, ?_, ?_, ?_, ?_⟩ <;>
    simp only [laneCond, hdecode, hnan, heq, ofInt_lt_ofInt, hle, Bool.or_self, Bool.not_false, Bool.true_and, bne, BitVec.slt]

/-! ## NaN -/

theorem Num.isNan_iff {x : Num} : x.isNan = true ↔ x = .nan := by
  cases x <;> simp [Num.isNan]

theorem Num.add_nan {x y : Num} (h : x.isNan = true ∨ y.isNan = true) : x.add y = .nan := by
  simp only [Num.isNan_iff] at h
  obtain rfl | rfl := h
  · rfl
  · cases x <;> rfl

theorem Num.mul_nan {x y : Num} (h : x.isNan = true ∨ y.isNan = true) : x.mul y = .nan := by
  simp only [Num.isNan_iff] at h
  obtain rfl | rfl := h
  · rfl
  · cases x <;> rfl

theorem Num.isNan_neg (x : Num) : x.neg.isNan = x.isNan := by
  cases x <;> rfl

theorem Num.eq_nan {x y : Num} (h : x.isNan = true ∨ y.isNan = true) : x.eq y = false := by
  obtain h | h := h <;> simp [Num.eq, h]

theorem floatResult_nan {ty : Nat} (h : ty = 5 ∨ ty = 6) :
    floatResult ty .nan = (if ty = 5 then 0x7FC0 else 0x7FC00000, 0) := by
  obtain rfl | rfl := h <;> decide

/-- A NaN operand of a floating operation or comparison. -/
theorem laneResult_nan {ty a b : Nat} (c : Nat) (hty : ty = 5 ∨ ty = 6)
    (h : (decodeElem ty a).isNan = true ∨ (decodeElem ty b).isNan = true) :
    ∀ op ∈ [0x30, 0x31, 0x32, 0x33, 0x34], laneResult op ty 0 a b c = (if ty = 5 then 0x7FC0 else 0x7FC00000, 0) := by
  have hint : intType ty = false := by obtain rfl | rfl := hty <;> rfl
  have hor : ((decodeElem ty a).isNan || (decodeElem ty b).isNan) = true := by simpa using h
  have hneg : (decodeElem ty a).isNan = true ∨ (decodeElem ty b).neg.isNan = true := by rwa [Num.isNan_neg]
  have hfalse : ¬(false = true) := Bool.false_ne_true
  simp only [List.forall_mem_cons, laneResult, hint, if_neg hfalse, Num.add_nan h, Num.sub, Num.add_nan hneg, Num.mul_nan h,
    floatMax, floatMin, if_pos hor, floatResult_nan hty]
  simp

theorem laneCond_nan {ty a b : Nat} (h : (decodeElem ty a).isNan = true ∨ (decodeElem ty b).isNan = true) :
    laneCond ty 0 a b = false ∧ laneCond ty 1 a b = true ∧ laneCond ty 2 a b = false ∧ laneCond ty 3 a b = false
      ∧ laneCond ty 4 a b = false ∧ laneCond ty 5 a b = false := by
  have hor : ((decodeElem ty a).isNan || (decodeElem ty b).isNan) = true := by simpa using h
  simp [laneCond, Num.eq_nan h, hor]

theorem canonNan_float {ty : Nat} (z : Nat) (hty : ty = 5 ∨ ty = 6) :
    canonNan ty z = if (decodeElem ty z).isNan then (if ty = 5 then 0x7FC0 else 0x7FC00000) else z := by
  have hint : intType ty = false := by obtain rfl | rfl := hty <;> rfl
  simp only [canonNan, hint, floatResult_nan hty, Bool.not_false, Bool.true_and]

/-- Settles O15: the lanes of integers as sums, products, shifts and clamps of two's complement, the comparisons as those
of the numbers decoded, and NaN through every branch. -/
theorem laneResults : Obligations.LaneResults := by
  refine ⟨⟨fun a b c => ?int32, laneResult_int8⟩, fun ty cond a b c hty => ?select, fun ty cond a b c hty => canonNan_float _ hty,
    laneCond_int32, fun ty a b c hty h => ⟨laneCond_nan h, laneResult_nan c hty h⟩⟩
  case int32 =>
    obtain ⟨hadd, hsub, hmul, hmax, hmin, hshl, hshr, hrelu⟩ := laneResult_int32 a b c
    refine ⟨hadd, hsub, hmul, hmax, hmin, hshl, hshr, ?_, ?_, ?_, hrelu⟩
    · rw [BitVec.toNat_and]
      rfl
    · rw [BitVec.toNat_or]
      rfl
    · rw [BitVec.toNat_xor]
      rfl
  case select => obtain rfl | rfl := hty <;> rfl

end Sys2Proof.Machine

/-! PROOFS. Bells: the clause on a full inbox fails where the table of tiles is out of order. -/

namespace Sys2Proof.Machine

/-- Tile 1 may issue a BELL whose route 3 leads to logical tile 9. Tiles 5 and 1 both stand for tile 9, and the table lists
tile 5, with four tokens in its inbox, before tile 1: the issue writes tile 1 anew, ahead of tile 5, and tile 1 with its
empty inbox is then the first that stands for tile 9. -/
def disorderedBell : State :=
  let full : Tile := { mapped := true, logical := 9, inbox := [(7, [1, 1, 1, 1])] }
  let ringing : Tile := { mapped := true, logical := 9, enabled := true, threads := [(0, { mode := .running })]
                          bells := [(3, { thread := 0, send := true, dests := [(9, 7, 4)] })] }
  { State.reset with
    tiles := [(5, full), (1, ringing), (9, { mapped := false })]
    mem := memWrite [] (tileAddr 1 0xF0000) (natLE 8 (0x12 <<< 58 + 3 <<< 52 + 0x5A)) }

/-- What `disorderedBell` does on its BELL: its thread issues and does not wait. -/
theorem disorderedBell_sends : disorderedBell.Issues 1 0 0x12 ∧ disorderedBell.bellFull 1 (yRoute (disorderedBell.pcWord 1 0)) = true
    ∧ ∀ u, exec (.bell 1 0) disorderedBell = .next u → (u.thread 1 0).wait = .none := by
  have hwait : (match exec (.bell 1 0) disorderedBell with
      | .next u => decide ((u.thread 1 0).wait = .none)
      | _ => true) = true := by decide +kernel
  refine ⟨by decide +kernel, by decide +kernel, fun u hu => ?_⟩
  rw [hu] at hwait
  exact of_decide_eq_true hwait

/-- Refutes O12: with a table of tiles out of order, the issue itself changes which tile stands for a bell's destination, so
a bell that found the inbox full before its issue finds room after it. -/
theorem not_bellsCarryTokens : ¬ Obligations.BellsCarryTokens := by
  rintro ⟨hsend, -⟩
  obtain ⟨hissues, hfull, hsends⟩ := disorderedBell_sends
  obtain ⟨u, hu, -, hthread⟩ := (hsend 1 0 disorderedBell hissues).1 hfull
  have hwait := hsends u hu
  rw [hthread] at hwait
  exact Wait.noConfusion hwait

end Sys2Proof.Machine

/-! PROOFS. Marks and entries that leave (R131, R148, R191): `Marks s u` says that u differs from s, in its tiles, skips
and rows, by the two marks of a tile and by what is on its way on a skip alone. -/

namespace Sys2Proof.Machine

/-- Only miss and degraded marks of tiles and entries on their way differ. -/
structure Marks (s u : State) : Prop where
  tile : ∀ x, u.tile x = { s.tile x with missMark := (u.tile x).missMark, degradedMark := (u.tile x).degradedMark }
  skip : ∀ k, u.skip k = { s.skip k with fly := (u.skip k).fly }
  power : u.power = s.power
  images : u.images = s.images

namespace Marks

variable {s u w : State}

theorem refl (s : State) : Marks s s := ⟨fun _ => rfl, fun _ => rfl, rfl, rfl⟩

theorem trans (h : Marks s u) (h' : Marks u w) : Marks s w :=
  ⟨fun x => by rw [h'.tile x, h.tile x], fun k => by rw [h'.skip k, h.skip k], h'.power.trans h.power, h'.images.trans h.images⟩

/-- An update that leaves tiles, skips, rows and images alone. -/
theorem same (h : Marks s u) (htiles : w.tiles = u.tiles) (hskips : w.skips = u.skips) (hpower : w.power = u.power)
    (himages : w.images = u.images) : Marks s w :=
  h.trans ⟨fun x => by simp only [State.tile, htiles], fun k => by simp only [State.skip, hskips], hpower, himages⟩

theorem ite {c : Prop} [Decidable c] {a b : State} (ha : Marks s a) (hb : Marks s b) : Marks s (if c then a else b) := by
  split
  · exact ha
  · exact hb

theorem foldl {α : Type} {f : State → α → State} {l : List α} (hf : ∀ u x, Marks s u → Marks s (f u x)) (h : Marks s u) :
    Marks s (l.foldl f u) :=
  foldl_keeps (Marks s) f hf l u h

/-- A change of a tile's marks. -/
theorem modTile (h : Marks s u) (t : Nat) (f : Tile → Tile)
    (hf : ∀ y, f y = { y with missMark := (f y).missMark, degradedMark := (f y).degradedMark }) : Marks s (u.modTile t f) := by
  refine h.trans ⟨fun x => ?_, fun _ => rfl, rfl, rfl⟩
  by_cases hx : x = t
  · subst hx
    rw [tile_modTile]
    exact hf _
  · rw [tile_modTile_other _ _ _ _ hx]

/-- A change of what is on its way on a skip. -/
theorem modSkip (h : Marks s u) (k : Nat) (f : Skip → Skip) (hf : ∀ y, f y = { y with fly := (f y).fly }) :
    Marks s (u.modSkip k f) := by
  refine h.trans ⟨fun _ => rfl, fun x => ?_, rfl, rfl⟩
  by_cases hx : x = k
  · subst hx
    rw [skip_modSkip]
    exact hf _
  · rw [skip_modSkip_other _ _ _ _ hx]

theorem raise (h : Marks s u) (k : EvKind) (e : EvArgs) : Marks s (u.raise k e) := h.same (by simp) (by simp) (by simp) (by simp)

theorem count (h : Marks s u) (k i c n : Nat) : Marks s (u.count k i c n) := h.same (by simp) (by simp) (by simp) (by simp)

theorem modClaim (h : Marks s u) (c : Nat) (f : Claim → Claim) : Marks s (u.modClaim c f) := h.same rfl rfl rfl rfl

theorem hit (h : Marks s u) (o b : Nat) : Marks s (u.hit o b) := h.same rfl rfl rfl rfl

theorem draw (h : Marks s u) : Marks s u.draw := h.same rfl rfl rfl rfl

theorem markMiss (h : Marks s u) (t : Nat) : Marks s (u.markMiss t) := by
  unfold State.markMiss
  exact .foldl (fun _ _ h => .foldl (fun _ _ h => .ite (.foldl (fun _ _ h => h.modSkip _ _ (fun _ => rfl)) h) h)
    (h.modTile _ _ (fun _ => rfl))) h

theorem markDegraded (h : Marks s u) (t : Nat) : Marks s (u.markDegraded t) := by
  unfold State.markDegraded
  exact .foldl (fun _ _ h => h.modTile _ _ (fun _ => rfl)) h

theorem markFrom (h : Marks s u) (t : Nat) (ws : List RWord) : Marks s (u.markFrom t ws) := by
  unfold State.markFrom
  exact .ite (.markDegraded (.ite (h.markMiss t) h) t) (.ite (h.markMiss t) h)

theorem uninitRead (h : Marks s u) (c a n : Nat) : Marks s (u.uninitRead c a n) := by
  unfold State.uninitRead
  split
  · exact h
  · extract_lets x first total s1 due
    have h1 : Marks s s1 := h.count _ _ _ _
    exact .ite (((h1.raise _ _).modClaim _ _).hit _ _) ((h1.modClaim _ _).hit _ _)

theorem noteTileRead (h : Marks s u) (t o n : Nat) : Marks s (u.noteTileRead t o n) := by
  -- The kernel would evaluate the match's list on the applied function, so it is unfolded before it is applied.
  have unfolded (f) (hf : f = @State.noteTileRead) : Marks s (f u t o n) := by
    delta State.noteTileRead at hf
    subst hf
    beta_reduce
    generalize u.unwrittenWords (tileAddr t o) n = ws
    cases ws with
    | nil => exact h
    | cons => exact .ite (h.markMiss _) (h.uninitRead _ _ _)
  exact unfolded _ rfl

theorem sendEntry (h : Marks s u) (t p delay : Nat) (e : Entry) : Marks s (u.sendEntry t p delay e) := by
  unfold State.sendEntry
  exact .foldl (fun _ _ h => h.modSkip _ _ (fun _ => rfl)) h

theorem pushEntry (h : Marks s u) (t p delay seq after : Nat) (e : Entry) : Marks s (u.pushEntry t p delay seq after e) := by
  unfold State.pushEntry
  exact .sendEntry (.ite h.draw h) _ _ _ _

theorem oqSend (h : Marks s u) (t : Nat) (m : MacOp) (base : Nat) : Marks s (u.oqSend t m base) := by
  unfold State.oqSend
  exact .foldl (fun _ _ h => h.pushEntry _ _ _ _ _ _) h

theorem moveSend (h : Marks s u) (t : Nat) (m : BlockMove) (base : Nat) : Marks s (u.moveSend t m base) := by
  unfold State.moveSend
  exact .foldl (fun _ _ h => .pushEntry (h.noteTileRead _ _ _) _ _ _ _ _ _) h

/-! ### What the marks leave alone -/

theorem thread (h : Marks s u) (t th : Nat) : u.thread t th = s.thread t th := by
  rw [State.thread, h.tile t]
  rfl

theorem rowFc (h : Marks s u) (t : Nat) : u.rowFc t = s.rowFc t := by
  simp only [State.rowFc, State.row, h.power]

end Marks

/-! ## Starting the units of a tile -/

/-- Units of a tile other than streams that have not started and that nothing holds. -/
def Tile.readyMacs (x : Tile) : List MacOp :=
  x.macs.filter (fun m => (m.kind == .rq || m.kind == .oq) && m.startedAt.isNone && !x.held m.issuedAt (macTouch m))
def Tile.readyMoves (x : Tile) : List BlockMove :=
  x.moves.filter (fun m => m.startedAt.isNone && !x.held m.issuedAt (moveTouch m))
def Tile.readyFns (x : Tile) : List FnCall :=
  x.fns.filter (fun f => f.startedAt.isNone && !x.held f.issuedAt (fnTouch f))

/-- The tile once they have started. -/
def Tile.startReady (x : Tile) (base : Nat) : Tile :=
  { x with
    macs := x.macs.map (fun m => if x.readyMacs.contains m then { m with startedAt := some base } else m)
    moves := x.moves.map (fun m => if x.readyMoves.contains m then m.start base else m)
    fns := x.fns.map (fun f => if x.readyFns.contains f then { f with startedAt := some base } else f) }

/-- Starting units starts those that are ready, and what they then send is marks and entries on their way. -/
theorem startUnits_marks (s : State) (t base : Nat) :
    Marks (s.modTile t (fun x => x.startReady base)) (s.startUnits t base) := by
  unfold State.startUnits
  exact .foldl (fun _ _ h => .ite (h.moveSend _ _ _) h) (.foldl (fun _ _ h => .ite (h.oqSend _ _ _) h) (.refl _))

/-- A fold whose function leaves each member alone. -/
theorem foldl_eq_self {α β : Type} {f : β → α → β} {l : List α} (h : ∀ x ∈ l, ∀ b, f b x = b) (b : β) : l.foldl f b = b := by
  induction l with
  | nil => rfl
  | cons x l ih =>
    obtain ⟨hx, hl⟩ := List.forall_mem_cons.1 h
    rw [List.foldl_cons, hx, ih hl]

/-- Where neither an output nor a push starts, nothing is sent. -/
theorem startUnits_eq {s : State} {t : Nat} (base : Nat) (hmacs : ∀ m ∈ (s.tile t).macs, m.kind = .oq → m.upTo ≠ 0 → m.startedAt ≠ none)
    (hmoves : ∀ m ∈ (s.tile t).moves, m.push = true → m.startedAt ≠ none) :
    s.startUnits t base = s.modTile t (fun x => x.startReady base) := by
  unfold State.startUnits
  dsimp only
  rw [foldl_eq_self (fun m hm b => ?_), foldl_eq_self (fun m hm b => ?_)]
  · rfl
  · simp only [List.mem_filter, Bool.and_eq_true, Option.isNone_iff_eq_none] at hm
    refine if_neg fun hsend => ?_
    simp only [Bool.and_eq_true, beq_iff_eq, bne_iff_ne] at hsend
    exact hmacs m hm.1 hsend.1 hsend.2 hm.2.1.2
  · simp only [List.mem_filter, Bool.and_eq_true, Option.isNone_iff_eq_none] at hm
    exact if_neg fun hpush => hmoves m hm.1 hpush hm.2.1

/-- A move in flight stays in flight, started or not. -/
theorem exists_mem_startReady {x : Tile} {m : BlockMove} (base : Nat) (hm : m ∈ x.moves) :
    ∃ n ∈ (x.startReady base).moves, n = m ∨ n = m.start base := by
  refine ⟨_, List.mem_map_of_mem hm, ?_⟩
  split
  · exact .inr rfl
  · exact .inl rfl

end Sys2Proof.Machine

/-! PROOFS. POP and PEEK (R144 to R150). -/

namespace Sys2Proof.Machine

/-! ## Objects after updates of others -/

@[simp] theorem thread_modSkip (s : State) (k x th : Nat) (f : Skip → Skip) : (s.modSkip k f).thread x th = s.thread x th := rfl
@[simp] theorem tile_modSkip (s : State) (k x : Nat) (f : Skip → Skip) : (s.modSkip k f).tile x = s.tile x := rfl
@[simp] theorem skip_modTile (s : State) (t k : Nat) (f : Tile → Tile) : (s.modTile t f).skip k = s.skip k := rfl
@[simp] theorem skip_modThread (s : State) (t th k : Nat) (f : Thread → Thread) : (s.modThread t th f).skip k = s.skip k := rfl
@[simp] theorem skip_count (s : State) (k i c n x : Nat) : (s.count k i c n).skip x = s.skip x := by simp [State.skip]
@[simp] theorem thread_count (s : State) (k i c n x th : Nat) : (s.count k i c n).thread x th = s.thread x th := by
  simp [State.thread, tile_count]

/-- A field of a tile that an update leaves alone is left alone in every tile. -/
theorem field_modTile {α : Type} (g : Tile → α) (s : State) (t x : Nat) (f : Tile → Tile) (h : ∀ y, g (f y) = g y) :
    g ((s.modTile t f).tile x) = g (s.tile x) := by
  by_cases hx : x = t
  · rw [hx, tile_modTile, h]
  · rw [tile_modTile_other _ _ _ _ hx]

/-! ## The frame of a queue instruction -/

theorem TileSkipFrame.issued (s : State) (t th : Nat) (ks : List Nat) : TileSkipFrame s (s.issued t th) t ks := by
  obtain ⟨⟨hrest, htiles, -⟩, -⟩ := issued_threadFrame s t th
  refine ⟨?_, htiles, fun k _ => skip_issued s t th k⟩
  rw [hrest]

section
variable {s u : State} {t : Nat} {ks : List Nat}

theorem TileSkipFrame.modTile (h : TileSkipFrame s u t ks) (f : Tile → Tile) : TileSkipFrame s (u.modTile t f) t ks := by
  obtain ⟨hrest, htiles, hskips⟩ := h
  refine ⟨?_, fun x hx => ?_, hskips⟩
  · rw [hrest]
    rfl
  · rw [tile_modTile_other _ _ _ _ hx, htiles x hx]

theorem TileSkipFrame.modThread (h : TileSkipFrame s u t ks) (th : Nat) (f : Thread → Thread) :
    TileSkipFrame s (u.modThread t th f) t ks := h.modTile _

theorem TileSkipFrame.modSkip (h : TileSkipFrame s u t ks) {k : Nat} (hk : k ∈ ks) (f : Skip → Skip) :
    TileSkipFrame s (u.modSkip k f) t ks := by
  obtain ⟨hrest, htiles, hskips⟩ := h
  refine ⟨?_, htiles, fun x hx => ?_⟩
  · rw [hrest]
    rfl
  · rw [skip_modSkip_other _ _ _ _ (ne_of_mem_of_not_mem hk hx).symm, hskips x hx]

theorem TileSkipFrame.hit (h : TileSkipFrame s u t ks) (o b : Nat) : TileSkipFrame s (u.hit o b) t ks := by
  obtain ⟨hrest, htiles, hskips⟩ := h
  refine ⟨?_, htiles, hskips⟩
  rw [hrest]
  rfl

theorem TileSkipFrame.count (h : TileSkipFrame s u t ks) (k i c n : Nat) : TileSkipFrame s (u.count k i c n) t ks := by
  obtain ⟨hrest, htiles, hskips⟩ := h
  refine ⟨?_, fun x hx => ?_, fun x hx => ?_⟩
  · rw [hrest, State.count]
    split <;> rfl
  · rw [tile_count, htiles x hx]
  · rw [skip_count, hskips x hx]

end

/-! ## The words of a skip -/

/-- The visible words, the consumed ones and the flags of a skip, which a fetch and a timer leave alone. -/
def Skip.wordFields (k : Skip) : List RWord × List RWord × Nat × Bool × Bool :=
  (k.words, k.consumed, k.consumedCount, k.underrun, k.widthMismatch)

theorem refill_eq (k : Skip) (fc n : Nat) : k.refill fc n = { k with fetches := (k.refill fc n).fetches } := by
  induction n generalizing k with
  | zero => rfl
  | succ n ih =>
    rw [Skip.refill]
    split
    · rw [ih]
    · rfl

theorem touch_eq (k : Skip) : k.touch = { k with timer := k.touch.timer, activeTimeout := k.touch.activeTimeout } := by
  unfold Skip.touch
  split <;> rfl

@[simp] theorem wordFields_refill (k : Skip) (fc n : Nat) : (k.refill fc n).wordFields = k.wordFields := by
  rw [refill_eq]
  rfl

@[simp] theorem wordFields_touch (k : Skip) : k.touch.wordFields = k.wordFields := by
  rw [touch_eq]
  rfl

theorem wordFields_consume (k : Skip) (n fc : Nat) :
    (k.consume n fc).wordFields = (k.words.drop n, k.consumed ++ k.words.take n, k.consumedCount + (k.words.take n).length,
      k.underrun, k.widthMismatch) := by
  rw [Skip.consume, wordFields_refill, wordFields_touch]
  rfl

theorem Marks.wordFields {s u : State} (h : Marks s u) (k : Nat) : (u.skip k).wordFields = (s.skip k).wordFields := by
  rw [h.skip k]
  rfl

/-! ## What a word that is read gives its thread -/

/-- The registers that the head word of a POP or PEEK gives: its data, and its mask as ZM if it is a zero-run entry. -/
def State.popLoad (s : State) (t th w : Nat) (h : RWord) : State :=
  if h.zrc then (s.popWrite t th w h.data).setZM t th 2 h.mask else s.popWrite t th w h.data

theorem TileSkipFrame.setV {s u : State} {t : Nat} {ks : List Nat} (h : TileSkipFrame s u t ks) (th r lat : Nat) (x : Line) :
    TileSkipFrame s (u.setV t th r lat x) t ks := by
  unfold State.setV
  exact h.modThread _ _

theorem TileSkipFrame.setG {s u : State} {t : Nat} {ks : List Nat} (h : TileSkipFrame s u t ks) (th r lat : Nat) (x : Word) :
    TileSkipFrame s (u.setG t th r lat x) t ks := by
  unfold State.setG
  exact h.modThread _ _

theorem TileSkipFrame.setZM {s u : State} {t : Nat} {ks : List Nat} (h : TileSkipFrame s u t ks) (th lat : Nat) (x : DWord) :
    TileSkipFrame s (u.setZM t th lat x) t ks := by
  unfold State.setZM
  exact h.modThread _ _

theorem TileSkipFrame.popWrite {s u : State} {t : Nat} {ks : List Nat} (h : TileSkipFrame s u t ks) (th w : Nat) (x : Line) :
    TileSkipFrame s (u.popWrite t th w x) t ks := by
  unfold State.popWrite
  split
  · exact h.setV _ _ _ _
  · exact h.setG _ _ _ _

@[simp] theorem skip_popWrite (s : State) (t th w k : Nat) (x : Line) : (s.popWrite t th w x).skip k = s.skip k := by
  unfold State.popWrite
  split <;> rfl

theorem popWrite_regs (s : State) (t th w : Nat) (x : Line) :
    let u := s.popWrite t th w x
    (qTk w = 0 → u.v t th (qReg w) = x) ∧ (qTk w = 1 → u.g t th (qReg w) = x.setWidth 32)
      ∧ (u.thread t th).regs.zm = (s.thread t th).regs.zm ∧ (u.thread t th).regs.lastPop = (s.thread t th).regs.lastPop := by
  unfold State.popWrite
  split
  next h0 =>
    refine ⟨fun _ => v_setV_same _ _ _ _ _ _, fun h1 => by omega, ?_, ?_⟩ <;> simp [State.setV, Thread.keep]
  next h0 =>
    refine ⟨fun h => absurd h h0, fun _ => ?_, ?_, ?_⟩
    · rw [g_setG_same, BitVec.ofNat_toNat]
    all_goals simp [State.setG, Thread.keep]

theorem TileSkipFrame.popLoad {s u : State} {t : Nat} {ks : List Nat} (h : TileSkipFrame s u t ks) (th w : Nat) (x : RWord) :
    TileSkipFrame s (u.popLoad t th w x) t ks := by
  unfold State.popLoad
  split
  · exact (h.popWrite _ _ _).setZM _ _ _
  · exact h.popWrite _ _ _

@[simp] theorem skip_popLoad (s : State) (t th w k : Nat) (x : RWord) : (s.popLoad t th w x).skip k = s.skip k := by
  unfold State.popLoad
  split
  · exact skip_popWrite _ _ _ _ _ _
  · exact skip_popWrite _ _ _ _ _ _

theorem popLoad_regs (s : State) (t th w : Nat) (h : RWord) :
    let r := ((s.popLoad t th w h).thread t th).regs
    (qTk w = 0 → lookD r.v (qReg w) 0 = h.data) ∧ (qTk w = 1 → lookD r.g (qReg w) 0 = h.data.setWidth 32)
      ∧ r.zm = (if h.zrc then h.mask else (s.thread t th).regs.zm) ∧ r.lastPop = (s.thread t th).regs.lastPop := by
  obtain ⟨hv, hg, hzm, hlast⟩ := popWrite_regs s t th w h.data
  unfold State.popLoad
  split
  next hz =>
    have hset : (((s.popWrite t th w h.data).setZM t th 2 h.mask).thread t th).regs
        = { ((s.popWrite t th w h.data).thread t th).regs with zm := h.mask } := by
      rw [State.setZM, thread_modThread]
    rw [hset]
    exact ⟨hv, hg, rfl, hlast⟩
  next hz => exact ⟨hv, hg, by rw [hzm], hlast⟩

/-! ## POP and PEEK of a visible word -/

/-- What a POP does to its skip and to the last value popped, and a PEEK only to the skip's timer. -/
def State.popTake (s : State) (t th p k fc : Nat) (h : RWord) (peek : Bool) : State :=
  if peek then s.modSkip k Skip.touch
  else (s.modSkip k (fun x => x.consume 1 fc)).modRegs t th (fun r => { r with lastPop := put r.lastPop p h.data })

/-- A head that has no word yet: the register is awaited and the access waits for the next word (R183). -/
def State.popAwait (s : State) (t th k r fc : Nat) (peek : Bool) : State :=
  (s.awaitReg t th r).modSkip k (fun x => ({ x with popWait := x.popWait ++ [(t, th, r, peek)] }).refill fc 16)

theorem popRegister_head {s : State} {t th w : Nat} {h : RWord} {ws : List RWord}
    (hnet : decide ((s.skip (s.portSkip t (qPort w))).cfg.net = 1) = (qTk w == 1)) (hpop : s.poppable t (qPort w) ≠ 0)
    (hwords : (s.skip (s.portSkip t (qPort w))).words = h :: ws) (hz : (h.zrc && qTk w == 1) = false) (peek : Bool) :
    s.popRegister t th w peek =
      let k := s.portSkip t (qPort w)
      let s4 := ((s.popLoad t th w h).markFrom t [h]).popTake t th (qPort w) k (s.rowFc t) h peek
      if (s.skip k).headWords = 0 then s4.popAwait t th k ((if qTk w = 0 then 32 else 0) + qReg w) (s.rowFc t) peek else s4 := by
  have hsignal : ¬((decide ((s.skip (s.portSkip t (qPort w))).cfg.net = 1) != (qTk w == 1)) = true) := by
    rw [hnet, bne_self_eq_false]
    decide
  simp only [State.popRegister, if_neg hsignal, if_neg hpop, hwords, if_neg (Bool.eq_false_iff.1 hz)]
  rfl

/-- The registers of the thread and the words of the skip after a POP or PEEK of a visible word. -/
theorem popRegister_head_fields {s : State} {t th w : Nat} {h : RWord} {ws : List RWord}
    (hnet : decide ((s.skip (s.portSkip t (qPort w))).cfg.net = 1) = (qTk w == 1)) (hpop : s.poppable t (qPort w) ≠ 0)
    (hwords : (s.skip (s.portSkip t (qPort w))).words = h :: ws) (hz : (h.zrc && qTk w == 1) = false) (peek : Bool) :
    let u := s.popRegister t th w peek
    let k := s.portSkip t (qPort w)
    let x := s.skip k
    let r := ((s.popLoad t th w h).thread t th).regs
    (u.thread t th).regs = (if peek then r else { r with lastPop := put r.lastPop (qPort w) h.data })
      ∧ (u.skip k).wordFields = (if peek then x.wordFields
          else (ws, x.consumed ++ [h], x.consumedCount + 1, x.underrun, x.widthMismatch)) := by
  rw [popRegister_head hnet hpop hwords hz]
  dsimp only
  have hmarks := (Marks.refl (s.popLoad t th w h)).markFrom t [h]
  have htake : let v := ((s.popLoad t th w h).markFrom t [h]).popTake t th (qPort w) (s.portSkip t (qPort w)) (s.rowFc t) h peek
      (v.thread t th).regs = (if peek then ((s.popLoad t th w h).thread t th).regs
          else { ((s.popLoad t th w h).thread t th).regs with
            lastPop := put ((s.popLoad t th w h).thread t th).regs.lastPop (qPort w) h.data })
        ∧ (v.skip (s.portSkip t (qPort w))).wordFields = (if peek then (s.skip (s.portSkip t (qPort w))).wordFields
            else (ws, (s.skip (s.portSkip t (qPort w))).consumed ++ [h], (s.skip (s.portSkip t (qPort w))).consumedCount + 1,
              (s.skip (s.portSkip t (qPort w))).underrun, (s.skip (s.portSkip t (qPort w))).widthMismatch)) := by
    have hskip := hmarks.skip (s.portSkip t (qPort w))
    rw [skip_popLoad] at hskip
    unfold State.popTake
    cases peek with
    | true =>
      simp only [if_true, thread_modSkip, hmarks.thread, skip_modSkip, wordFields_touch, true_and]
      rw [hmarks.wordFields, skip_popLoad]
    | false =>
      simp only [Bool.false_eq_true, if_false]
      refine ⟨?_, ?_⟩
      · rw [State.modRegs, thread_modThread, thread_modSkip, hmarks.thread]
      · rw [State.modRegs, skip_modThread, skip_modSkip, wordFields_consume, hskip]
        simp [hwords]
  split
  · unfold State.popAwait
    refine ⟨?_, ?_⟩
    · rw [thread_modSkip, State.awaitReg, thread_modThread]
      exact htake.1
    · rw [skip_modSkip, wordFields_refill, ← htake.2]
      rfl
  · exact htake

/-- A POP or PEEK of a word without marks stays inside the frame of its skip. -/
theorem popRegister_head_frame {s : State} {t th w : Nat} {h : RWord} {ws : List RWord} (v : State) (hv : TileSkipFrame v s t
      [s.portSkip t (qPort w)])
    (hnet : decide ((s.skip (s.portSkip t (qPort w))).cfg.net = 1) = (qTk w == 1)) (hpop : s.poppable t (qPort w) ≠ 0)
    (hwords : (s.skip (s.portSkip t (qPort w))).words = h :: ws) (hz : (h.zrc && qTk w == 1) = false) (peek : Bool)
    (hmiss : h.miss = false) (hdegraded : h.degraded = false) :
    TileSkipFrame v (s.popRegister t th w peek) t [s.portSkip t (qPort w)] := by
  have hmarks : (s.popLoad t th w h).markFrom t [h] = s.popLoad t th w h := by simp [State.markFrom, hmiss, hdegraded]
  have hmem : s.portSkip t (qPort w) ∈ [s.portSkip t (qPort w)] := List.mem_singleton.2 rfl
  have htake : TileSkipFrame v (((s.popLoad t th w h).markFrom t [h]).popTake t th (qPort w) (s.portSkip t (qPort w))
      (s.rowFc t) h peek) t [s.portSkip t (qPort w)] := by
    rw [hmarks]
    unfold State.popTake
    split
    · exact (hv.popLoad _ _ _).modSkip hmem _
    · exact ((hv.popLoad _ _ _).modSkip hmem _).modThread _ _
  rw [popRegister_head hnet hpop hwords hz]
  dsimp only
  split
  · exact (htake.modThread _ _).modSkip hmem _
  · exact htake

/-! ## Access without a visible word -/

theorem popRegister_empty {s : State} {t th w : Nat}
    (hnet : decide ((s.skip (s.portSkip t (qPort w))).cfg.net = 1) = (qTk w == 1)) (hpop : s.poppable t (qPort w) = 0) (peek : Bool) :
    s.popRegister t th w peek
      = ((s.popWrite t th w (s.lastPop t th (qPort w))).modSkip (s.portSkip t (qPort w)) Skip.touch).underrun t
          (s.portSkip t (qPort w)) := by
  have hsignal : ¬((decide ((s.skip (s.portSkip t (qPort w))).cfg.net = 1) != (qTk w == 1)) = true) := by
    rw [hnet, bne_self_eq_false]
    decide
  simp only [State.popRegister, if_neg hsignal, if_pos hpop]

theorem skip_mustMiss (s : State) (t k : Nat) : (s.mustMiss t).skip k = s.skip k := rfl

theorem thread_mustMiss (s : State) (t x th : Nat) : (s.mustMiss t).thread x th = s.thread x th :=
  thread_modTile _ _ _ _ _ (fun _ => rfl)

/-- An access that found nothing sets UNDERRUN of the skip and changes no thread. -/
theorem underrun_fields (s : State) (t k : Nat) :
    (s.underrun t k).skip k = { s.skip k with underrun := true } ∧ (∀ x th, (s.underrun t k).thread x th = s.thread x th)
      ∧ ((s.skip k).cfg.faultUnderrun = true →
          ((s.underrun t k).tile t).mustMiss = true ∧ (s.underrun t k).faults.eventSeq = s.faults.eventSeq + 1)
      ∧ ((s.skip k).cfg.faultUnderrun = false → ∀ v ks, k ∈ ks → TileSkipFrame v s t ks → TileSkipFrame v (s.underrun t k) t ks) := by
  unfold State.underrun
  dsimp only
  split
  next hfault =>
    refine ⟨?_, fun x th => ?_, fun _ => ⟨?_, ?_⟩, fun h => absurd (hfault.symm.trans h) (by decide)⟩
    · rw [skip_mustMiss, skip_raise, skip_count, skip_hit, skip_modSkip]
    · rw [thread_mustMiss, thread_raise, thread_count, thread_hit, thread_modSkip]
    · rw [State.mustMiss, tile_modTile]
    · simp [State.mustMiss]
  next hfault =>
    refine ⟨?_, fun x th => ?_, fun h => absurd h hfault, fun _ v ks hk h => ((h.modSkip hk _).hit _ _).count _ _ _ _⟩
    · rw [skip_count, skip_hit, skip_modSkip]
    · rw [thread_count, thread_hit, thread_modSkip]

/-! ## Access of another form than the skip's (R144) -/

/-- A change of every destination of a port, noted as bit b of its status. -/
def State.flagDests (s : State) (t p : Nat) (f : Skip → Skip) (b : Nat) : State :=
  (s.portDests t p).foldl (fun s d => (s.modSkip d.1 f).hit (skipStatus d.1) b) s

theorem foldl_modSkip_hit {f : Skip → Skip} (hf : ∀ x, f (f x) = f x) (b : Nat) (l : List (Nat × Nat)) (s : State) (k : Nat) :
    (l.foldl (fun s d => (s.modSkip d.1 f).hit (skipStatus d.1) b) s).skip k
      = if k ∈ l.map Prod.fst then f (s.skip k) else s.skip k := by
  induction l generalizing s with
  | nil => rfl
  | cons d l ih =>
    rw [List.foldl_cons, ih, skip_hit]
    by_cases hk : k = d.1
    · subst hk
      rw [skip_modSkip, hf, List.map_cons, if_pos List.mem_cons_self, ite_self]
    · rw [skip_modSkip_other _ _ _ _ hk, List.map_cons]
      simp only [List.mem_cons, hk, false_or]

/-- A change that is the same when made twice, on every destination. -/
theorem skip_flagDests (s : State) (t p : Nat) {f : Skip → Skip} (hf : ∀ x, f (f x) = f x) (b k : Nat) :
    (s.flagDests t p f b).skip k = if k ∈ (s.portDests t p).map Prod.fst then f (s.skip k) else s.skip k :=
  foldl_modSkip_hit hf b _ s k

@[simp] theorem tiles_flagDests (s : State) (t p : Nat) (f : Skip → Skip) (b : Nat) : (s.flagDests t p f b).tiles = s.tiles := by
  unfold State.flagDests
  refine foldl_keeps (fun u => u.tiles = s.tiles) _ (fun _ _ h => ?_) _ _ rfl
  exact h

@[simp] theorem faults_flagDests (s : State) (t p : Nat) (f : Skip → Skip) (b : Nat) : (s.flagDests t p f b).faults = s.faults := by
  unfold State.flagDests
  refine foldl_keeps (fun u => u.faults = s.faults) _ (fun _ _ h => ?_) _ _ rfl
  exact h

@[simp] theorem tile_flagDests (s : State) (t p : Nat) (f : Skip → Skip) (b x : Nat) : (s.flagDests t p f b).tile x = s.tile x := by
  simp [State.tile]

@[simp] theorem thread_flagDests (s : State) (t p : Nat) (f : Skip → Skip) (b x th : Nat) :
    (s.flagDests t p f b).thread x th = s.thread x th := by
  simp [State.thread]

/-- A forbidden access: a flag at its skips, one event and a miss of the stage. -/
def State.refuse (s : State) (t p : Nat) (f : Skip → Skip) (b : Nat) (k : EvKind) : State :=
  ((s.flagDests t p f b).raise k { (s.flagDests t p f b).tileEv t with locSub := p }).mustMiss t

theorem widthMismatch_eq (s : State) (t p : Nat) :
    s.widthMismatch t p = s.refuse t p (fun k => { k with widthMismatch := true }) 1 Ev.queueWidthMismatch := rfl

theorem creditViolation_eq (s : State) (t p : Nat) :
    s.creditViolation t p = s.refuse t p (fun k => { k with creditViol := true }) 2 Ev.creditViolation := rfl

section
variable (s : State) (t p : Nat) (f : Skip → Skip) (b : Nat) (k : EvKind)

theorem skip_refuse (hf : ∀ x, f (f x) = f x) (x : Nat) :
    (s.refuse t p f b k).skip x = if x ∈ (s.portDests t p).map Prod.fst then f (s.skip x) else s.skip x := by
  rw [State.refuse, skip_mustMiss, skip_raise, skip_flagDests _ _ _ hf]

theorem tile_refuse : (s.refuse t p f b k).tile t = { s.tile t with mustMiss := true } := by
  rw [State.refuse, State.mustMiss, tile_modTile, tile_raise, tile_flagDests]

theorem thread_refuse (x th : Nat) : (s.refuse t p f b k).thread x th = s.thread x th := by
  rw [State.refuse, thread_mustMiss, thread_raise, thread_flagDests]

theorem eventSeq_refuse : (s.refuse t p f b k).faults.eventSeq = s.faults.eventSeq + 1 := by
  simp [State.refuse, State.mustMiss]

end

theorem popRegister_mismatch {s : State} {t th w : Nat} (peek : Bool)
    (h : decide ((s.skip (s.portSkip t (qPort w))).cfg.net = 1) ≠ (qTk w == 1)
      ∨ (s.poppable t (qPort w) ≠ 0 ∧ ∃ h ws, (s.skip (s.portSkip t (qPort w))).words = h :: ws ∧ h.zrc = true ∧ qTk w = 1)) :
    s.popRegister t th w peek = s.widthMismatch t (qPort w) := by
  by_cases hnet : decide ((s.skip (s.portSkip t (qPort w))).cfg.net = 1) = (qTk w == 1)
  · obtain hne | ⟨hpop, head, ws, hwords, hz, htk⟩ := h
    · exact absurd hnet hne
    · have hsignal : ¬((decide ((s.skip (s.portSkip t (qPort w))).cfg.net = 1) != (qTk w == 1)) = true) := by
        rw [hnet, bne_self_eq_false]
        decide
      have hform : (head.zrc && qTk w == 1) = true := by simp [hz, htk]
      simp only [State.popRegister, if_neg hsignal, if_neg hpop, hwords, if_pos hform]
  · exact if_pos (bne_iff_ne.2 hnet)

/-! ## Block POP (R107, R148) -/

/-- The address of a block move. -/
def State.blockAddr (s : State) (t th w : Nat) : Nat := ((s.g t th (qReg w)).toNat + 64 * qLine w) % 2 ^ 32

/-- A block move from or to an address that is not allowed (R107). -/
def State.refuseBlock (s : State) (t : Nat) : State := (s.raise Ev.blockAddressInvalid (s.tileEv t)).mustMiss t

theorem refuseBlock_fields (s : State) (t : Nat) :
    let u := s.refuseBlock t
    u.tile t = { s.tile t with mustMiss := true } ∧ u.skips = s.skips ∧ u.faults.eventSeq = s.faults.eventSeq + 1
      ∧ ∀ x th, u.thread x th = s.thread x th := by
  unfold State.refuseBlock
  refine ⟨?_, ?_, ?_, fun x th => ?_⟩
  · rw [State.mustMiss, tile_modTile, tile_raise]
  · simp [State.mustMiss]
  · simp [State.mustMiss]
  · rw [thread_mustMiss, thread_raise]

theorem popBlock_refused {s : State} {t th w : Nat}
    (h : s.blockAddr t th w % 64 ≠ 0 ∨ (blockMemory (kindOf t)).1 < s.blockAddr t th w + 64 * qCount w) :
    s.popBlock t th w = s.refuseBlock t := if_pos h

/-- The entries that a block POP of m visible entries takes from its skip. -/
def State.blockTake (s : State) (t th k m fc : Nat) : State :=
  s.modSkip k (fun y => { y with
    popWait := y.popWait ++ List.replicate (m - (s.skip k).headWords) (t, th, 64, false) }.consume m fc)

/-- The entries that are missing (R148). -/
def State.blockShort (s : State) (t k n : Nat) : State := upTo n (fun s _ => s.underrun t k) s

theorem blockShort_fields (s : State) (t k n : Nat) :
    (s.blockShort t k n).skip k = { s.skip k with underrun := (s.skip k).underrun || decide (0 < n) }
      ∧ ∀ x th, (s.blockShort t k n).thread x th = s.thread x th := by
  induction n with
  | zero => exact ⟨by simp [State.blockShort, upTo], fun _ _ => rfl⟩
  | succ n ih =>
    have hlast : s.blockShort t k (n + 1) = (s.blockShort t k n).underrun t k := by
      simp [State.blockShort, upTo, List.range_succ]
    obtain ⟨hskip, hthread⟩ := ih
    obtain ⟨hflag, hkeep, -, -⟩ := underrun_fields (s.blockShort t k n) t k
    rw [hlast]
    refine ⟨?_, fun x th => by rw [hkeep, hthread]⟩
    rw [hflag, hskip]
    simp

/-- The state in which the move of a block POP enters its tile, before units start. -/
def State.blockEnter (s : State) (t th w m fc : Nat) (s3 : State) : State :=
  let p := qPort w
  let k := s.portSkip t p
  let x := s.skip k
  let taken := x.words.take m
  let last := s.lastPop t th p
  let mv : BlockMove := { push := false, port := p, thread := th, addr := s.blockAddr t th w, count := qCount w
                          taken := taken.map RWord.data, lastWord := last, upTo := (s3.skip k).consumedCount
                          issuedAt := fc, missing := m - x.headWords }
  (s3.modRegs t th (fun r => { r with lastPop := put r.lastPop p ((taken.getLast?.map RWord.data).getD last) })).modTile t
    (fun y => { y with moves := y.moves ++ [mv], slots := y.noteSlot th (moveAccess mv) })

/-- The move enters behind those in flight. -/
theorem tile_blockEnter (s : State) (t th w m fc : Nat) (s3 : State) :
    ∃ mv : BlockMove, ((s.blockEnter t th w m fc s3).tile t).moves = (s3.tile t).moves ++ [mv]
      ∧ ((s.blockEnter t th w m fc s3).tile t).macs = (s3.tile t).macs ∧ mv.push = false ∧ mv.port = qPort w ∧ mv.thread = th
      ∧ mv.addr = s.blockAddr t th w ∧ mv.count = qCount w
      ∧ mv.taken = ((s.skip (s.portSkip t (qPort w))).words.take m).map RWord.data ∧ mv.lastWord = s.lastPop t th (qPort w) := by
  rw [State.blockEnter, tile_modTile, State.modRegs, State.modThread, tile_modTile]
  exact ⟨_, rfl, rfl, rfl, rfl, rfl, rfl, rfl, rfl, rfl⟩

theorem popBlock_taken {s : State} {t th w m : Nat} (ha : s.blockAddr t th w % 64 = 0)
    (hin : s.blockAddr t th w + 64 * qCount w ≤ (blockMemory (kindOf t)).1)
    (hnet : (s.skip (s.portSkip t (qPort w))).cfg.net ≠ 1) (hm : min (qCount w) (s.poppable t (qPort w)) = m)
    (hz : ∀ r ∈ (s.skip (s.portSkip t (qPort w))).words.take m, r.zrc = false) :
    s.popBlock t th w =
      let k := s.portSkip t (qPort w)
      let s1 := s.blockTake t th k m (s.rowFc t)
      let s2 := if m < qCount w then s1.blockShort t k (qCount w - m) else s1
      (s.blockEnter t th w m (s.rowFc t) (s2.markFrom t ((s.skip k).words.take m))).startUnits t (s.rowFc t) := by
  have haddr : ¬(s.blockAddr t th w % 64 ≠ 0 ∨ (blockMemory (kindOf t)).1 < s.blockAddr t th w + 64 * qCount w) := by omega
  have hform : ¬((s.skip (s.portSkip t (qPort w))).cfg.net = 1
      ∨ ((s.skip (s.portSkip t (qPort w))).words.take m).any RWord.zrc = true) := by
    rintro (h | h)
    · exact hnet h
    · obtain ⟨r, hr, hzrc⟩ := List.any_eq_true.1 h
      rw [hz r hr] at hzrc
      exact absurd hzrc (by decide)
  unfold State.blockAddr at haddr
  simp only [State.popBlock, if_neg haddr, hm, if_neg hform]
  rfl

section
variable {s : State} {t th w m : Nat}

/-- The words of the skip after a block POP. -/
theorem wordFields_popBlock (ha : s.blockAddr t th w % 64 = 0)
    (hin : s.blockAddr t th w + 64 * qCount w ≤ (blockMemory (kindOf t)).1)
    (hnet : (s.skip (s.portSkip t (qPort w))).cfg.net ≠ 1) (hm : min (qCount w) (s.poppable t (qPort w)) = m)
    (hz : ∀ r ∈ (s.skip (s.portSkip t (qPort w))).words.take m, r.zrc = false) :
    let x := s.skip (s.portSkip t (qPort w))
    ((s.popBlock t th w).skip (s.portSkip t (qPort w))).wordFields
      = (x.words.drop m, x.consumed ++ x.words.take m, x.consumedCount + (x.words.take m).length,
          x.underrun || decide (m < qCount w), x.widthMismatch) := by
  rw [popBlock_taken ha hin hnet hm hz]
  dsimp only
  rw [(startUnits_marks _ _ _).wordFields, skip_modTile, State.blockEnter, skip_modTile, State.modRegs, skip_modThread,
    ((Marks.refl _).markFrom _ _).wordFields]
  have htake : ((s.blockTake t th (s.portSkip t (qPort w)) m (s.rowFc t)).skip (s.portSkip t (qPort w))).wordFields
      = ((s.skip (s.portSkip t (qPort w))).words.drop m,
          (s.skip (s.portSkip t (qPort w))).consumed ++ (s.skip (s.portSkip t (qPort w))).words.take m,
          (s.skip (s.portSkip t (qPort w))).consumedCount + ((s.skip (s.portSkip t (qPort w))).words.take m).length,
          (s.skip (s.portSkip t (qPort w))).underrun, (s.skip (s.portSkip t (qPort w))).widthMismatch) := by
    rw [State.blockTake, skip_modSkip, wordFields_consume]
  split
  next hshort =>
    rw [(blockShort_fields _ _ _ _).1]
    simp only [Skip.wordFields, Prod.mk.injEq] at htake ⊢
    obtain ⟨hwords, hconsumed, hcount, hunder, hwidth⟩ := htake
    refine ⟨hwords, hconsumed, hcount, ?_, hwidth⟩
    rw [hunder]
    simp [hshort]
  next hfull =>
    rw [htake]
    simp [hfull]

/-- The move that a block POP begins. -/
theorem moves_popBlock (ha : s.blockAddr t th w % 64 = 0)
    (hin : s.blockAddr t th w + 64 * qCount w ≤ (blockMemory (kindOf t)).1)
    (hnet : (s.skip (s.portSkip t (qPort w))).cfg.net ≠ 1) (hm : min (qCount w) (s.poppable t (qPort w)) = m)
    (hz : ∀ r ∈ (s.skip (s.portSkip t (qPort w))).words.take m, r.zrc = false) :
    ∃ mv ∈ ((s.popBlock t th w).tile t).moves, mv.push = false ∧ mv.port = qPort w ∧ mv.thread = th
      ∧ mv.addr = s.blockAddr t th w ∧ mv.count = qCount w
      ∧ mv.taken = ((s.skip (s.portSkip t (qPort w))).words.take m).map RWord.data ∧ mv.lastWord = s.lastPop t th (qPort w) := by
  rw [popBlock_taken ha hin hnet hm hz]
  dsimp only
  rw [(startUnits_marks _ _ _).tile, tile_modTile]
  generalize State.markFrom _ t _ = s3
  obtain ⟨mv, hmoves, -, hfields⟩ := tile_blockEnter s t th w m (s.rowFc t) s3
  have hmem : mv ∈ ((s.blockEnter t th w m (s.rowFc t) s3).tile t).moves := by simp [hmoves]
  obtain ⟨mv', hmv', rfl | rfl⟩ := exists_mem_startReady (s.rowFc t) hmem
  · exact ⟨_, hmv', hfields⟩
  · exact ⟨_, hmv', hfields⟩

/-- A block POP of words without marks, in a tile whose units have all started, stays inside the frame of its skip. -/
theorem popBlock_frame {v : State} (hv : TileSkipFrame v s t [s.portSkip t (qPort w)]) (ha : s.blockAddr t th w % 64 = 0)
    (hin : s.blockAddr t th w + 64 * qCount w ≤ (blockMemory (kindOf t)).1)
    (hnet : (s.skip (s.portSkip t (qPort w))).cfg.net ≠ 1) (hfull : qCount w ≤ s.poppable t (qPort w))
    (hz : ∀ r ∈ (s.skip (s.portSkip t (qPort w))).words.take (qCount w), r.zrc = false) (hstarted : (s.tile t).AllStarted)
    (hmarks : ∀ r ∈ (s.skip (s.portSkip t (qPort w))).words.take (qCount w), r.miss = false ∧ r.degraded = false) :
    TileSkipFrame v (s.popBlock t th w) t [s.portSkip t (qPort w)] := by
  have hnone (u : State) : u.markFrom t ((s.skip (s.portSkip t (qPort w))).words.take (qCount w)) = u := by
    have hmiss : ((s.skip (s.portSkip t (qPort w))).words.take (qCount w)).any RWord.miss = false :=
      List.any_eq_false.2 fun r hr => by simp [(hmarks r hr).1]
    have hdegraded : ((s.skip (s.portSkip t (qPort w))).words.take (qCount w)).any RWord.degraded = false :=
      List.any_eq_false.2 fun r hr => by simp [(hmarks r hr).2]
    rw [State.markFrom, hmiss, hdegraded]
    rfl
  rw [popBlock_taken ha hin hnet (Nat.min_eq_left hfull) hz]
  dsimp only
  rw [if_neg (Nat.lt_irrefl _), hnone]
  have henter : TileSkipFrame v (s.blockEnter t th w (qCount w) (s.rowFc t)
      (s.blockTake t th (s.portSkip t (qPort w)) (qCount w) (s.rowFc t))) t [s.portSkip t (qPort w)] :=
by
    unfold State.blockEnter State.blockTake
    exact ((hv.modSkip (List.mem_singleton.2 rfl) _).modThread _ _).modTile _
  obtain ⟨hmacs, hmoves, -⟩ := hstarted
  obtain ⟨mv, hentered, hkept, hpop, -⟩ := tile_blockEnter s t th w (qCount w) (s.rowFc t)
    (s.blockTake t th (s.portSkip t (qPort w)) (qCount w) (s.rowFc t))
  rw [startUnits_eq]
  · exact henter.modTile _
  · intro mac hmac _ _ hnone
    rw [hkept] at hmac
    have hsome := hmacs mac hmac
    rw [hnone] at hsome
    exact absurd hsome (by decide)
  · intro move hmove hpush hnone
    rw [hentered] at hmove
    obtain hold | hnew := List.mem_append.1 hmove
    · have hsome := hmoves move hold
      rw [hnone] at hsome
      exact absurd hsome (by decide)
    · rw [List.mem_singleton.1 hnew, hpop] at hpush
      exact absurd hpush (by decide)

end

/-! ## Marks that go over to the tile (R191) -/

/-- A popped word with the miss mark marks its tile. -/
theorem missMark_markFrom (s : State) {t : Nat} {h : RWord} (hmiss : h.miss = true) (hgroup : (s.tile t).group = 0) :
    ((s.markFrom t [h]).tile t).missMark = true := by
  have hown : s.groupOf t = [t] := if_pos hgroup
  have hmark : ((s.markMiss t).tile t).missMark = true := by
    rw [State.markMiss, hown, List.foldl_cons, List.foldl_nil]
    refine foldl_keeps (fun u => (u.tile t).missMark = true) _ (fun u p hu => ?_) _ _ (by rw [tile_modTile])
    split
    · refine foldl_keeps (fun u => (u.tile t).missMark = true) _ (fun u d hu => ?_) _ _ hu
      exact hu
    · exact hu
  have hany : [h].any RWord.miss = true := by simp [hmiss]
  rw [State.markFrom, if_pos hany]
  split
  · refine foldl_keeps (fun u => (u.tile t).missMark = true) _ (fun u x hu => ?_) _ _ hmark
    rw [field_modTile Tile.missMark _ _ _ _ (fun _ => by rfl), hu]
  · exact hmark

/-- A change of a thread leaves the tile's other fields alone. -/
theorem field_modThread {α : Type} (g : Tile → α) (s : State) (t th x : Nat) (f : Thread → Thread)
    (h : ∀ y ths, g { y with threads := ths } = g y) : g ((s.modThread t th f).tile x) = g (s.tile x) :=
  field_modTile g s t x _ (fun _ => h _ _)

theorem tile_popLoad_group (s : State) (t th w : Nat) (h : RWord) : ((s.popLoad t th w h).tile t).group = (s.tile t).group := by
  unfold State.popLoad State.popWrite State.setZM State.setV State.setG
  split <;> split <;> simp only [field_modThread Tile.group _ _ _ _ _ (fun _ _ => rfl)]

/-- A POP or PEEK of a word with the miss mark marks its tile. -/
theorem missMark_popRegister {s : State} {t th w : Nat} {h : RWord} {ws : List RWord}
    (hnet : decide ((s.skip (s.portSkip t (qPort w))).cfg.net = 1) = (qTk w == 1)) (hpop : s.poppable t (qPort w) ≠ 0)
    (hwords : (s.skip (s.portSkip t (qPort w))).words = h :: ws) (hz : (h.zrc && qTk w == 1) = false) {peek : Bool}
    (hmiss : h.miss = true) (hgroup : (s.tile t).group = 0) : ((s.popRegister t th w peek).tile t).missMark = true := by
  have hmark := missMark_markFrom (s.popLoad t th w h) hmiss ((tile_popLoad_group s t th w h).trans hgroup)
  have htake : ((((s.popLoad t th w h).markFrom t [h]).popTake t th (qPort w) (s.portSkip t (qPort w)) (s.rowFc t) h peek).tile
      t).missMark = true := by
    unfold State.popTake State.modRegs
    split
    · exact hmark
    · rw [field_modThread Tile.missMark _ _ _ _ _ (fun _ _ => rfl)]
      exact hmark
  rw [popRegister_head hnet hpop hwords hz]
  dsimp only
  split
  · unfold State.popAwait State.awaitReg
    rw [tile_modSkip, field_modThread Tile.missMark _ _ _ _ _ (fun _ _ => rfl)]
    exact htake
  · exact htake

theorem popWrite_faults (s : State) (t th w : Nat) (x : Line) : (s.popWrite t th w x).faults = s.faults := by
  unfold State.popWrite
  split <;> rfl

end Sys2Proof.Machine

/-! PROOFS. The statement on POP and PEEK, from what they do after their issue. -/

namespace Sys2Proof.Machine

/-- A field of a tile that an issue leaves alone is left alone in every tile. -/
theorem field_issued {α : Type} (g : Tile → α) (s : State) (t th x : Nat)
    (h : ∀ y ths n m, g { y with threads := ths, lastIssued := n, issueFc := m } = g y) :
    g ((s.issued t th).tile x) = g (s.tile x) := by
  by_cases hx : x = t
  · rw [hx, tile_issued, h]
  · rw [tile_issued_other _ _ _ _ hx]

@[simp] theorem poppable_issued (s : State) (t th p : Nat) : (s.issued t th).poppable t p = s.poppable t p := by
  simp only [State.poppable, portSkip_issued, skip_issued, rowFc_issued]

@[simp] theorem lastPop_issued (s : State) (t th p : Nat) : (s.issued t th).lastPop t th p = s.lastPop t th p := by
  rw [State.lastPop, issued_thread]
  rfl

@[simp] theorem blockAddr_issued (s : State) (t th w : Nat) : (s.issued t th).blockAddr t th w = s.blockAddr t th w := by
  simp only [State.blockAddr, g_issued]

theorem allStarted_issued {s : State} {t : Nat} (th : Nat) (h : (s.tile t).AllStarted) : ((s.issued t th).tile t).AllStarted := by
  have hunits := field_issued (fun x => (x.macs, x.moves, x.fns)) s t th t (fun _ _ _ _ => rfl)
  simp only [Prod.mk.injEq] at hunits
  obtain ⟨hmacs, hmoves, hfns⟩ := hunits
  rw [Tile.AllStarted, hmacs, hmoves, hfns]
  exact h

@[simp] theorem issued_regs_lastPop (s : State) (t th : Nat) :
    ((s.issued t th).thread t th).regs.lastPop = (s.thread t th).regs.lastPop := by
  rw [issued_thread]
  rfl

/-- A port of one destination. -/
theorem portSkip_mem_of_one {s : State} {t p : Nat} (h : (look (s.tile t).ports p).map (fun y => y.dests.length) = some 1) :
    s.portSkip t p ∈ (s.portDests t p).map Prod.fst := by
  obtain ⟨y, hy, hlen⟩ := Option.map_eq_some_iff.1 h
  obtain ⟨d, hd⟩ := List.length_eq_one_iff.1 hlen
  have hdests : s.portDests t p = [d] := by rw [State.portDests, hy]; exact hd
  rw [State.portSkip, hdests]
  exact List.mem_singleton.2 rfl

/-- The fields of `Skip.wordFields`, one by one. -/
theorem wordFields_eq {k : Skip} {ws cs : List RWord} {n : Nat} {a b : Bool} (h : k.wordFields = (ws, cs, n, a, b)) :
    k.words = ws ∧ k.consumed = cs ∧ k.consumedCount = n ∧ k.underrun = a ∧ k.widthMismatch = b := by
  simpa [Skip.wordFields] using h

/-- The first clause: a POP of a visible word. -/
theorem pop_takes {s : State} {t th : Nat} (h : s.Issues t th 0x18) {hd : RWord} {ws : List RWord}
    (htk : qTk (s.pcWord t th) ≠ 2)
    (hnet : decide ((s.skip (s.portSkip t (qPort (s.pcWord t th)))).cfg.net = 1) = (qTk (s.pcWord t th) == 1))
    (hpop : s.poppable t (qPort (s.pcWord t th)) ≠ 0)
    (hwords : (s.skip (s.portSkip t (qPort (s.pcWord t th)))).words = hd :: ws)
    (hz : (hd.zrc && qTk (s.pcWord t th) == 1) = false) :
    let w := s.pcWord t th
    let k := s.portSkip t (qPort w)
    let x := s.skip k
    Answers (exec (.pop t th) s) (fun u =>
      (qTk w = 0 → u.v t th (qReg w) = hd.data) ∧ (qTk w = 1 → u.g t th (qReg w) = hd.data.setWidth 32)
        ∧ (u.skip k).words = ws ∧ (u.skip k).consumed = x.consumed ++ [hd] ∧ (u.skip k).consumedCount = x.consumedCount + 1
        ∧ lookD (u.thread t th).regs.lastPop (qPort w) 0 = hd.data
        ∧ (u.thread t th).regs.zm = (if hd.zrc then hd.mask else (s.thread t th).regs.zm)
        ∧ (hd.miss = true → (s.tile t).group = 0 → (u.tile t).missMark = true)
        ∧ (hd.miss = false → hd.degraded = false → TileSkipFrame s u t [k])) := by
  refine answers_instr h ?_
  rw [if_neg htk]
  generalize s.pcWord t th = w at *
  have hnet' : decide (((s.issued t th).skip ((s.issued t th).portSkip t (qPort w))).cfg.net = 1) = (qTk w == 1) := by simpa using hnet
  have hpop' : (s.issued t th).poppable t (qPort w) ≠ 0 := by simpa using hpop
  have hwords' : ((s.issued t th).skip ((s.issued t th).portSkip t (qPort w))).words = hd :: ws := by simpa using hwords
  obtain ⟨hregs, hskip⟩ := popRegister_head_fields (th := th) hnet' hpop' hwords' hz false
  obtain ⟨hv, hg, hzm, -⟩ := popLoad_regs (s.issued t th) t th w hd
  simp only [portSkip_issued, skip_issued, Bool.false_eq_true, if_false] at hskip hregs
  obtain ⟨hws, hconsumed, hcount, -, -⟩ := wordFields_eq hskip
  refine ⟨fun h0 => ?_, fun h1 => ?_, hws, hconsumed, hcount, ?_, ?_, fun hmiss hgroup => ?_, fun hmiss hdegraded => ?_⟩
  · rw [State.v, hregs]
    exact hv h0
  · rw [State.g, hregs]
    exact hg h1
  · rw [hregs, lookD_put_same]
  · rw [hregs]
    exact hzm.trans (by rw [zm_issued])
  · exact missMark_popRegister hnet' hpop' hwords' hz hmiss (by
      rw [field_issued Tile.group _ _ _ _ (fun _ _ _ _ => rfl)]
      exact hgroup)
  · have hframe := popRegister_head_frame (th := th) s (TileSkipFrame.issued s t th _) hnet' hpop' hwords' hz false hmiss hdegraded
    rwa [portSkip_issued] at hframe

/-- The second clause: a POP that finds no visible word. -/
theorem pop_underruns {s : State} {t th : Nat} (h : s.Issues t th 0x18) (htk : qTk (s.pcWord t th) ≠ 2)
    (hnet : decide ((s.skip (s.portSkip t (qPort (s.pcWord t th)))).cfg.net = 1) = (qTk (s.pcWord t th) == 1))
    (hpop : s.poppable t (qPort (s.pcWord t th)) = 0) :
    let w := s.pcWord t th
    let p := qPort w
    let k := s.portSkip t p
    let x := s.skip k
    Answers (exec (.pop t th) s) (fun u =>
      (qTk w = 0 → u.v t th (qReg w) = s.lastPop t th p) ∧ (qTk w = 1 → u.g t th (qReg w) = (s.lastPop t th p).setWidth 32)
        ∧ (u.skip k).words = x.words ∧ (u.skip k).consumed = x.consumed ∧ (u.skip k).underrun = true
        ∧ (x.cfg.faultUnderrun = true → (u.tile t).mustMiss = true ∧ u.faults.eventSeq = s.faults.eventSeq + 1)
        ∧ (x.cfg.faultUnderrun = false → TileSkipFrame s u t [k])) := by
  refine answers_instr h ?_
  rw [if_neg htk]
  generalize s.pcWord t th = w at *
  rw [popRegister_empty (by simpa using hnet) (by simpa using hpop)]
  simp only [portSkip_issued, lastPop_issued]
  have hcfg (x : Skip) : x.touch.cfg = x.cfg := by rw [touch_eq]
  have hsame (x : Skip) : x.touch.words = x.words ∧ x.touch.consumed = x.consumed := by
    rw [touch_eq]
    exact ⟨rfl, rfl⟩
  generalize hu : ((s.issued t th).popWrite t th w (s.lastPop t th (qPort w))).modSkip (s.portSkip t (qPort w)) Skip.touch = u
  obtain ⟨hskip, hthread, hfault, hquiet⟩ := underrun_fields u t (s.portSkip t (qPort w))
  obtain ⟨hv, hg, -, -⟩ := popWrite_regs (s.issued t th) t th w (s.lastPop t th (qPort w))
  have hk : u.skip (s.portSkip t (qPort w)) = (s.skip (s.portSkip t (qPort w))).touch := by
    rw [← hu, skip_modSkip, skip_popWrite, skip_issued]
  have hown : (u.underrun t (s.portSkip t (qPort w))).thread t th
      = ((s.issued t th).popWrite t th w (s.lastPop t th (qPort w))).thread t th := by
    rw [hthread, ← hu, thread_modSkip]
  have hregs (r : Nat) : (u.underrun t (s.portSkip t (qPort w))).v t th r
        = ((s.issued t th).popWrite t th w (s.lastPop t th (qPort w))).v t th r
      ∧ (u.underrun t (s.portSkip t (qPort w))).g t th r
        = ((s.issued t th).popWrite t th w (s.lastPop t th (qPort w))).g t th r := by
    simp only [State.v, State.g, hown, and_self]
  rw [hskip, hk]
  refine ⟨fun h0 => ?_, fun h1 => ?_, (hsame _).1, (hsame _).2, rfl, fun hf => ?_, fun hf => ?_⟩
  · rw [(hregs _).1]
    exact hv h0
  · rw [(hregs _).2]
    exact hg h1
  · obtain ⟨hmiss, hevent⟩ := hfault (by rw [hk, hcfg]; exact hf)
    have hseq : u.faults.eventSeq = s.faults.eventSeq := by
      rw [← hu, modSkip_faults, popWrite_faults, issued_faults]
    exact ⟨hmiss, hevent.trans (by rw [hseq])⟩
  · refine hquiet (by rw [hk, hcfg]; exact hf) s _ (List.mem_singleton.2 rfl) ?_
    rw [← hu]
    exact ((TileSkipFrame.issued s t th _).popWrite _ _ _).modSkip (List.mem_singleton.2 rfl) _

/-- PEEK of a visible word. -/
theorem peek_reads {s : State} {t th : Nat} (h : s.Issues t th 0x19) {hd : RWord} {ws : List RWord}
    (hnet : decide ((s.skip (s.portSkip t (qPort (s.pcWord t th)))).cfg.net = 1) = (qTk (s.pcWord t th) == 1))
    (hpop : s.poppable t (qPort (s.pcWord t th)) ≠ 0)
    (hwords : (s.skip (s.portSkip t (qPort (s.pcWord t th)))).words = hd :: ws)
    (hz : (hd.zrc && qTk (s.pcWord t th) == 1) = false) :
    let w := s.pcWord t th
    let k := s.portSkip t (qPort w)
    let x := s.skip k
    Answers (exec (.peek t th) s) (fun u =>
      (qTk w = 0 → u.v t th (qReg w) = hd.data) ∧ (qTk w = 1 → u.g t th (qReg w) = hd.data.setWidth 32)
        ∧ (u.skip k).words = x.words ∧ (u.skip k).consumed = x.consumed ∧ (u.skip k).consumedCount = x.consumedCount
        ∧ (u.thread t th).regs.lastPop = (s.thread t th).regs.lastPop
        ∧ (hd.miss = false → hd.degraded = false → TileSkipFrame s u t [k])) := by
  refine answers_instr h ?_
  generalize s.pcWord t th = w at *
  have hnet' : decide (((s.issued t th).skip ((s.issued t th).portSkip t (qPort w))).cfg.net = 1) = (qTk w == 1) := by simpa using hnet
  have hpop' : (s.issued t th).poppable t (qPort w) ≠ 0 := by simpa using hpop
  have hwords' : ((s.issued t th).skip ((s.issued t th).portSkip t (qPort w))).words = hd :: ws := by simpa using hwords
  obtain ⟨hregs, hskip⟩ := popRegister_head_fields (th := th) hnet' hpop' hwords' hz true
  obtain ⟨hv, hg, -, hlast⟩ := popLoad_regs (s.issued t th) t th w hd
  simp only [portSkip_issued, skip_issued, if_true] at hskip hregs
  obtain ⟨hws, hconsumed, hcount, -, -⟩ := wordFields_eq hskip
  refine ⟨fun h0 => ?_, fun h1 => ?_, hws, hconsumed, hcount, ?_, fun hmiss hdegraded => ?_⟩
  · rw [State.v, hregs]
    exact hv h0
  · rw [State.g, hregs]
    exact hg h1
  · rw [hregs, hlast, issued_regs_lastPop]
  · have hframe := popRegister_head_frame (th := th) s (TileSkipFrame.issued s t th _) hnet' hpop' hwords' hz true hmiss hdegraded
    rwa [portSkip_issued] at hframe

/-- What an access of the wrong form leaves after its issue. -/
theorem widthMismatch_issued {s : State} {t th p k : Nat} (hk : k ∈ (s.portDests t p).map Prod.fst) :
    let u := (s.issued t th).widthMismatch t p
    (u.skip k).widthMismatch = true ∧ (u.skip k).words = (s.skip k).words ∧ (u.skip k).consumed = (s.skip k).consumed
      ∧ (u.tile t).mustMiss = true ∧ u.faults.eventSeq = s.faults.eventSeq + 1 ∧ u.thread t th = s.issuedThread t th := by
  rw [widthMismatch_eq]
  have hskip := skip_refuse (s.issued t th) t p (fun k => { k with widthMismatch := true }) 1 Ev.queueWidthMismatch (fun _ => rfl) k
  rw [portDests_issued, if_pos hk, skip_issued] at hskip
  dsimp only
  rw [hskip, tile_refuse, eventSeq_refuse, issued_faults, thread_refuse, issued_thread]
  exact ⟨rfl, rfl, rfl, rfl, rfl, rfl⟩

/-- Settles O17: each clause is one branch of the meaning of POP or PEEK after the issue; what a popped word's marks and the
units that start then send changes marks and entries on their way alone. -/
theorem popAndPeekReadHeads : Obligations.PopAndPeekReadHeads := by
  refine ⟨fun t th s h => ?_, fun t th s h => ?_, fun p hp t th s h => ?_, fun t th s h => ?_⟩
  · intro w p k x htk hnet
    exact ⟨fun hd ws hpop hwords hz => pop_takes h htk hnet hpop hwords hz, fun hpop => pop_underruns h htk hnet hpop⟩
  · intro w p k x hnet hpop hd ws hwords hz
    exact peek_reads h hnet hpop hwords hz
  · intro w k x htk hone hform
    have hmem := portSkip_mem_of_one hone
    have hform' : decide (((s.issued t th).skip ((s.issued t th).portSkip t (qPort w))).cfg.net = 1) ≠ (qTk w == 1)
        ∨ ((s.issued t th).poppable t (qPort w) ≠ 0 ∧ ∃ h ws,
          ((s.issued t th).skip ((s.issued t th).portSkip t (qPort w))).words = h :: ws ∧ h.zrc = true ∧ qTk w = 1) := by
      rw [portSkip_issued, skip_issued, poppable_issued]
      exact hform
    obtain rfl | rfl : p = (Instr.pop, 0x18) ∨ p = (Instr.peek, 0x19) := by simpa using hp
    · refine answers_instr h ?_
      rw [if_neg htk, popRegister_mismatch false hform']
      exact widthMismatch_issued hmem
    · refine answers_instr h ?_
      rw [popRegister_mismatch true hform']
      exact widthMismatch_issued hmem
  · intro w p k x a n htk
    refine ⟨fun ha hin hnet hfull hz => answers_instr h ?_, fun ha hin hnet hshort hz _ => answers_instr h ?_,
      fun hout => answers_instr h ?_⟩
    all_goals rw [if_pos htk]
    · have hm : min (qCount w) ((s.issued t th).poppable t (qPort w)) = n := by
        rw [poppable_issued]
        exact Nat.min_eq_left hfull
      have ha' : (s.issued t th).blockAddr t th w % 64 = 0 := by rw [blockAddr_issued]; exact ha
      have hin' : (s.issued t th).blockAddr t th w + 64 * qCount w ≤ (blockMemory (kindOf t)).1 := by
        rw [blockAddr_issued]
        exact hin
      have hnet' : ((s.issued t th).skip ((s.issued t th).portSkip t (qPort w))).cfg.net ≠ 1 := by simpa using hnet
      have hz' : ∀ r ∈ ((s.issued t th).skip ((s.issued t th).portSkip t (qPort w))).words.take n, r.zrc = false := by simpa using hz
      have hfields := wordFields_popBlock ha' hin' hnet' hm hz'
      obtain ⟨mv, hmv, hpush, hport, hthread, haddr, hcount, htaken, -⟩ := moves_popBlock ha' hin' hnet' hm hz'
      rw [portSkip_issued, skip_issued] at hfields htaken
      obtain ⟨hws, hconsumed, -, -, -⟩ := wordFields_eq hfields
      refine ⟨hws, hconsumed, ⟨mv, hmv, hpush, hport, hthread, ?_, hcount, htaken⟩, fun hstarted hmarks => ?_⟩
      · rw [haddr, blockAddr_issued]
        rfl
      · have hframe := popBlock_frame (TileSkipFrame.issued s t th _) ha' hin' hnet' (by simpa using hfull) hz'
          (allStarted_issued th hstarted) (by simpa using hmarks)
        rwa [portSkip_issued] at hframe
    · have hm : min (qCount w) ((s.issued t th).poppable t (qPort w)) = s.poppable t p := by
        rw [poppable_issued]
        exact Nat.min_eq_right (Nat.le_of_lt hshort)
      have ha' : (s.issued t th).blockAddr t th w % 64 = 0 := by rw [blockAddr_issued]; exact ha
      have hin' : (s.issued t th).blockAddr t th w + 64 * qCount w ≤ (blockMemory (kindOf t)).1 := by
        rw [blockAddr_issued]
        exact hin
      have hnet' : ((s.issued t th).skip ((s.issued t th).portSkip t (qPort w))).cfg.net ≠ 1 := by simpa using hnet
      have hz' : ∀ r ∈ ((s.issued t th).skip ((s.issued t th).portSkip t (qPort w))).words.take (s.poppable t p), r.zrc = false := by
        simpa using hz
      have hfields := wordFields_popBlock ha' hin' hnet' hm hz'
      obtain ⟨mv, hmv, hpush, hport, hthread, haddr, hcount, htaken, hlast⟩ := moves_popBlock ha' hin' hnet' hm hz'
      rw [portSkip_issued, skip_issued] at hfields htaken
      rw [lastPop_issued] at hlast
      obtain ⟨hws, -, -, hunder, -⟩ := wordFields_eq hfields
      refine ⟨hws, ?_, ⟨mv, hmv, hpush, hport, hthread, ?_, hcount, htaken, hlast⟩⟩
      · rw [hunder]
        exact Bool.or_eq_true_iff.2 (.inr (decide_eq_true hshort))
      · rw [haddr, blockAddr_issued]
        rfl
    · rw [popBlock_refused (by rw [blockAddr_issued]; exact hout)]
      obtain ⟨htile, hskips, hevent, -⟩ := refuseBlock_fields (s.issued t th) t
      rw [htile, hskips, hevent, issued_skips, issued_faults]
      exact ⟨rfl, field_issued Tile.moves s t th t (fun _ _ _ _ => rfl), rfl, rfl⟩

end Sys2Proof.Machine

/-! PROOFS. Where every word of memory has been written: what units send then leaves memory alone (R303). The end of a
block move (R148). -/

namespace Sys2Proof.Machine

/-! ## Memory without unwritten words -/

/-- Nothing is unwritten, and memory and the host's part are those of s. -/
structure Written (s u : State) : Prop where
  unwritten : u.unwritten = []
  mem : u.mem = s.mem
  host : u.host = s.host

theorem unwrittenWords_eq_nil {s : State} (h : s.unwritten = []) (a n : Nat) : s.unwrittenWords a n = [] := by
  simp [State.unwrittenWords, h, rangeHas]

/-- A read of words that are all written is not noted. -/
theorem noteTileRead_eq {s : State} (h : s.unwritten = []) (t o n : Nat) : s.noteTileRead t o n = s := by
  -- The kernel would evaluate the match's list on the applied function, so it is unfolded before it is applied.
  have unfolded (f) (hf : f = @State.noteTileRead) : f s t o n = s := by
    delta State.noteTileRead at hf
    subst hf
    beta_reduce
    rw [unwrittenWords_eq_nil h]
  exact unfolded _ rfl

namespace Written

variable {s u : State}

theorem foldl {α : Type} {f : State → α → State} {l : List α} (hf : ∀ u x, Written s u → Written s (f u x)) (h : Written s u) :
    Written s (l.foldl f u) :=
  foldl_keeps (Written s) f hf l u h

theorem ite {c : Prop} [Decidable c] {a b : State} (ha : Written s a) (hb : Written s b) : Written s (if c then a else b) := by
  split
  · exact ha
  · exact hb

theorem modTile (h : Written s u) (t : Nat) (f : Tile → Tile) : Written s (u.modTile t f) := ⟨h.unwritten, h.mem, h.host⟩

theorem modSkip (h : Written s u) (k : Nat) (f : Skip → Skip) : Written s (u.modSkip k f) := ⟨h.unwritten, h.mem, h.host⟩

theorem draw (h : Written s u) : Written s u.draw := ⟨h.unwritten, h.mem, h.host⟩

theorem noteTileRead (h : Written s u) (t o n : Nat) : Written s (u.noteTileRead t o n) := by
  rw [noteTileRead_eq h.unwritten]
  exact h

theorem pushEntry (h : Written s u) (t p delay seq after : Nat) (e : Entry) : Written s (u.pushEntry t p delay seq after e) := by
  unfold State.pushEntry State.sendEntry
  exact .foldl (fun _ _ h => h.modSkip _ _) (.ite h.draw h)

theorem oqSend (h : Written s u) (t : Nat) (m : MacOp) (base : Nat) : Written s (u.oqSend t m base) := by
  unfold State.oqSend
  exact .foldl (fun _ _ h => h.pushEntry _ _ _ _ _ _) h

theorem moveSend (h : Written s u) (t : Nat) (m : BlockMove) (base : Nat) : Written s (u.moveSend t m base) := by
  unfold State.moveSend
  exact .foldl (fun _ _ h => .pushEntry (h.noteTileRead _ _ _) _ _ _ _ _ _) h

theorem startUnits (h : Written s u) (t base : Nat) : Written s (u.startUnits t base) := by
  unfold State.startUnits
  exact .foldl (fun _ _ h => .ite (h.moveSend _ _ _) h) (.foldl (fun _ _ h => .ite (h.oqSend _ _ _) h) (h.modTile _ _))

theorem holdStreams (h : Written s u) (t issued : Nat) (k : Touch) : Written s (u.holdStreams t issued k) := by
  unfold State.holdStreams
  exact h.modTile _ _

/-- A write marks no word unwritten. -/
theorem writeBytes (h : u.unwritten = []) (a : Nat) (bs : List Byte) : Written (u.writeBytes a bs) (u.writeBytes a bs) := by
  refine ⟨?_, rfl, rfl⟩
  unfold State.writeBytes
  split
  · exact h
  · simp [h, rangeDel]

end Written

/-! ## Lists -/

theorem findAt_some {α : Type} {p : α → Bool} {l : List α} {i : Nat} {x : α} (h : findAt p l = some (i, x)) : l[i]? = some x := by
  induction l generalizing i with
  | nil => exact absurd h (by simp [findAt])
  | cons y l ih =>
    rw [findAt] at h
    split at h
    · obtain ⟨rfl, rfl⟩ := Prod.mk.inj (Option.some.inj h)
      rfl
    · obtain ⟨⟨j, z⟩, hj, heq⟩ := Option.map_eq_some_iff.1 h
      obtain ⟨rfl, rfl⟩ := Prod.mk.inj heq
      exact ih hj

theorem length_dropAt {α : Type} {l : List α} {i : Nat} {x : α} (h : l[i]? = some x) : (dropAt l i).length + 1 = l.length := by
  obtain ⟨hi, -⟩ := List.getElem?_eq_some_iff.1 h
  rw [dropAt, List.length_append, List.length_take, List.length_drop]
  omega

theorem memWrite_append (m : List Host.Cell) (a : Nat) (l r : List Byte) :
    memWrite m a (l ++ r) = memWrite (memWrite m a l) (a + l.length) r := by
  induction l generalizing m a with
  | nil => rfl
  | cons b l ih => rw [List.cons_append, memWrite, memWrite, ih, List.length_cons, Nat.add_comm l.length 1, Nat.add_assoc]

/-- Blocks of n bytes written one behind the other are read back block by block. -/
theorem memRead_flatMap {α : Type} {f : α → List Byte} {n : Nat} (hf : ∀ x, (f x).length = n) (d : α) (xs : List α)
    {m : List Host.Cell} (hm : Memory.wf m = true) (a : Nat) {j : Nat} (hj : j < xs.length) :
    memRead (memWrite m a (xs.flatMap f)) (a + n * j) n = f (xs.getD j d) := by
  induction xs generalizing m a j with
  | nil => exact absurd hj (Nat.not_lt_zero j)
  | cons x xs ih =>
    rw [List.flatMap_cons, memWrite_append, hf]
    cases j with
    | zero =>
      rw [memRead_memWrite_outside _ _ _ _ _ (.inl (by omega)), Nat.mul_zero, Nat.add_zero, ← hf x, memRead_memWrite _ _ _ hm]
      rfl
    | succ j =>
      have hnext : a + n * (j + 1) = a + n + n * j := by ring
      rw [hnext, ih (memWrite_keeps_wf _ _ _ hm) _ (Nat.lt_of_succ_lt_succ hj), List.getD_cons_succ]

/-! ## The end of a block move -/

/-- What a block move has done to memory when it ends. -/
def State.moveWrites (s : State) (t : Nat) (m : BlockMove) : State :=
  if m.push then s else s.writeBytes (tileAddr t ((blockMemory (kindOf t)).2 + m.addr)) (m.entries.flatMap lineBytes)

theorem exec_blockMoveComplete {s : State} {t i : Nat} {m : BlockMove} (h : (s.tile t).doneMove (s.rowFc t) = some (i, m)) :
    exec (.blockMoveComplete t) s = .next ((((s.modTile t (fun x => { x with moves := dropAt x.moves i })).moveWrites t m).holdStreams
      t m.issuedAt (moveTouch m)).startUnits t (s.rowFc t)) := by
  change whenDue _ _ = _
  rw [whenDue_next, blockMoveCompleteDo, h]
  exact ⟨rfl, rfl⟩

theorem moves_moveWrites (s : State) (t x : Nat) (m : BlockMove) : ((s.moveWrites t m).tile x).moves = (s.tile x).moves := by
  unfold State.moveWrites
  split
  · rfl
  · simp [State.tile]

/-- Settles O18: the move leaves flight, its entries are written as consecutive lines, and what starts then writes nothing. -/
theorem blockMoveWritesEntries : Obligations.BlockMoveWritesEntries := by
  intro t i m s h hm hunwritten a
  rw [exec_blockMoveComplete h]
  refine answers_next ⟨?_, fun hpush => ?_, fun hpop => ?_⟩
  · rw [(startUnits_marks _ _ _).tile, tile_modTile, State.holdStreams, tile_modTile]
    simp only [Tile.startReady, List.length_map, moves_moveWrites, tile_modTile]
    exact length_dropAt (findAt_some h)
  · have hquiet : Written s ((s.modTile t (fun x => { x with moves := dropAt x.moves i })).moveWrites t m) := by
      rw [State.moveWrites, if_pos hpush]
      exact ⟨hunwritten, rfl, rfl⟩
    exact ((hquiet.holdStreams _ _ _).startUnits _ _).mem
  · have hwrites : (s.modTile t (fun x => { x with moves := dropAt x.moves i })).moveWrites t m
        = (s.modTile t (fun x => { x with moves := dropAt x.moves i })).writeBytes a (m.entries.flatMap lineBytes) := by
      rw [State.moveWrites, if_neg (by simp [hpop])]
    have hquiet := ((Written.writeBytes (u := s.modTile t (fun x => { x with moves := dropAt x.moves i })) hunwritten a
      (m.entries.flatMap lineBytes)).holdStreams t m.issuedAt (moveTouch m)).startUnits t (s.rowFc t)
    have hmem := hquiet.mem
    rw [writeBytes_mem, modTile_mem] at hmem
    rw [hwrites]
    refine ⟨fun b hb => ?_, fun j hj => ?_⟩
    · rw [hmem]
      refine memGet_memWrite_outside _ _ _ _ ?_
      rw [List.length_flatMap]
      simpa [Nat.mul_comm] using hb
    · rw [hmem]
      exact memRead_flatMap lineBytes_length 0 m.entries hm a hj

end Sys2Proof.Machine

/-! PROOFS. PUSH and COMMIT: the clauses on the time of an entry and of a mark fail where the table of tiles is out of
order. -/

namespace Sys2Proof.Machine

/-- Tile 1 may issue the word w on its output port 4, which leads to skip 160 with the consumer tile 9. Tiles 37 and 1 both
stand for tile 9, and the table lists tile 37, of the row whose clock has passed 100 fc, before tile 1, of a row that has
passed none: the issue writes tile 1 anew, ahead of tile 37, and tile 1 is then the first that stands for tile 9. -/
def disorderedOutput (w : Nat) : State :=
  let pushing : Tile := { mapped := true, logical := 9, enabled := true, threads := [(0, { mode := .running })]
                          ports := [(4, { thread := 0, output := true, dests := [(160, 0)], pushed := 1 })] }
  { State.reset with
    tiles := [(37, { mapped := true, logical := 9 }), (1, pushing), (9, { mapped := false })]
    skips := [(160, { cfg := { valid := true, pushWidth := 3, consumer := 9 }, credit := 1 })]
    power := { rows := [{}, { fc := 100 }] }
    mem := memWrite [] (tileAddr 1 0xF0000) (natLE 8 w) }

/-- PUSH of v2 to port 4, 8 bytes. -/
def disorderedPush : State := disorderedOutput (0x1A <<< 58 + 4 <<< 53 + 2 <<< 46 + 3 <<< 43)

/-- COMMIT on port 4. -/
def disorderedCommit : State := disorderedOutput (0x1B <<< 58 + 4 <<< 53)

/-- The entry of the PUSH leaves by the clock of tile 1's row. -/
theorem disorderedPush_due {u : State} (h : exec (.push 1 0) disorderedPush = .next u) :
    ∀ e ∈ (u.skip 160).fly, e.due = 1 := by
  have hdue : (match exec (.push 1 0) disorderedPush with
      | .next u => (u.skip 160).fly.all (fun e => e.due == 1)
      | _ => true) = true := by decide +kernel
  rw [h] at hdue
  simpa using hdue

/-- Refutes O19: with a table of tiles out of order, the issue itself changes which tile stands for the consumer of a skip,
so an entry is due by another row's clock than the one before the issue. -/
theorem not_pushSendsOrViolatesCredit : ¬ Obligations.PushSendsOrViolatesCredit := by
  rintro ⟨hpush, -⟩
  obtain ⟨u, hu, hsent, -⟩ := hpush 1 0 { thread := 0, output := true, dests := [(160, 0)], pushed := 1 } disorderedPush
    (by decide +kernel) (by decide +kernel) (by decide +kernel) (by decide +kernel) (by decide +kernel) (by decide +kernel)
    (by decide +kernel) (by decide +kernel) (by decide +kernel)
  obtain ⟨e, hfly, -, -, -, -, -, -, hdue, -⟩ := hsent (160, 0) (by simp)
  have hearly := disorderedPush_due hu e (by rw [hfly]; simp)
  have hlate : disorderedPush.skipFc 160 = 100 := by decide +kernel
  rw [hlate, hearly] at hdue
  exact absurd hdue (by decide)

/-- The mark of the COMMIT leaves by the clock of tile 1's row. -/
theorem disorderedCommit_marks {u : State} (h : exec (.commit 1 0) disorderedCommit = .next u) :
    (u.skip 160).marks = [(1, 2)] := by
  have hmarks : (match exec (.commit 1 0) disorderedCommit with
      | .next u => decide ((u.skip 160).marks = [(1, 2)])
      | _ => true) = true := by decide +kernel
  rw [h] at hmarks
  exact of_decide_eq_true hmarks

/-- Refutes O20, as O19: the commit mark is due by another row's clock than the one before the issue. -/
theorem not_commitAndDrop : ¬ Obligations.CommitAndDrop := by
  rintro ⟨hcommit, -⟩
  obtain ⟨u, hu, hsent, -⟩ := (hcommit 1 0 { thread := 0, output := true, dests := [(160, 0)], pushed := 1 } disorderedCommit
    (by decide +kernel)).1 (by decide +kernel) (by decide +kernel) (by decide +kernel) (by decide +kernel) (by decide +kernel)
    (by decide +kernel) (by decide +kernel)
  have hmarks := (hsent (160, 0) (by simp)).2
  have hlate : disorderedCommit.skipFc 160 = 100 := by decide +kernel
  have hnone : (disorderedCommit.skip 160).marks = [] ∧ (disorderedCommit.skip 160).effective = 0 := by decide +kernel
  rw [disorderedCommit_marks hu, hlate, hnone.1, hnone.2] at hmarks
  exact absurd hmarks (by decide)

end Sys2Proof.Machine

/-! PROOFS. Scratch accesses and locks at issue (R158 to R163). -/

namespace Sys2Proof.Machine

/-! ## What an issue leaves of a scratch access -/

@[simp] theorem scratchAddr_issued (s : State) (t th w : Nat) : (s.issued t th).scratchAddr t th w = s.scratchAddr t th w := by
  simp only [State.scratchAddr, g_issued]

@[simp] theorem outsideLock_issued (s : State) (t th st a : Nat) :
    (s.issued t th).outsideLock t th st a = s.outsideLock t th st a := by
  rw [State.outsideLock, issued_thread]
  rfl

@[simp] theorem image_issued (s : State) (t th h : Nat) : (s.issued t th).image h = s.image h := by
  obtain ⟨⟨hrest, -⟩, -⟩ := issued_threadFrame s t th
  rw [State.image, hrest]
  rfl

@[simp] theorem scratchLatency_issued (s : State) (t th st : Nat) :
    (s.issued t th).scratchLatency t th st = s.scratchLatency t th st := by
  rw [State.scratchLatency, image_issued, logical_issued, field_issued Tile.image _ _ _ _ (fun _ _ _ _ => rfl)]
  rfl

@[simp] theorem storeData_issued (s : State) (t th w : Nat) (v : Bool) : (s.issued t th).storeData t th w v = s.storeData t th w v := by
  simp only [State.storeData, v_issued, g_issued]

@[simp] theorem storeRepeats_issued (s : State) (t th w : Nat) (v : Bool) :
    (s.issued t th).storeRepeats t th w v = s.storeRepeats t th w v := by
  rw [State.storeRepeats, field_issued Tile.slots _ _ _ _ (fun _ _ _ _ => rfl)]
  simp only [State.storeRecord, scratchAddr_issued, storeData_issued]
  rfl

/-! ## The three outcomes of the shared checks -/

section
variable {s : State} {t th w : Nat} (body : Nat → State → State)

theorem scratchAccess_allowed (hok : scratchOk (s.scratchAddr t th w) (scratchSize w) = true)
    (hlock : s.outsideLock t th (xStile w) (s.scratchAddr t th w) = false) :
    s.scratchAccess t th w body = body (s.scratchAddr t th w) s := by
  simp [State.scratchAccess, hok, hlock]

theorem scratchAccess_misaligned (hok : scratchOk (s.scratchAddr t th w) (scratchSize w) = false) :
    s.scratchAccess t th w body = (s.raise Ev.scratchAddressInvalid (s.tileEv t)).mustMiss t := by
  simp [State.scratchAccess, hok]

theorem scratchAccess_outsideLock (hok : scratchOk (s.scratchAddr t th w) (scratchSize w) = true)
    (hlock : s.outsideLock t th (xStile w) (s.scratchAddr t th w) = true) :
    s.scratchAccess t th w body = s.lockSequence t th := by
  simp [State.scratchAccess, hok, hlock]

end

/-- The frame of an instruction that changes its own tile and draws free values. -/
theorem IssueFrame.issued (s : State) (t th : Nat) : IssueFrame s (s.issued t th) t [ctrOff 0 (s.tile t).logical 0] :=
  (issued_threadFrame s t th).1

section
variable {s u : State} {t : Nat} {cs : List Nat}

theorem IssueFrame.modTile (h : IssueFrame s u t cs) (f : Tile → Tile) : IssueFrame s (u.modTile t f) t cs := by
  obtain ⟨hrest, htiles, hctrs⟩ := h
  refine ⟨?_, fun x hx => ?_, hctrs⟩
  · rw [hrest]
    rfl
  · rw [tile_modTile_other _ _ _ _ hx, htiles x hx]

theorem IssueFrame.modThread (h : IssueFrame s u t cs) (th : Nat) (f : Thread → Thread) :
    IssueFrame s (u.modThread t th f) t cs := h.modTile _

theorem IssueFrame.draw (h : IssueFrame s u t cs) : IssueFrame s u.draw t cs := by
  obtain ⟨hrest, htiles, hctrs⟩ := h
  refine ⟨?_, htiles, hctrs⟩
  rw [hrest]
  rfl

end

/-! ## Loads and stores -/

/-- The access that a load queues. -/
def State.loadAccess (s : State) (t th w : Nat) (vector : Bool) : Scratch :=
  { load := true, thread := th, order := (s.thread t th).stores, number := (s.thread t th).accesses + 1, reg := xReg w
    vector := vector, size := scratchSize w, signed := xSx w, stile := xStile w, offset := s.scratchAddr t th w
    due := s.rowFc t + 2 * s.scratchLatency t th (xStile w) + 4 }

theorem scratchLoad_allowed {s : State} {t th w : Nat} (v : Bool) (hok : scratchOk (s.scratchAddr t th w) (scratchSize w) = true)
    (hlock : s.outsideLock t th (xStile w) (s.scratchAddr t th w) = false) :
    s.scratchLoad t th w v
      = ((s.modTile t (fun x => { x with scratch := x.scratch ++ [s.loadAccess t th w v] })).modThread t th
          (fun x => { x.keep ((if v then 32 else 0) + xReg w) with accesses := (s.thread t th).accesses + 1 })).awaitReg t th
          ((if v then 32 else 0) + xReg w) :=
  scratchAccess_allowed _ hok hlock

theorem scratch_modThread (s : State) (t th : Nat) (f : Thread → Thread) (x : Nat) :
    ((s.modThread t th f).tile x).scratch = (s.tile x).scratch :=
  field_modThread Tile.scratch _ _ _ _ _ (fun _ _ => rfl)

theorem exec_load {s : State} {t th : Nat} (v : Bool) :
    exec (if v then .ldv t th else .ld t th) s = s.instr t th (if v then 0x22 else 0x20) (fun w s => s.scratchLoad t th w v) := by
  cases v <;> rfl

theorem exec_store {s : State} {t th : Nat} (v : Bool) :
    exec (if v then .stv t th else .st t th) s = s.instr t th (if v then 0x23 else 0x21) (fun w s => s.scratchStore t th w v) := by
  cases v <;> rfl

/-- What a load does at issue. -/
theorem load_issues {s : State} {t th : Nat} (v : Bool) (h : s.Issues t th (if v then 0x22 else 0x20))
    (hlock : s.outsideLock t th (xStile (s.pcWord t th)) (s.scratchAddr t th (s.pcWord t th)) = false)
    (hok : scratchOk (s.scratchAddr t th (s.pcWord t th)) (scratchSize (s.pcWord t th)) = true) :
    Answers (exec (if v then .ldv t th else .ld t th) s) (fun u =>
      IssueFrame s u t [ctrOff 0 (s.tile t).logical 0] ∧ (u.thread t th).regs = (s.issuedThread t th).regs
        ∧ ((if v then 32 else 0) + xReg (s.pcWord t th)) ∈ (u.thread t th).await
        ∧ (u.tile t).scratch = (s.tile t).scratch ++ [(s.issued t th).loadAccess t th (s.pcWord t th) v]) := by
  rw [exec_load]
  refine answers_instr h ?_
  generalize s.pcWord t th = w at *
  rw [scratchLoad_allowed v (by rw [scratchAddr_issued]; exact hok) (by rw [scratchAddr_issued, outsideLock_issued]; exact hlock)]
  unfold State.awaitReg
  refine ⟨(((IssueFrame.issued s t th).modTile _).modThread _ _).modThread _ _, ?_, ?_, ?_⟩
  · rw [thread_modThread, thread_modThread, thread_modTile _ _ _ _ _ (fun _ => by rfl), issued_thread]
    rfl
  · rw [thread_modThread]
    exact List.mem_cons_self
  · rw [scratch_modThread, scratch_modThread, tile_modTile]
    dsimp only
    rw [field_issued Tile.scratch _ _ _ _ (fun _ _ _ _ => rfl)]

/-- The results of a thread, or of the store, are unspecified. -/
def State.storeUnsure (s : State) (t th w : Nat) (vector : Bool) : Bool :=
  (s.thread t th).unsure || !s.storeRepeats t th w vector

/-- The access that a store queues. -/
def State.storeAccess (s : State) (t th w : Nat) (vector : Bool) : Scratch :=
  { load := false, thread := th, order := (s.thread t th).stores + 1, number := (s.thread t th).accesses + 1, reg := 0
    vector := vector, size := scratchSize w, stile := xStile w, offset := s.scratchAddr t th w
    data := if s.storeUnsure t th w vector then BitVec.ofNat 512 s.drawn else s.storeData t th w vector
    due := s.rowFc t + s.scratchLatency t th (xStile w) + 2 }

/-- What a store does at issue. -/
theorem store_issues {s : State} {t th : Nat} (v : Bool) (h : s.Issues t th (if v then 0x23 else 0x21))
    (hlock : s.outsideLock t th (xStile (s.pcWord t th)) (s.scratchAddr t th (s.pcWord t th)) = false)
    (hok : scratchOk (s.scratchAddr t th (s.pcWord t th)) (scratchSize (s.pcWord t th)) = true) :
    Answers (exec (if v then .stv t th else .st t th) s) (fun u =>
      IssueFrame s u t [ctrOff 0 (s.tile t).logical 0] ∧ (u.thread t th).regs = (s.issuedThread t th).regs
        ∧ (u.tile t).scratch = (s.tile t).scratch ++ [(s.issued t th).storeAccess t th (s.pcWord t th) v]) := by
  rw [exec_store]
  refine answers_instr h ?_
  generalize s.pcWord t th = w at *
  unfold State.scratchStore
  rw [scratchAccess_allowed _ (by rw [scratchAddr_issued]; exact hok) (by rw [scratchAddr_issued, outsideLock_issued]; exact hlock)]
  dsimp only
  generalize hdrawn : (if ((s.issued t th).thread t th).unsure || !(s.issued t th).storeRepeats t th w v then (s.issued t th).draw
    else s.issued t th) = d
  have htile (x : Nat) : d.tile x = (s.issued t th).tile x := by
    rw [← hdrawn]
    split <;> rfl
  have hthread (x : Nat) : d.thread t x = (s.issued t th).thread t x := by rw [State.thread, htile]; rfl
  have hframe : IssueFrame s d t [ctrOff 0 (s.tile t).logical 0] := by
    rw [← hdrawn]
    split
    · exact (IssueFrame.issued s t th).draw
    · exact IssueFrame.issued s t th
  refine ⟨(hframe.modTile _).modThread _ _, ?_, ?_⟩
  · rw [thread_modThread, thread_modTile _ _ _ _ _ (fun _ => by rfl), hthread, issued_thread]
  · rw [scratch_modThread, tile_modTile]
    dsimp only
    rw [htile, field_issued Tile.scratch _ _ _ _ (fun _ _ _ _ => rfl)]
    rfl

/-! ## Refused accesses -/

/-- Every row of scratch words goes through the shared checks. -/
theorem exec_scratchRows : ∀ p ∈ [((Instr.ld, 0x20) : (Nat → Nat → Instr) × Nat), (.st, 0x21), (.ldv, 0x22), (.stv, 0x23),
    (.lock, 0x25), (.unlock, 0x26)], ∀ t th, ∃ body : Nat → Nat → State → State, ∀ s,
      exec (p.1 t th) s = s.instr t th p.2 (fun w s => s.scratchAccess t th w (body w)) := by
  simp only [List.forall_mem_cons]
  exact ⟨fun _ _ => ⟨_, fun _ => by rfl⟩, fun _ _ => ⟨_, fun _ => by rfl⟩, fun _ _ => ⟨_, fun _ => by rfl⟩,
    fun _ _ => ⟨_, fun _ => by rfl⟩, fun _ _ => ⟨_, fun _ => by rfl⟩, fun _ _ => ⟨_, fun _ => by rfl⟩, by simp⟩

theorem freeLine_eq (s : State) (t th st line : Nat) : s.freeLine t th st line = s.modTile (s.physical st) (fun x => { x with
    locks := x.locks.filter (fun l => !(l.1 == line && l.2.1 == t && l.2.2 == th)) }) := rfl

/-- Freeing a lock changes locks of tiles and the thread's own lock alone. -/
theorem freeLock_fields (s : State) (t th : Nat) :
    (s.freeLock t th).thread t th = { s.thread t th with lock := none } ∧ (∀ x, ((s.freeLock t th).tile x).scratch = (s.tile x).scratch)
      ∧ (s.freeLock t th).faults = s.faults := by
  unfold State.freeLock
  split
  next st line hlock =>
    rw [freeLine_eq]
    refine ⟨?_, fun x => ?_, rfl⟩
    · rw [thread_modThread, thread_modTile _ _ _ _ _ (fun _ => by rfl)]
    · rw [scratch_modThread, field_modTile Tile.scratch _ _ _ _ (fun _ => by rfl)]
  next hlock =>
    refine ⟨?_, fun _ => rfl, rfl⟩
    rw [← hlock]

/-- Settles O21: a load and a store queue one access on the issued tile, and each check that fails raises its event and
makes the stage miss. -/
theorem scratchAccessesAreChecked : Obligations.ScratchAccessesAreChecked := by
  refine ⟨fun t th s => ?_, fun p hp t th s h => ⟨fun hok => ?_, fun hok hlock => ?_⟩⟩
  · intro w a hlock hok
    refine ⟨fun v h => ?_, fun v h => ?_⟩
    · obtain ⟨u, hu, hframe, hregs, hawait, hscratch⟩ := load_issues v h hlock hok
      refine ⟨u, hu, hframe, hregs, hawait, _, hscratch, rfl, rfl, rfl, rfl, rfl, rfl, rfl, ?_, ?_⟩
      · exact scratchAddr_issued s t th w
      · simp only [State.loadAccess, rowFc_issued, scratchLatency_issued]
        rfl
    · obtain ⟨u, hu, hframe, hregs, hscratch⟩ := store_issues v h hlock hok
      refine ⟨u, hu, hframe, hregs, _, hscratch, rfl, rfl, rfl, rfl, ?_, ?_, fun hsure hrepeats => ?_⟩
      · exact scratchAddr_issued s t th w
      · simp only [State.storeAccess, rowFc_issued, scratchLatency_issued]
        rfl
      · have hnot : (s.issued t th).storeUnsure t th w v = false := by
          rw [State.storeUnsure, storeRepeats_issued, issued_thread, hrepeats]
          exact Bool.or_eq_false_iff.2 ⟨hsure, rfl⟩
        simp only [State.storeAccess, w, hnot, Bool.false_eq_true, if_false, State.storeData, v_issued, g_issued, BitVec.ofNat_toNat]
  · obtain ⟨body, hexec⟩ := exec_scratchRows p hp t th
    rw [hexec]
    refine answers_instr h ?_
    rw [scratchAccess_misaligned _ (by rw [scratchAddr_issued]; exact hok)]
    refine ⟨?_, ?_, ?_, ?_, fun x hx => ?_⟩
    · rw [thread_mustMiss, thread_raise, issued_thread]
    · rw [State.mustMiss, tile_modTile]
    · rw [State.mustMiss, tile_modTile, tile_raise]
      exact field_issued Tile.scratch _ _ _ _ (fun _ _ _ _ => rfl)
    · simp [State.mustMiss]
    · rw [State.mustMiss, tile_modTile_other _ _ _ _ hx, tile_raise, tile_issued_other _ _ _ _ hx]
  · obtain ⟨body, hexec⟩ := exec_scratchRows p hp t th
    rw [hexec]
    refine answers_instr h ?_
    rw [scratchAccess_outsideLock _ (by rw [scratchAddr_issued]; exact hok) (by rw [scratchAddr_issued, outsideLock_issued]; exact hlock)]
    unfold State.lockSequence
    obtain ⟨hthread, hscratch, hfaults⟩ := freeLock_fields (s.issued t th) t th
    refine ⟨?_, ?_, ?_, ?_⟩
    · rw [thread_mustMiss, thread_raise, hthread]
    · rw [State.mustMiss, tile_modTile]
    · rw [State.mustMiss, tile_modTile, tile_raise]
      exact (hscratch t).trans (field_issued Tile.scratch _ _ _ _ (fun _ _ _ _ => rfl))
    · simp [State.mustMiss, hfaults]

end Sys2Proof.Machine

/-! PROOFS. Scratch accesses performed, and locks (R159 to R164). -/

namespace Sys2Proof.Machine

/-! ## Settled accesses -/

/-- Memory, skips, the host's part and every register of u are those of s. -/
structure RegsKept (s u : State) : Prop where
  mem : u.mem = s.mem
  skips : u.skips = s.skips
  host : u.host = s.host
  regs : ∀ t th, (u.thread t th).regs = (s.thread t th).regs

namespace RegsKept

variable {s u : State}

theorem refl (s : State) : RegsKept s s := ⟨rfl, rfl, rfl, fun _ _ => rfl⟩

theorem modTile (h : RegsKept s u) (t : Nat) (f : Tile → Tile) (hf : ∀ y, (f y).threads = y.threads) :
    RegsKept s (u.modTile t f) :=
  ⟨h.mem, h.skips, h.host, fun x th => by rw [thread_modTile _ _ _ _ _ hf, h.regs]⟩

theorem modThread (h : RegsKept s u) (t th : Nat) (f : Thread → Thread) (hf : ∀ y, (f y).regs = y.regs) :
    RegsKept s (u.modThread t th f) := by
  refine ⟨h.mem, h.skips, h.host, fun x y => ?_⟩
  by_cases hx : x = t
  · subst hx
    by_cases hy : y = th
    · subst hy
      rw [thread_modThread, hf, h.regs]
    · rw [thread_modThread_other _ _ _ _ _ hy, h.regs]
  · rw [State.thread, tile_modThread_other _ _ _ _ _ hx]
    exact h.regs x y

theorem freeLine (h : RegsKept s u) (t th st line : Nat) : RegsKept s (u.freeLine t th st line) := by
  rw [freeLine_eq]
  exact h.modTile _ _ (fun _ => rfl)

theorem wakeThread (h : RegsKept s u) (t th : Nat) : RegsKept s (u.wakeThread t th) := by
  unfold State.wakeThread
  exact h.modThread _ _ _ (fun _ => rfl)

theorem arriveReg (h : RegsKept s u) (t th r : Nat) : RegsKept s (u.arriveReg t th r) := by
  unfold State.arriveReg
  exact h.modThread _ _ _ (fun _ => rfl)

theorem takeEarlier (h : RegsKept s u) (t : Nat) (q : Scratch) : RegsKept s (u.takeEarlier t q) := by
  unfold State.takeEarlier
  exact h.modTile _ _ (fun _ => rfl)

theorem settleUnlocks (h : RegsKept s u) (t th : Nat) : RegsKept s (u.settleUnlocks t th) := by
  unfold State.settleUnlocks
  dsimp only
  split
  · exact h
  · refine RegsKept.modThread ?_ _ _ _ (fun _ => rfl)
    exact foldl_keeps (RegsKept s) _ (fun _ _ h => h.freeLine _ _ _ _) _ _ h

theorem scratchSettled (h : RegsKept s u) (t th : Nat) : RegsKept s (u.scratchSettled t th) := by
  have h1 := h.settleUnlocks t th
  unfold State.scratchSettled
  dsimp only
  split
  · exact h1
  · split
    · exact h1.wakeThread _ _
    · exact h1

end RegsKept

theorem exec_scratchStorePerformed {s : State} {t i : Nat} {q : Scratch} (hq : (s.tile t).scratch[i]? = some q) (hload : q.load = false)
    (hdue : q.due ≤ s.rowFc t) (hheld : s.lineHeld t q.thread q.stile q.offset = false)
    (horder : ∀ r ∈ (s.tile t).scratch, r.load = false → r.thread = q.thread → q.order ≤ r.order)
    (htarget : s.scratchTarget t q.stile = true) :
    exec (.scratchStorePerformed t i) s = .next ((((s.takeEarlier t q).writeBytes (tileAddr (s.physical q.stile) q.offset)
      ((lineBytes q.data).take q.size)).modTile t (fun y => { y with scratch := dropAt y.scratch i })).scratchSettled t q.thread) := by
  have hall : (s.tile t).scratch.all (fun r => r.load || r.thread != q.thread || decide (q.order ≤ r.order)) = true := by
    refine List.all_eq_true.2 fun r hr => ?_
    cases hrload : r.load with
    | true => rfl
    | false =>
      by_cases hthread : r.thread = q.thread
      · simp [horder r hr hrload hthread]
      · simp [hthread]
  change whenDue _ _ = _
  rw [whenDue_next, scratchStorePerformedDo, scratchStorePerformedOk, hq]
  simp only [hload, hheld, hall, hdue, htarget, decide_true, Bool.not_false, Bool.and_self, if_true, true_and]

theorem exec_scratchLoadReturn {s : State} {t i : Nat} {q : Scratch} (hq : (s.tile t).scratch[i]? = some q) (hload : q.load = true)
    (hdue : q.due ≤ s.rowFc t) (hheld : s.lineHeld t q.thread q.stile q.offset = false) :
    exec (.scratchLoadReturn t i) s = .next (scratchLoadReturnDo t i s) := by
  change whenDue _ _ = _
  rw [whenDue_next, scratchLoadReturnOk, hq]
  simp [hload, hdue, hheld]

/-! ## The return of a load -/

/-- The value that a load returns. -/
def State.loadValue (s : State) (t : Nat) (q : Scratch) : Nat :=
  if s.scratchTarget t q.stile then q.got.getD (s.loadBytes t q) else s.drawn

/-- The state in which a load has left flight, before its register is written. -/
def State.loadLeaves (s : State) (t i : Nat) (q : Scratch) : State :=
  (if s.scratchTarget t q.stile then s.noteTileRead (s.physical q.stile) q.offset q.size else s.draw).modTile t
    (fun y => { y with scratch := dropAt y.scratch i })

/-- The register of a load. -/
def State.loadWrites (s : State) (t : Nat) (q : Scratch) (x : Nat) : State :=
  if q.vector then s.setV t q.thread q.reg 0 (BitVec.ofNat 512 x)
  else s.setG t q.thread q.reg 0 (BitVec.ofNat 32 (q.extend x))

theorem scratchLoadReturnDo_eq {s : State} {t i : Nat} {q : Scratch} (hq : (s.tile t).scratch[i]? = some q) :
    scratchLoadReturnDo t i s
      = (((s.loadLeaves t i q).loadWrites t q (s.loadValue t q)).arriveReg t q.thread
          ((if q.vector then 32 else 0) + q.reg)).scratchSettled t q.thread := by
  rw [scratchLoadReturnDo, hq]
  rfl

theorem loadLeaves_marks (s : State) (t i : Nat) (q : Scratch) :
    Marks (s.modTile t (fun y => { y with scratch := dropAt y.scratch i })) (s.loadLeaves t i q) := by
  have hnote : Marks s (if s.scratchTarget t q.stile then s.noteTileRead (s.physical q.stile) q.offset q.size else s.draw) :=
    .ite ((Marks.refl s).noteTileRead _ _ _) (Marks.refl s).draw
  unfold State.loadLeaves
  refine ⟨fun x => ?_, fun k => ?_, hnote.power, hnote.images⟩
  · by_cases hx : x = t
    · subst hx
      rw [tile_modTile, tile_modTile, hnote.tile x]
    · rw [tile_modTile_other _ _ _ _ hx, tile_modTile_other _ _ _ _ hx]
      exact hnote.tile x
  · rw [skip_modTile, skip_modTile]
    exact hnote.skip k

theorem thread_loadLeaves (s : State) (t i x th : Nat) (q : Scratch) : (s.loadLeaves t i q).thread x th = s.thread x th := by
  rw [(loadLeaves_marks s t i q).thread, thread_modTile _ _ _ _ _ (fun _ => by rfl)]

theorem loadLeaves_written {s : State} (h : s.unwritten = []) (t i : Nat) (q : Scratch) :
    (s.loadLeaves t i q).mem = s.mem ∧ (s.loadLeaves t i q).host = s.host := by
  unfold State.loadLeaves
  rw [noteTileRead_eq h]
  split <;> exact ⟨rfl, rfl⟩

theorem loadWrites_same (s : State) (t : Nat) (q : Scratch) (x : Nat) :
    (s.loadWrites t q x).mem = s.mem ∧ (s.loadWrites t q x).host = s.host := by
  unfold State.loadWrites State.setV State.setG
  split <;> exact ⟨rfl, rfl⟩

theorem thread_loadWrites_other (s : State) (t th : Nat) (q : Scratch) (x : Nat) (h : th ≠ q.thread) :
    (s.loadWrites t q x).thread t th = s.thread t th := by
  unfold State.loadWrites State.setV State.setG
  split <;> rw [thread_modThread_other _ _ _ _ _ h]

/-- A load's return keeps every register but its own. -/
theorem regsKept_loadReturn {s : State} {t i : Nat} {q : Scratch} (hq : (s.tile t).scratch[i]? = some q) :
    RegsKept ((s.loadLeaves t i q).loadWrites t q (s.loadValue t q)) (scratchLoadReturnDo t i s) := by
  rw [scratchLoadReturnDo_eq hq]
  exact ((RegsKept.refl _).arriveReg _ _ _).scratchSettled _ _

/-- Settles O22: the store's bytes are the one write of the step, and the load's register the one register written. -/
theorem scratchStoresAndLoads : Obligations.ScratchStoresAndLoads := by
  refine ⟨fun t i q s hq hload hdue hheld horder htarget hm hpos hsize => ?_, fun t i q s hq hload hdue hheld htarget => ?_⟩
  · intro a
    rw [exec_scratchStorePerformed hq hload hdue hheld horder htarget]
    have hearlier := (RegsKept.refl s).takeEarlier t q
    generalize s.takeEarlier t q = s1 at hearlier
    have hkept : RegsKept (s1.writeBytes a ((lineBytes q.data).take q.size)) _ :=
      (RegsKept.modTile (.refl _) t (fun y => { y with scratch := dropAt y.scratch i }) (fun _ => rfl)).scratchSettled t q.thread
    refine answers_next ?_
    generalize State.scratchSettled _ t q.thread = u at hkept
    have hmem := hkept.mem
    rw [writeBytes_mem, hearlier.mem] at hmem
    have hlen : ((lineBytes q.data).take q.size).length = q.size := by
      rw [List.length_take, lineBytes_length]
      omega
    refine ⟨?_, fun b hb => ?_, fun th => ?_, ?_, ?_⟩
    · rw [hmem]
      have hread := memRead_memWrite s.mem a ((lineBytes q.data).take q.size) hm
      rwa [hlen] at hread
    · rw [hmem]
      exact memGet_memWrite_outside _ _ _ _ (by rw [hlen]; exact hb)
    · rw [hkept.regs, State.thread, State.tile, writeBytes_tiles, ← State.tile, ← State.thread, hearlier.regs]
    · rw [hkept.skips, writeBytes_skips, hearlier.skips]
    · rw [hkept.host, writeBytes_host, hearlier.host]
  · intro x
    rw [exec_scratchLoadReturn hq hload hdue hheld]
    have hkept := regsKept_loadReturn (s := s) hq
    have hvalue : s.loadValue t q = x := if_pos htarget
    rw [hvalue] at hkept
    obtain ⟨hmem, hhost⟩ := loadWrites_same (s.loadLeaves t i q) t q x
    refine answers_next ⟨fun hv => ?_, fun hg => ?_, fun hw => ?_, fun th hth => ?_⟩
    · rw [State.v, hkept.regs, State.loadWrites, if_pos hv]
      exact v_setV_same _ _ _ _ _ _
    · rw [State.g, hkept.regs, State.loadWrites, if_neg (by simp [hg])]
      exact g_setG_same _ _ _ _ _ _
    · obtain ⟨hmem', hhost'⟩ := loadLeaves_written hw t i q
      exact ⟨by rw [hkept.mem, hmem, hmem'], by rw [hkept.host, hhost, hhost']⟩
    · rw [hkept.regs, thread_loadWrites_other _ _ _ _ _ hth, thread_loadLeaves]

end Sys2Proof.Machine

/-! PROOFS. Locks (R161 to R163). -/

namespace Sys2Proof.Machine

theorem physical_of_home {s : State} {id : Nat} (h : s.Home id) : s.physical id = id := if_pos h

theorem home_issued {s : State} {id : Nat} (t th : Nat) (h : s.Home id) : (s.issued t th).Home id := by
  obtain ⟨hmapped, hlogical⟩ := h
  refine ⟨?_, ?_⟩
  · rw [field_issued Tile.mapped _ _ _ _ (fun _ _ _ _ => rfl), hmapped]
  · rw [field_issued Tile.logical _ _ _ _ (fun _ _ _ _ => rfl), hlogical]

theorem home_modTile {s : State} {id t : Nat} {f : Tile → Tile} (hf : ∀ y, (f y).mapped = y.mapped ∧ (f y).logical = y.logical)
    (h : s.Home id) : (s.modTile t f).Home id := by
  obtain ⟨hmapped, hlogical⟩ := h
  refine ⟨?_, ?_⟩
  · rw [field_modTile Tile.mapped _ _ _ _ (fun y => (hf y).1), hmapped]
  · rw [field_modTile Tile.logical _ _ _ _ (fun y => (hf y).2), hlogical]

theorem Marks.home {s u : State} {id : Nat} (hu : Marks s u) (h : s.Home id) : u.Home id := by
  obtain ⟨hmapped, hlogical⟩ := h
  rw [State.Home, hu.tile id]
  exact ⟨hmapped, hlogical⟩

theorem locks_modThread (s : State) (t th : Nat) (f : Thread → Thread) (x : Nat) :
    ((s.modThread t th f).tile x).locks = (s.tile x).locks :=
  field_modThread Tile.locks _ _ _ _ _ (fun _ _ => rfl)

theorem scratchSize_line {s : State} {t th op : Nat} (h : s.Issues t th op) (h0 : op ≠ 0) (h20 : op ≠ 0x20) (h21 : op ≠ 0x21) :
    scratchSize (s.pcWord t th) = 64 := by
  rw [scratchSize, wOp_of_issues h h0, if_neg (by omega)]

/-! ## LOCK and UNLOCK at issue -/

/-- LOCK puts one request at its S-tile and begins its wait. -/
theorem lock_issues {s : State} {t th : Nat} (h : s.Issues t th 0x25) :
    let w := s.pcWord t th
    let a := s.scratchAddr t th w
    let p := xStile w
    scratchOk a 64 = true → s.outsideLock t th p a = false → s.Home p →
    Answers (exec (.lock t th) s) (fun u =>
      u.thread t th = { s.issuedThread t th with wait := .lock p a } ∧ u.mem = s.mem
        ∧ (u.tile p).lockReqs = (s.tile p).lockReqs ++ [(a, t, th, s.rowFc p + s.scratchLatency t th p + 2)]
        ∧ (u.tile p).locks = (s.tile p).locks ∧ ∀ x, x ≠ t → x ≠ p → u.tile x = s.tile x) := by
  intro w a p hok hlock hhome
  refine answers_instr h ?_
  have hsize := scratchSize_line h (by decide) (by decide) (by decide)
  rw [scratchAccess_allowed _ (by rw [scratchAddr_issued, hsize]; exact hok)
    (by rw [scratchAddr_issued, outsideLock_issued]; exact hlock)]
  dsimp only
  rw [physical_of_home (home_issued t th hhome), rowFc_issued, scratchLatency_issued, scratchAddr_issued]
  unfold State.beginWait
  refine ⟨?_, ?_, ?_, ?_, fun x hxt hxp => ?_⟩
  · rw [thread_modThread, thread_modTile _ _ _ _ _ (fun _ => by rfl), issued_thread]
  · rw [modThread_mem, modTile_mem, issued_mem]
  · rw [field_modThread Tile.lockReqs _ _ _ _ _ (fun _ _ => rfl), tile_modTile]
    dsimp only
    rw [field_issued Tile.lockReqs _ _ _ _ (fun _ _ _ _ => rfl)]
  · rw [locks_modThread, tile_modTile]
    exact field_issued Tile.locks _ _ _ _ (fun _ _ _ _ => rfl)
  · rw [tile_modThread_other _ _ _ _ _ hxt, tile_modTile_other _ _ _ _ hxp, tile_issued_other _ _ _ _ hxt]

/-- UNLOCK frees the line, or notes the accesses before it. -/
theorem unlock_issues {s : State} {t th st line : Nat} (h : s.Issues t th 0x26) (hheld : (s.thread t th).lock = some (st, line)) :
    let w := s.pcWord t th
    let a := s.scratchAddr t th w
    scratchOk a 64 = true → s.outsideLock t th (xStile w) a = false → s.Home st →
    ((s.tile t).scratchPending th = false → Answers (exec (.unlock t th) s) (fun u =>
      (u.thread t th).lock = none ∧ u.mem = s.mem
        ∧ (u.tile st).locks = (s.tile st).locks.filter (fun l => !(l.1 == line && l.2.1 == t && l.2.2 == th))))
    ∧ ((s.tile t).scratchPending th = true → Answers (exec (.unlock t th) s) (fun u =>
      u.thread t th = { s.issuedThread t th with
          lock := none, unlocks := (s.thread t th).unlocks ++ [(st, line, (s.thread t th).accesses)] }
        ∧ ThreadFrame s u t th [])) := by
  intro w a hok hlock hhome
  have hsize := scratchSize_line h (by decide) (by decide) (by decide)
  have hpending := field_issued (fun x => x.scratchPending th) s t th t (fun _ _ _ _ => rfl)
  have hissued : (s.issuedThread t th).lock = some (st, line) := hheld
  refine ⟨fun hnone => answers_instr h ?_, fun hsome => answers_instr h ?_⟩
  all_goals
    rw [scratchAccess_allowed _ (by rw [scratchAddr_issued, hsize]; exact hok)
      (by rw [scratchAddr_issued, outsideLock_issued]; exact hlock)]
  · rw [if_neg (by rw [hpending, hnone]; decide), State.freeLock, issued_thread, hissued]
    dsimp only
    rw [freeLine_eq, physical_of_home (home_issued t th hhome)]
    refine ⟨?_, ?_, ?_⟩
    · rw [thread_modThread]
    · rw [modThread_mem, modTile_mem, issued_mem]
    · rw [locks_modThread, tile_modTile]
      dsimp only
      rw [field_issued Tile.locks _ _ _ _ (fun _ _ _ _ => rfl)]
  · rw [if_pos (by rw [hpending, hsome])]
    refine ⟨?_, (issued_threadFrame s t th).modThread _⟩
    rw [thread_modThread, issued_thread, hissued]
    rfl

/-! ## Grant and release -/

/-- The oldest request for a free line gets it. -/
theorem lockGrant_grants {s : State} {t line : Nat} {r : Nat × Nat × Nat × Nat} (h : (s.tile t).oldestLock line = some r)
    (hdue : r.2.2.2 ≤ s.rowFc t) (hfree : ∀ l ∈ (s.tile t).locks, l.1 ≠ line) (hroom : (s.tile t).locks.length < 16) :
    Answers (exec (.lockGrant t line) s) (fun u =>
      (u.tile t).locks = (s.tile t).locks ++ [(line, r.2.1, r.2.2.1)] ∧ (u.tile t).lockReqs = (s.tile t).lockReqs.erase r
        ∧ (u.thread r.2.1 r.2.2.1).lock = some ((s.tile t).logical, line) ∧ (u.thread r.2.1 r.2.2.1).wait = .none ∧ u.mem = s.mem) := by
  change Answers (whenDue _ _) _
  have hany : (s.tile t).locks.any (fun l => l.1 == line) = false :=
    List.any_eq_false.2 fun l hl => by simpa using hfree l hl
  rw [answers_whenDue, lockGrantOk, lockGrantDo, h]
  refine ⟨by simp [hdue, hany, hroom], ?_⟩
  unfold State.wakeThread
  refine ⟨?_, ?_, ?_, ?_, ?_⟩
  · rw [locks_modThread, locks_modThread, tile_modTile]
  · rw [field_modThread Tile.lockReqs _ _ _ _ _ (fun _ _ => rfl), field_modThread Tile.lockReqs _ _ _ _ _ (fun _ _ => rfl),
      tile_modTile]
  · rw [thread_modThread, thread_modThread]
  · rw [thread_modThread]
  · simp

/-- An UNLOCK of which no earlier access is left frees its line. -/
theorem settleUnlocks_one {s : State} {t th st line n : Nat} (hunlocks : (s.thread t th).unlocks = [(st, line, n)])
    (hnone : ∀ r ∈ (s.tile t).scratch, r.thread = th → n < r.number) :
    s.settleUnlocks t th = (s.freeLine t th st line).modThread t th (fun x => { x with unlocks := [] }) := by
  have hwaits : (s.tile t).scratch.any (fun q => q.thread == th && decide (q.number ≤ n)) = false := by
    refine List.any_eq_false.2 fun r hr => ?_
    rw [Bool.and_eq_true, beq_iff_eq, decide_eq_true_eq]
    rintro ⟨hthread, hle⟩
    exact absurd hle (Nat.not_le.2 (hnone r hr hthread))
  simp [State.settleUnlocks, hunlocks, hwaits]

/-- After that the thread has no UNLOCK left, and its lock is gone from the tile. -/
theorem scratchSettled_unlocks {s : State} {t th st line n : Nat} (hunlocks : (s.thread t th).unlocks = [(st, line, n)])
    (hnone : ∀ r ∈ (s.tile t).scratch, r.thread = th → n < r.number) (hhome : s.Home st) :
    ((s.scratchSettled t th).thread t th).unlocks = []
      ∧ ∀ l ∈ ((s.scratchSettled t th).tile st).locks, ¬(l.1 = line ∧ l.2.1 = t ∧ l.2.2 = th) := by
  have hsettle : ((s.settleUnlocks t th).thread t th).unlocks = []
      ∧ ((s.settleUnlocks t th).tile st).locks = (s.tile st).locks.filter (fun l => !(l.1 == line && l.2.1 == t && l.2.2 == th)) := by
    rw [settleUnlocks_one hunlocks hnone, freeLine_eq, physical_of_home hhome]
    exact ⟨by rw [thread_modThread], by rw [locks_modThread, tile_modTile]⟩
  have hwake : ((s.scratchSettled t th).thread t th).unlocks = ((s.settleUnlocks t th).thread t th).unlocks
      ∧ ((s.scratchSettled t th).tile st).locks = ((s.settleUnlocks t th).tile st).locks := by
    unfold State.scratchSettled
    dsimp only
    split
    · exact ⟨rfl, rfl⟩
    · split
      · unfold State.wakeThread
        exact ⟨by rw [thread_modThread], locks_modThread _ _ _ _ _⟩
      · exact ⟨rfl, rfl⟩
  refine ⟨hwake.1.trans hsettle.1, fun l hl => ?_⟩
  rw [hwake.2, hsettle.2, List.mem_filter] at hl
  rintro ⟨hline, htile, hthread⟩
  simp [hline, htile, hthread] at hl

/-- What a load's register write leaves of its tile and of its thread's UNLOCKs. -/
theorem loadWrites_tile (s : State) (t : Nat) (q : Scratch) (x y : Nat) :
    ((s.loadWrites t q x).thread t q.thread).unlocks = (s.thread t q.thread).unlocks
      ∧ ((s.loadWrites t q x).tile y).scratch = (s.tile y).scratch
      ∧ (s.Home y → (s.loadWrites t q x).Home y) := by
  unfold State.loadWrites State.setV State.setG
  split <;>
    exact ⟨by rw [thread_modThread]; rfl, scratch_modThread _ _ _ _ _, home_modTile (fun _ => ⟨rfl, rfl⟩)⟩

/-- Settles O23: a request, a grant, a line freed at once, and a line freed by the load that its UNLOCK waited for. -/
theorem lockGrantUnlock : Obligations.LockGrantUnlock := by
  refine ⟨fun t th s h => lock_issues h, fun t line r s h hdue hfree hroom => lockGrant_grants h hdue hfree hroom,
    fun t th st line s h hheld => unlock_issues h hheld, fun t i st line n q s hq hload hdue hheld hhome hunlocks hlater => ?_⟩
  rw [exec_scratchLoadReturn hq hload hdue hheld, scratchLoadReturnDo_eq hq]
  refine answers_next ?_
  have hleaves := loadLeaves_marks s t i q
  obtain ⟨hun, hscratch, -⟩ := loadWrites_tile (s.loadLeaves t i q) t q (s.loadValue t q) t
  obtain ⟨-, -, hhome'⟩ := loadWrites_tile (s.loadLeaves t i q) t q (s.loadValue t q) st
  unfold State.arriveReg
  refine scratchSettled_unlocks (n := n) ?_ ?_ ?_
  · rw [thread_modThread, hun, thread_loadLeaves, hunlocks]
  · rw [scratch_modThread, hscratch, hleaves.tile t, tile_modTile]
    exact hlater
  · exact home_modTile (fun _ => ⟨rfl, rfl⟩) (hhome' (hleaves.home (home_modTile (fun _ => ⟨rfl, rfl⟩) hhome)))

end Sys2Proof.Machine

/-! PROOFS. MMS, WCS, RQ and OQ at issue (R103, R115, R129 to R132). -/

namespace Sys2Proof.Machine

/-- What enters the unit: the word, a copy of its descriptor and its time. -/
def State.macEntry (s : State) (t th w : Nat) (k : MacKind) (n : Nat) : MacOp :=
  { kind := k, word := w, desc := lookD (s.thread t th).regs.sd (mSd w) {}, thread := th, issuedAt := s.rowFc t, upTo := n
    after := (s.thread t th).stores }

theorem enterMac_eq (s : State) (t th w : Nat) (k : MacKind) (n : Nat) :
    s.enterMac t th w k n = s.modTile t (fun x => { x with
      macs := x.macs ++ [s.macEntry t th w k n], slots := x.noteSlot th (macAccess (s.macEntry t th w k n)) }) := rfl

theorem desc_macEntry_issued (s : State) (t th w : Nat) (k : MacKind) (n : Nat) :
    ((s.issued t th).macEntry t th w k n).desc = lookD (s.thread t th).regs.sd (bits w 53 52) {}
      ∧ ((s.issued t th).macEntry t th w k n).issuedAt = s.rowFc t := by
  refine ⟨?_, rowFc_issued _ _ _ _⟩
  rw [State.macEntry, issued_thread]
  rfl

/-- An operation that has started is started no second time. -/
theorem macs_startReady_append {x : Tile} {ms : List MacOp} {m : MacOp} (base : Nat) (hx : x.macs = ms ++ [m])
    (hstarted : ∀ n ∈ ms, n.startedAt.isSome = true) :
    (x.startReady base).macs = ms ++ [if x.readyMacs.contains m then { m with startedAt := some base } else m] := by
  have hkept : ∀ n ∈ ms, x.readyMacs.contains n = false := by
    intro n hn
    have hsome := hstarted n hn
    rw [List.contains_eq_mem, decide_eq_false_iff_not, Tile.readyMacs, List.mem_filter]
    simp only [Bool.and_eq_true, Option.isNone_iff_eq_none]
    rintro ⟨-, ⟨-, hnone⟩, -⟩
    rw [hnone] at hsome
    exact absurd hsome (by decide)
  have hmap : (x.startReady base).macs
      = x.macs.map (fun m => if x.readyMacs.contains m then { m with startedAt := some base } else m) := rfl
  rw [hmap, hx, List.map_append, List.map_cons, List.map_nil]
  refine congrArg (· ++ _) ?_
  refine (List.map_congr_left fun n hn => ?_).trans (List.map_id ms)
  rw [hkept n hn]
  rfl

/-- One that starts, or not, is the same operation. -/
theorem macStarted_fields {m : MacOp} (c : Prop) [Decidable c] (base : Nat) :
    let n := if c then { m with startedAt := some base } else m
    n.kind = m.kind ∧ n.word = m.word ∧ n.thread = m.thread ∧ n.issuedAt = m.issuedAt ∧ n.desc = m.desc ∧ n.upTo = m.upTo := by
  dsimp only
  split <;> exact ⟨rfl, rfl, rfl, rfl, rfl, rfl⟩

/-- Entering the unit, with the start of what is ready or without. -/
theorem enterMac_fields {s : State} {t th : Nat} (w : Nat) (k : MacKind) (start : Bool) (hstarted : (s.tile t).AllStarted) :
    let v := (s.issued t th).enterMac t th w k 0
    let u := if start then v.startUnits t (s.rowFc t) else v
    u.thread t th = s.issuedThread t th ∧ IssueFrame s u t [ctrOff 0 (s.tile t).logical 0]
      ∧ ∃ m : MacOp, (u.tile t).macs = (s.tile t).macs ++ [m] ∧ m.kind = k ∧ m.word = w ∧ m.thread = th
          ∧ m.issuedAt = s.rowFc t ∧ m.desc = lookD (s.thread t th).regs.sd (bits w 53 52) {} := by
  dsimp only
  obtain ⟨hdesc, hat⟩ := desc_macEntry_issued s t th w k 0
  have hmacs : ∀ x : Tile, x = ((s.issued t th).enterMac t th w k 0).tile t →
      x.macs = (s.tile t).macs ++ [(s.issued t th).macEntry t th w k 0] := by
    rintro _ rfl
    rw [enterMac_eq, tile_modTile]
    dsimp only
    rw [field_issued Tile.macs _ _ _ _ (fun _ _ _ _ => rfl)]
  have hmoves : (((s.issued t th).enterMac t th w k 0).tile t).moves = (s.tile t).moves := by
    rw [enterMac_eq, tile_modTile]
    exact field_issued Tile.moves _ _ _ _ (fun _ _ _ _ => rfl)
  have hthread : ((s.issued t th).enterMac t th w k 0).thread t th = s.issuedThread t th := by
    rw [enterMac_eq, thread_modTile _ _ _ _ _ (fun _ => by rfl), issued_thread]
  have hframe : IssueFrame s ((s.issued t th).enterMac t th w k 0) t [ctrOff 0 (s.tile t).logical 0] := by
    rw [enterMac_eq]
    exact (IssueFrame.issued s t th).modTile _
  cases start with
  | false => exact ⟨hthread, hframe, _, hmacs _ rfl, rfl, rfl, rfl, hat, hdesc⟩
  | true =>
    rw [if_pos rfl, startUnits_eq]
    · refine ⟨?_, hframe.modTile _, ?_⟩
      · rw [thread_modTile _ _ _ _ _ (fun _ => by rfl), hthread]
      · rw [tile_modTile, macs_startReady_append _ (hmacs _ rfl) hstarted.1]
        obtain ⟨h1, h2, h3, h4, h5, -⟩ := macStarted_fields (m := (s.issued t th).macEntry t th w k 0)
          ((((s.issued t th).enterMac t th w k 0).tile t).readyMacs.contains ((s.issued t th).macEntry t th w k 0) = true)
          (s.rowFc t)
        exact ⟨_, rfl, h1, h2, h3, h4.trans hat, h5.trans hdesc⟩
    · intro m hm _ hup hnone
      rw [hmacs _ rfl, List.mem_append, List.mem_singleton] at hm
      obtain hold | rfl := hm
      · have := hstarted.1 m hold
        rw [hnone] at this
        exact absurd this (by decide)
      · exact hup rfl
    · intro m hm _ hnone
      rw [hmoves] at hm
      have := hstarted.2.1 m hm
      rw [hnone] at this
      exact absurd this (by decide)

/-! ## Output to a port -/

/-- Whether the rows of an output fit the skips of its port (R144). -/
def State.oqFits (s : State) (t w : Nat) : Bool :=
  (s.portDests t (oPort w)).all (fun d =>
    decide ((s.skip d.1).cfg.width = oqWidth w) && decide ((s.skip d.1).cfg.net ≠ 1))

/-- Where no fill is due, none is placed. -/
theorem portFills_eq {s : State} {t p : Nat} (h : ∀ d ∈ s.portDests t p, (s.skip d.1).fillDue = 0) : s.portFills t p = s := by
  unfold State.portFills
  have hfold : ∀ l : List (Nat × Nat), (∀ d ∈ l, (s.skip d.1).fillDue = 0) →
      l.foldl (fun s d => s.placeFills d.1 (s.skip d.1).fillDue) s = s := by
    intro l
    induction l with
    | nil => exact fun _ => rfl
    | cons d l ih =>
      intro hl
      rw [List.foldl_cons, hl d List.mem_cons_self]
      exact ih fun e he => hl e (List.mem_cons_of_mem d he)
  exact hfold _ h

theorem tiles_portUse (s : State) (t p n m : Nat) : (s.portUse t p n m).tiles = s.tiles := by
  unfold State.portUse
  refine foldl_keeps (fun u => u.tiles = s.tiles) _ (fun _ _ h => ?_) _ _ rfl
  exact h

/-- A fold that changes each of several different skips once. -/
theorem skip_foldl_modSkip (f : Skip → Skip) {l : List (Nat × Nat)} (hl : (l.map (·.1)).Nodup) {d : Nat × Nat} (hd : d ∈ l)
    (s : State) : (l.foldl (fun s d => s.modSkip d.1 f) s).skip d.1 = f (s.skip d.1) := by
  have hother : ∀ (l : List (Nat × Nat)) (k : Nat) (s : State), k ∉ l.map (·.1) →
      (l.foldl (fun s d => s.modSkip d.1 f) s).skip k = s.skip k := by
    intro l
    induction l with
    | nil => exact fun _ _ _ => rfl
    | cons e l ih =>
      intro k s hk
      rw [List.map_cons, List.mem_cons, not_or] at hk
      rw [List.foldl_cons, ih _ _ hk.2, skip_modSkip_other _ _ _ _ hk.1]
  induction l generalizing s with
  | nil => exact absurd hd List.not_mem_nil
  | cons e l ih =>
    rw [List.map_cons, List.nodup_cons] at hl
    rw [List.foldl_cons]
    obtain rfl | hd := List.mem_cons.1 hd
    · rw [hother _ _ _ hl.1, skip_modSkip]
    · rw [ih hl.2 hd, skip_modSkip_other]
      exact fun heq => hl.1 (heq ▸ List.mem_map_of_mem (f := (·.1)) hd)

theorem listMin_le {l : List Nat} {a : Nat} (h : a ∈ l) : listMin l ≤ a := by
  induction l with
  | nil => exact absurd h List.not_mem_nil
  | cons x l ih =>
    cases l with
    | nil => exact (List.mem_singleton.1 h).ge
    | cons y l =>
      rw [listMin]
      · obtain rfl | h := List.mem_cons.1 h
        · exact Nat.min_le_left _ _
        · exact (Nat.min_le_right _ _).trans (ih h)
      · exact List.cons_ne_nil _ _

theorem credit_le {s : State} {t p n : Nat} {d : Nat × Nat} (h : n ≤ s.portCredit t p) (hd : d ∈ s.portDests t p)
    (hz : (s.skip d.1).cfg.zrc = false) : n ≤ (s.skip d.1).credit := by
  have hle : s.portCredit t p ≤ (s.skip d.1).creditSeen (s.rowFc t) := listMin_le (List.mem_map_of_mem hd)
  simp only [Skip.creditSeen, hz, Bool.false_eq_true, if_false] at hle
  exact (h.trans hle).trans (Nat.sub_le _ _)

/-- An output to a port once its form and its credit are checked: it uses the credit and enters the unit. -/
def State.oqEnter (s : State) (t th w n : Nat) : State :=
  (((s.portUse t (oPort w) (oqPushes w) (72 * oqPushes w)).modPort t (oPort w) (fun x => { x with pushed := n })).enterMac
    t th w .oq n).startUnits t (s.rowFc t)

theorem exec_oq_port {s : State} {t th : Nat} {y : Port} (h : s.Issues t th 0x2C) (hto : oToport (s.pcWord t th) = true)
    (hy : look (s.tile t).ports (oPort (s.pcWord t th)) = some y) (hfill : ∀ d ∈ y.dests, (s.skip d.1).fillDue = 0) :
    let w := s.pcWord t th
    Answers (exec (.oq t th) s) (fun u => u =
      if s.oqFits t w = false then (s.issued t th).widthMismatch t (oPort w)
      else if s.portCredit t (oPort w) < oqPushes w then (s.issued t th).creditViolation t (oPort w)
      else (s.issued t th).oqEnter t th w (y.pushed + oqPushes w)) := by
  refine answers_instr h ?_
  generalize s.pcWord t th = w at *
  have hdests : s.portDests t (oPort w) = y.dests := by rw [State.portDests, hy]
  have hnone : (s.issued t th).portFills t (oPort w) = s.issued t th := by
    refine portFills_eq fun d hd => ?_
    rw [portDests_issued, hdests] at hd
    rw [skip_issued]
    exact hfill d hd
  have hfits : ((s.issued t th).portDests t (oPort w)).all (fun d =>
      decide (((s.issued t th).skip d.1).cfg.width = oqWidth w) && decide (((s.issued t th).skip d.1).cfg.net ≠ 1))
      = s.oqFits t w := by
    simp only [portDests_issued, skip_issued, State.oqFits]
  dsimp only
  rw [hto, hfits, hnone, portCredit_issued, ports_issued, hy, Bool.not_true, if_neg Bool.false_ne_true]
  cases s.oqFits t w with
  | false => rw [if_pos Bool.not_false, if_pos rfl]
  | true =>
    rw [Bool.not_true, if_neg Bool.false_ne_true, if_neg Bool.true_eq_false.mp]
    refine if_congr Iff.rfl rfl ?_
    rw [State.oqEnter, rowFc_issued]
    rfl

/-- What an output to a port leaves: the count of the port, the credits of its skips and the operation. -/
theorem oqEnter_fields {s : State} {t th w : Nat} {y : Port} (n : Nat) (hy : look (s.tile t).ports (oPort w) = some y)
    (hcredit : oqPushes w ≤ s.portCredit t (oPort w)) (hnodup : (y.dests.map (·.1)).Nodup) :
    let u := s.oqEnter t th w n
    (look (u.tile t).ports (oPort w)).map Port.pushed = some n
      ∧ (∀ d ∈ y.dests, (s.skip d.1).cfg.zrc = false → (u.skip d.1).credit + oqPushes w = (s.skip d.1).credit)
      ∧ ∃ m ∈ (u.tile t).macs, m.kind = .oq ∧ m.word = w ∧ m.upTo = n := by
  have hdests : s.portDests t (oPort w) = y.dests := by rw [State.portDests, hy]
  have htile : (s.portUse t (oPort w) (oqPushes w) (72 * oqPushes w)).tile t = s.tile t := by rw [State.tile, tiles_portUse]; rfl
  unfold State.oqEnter
  have hmarks := startUnits_marks (((s.portUse t (oPort w) (oqPushes w) (72 * oqPushes w)).modPort t (oPort w)
    (fun x => { x with pushed := n })).enterMac t th w .oq n) t (s.rowFc t)
  refine ⟨?_, fun d hd hz => ?_, ?_⟩
  · rw [hmarks.tile, tile_modTile, enterMac_eq, tile_modTile, State.modPort, tile_modTile, htile]
    simp [Tile.startReady, hy]
  · rw [hmarks.skip, skip_modTile, enterMac_eq, skip_modTile, State.modPort, skip_modTile, State.portUse, hdests,
      skip_foldl_modSkip (fun k => k.useCredit (oqPushes w) (72 * oqPushes w)) hnodup hd]
    have hle := credit_le hcredit (hdests ▸ hd) hz
    simp only [Skip.useCredit, hz, Bool.false_eq_true, if_false]
    exact Nat.sub_add_cancel hle
  · rw [hmarks.tile, tile_modTile]
    refine ⟨_, List.mem_map_of_mem (a := ((s.portUse t (oPort w) (oqPushes w) (72 * oqPushes w)).modPort t (oPort w)
      (fun x => { x with pushed := n })).macEntry t th w .oq n) ?_, ?_⟩
    · rw [enterMac_eq, tile_modTile]
      exact List.mem_append_right _ (List.mem_singleton.2 rfl)
    · split <;> exact ⟨rfl, rfl, rfl⟩

/-- Settles O24: the operation appended, and for an output to a port the test of the form, then of the credit. -/
theorem macInstructionsEnterUnit : Obligations.MacInstructionsEnterUnit := by
  refine ⟨?enters, fun t th y s h => ?port⟩
  case enters =>
    simp only [List.forall_mem_cons]
    refine ⟨fun t th s h _ hst => ?_, fun t th s h _ hst => ?_, fun t th s h _ hst => ?_, fun t th s h hto hst => ?_, by simp⟩
    · exact answers_instr h (enterMac_fields _ .mms false hst)
    · exact answers_instr h (enterMac_fields _ .wcs false hst)
    · refine answers_instr h ?_
      dsimp only
      rw [rowFc_issued]
      exact enterMac_fields _ .rq true hst
    · refine answers_instr h ?_
      dsimp only
      rw [hto trivial, rowFc_issued]
      exact enterMac_fields _ .oq true hst
  case port =>
    intro w p hto hy hfill fits
    have hdests : s.portDests t p = y.dests := by rw [State.portDests, hy]
    obtain ⟨u, hu, heq⟩ := exec_oq_port h hto hy hfill
    have hfits : fits ↔ s.oqFits t w = true := by
      simp only [fits, State.oqFits, ← hdests, List.all_eq_true, Bool.and_eq_true, decide_eq_true_eq, p, w]
    have hy' : look ((s.issued t th).tile t).ports p = some y := by rw [ports_issued, hy]
    have hmacs : ((s.issued t th).tile t).macs = (s.tile t).macs := field_issued Tile.macs _ _ _ _ (fun _ _ _ _ => rfl)
    have hflagged : ∀ d ∈ y.dests, d.1 ∈ ((s.issued t th).portDests t p).map Prod.fst := by
      intro d hd
      rw [portDests_issued, hdests]
      exact List.mem_map_of_mem hd
    refine ⟨fun hf hcr hnodup => ⟨u, hu, ?_⟩, fun hf => ⟨u, hu, ?_⟩, fun hf hcr => ⟨u, hu, ?_⟩⟩
    · rw [heq, hfits.1 hf, if_neg (by decide), if_neg (Nat.not_lt.2 hcr)]
      have hfields := oqEnter_fields (th := th) (y.pushed + oqPushes w) hy' (by rw [portCredit_issued]; exact hcr) hnodup
      simp only [skip_issued] at hfields
      exact hfields
    · rw [heq, if_pos (Bool.eq_false_iff.2 (fun ht => hf (hfits.2 ht))), widthMismatch_eq]
      dsimp only
      rw [tile_refuse, eventSeq_refuse, issued_faults]
      refine ⟨rfl, hmacs, rfl, fun d hd => ?_⟩
      rw [skip_refuse _ _ _ _ _ _ (fun _ => by rfl), if_pos (hflagged d hd), skip_issued]
      exact ⟨rfl, rfl⟩
    · rw [heq, hfits.1 hf, if_neg (by decide), if_pos hcr, creditViolation_eq]
      dsimp only
      rw [tile_refuse]
      refine ⟨rfl, hmacs, fun d hd => ?_⟩
      rw [skip_refuse _ _ _ _ _ _ (fun _ => by rfl), if_pos (hflagged d hd)]

end Sys2Proof.Machine

/-! PROOFS. FN and the end of its call (R138, R141). -/

namespace Sys2Proof.Machine

/-! ## The issue of a call -/

@[simp] theorem readByte_issued (s : State) (t th a : Nat) : (s.issued t th).readByte a = s.readByte a := by
  simp [State.readByte, State.lostByte, State.issued, State.countTile, State.count, State.modDebug]

@[simp] theorem readBytes_issued (s : State) (t th a n : Nat) : (s.issued t th).readBytes a n = s.readBytes a n := by
  simp only [State.readBytes, readByte_issued]

@[simp] theorem unwritten_issued (s : State) (t th : Nat) : (s.issued t th).unwritten = s.unwritten := by simp [State.issued]

/-- A call that has started is started no second time. -/
theorem fns_startReady_append {x : Tile} {fs : List FnCall} {f : FnCall} (base : Nat) (hx : x.fns = fs ++ [f])
    (hstarted : ∀ g ∈ fs, g.startedAt.isSome = true) :
    (x.startReady base).fns = fs ++ [if x.readyFns.contains f then { f with startedAt := some base } else f] := by
  have hkept : ∀ g ∈ fs, x.readyFns.contains g = false := by
    intro g hg
    have hsome := hstarted g hg
    rw [List.contains_eq_mem, decide_eq_false_iff_not, Tile.readyFns, List.mem_filter]
    simp only [Bool.and_eq_true, Option.isNone_iff_eq_none]
    rintro ⟨-, hnone, -⟩
    rw [hnone] at hsome
    exact absurd hsome (by decide)
  have hmap : (x.startReady base).fns
      = x.fns.map (fun g => if x.readyFns.contains g then { g with startedAt := some base } else g) := rfl
  rw [hmap, hx, List.map_append, List.map_cons, List.map_nil]
  refine congrArg (· ++ _) ?_
  refine (List.map_congr_left fun g hg => ?_).trans (List.map_id fs)
  rw [hkept g hg]
  rfl

/-- The call that an FN word enters into its unit. -/
def State.fnEntry (s : State) (t th w d : Nat) : FnCall :=
  { unit := fnUnit w, desc := d, descAddr := 8 * fnDesc w, thread := th, issuedAt := s.rowFc t }

/-- The call in its unit, and its thread waiting if WAIT = 1. -/
def State.fnEnter (s : State) (t th w d : Nat) : State :=
  let s2 := s.modTile t (fun x => { x with
    fns := x.fns ++ [s.fnEntry t th w d], slots := x.noteSlot th (fnAccess (s.fnEntry t th w d)) })
  if fnWait w then s2.beginWait t th (.fn (fnUnit w)) else s2

theorem exec_fn {s : State} {t th : Nat} (h : s.Issues t th 0x03) (hunwritten : s.unwritten = []) :
    let w := s.pcWord t th
    let d := leNat (s.readBytes (tileAddr t (8 * fnDesc w)) 32)
    Answers (exec (.fn t th) s) (fun u => u =
      if fnAllowed (fnUnit w) d (8 * fnDesc w) = false then
        ((s.issued t th).raise Ev.fnDescriptorInvalid ((s.issued t th).tileEv t)).mustMiss t
      else ((s.issued t th).fnEnter t th w d).startUnits t (s.rowFc t)) := by
  refine answers_instr h ?_
  generalize s.pcWord t th = w at *
  dsimp only
  rw [noteTileRead_eq (by rw [unwritten_issued, hunwritten]), readBytes_issued, rowFc_issued]
  cases fnAllowed (fnUnit w) (leNat (s.readBytes (tileAddr t (8 * fnDesc w)) 32)) (8 * fnDesc w) with
  | false => rw [if_pos Bool.not_false, if_pos rfl]
  | true =>
    rw [Bool.not_true, if_neg Bool.false_ne_true, if_neg Bool.true_eq_false.mp, State.fnEnter, State.fnEntry, rowFc_issued]

section
variable (s : State) (t th w d : Nat)

theorem thread_fnEnter : ((s.issued t th).fnEnter t th w d).thread t th
    = if fnWait w then { s.issuedThread t th with wait := .fn (fnUnit w) } else s.issuedThread t th := by
  unfold State.fnEnter
  split
  · rw [State.beginWait, thread_modThread, thread_modTile _ _ _ _ _ (fun _ => by rfl), issued_thread]
  · rw [thread_modTile _ _ _ _ _ (fun _ => by rfl), issued_thread]

theorem frame_fnEnter : IssueFrame s ((s.issued t th).fnEnter t th w d) t [ctrOff 0 (s.tile t).logical 0] := by
  unfold State.fnEnter State.beginWait
  split
  · exact ((IssueFrame.issued s t th).modTile _).modThread _ _
  · exact (IssueFrame.issued s t th).modTile _

/-- A part of a tile other than threads, calls and slots is what it was. -/
theorem units_fnEnter : ((s.fnEnter t th w d).tile t).macs = (s.tile t).macs ∧ ((s.fnEnter t th w d).tile t).moves = (s.tile t).moves
    ∧ ((s.fnEnter t th w d).tile t).fns = (s.tile t).fns ++ [s.fnEntry t th w d] := by
  unfold State.fnEnter State.beginWait
  dsimp only
  split
  · rw [field_modThread Tile.macs _ _ _ _ _ (fun _ _ => rfl), field_modThread Tile.moves _ _ _ _ _ (fun _ _ => rfl),
      field_modThread Tile.fns _ _ _ _ _ (fun _ _ => rfl), tile_modTile]
    exact ⟨rfl, rfl, rfl⟩
  · rw [tile_modTile]
    exact ⟨rfl, rfl, rfl⟩

end

/-- With every unit started, an FN starts its own call at most. -/
theorem fnEnter_fields {s : State} {t th : Nat} (w d : Nat) (hstarted : (s.tile t).AllStarted) :
    let u := ((s.issued t th).fnEnter t th w d).startUnits t (s.rowFc t)
    u.thread t th = (if fnWait w then { s.issuedThread t th with wait := .fn (fnUnit w) } else s.issuedThread t th)
      ∧ IssueFrame s u t [ctrOff 0 (s.tile t).logical 0]
      ∧ ∃ f : FnCall, (u.tile t).fns = (s.tile t).fns ++ [f] ∧ f.unit = fnUnit w ∧ f.desc = d ∧ f.descAddr = 8 * fnDesc w
          ∧ f.thread = th := by
  obtain ⟨hsm, hsv, hsf⟩ := allStarted_issued th hstarted
  obtain ⟨hmacs, hmoves, hfns⟩ := units_fnEnter (s.issued t th) t th w d
  have hnever : ∀ {α : Type} {o : Option α}, o.isSome = true → o ≠ none := by
    rintro α _ hsome rfl
    exact Bool.false_ne_true hsome
  dsimp only
  rw [startUnits_eq _ (fun m hm _ _ => hnever (hsm m (hmacs ▸ hm))) (fun m hm _ => hnever (hsv m (hmoves ▸ hm)))]
  refine ⟨?_, (frame_fnEnter s t th w d).modTile _, ?_⟩
  · rw [thread_modTile _ _ _ _ _ (fun _ => by rfl), thread_fnEnter]
  · rw [tile_modTile, fns_startReady_append _ hfns hsf, field_issued Tile.fns _ _ _ _ (fun _ _ _ _ => rfl)]
    refine ⟨_, rfl, ?_⟩
    split <;> exact ⟨rfl, rfl, rfl, rfl⟩

/-! ## The end of a call -/

/-- The thread that waits for a unit goes on. -/
def State.fnWake (s : State) (t th unit : Nat) : State :=
  match (s.thread t th).wait with
  | .fn u => if u = unit then s.wakeThread t th else s
  | _ => s

theorem fnWake_mem (s : State) (t th unit : Nat) : (s.fnWake t th unit).mem = s.mem := by
  unfold State.fnWake
  split
  · split <;> rfl
  · rfl

theorem fns_fnWake (s : State) (t th unit : Nat) : ((s.fnWake t th unit).tile t).fns = (s.tile t).fns := by
  unfold State.fnWake State.wakeThread
  split
  · split
    · exact field_modThread Tile.fns _ _ _ _ _ (fun _ _ => rfl)
    · rfl
  · rfl

theorem wait_fnWake {s : State} {t th unit : Nat} (h : (s.thread t th).wait = .fn unit) :
    ((s.fnWake t th unit).thread t th).wait = .none := by
  unfold State.fnWake State.wakeThread
  rw [h]
  dsimp only
  rw [if_pos rfl, thread_modThread]

/-- The outputs of a call and its RESULT in memory, and the call out of its unit. -/
def State.fnLeaves (s : State) (t i : Nat) (f : FnCall) : State :=
  ((((s.writeBytes (tileAddr t (fnField f.desc 4 4)) (s.fnOutput t f).1).writeBytes (tileAddr t (f.descAddr + 28))
    (natLE 4 (s.fnOutput t f).2.1)).countTile t 9 (s.fnOutput t f).2.2).modTile t (fun x => { x with fns := dropAt x.fns i }))

theorem exec_fnCallComplete {s : State} {t unit i : Nat} {f : FnCall} (h : s.doneFn t unit = some (i, f)) (hunwritten : s.unwritten = []) :
    exec (.fnCallComplete t unit) s
      = .next (((s.fnLeaves t i f).startUnits t ((s.fnLeaves t i f).rowFc t)).fnWake t f.thread unit) := by
  change whenDue _ _ = _
  rw [whenDue_next, fnCallCompleteDo, h]
  refine ⟨rfl, ?_⟩
  have hreads : ((fnRanges f.unit f.desc).1).foldl (fun s (p : Nat × Nat) => s.noteTileRead t p.1 p.2) s = s :=
    foldl_keeps (fun u => u = s) _ (fun u p hu => by rw [hu, noteTileRead_eq hunwritten]) _ _ rfl
  dsimp only
  rw [hreads]
  rfl

theorem fnLeaves_mem (s : State) (t i : Nat) (f : FnCall) : (s.fnLeaves t i f).mem
    = memWrite (memWrite s.mem (tileAddr t (fnField f.desc 4 4)) (s.fnOutput t f).1) (tileAddr t (f.descAddr + 28))
        (natLE 4 (s.fnOutput t f).2.1) := by
  rw [State.fnLeaves, modTile_mem, countTile_mem, writeBytes_mem, writeBytes_mem]

theorem fnLeaves_unwritten {s : State} (h : s.unwritten = []) (t i : Nat) (f : FnCall) : (s.fnLeaves t i f).unwritten = [] := by
  have hfirst := (Written.writeBytes h (tileAddr t (fnField f.desc 4 4)) (s.fnOutput t f).1).unwritten
  have hsecond := (Written.writeBytes hfirst (tileAddr t (f.descAddr + 28)) (natLE 4 (s.fnOutput t f).2.1)).unwritten
  rw [State.fnLeaves]
  simpa using hsecond

theorem fns_fnLeaves (s : State) (t i : Nat) (f : FnCall) : ((s.fnLeaves t i f).tile t).fns = dropAt (s.tile t).fns i := by
  rw [State.fnLeaves, tile_modTile, tile_countTile]
  simp [State.tile]

theorem thread_fnLeaves (s : State) (t i : Nat) (f : FnCall) (th : Nat) : (s.fnLeaves t i f).thread t th = s.thread t th := by
  rw [State.fnLeaves, thread_modTile _ _ _ _ _ (fun _ => by rfl), thread_countTile]
  simp [State.thread, State.tile]

/-- Settles O25: the descriptor is checked and the call entered; its end writes its outputs, then its RESULT, and what
starts then writes nothing. -/
theorem fnCallsRun : Obligations.FnCallsRun := by
  refine ⟨fun t th s h hunwritten => ?issue, fun t unit i f s h hm hunwritten => ?complete⟩
  case issue =>
    intro w a d
    obtain ⟨u, hu, heq⟩ := exec_fn h hunwritten
    change u = if fnAllowed (fnUnit w) d a = false then _ else _ at heq
    refine ⟨fun hok hst => ⟨u, hu, ?_⟩, fun hno => ⟨u, hu, ?_⟩⟩
    · rw [if_neg (fun hno => Bool.false_ne_true (hno.symm.trans hok))] at heq
      rw [heq]
      exact fnEnter_fields w d hst
    · rw [if_pos hno] at heq
      rw [heq]
      refine ⟨?_, ?_, ?_, ?_⟩
      · rw [State.mustMiss, tile_modTile, tile_raise]
        exact field_issued Tile.fns _ _ _ _ (fun _ _ _ _ => rfl)
      · rw [State.mustMiss, tile_modTile]
      · simp [State.mustMiss]
      · rw [thread_mustMiss, thread_raise, issued_thread]
  case complete =>
    intro o a
    rw [exec_fnCallComplete h hunwritten]
    have hquiet : Written (s.fnLeaves t i f) (s.fnLeaves t i f) := ⟨fnLeaves_unwritten hunwritten t i f, rfl, rfl⟩
    have hmem := (hquiet.startUnits t ((s.fnLeaves t i f).rowFc t)).mem
    have hmarks := startUnits_marks (s.fnLeaves t i f) t ((s.fnLeaves t i f).rowFc t)
    rw [fnLeaves_mem] at hmem
    have hnext : tileAddr t (f.descAddr + 32) = tileAddr t (f.descAddr + 28) + 4 := by
      simp only [tileAddr]
      omega
    have hwf := memWrite_keeps_wf o.1 _ a hm
    refine answers_next ⟨?_, fun hapart => ?_, fun b hout hresult => ?_, ?_, fun hwait => ?_⟩
    · rw [fnWake_mem, hmem]
      have hread := memRead_memWrite _ (tileAddr t (f.descAddr + 28)) (natLE 4 o.2.1) hwf
      rw [natLE_length] at hread
      rw [hread, leNat_natLE]
      rfl
    · rw [fnWake_mem, hmem, memRead_memWrite_outside, memRead_memWrite _ _ _ hm]
      rw [natLE_length]
      omega
    · rw [fnWake_mem, hmem, memGet_memWrite_outside, memGet_memWrite_outside _ _ _ _ hout]
      rw [natLE_length]
      omega
    · rw [fns_fnWake, hmarks.tile, tile_modTile]
      simp only [Tile.startReady, List.length_map, fns_fnLeaves]
      exact length_dropAt (findAt_some h)
    · refine wait_fnWake ?_
      rw [hmarks.thread, thread_modTile _ _ _ _ _ (fun _ => by rfl), thread_fnLeaves, hwait]

end Sys2Proof.Machine

/-! PROOFS. MAC streams: their start, their tokens and their completion (R79, R122, R246). -/

namespace Sys2Proof.Machine

/-! ## Start and tokens -/

/-- The tile once its stream has started: a folding tile's named half is ACTIVE. -/
theorem startStream_fields (s : State) (t : Nat) (m : MacOp) :
    let u := s.startStream t m
    (u.tile t).macs = (s.tile t).macs.map (fun n => if n = m then { n with startedAt := some (s.rowFc t) } else n)
      ∧ ((s.tile t).fold = true → (u.tile t).half (decide (1280 ≤ macWaddr m.word)) = .active)
      ∧ u.power = s.power ∧ u.mem = s.mem ∧ ∀ x, x ≠ t → u.tile x = s.tile x := by
  refine ⟨?_, fun hfold => ?_, rfl, rfl, fun x hx => tile_modTile_other _ _ _ _ hx⟩
  · rw [State.startStream, tile_modTile]
    dsimp only
    split
    · unfold Tile.setHalf
      split <;> rfl
    · rfl
  · rw [State.startStream, tile_modTile]
    dsimp only
    rw [if_pos hfold, Tile.half, Tile.setHalf]
    split <;> rfl

theorem exec_macStreamStart {s : State} {t : Nat} {m : MacOp} (hnext : (s.tile t).nextStream = some m)
    (hready : s.streamReady t m = true) (hwaits : ∀ p ∈ (s.row (t / 32)).waiting, p.1 ≠ t) :
    let r := s.row (t / 32)
    let c := (s.tile t).claim
    exec (.macStreamStart t) s = .next
      (if (!r.tokensOn || (decide (s.tokensUsed (t / 32) c < lookD r.shares c 0) && !r.waiting.any (fun p => p.2 == c))) = true
        then s.startStream t m
        else s.modRow (t / 32) (fun r => { r with waiting := r.waiting ++ [(t, c)] })) := by
  have hnone : (s.row (t / 32)).waiting.any (fun p => p.1 == t) = false := by
    simpa using fun a b hab => hwaits (a, b) hab
  change whenDue _ _ = _
  rw [whenDue_next, macStreamStartOk, hnext, macStreamStartDo, hnext]
  refine ⟨by simp [hready, hnone], ?_⟩
  dsimp only
  cases (s.row (t / 32)).tokensOn with
  | false => rfl
  | true =>
    rw [Bool.not_true, Bool.false_or, if_neg Bool.false_ne_true]
    refine if_congr ?_ rfl rfl
    rw [Bool.and_eq_true, decide_eq_true_eq]

theorem exec_heavyUnitTokenGrant {s : State} {row claim t : Nat} {m : MacOp} (hold : (s.row row).oldest claim = some t)
    (hnext : (s.tile t).nextStream = some m)
    (htoken : (s.row row).tokensOn = false ∨ s.tokensUsed row claim < lookD (s.row row).shares claim 0) :
    exec (.heavyUnitTokenGrant row claim) s = .next
      ((s.modRow row (fun r => { r with waiting := r.waiting.filter (fun p => p.1 != t) })).startStream t m) := by
  change whenDue _ _ = _
  rw [whenDue_next, heavyUnitTokenGrantOk, hold, heavyUnitTokenGrantDo, hold]
  refine ⟨by simpa using htoken, ?_⟩
  dsimp only
  rw [show (s.modRow row (fun r => { r with waiting := r.waiting.filter (fun p => p.1 != t) })).tile t = s.tile t from rfl, hnext]

theorem row_modRow {s : State} {r : Nat} (f : Row → Row) (h : r < s.power.rows.length) : (s.modRow r f).row r = f (s.row r) := by
  simp [State.modRow, State.row, State.modPower, h]

theorem rowFc_modRow (s : State) (r t : Nat) (f : Row → Row) (h : ∀ x, (f x).fc = x.fc) : (s.modRow r f).rowFc t = s.rowFc t := by
  simp only [State.rowFc, State.row, State.modRow, State.modPower, List.getD_eq_getElem?_getD, List.getElem?_set]
  split
  next heq =>
    split
    next hlt => rw [Option.getD_some, h, heq]
    next hge => rw [List.getElem?_eq_none (by omega)]
  next hne => rfl

/-! ## The rows of a bank -/

/-- Rows of blocks: of L blocks of k bytes each, the block j of row i is read back. -/
theorem memRead_rows {α : Type} {f : α → List Byte} {k L : Nat} (hf : ∀ x, (f x).length = k) (d : α) (rows : List (List α))
    (hrows : ∀ r ∈ rows, r.length = L) {m : List Host.Cell} (hm : Memory.wf m = true) (a : Nat) {i j : Nat} (hi : i < rows.length)
    (hj : j < L) :
    memRead (memWrite m a (rows.flatMap (fun r => r.flatMap f))) (a + k * L * i + k * j) k = f ((rows.getD i []).getD j d) := by
  induction rows generalizing m a i with
  | nil => exact absurd hi (Nat.not_lt_zero i)
  | cons r rows ih =>
    obtain ⟨hr, hrows⟩ := List.forall_mem_cons.1 hrows
    have hlength : (r.flatMap f).length = k * L := by
      simp [List.length_flatMap, hf, hr, Nat.mul_comm]
    rw [List.flatMap_cons, memWrite_append, hlength]
    cases i with
    | zero =>
      rw [memRead_memWrite_outside, Nat.mul_zero, Nat.add_zero, memRead_flatMap hf d r hm a (hr ▸ hj), List.getD_cons_zero]
      refine .inl ?_
      have := Nat.mul_le_mul_left k (Nat.succ_le_of_lt hj)
      rw [Nat.mul_succ] at this
      omega
    | succ i =>
      have hnext : a + k * L * (i + 1) + k * j = a + k * L + k * L * i + k * j := by ring
      rw [hnext, ih hrows (memWrite_keeps_wf _ _ _ hm) _ (Nat.lt_of_succ_lt_succ hi), List.getD_cons_succ]

/-- Blocks written one after the other are one write. -/
theorem mem_upTo_writeBytes {f : Nat → List Byte} {k n : Nat} (hf : ∀ i < n, (f i).length = k) (at_ : Nat → Nat) (a : Nat)
    (hat : ∀ i, at_ i = a + k * i) (s : State) :
    (upTo n (fun s i => s.writeBytes (at_ i) (f i)) s).mem = memWrite s.mem a ((List.range n).flatMap f) := by
  induction n with
  | zero => rfl
  | succ n ih =>
    have hlength : ((List.range n).flatMap f).length = k * n := by
      have hmap : (List.range n).map (fun i => (f i).length) = (List.range n).map (fun _ => k) :=
        List.map_congr_left fun i hi => hf i (Nat.lt_succ_of_lt (List.mem_range.1 hi))
      rw [List.length_flatMap, hmap]
      simp [Nat.mul_comm]
    rw [upTo, List.range_succ, List.foldl_append, List.foldl_cons, List.foldl_nil, writeBytes_mem, List.flatMap_append, memWrite_append,
      hlength, hat, List.flatMap_cons, List.flatMap_nil, List.append_nil]
    exact congrArg (memWrite · _ _) (ih fun i hi => hf i (Nat.lt_succ_of_lt hi))

/-! ## The results of a stream -/

/-- The results of a stream, row by row. -/
def State.streamRows (s : State) (t : Nat) (m : MacOp) : List (List (Num × Nat)) :=
  (List.range (macRows m.word)).map (fun r => (List.range 32).map (fun n => s.macResult t m r n))

/-- A result in memory. -/
def resultBytes (x : Num × Nat) : List Byte := natLE 4 (fp32 x.1)

theorem length_streamRows (s : State) (t : Nat) (m : MacOp) : (s.streamRows t m).length = macRows m.word := by
  rw [State.streamRows, List.length_map, List.length_range]

theorem length_of_mem_streamRows {s : State} {t : Nat} {m : MacOp} : ∀ r ∈ s.streamRows t m, r.length = 32 := by
  intro r hr
  obtain ⟨i, -, rfl⟩ := List.mem_map.1 hr
  rw [List.length_map, List.length_range]

theorem getD_streamRows {s : State} {t : Nat} {m : MacOp} {r n : Nat} (hr : r < macRows m.word) (hn : n < 32) (d : Num × Nat) :
    ((s.streamRows t m).getD r []).getD n d = s.macResult t m r n := by
  simp [State.streamRows, hr, hn]

theorem length_rowBytes {r : List (Num × Nat)} (hr : r.length = 32) : (r.flatMap resultBytes).length = 128 := by
  simp [List.length_flatMap, resultBytes, hr]

theorem mem_writeBank_sure {s : State} {t : Nat} {m : MacOp} (h : m.unsure = false) : (s.writeBank t m).mem
    = memWrite s.mem (tileAddr t (bankOffset (mBank m.word) 0 0)) ((s.streamRows t m).flatMap (fun r => r.flatMap resultBytes)) := by
  have hrow : ∀ i < macRows m.word, (((s.streamRows t m).getD i []).flatMap resultBytes).length = 128 := by
    intro i hi
    rw [← length_streamRows s t m] at hi
    rw [List.getD_eq_getElem _ _ hi]
    exact length_rowBytes (length_of_mem_streamRows _ (List.getElem_mem hi))
  have hrange : (List.range (macRows m.word)).flatMap (fun i => ((s.streamRows t m).getD i []).flatMap resultBytes)
      = (s.streamRows t m).flatMap (fun r => r.flatMap resultBytes) := by
    rw [← length_streamRows s t m, ← List.flatMap_map (fun i => (s.streamRows t m).getD i [])]
    congr 1
    refine List.ext_getElem (by simp) fun i hi _ => ?_
    simp at hi
    simp [hi]
  have hmem := mem_upTo_writeBytes hrow (fun r => tileAddr t (bankOffset (mBank m.word) r 0))
    (tileAddr t (bankOffset (mBank m.word) 0 0)) (fun i => by simp only [tileAddr, bankOffset]; omega) s
  rw [hrange] at hmem
  rw [State.writeBank, if_neg (by rw [h]; exact Bool.false_ne_true)]
  dsimp only
  rw [countTile_mem]
  exact hmem

theorem length_streamBytes (s : State) (t : Nat) (m : MacOp) :
    ((s.streamRows t m).flatMap (fun r => r.flatMap resultBytes)).length = 128 * macRows m.word := by
  have hmap : (s.streamRows t m).map (fun r => (r.flatMap resultBytes).length) = (s.streamRows t m).map (fun _ => 128) :=
    List.map_congr_left fun r hr => length_rowBytes (length_of_mem_streamRows r hr)
  rw [List.length_flatMap, hmap]
  simp [length_streamRows, Nat.mul_comm]

theorem sameBytes_writeBank (s : State) (t : Nat) (m : MacOp) :
    SameBytes s (s.writeBank t m) (tileAddr t (bankOffset (mBank m.word) 0 0)) (128 * macRows m.word) := by
  intro b hb
  cases h : m.unsure with
  | false =>
    rw [mem_writeBank_sure h, memGet_memWrite_outside]
    rw [length_streamBytes]
    exact hb
  | true =>
    rw [State.writeBank, if_pos h, State.scramble]
    change memGet (State.writeBytes _ _ _).mem b = _
    rw [writeBytes_mem, memGet_memWrite_outside]
    rw [List.length_map, List.length_range]
    exact hb

theorem unwritten_writeBytes {s : State} (h : s.unwritten = []) (a : Nat) (bs : List Byte) : (s.writeBytes a bs).unwritten = [] :=
  (Written.writeBytes h a bs).unwritten

theorem unwritten_writeBank {s : State} (h : s.unwritten = []) (t : Nat) (m : MacOp) : (s.writeBank t m).unwritten = [] := by
  unfold State.writeBank
  split
  · exact unwritten_writeBytes h _ _
  · dsimp only
    rw [countTile_unwritten]
    exact foldl_keeps (fun u => u.unwritten = []) _ (fun u r hu => unwritten_writeBytes hu _ _) _ _ h

theorem tiles_writeBank (s : State) (t : Nat) (m : MacOp) :
    (s.writeBank t m).tiles = s.tiles := by
  unfold State.writeBank
  split
  · simp [State.scramble, State.draw]
  · dsimp only
    rw [countTile_tiles]
    exact foldl_keeps (fun u => u.tiles = s.tiles) _ (fun u r hu => by rw [writeBytes_tiles, hu]) _ _ rfl

/-- The tile once a complete stream has left it. -/
def Tile.streamLeft (x : Tile) (i : Nat) (m : MacOp) (now : Nat) : Tile :=
  let y := { x with macs := dropAt x.macs i }
  if x.fold && mRel m.word then
    let b := decide (1280 ≤ macWaddr m.word)
    let z := y.setHalf b .free
    if b then { z with freedB := some now } else { z with freedA := some now }
  else y

theorem macs_streamLeft (x : Tile) (i : Nat) (m : MacOp) (now : Nat) : (x.streamLeft i m now).macs = dropAt x.macs i := by
  simp only [Tile.streamLeft, Tile.setHalf]
  split
  · cases decide (1280 ≤ macWaddr m.word) <;> rfl
  · rfl

theorem half_streamLeft {x : Tile} {m : MacOp} (hfold : x.fold = true) (hrel : mRel m.word = true) (i now : Nat) :
    (x.streamLeft i m now).half (decide (1280 ≤ macWaddr m.word)) = .free := by
  have hboth : (x.fold && mRel m.word) = true := by rw [hfold, hrel]; rfl
  simp only [Tile.streamLeft, if_pos hboth, Tile.half, Tile.setHalf]
  cases decide (1280 ≤ macWaddr m.word) <;> rfl

theorem exec_macStreamComplete {s : State} {t i : Nat} {m : MacOp} (h : s.doneStream t = some (i, m)) (hunwritten : s.unwritten = []) :
    ∃ base, exec (.macStreamComplete t) s
      = .next (((s.writeBank t m).modTile t (fun x => x.streamLeft i m s.now)).startUnits t base) := by
  have hbank := unwritten_writeBank hunwritten t m
  have hreads : ((s.writeBank t m).noteTouch t 0x30000 (macTouch m).reads).noteTouch t 0 [macWeights m] = s.writeBank t m := by
    have hnone : ∀ (off : Nat) (k : List (Nat × Nat)), (s.writeBank t m).noteTouch t off k = s.writeBank t m := fun off k =>
      foldl_keeps (fun u => u = s.writeBank t m) _ (fun u p hu => by rw [hu, noteTileRead_eq hbank]) _ _ rfl
    rw [hnone, hnone]
  refine ⟨((s.writeBank t m).modTile t (fun x => x.streamLeft i m s.now)).rowFc t - 1, ?_⟩
  change whenDue _ _ = _
  rw [whenDue_next, macStreamCompleteDo, h]
  refine ⟨rfl, ?_⟩
  dsimp only
  rw [hreads]
  rfl

/-- Settles O26: the two branches of a start, the oldest waiting tile of a grant, and a bank written row by row. -/
theorem macStreamsRun : Obligations.MacStreamsRun := by
  refine ⟨⟨fun t m s hnext hready hwaits => ?start, fun row claim t m s hold hnext htoken hrow => ?grant⟩,
    fun t i m s h hm hunwritten => ?complete⟩
  case start =>
    intro r c go
    rw [exec_macStreamStart hnext hready hwaits]
    refine ⟨fun hgo => ?_, fun hgo hrow => ?_⟩
    · rw [if_pos hgo]
      exact answers_next (startStream_fields s t m)
    · rw [if_neg (Bool.eq_false_iff.1 hgo)]
      exact answers_next ⟨by rw [row_modRow _ hrow], rfl, rfl⟩
  case grant =>
    rw [exec_heavyUnitTokenGrant hold hnext htoken]
    obtain ⟨hmacs, -, hpower, hmem, htiles⟩ := startStream_fields
      (s.modRow row (fun r => { r with waiting := r.waiting.filter (fun p => p.1 != t) })) t m
    refine answers_next ⟨?_, ?_, hmem, htiles⟩
    · rw [State.row, hpower]
      exact congrArg Row.waiting (row_modRow _ hrow)
    · rw [hmacs]
      rw [rowFc_modRow _ _ _ _ (fun _ => by rfl)]
      rfl
  case complete =>
    obtain ⟨base, hexec⟩ := exec_macStreamComplete h hunwritten
    rw [hexec]
    have hquiet : Written (s.writeBank t m) ((s.writeBank t m).modTile t (fun x => x.streamLeft i m s.now)) :=
      ⟨unwritten_writeBank hunwritten t m, rfl, rfl⟩
    have hmem := (hquiet.startUnits t base).mem
    have htile : (s.writeBank t m).tile t = s.tile t := by rw [State.tile, tiles_writeBank]; rfl
    have hmarks := startUnits_marks ((s.writeBank t m).modTile t (fun x => x.streamLeft i m s.now)) t base
    refine answers_next ⟨fun hsure r n hr hn => ?_, fun b hb => ?_, ?_, fun hfold hrel => ?_⟩
    · have hat : tileAddr t (bankOffset (mBank m.word) r n)
          = tileAddr t (bankOffset (mBank m.word) 0 0) + 4 * 32 * r + 4 * n := by
        simp only [tileAddr, bankOffset]
        omega
      rw [hmem, mem_writeBank_sure hsure, hat, memRead_rows (f := resultBytes) (fun _ => natLE_length _ _) (Num.zero, 0) _
        length_of_mem_streamRows hm _ (by rw [length_streamRows]; exact hr) hn, getD_streamRows hr hn, resultBytes, leNat_natLE]
      rfl
    · rw [hmem]
      exact sameBytes_writeBank s t m b hb
    · rw [hmarks.tile, tile_modTile]
      simp only [Tile.startReady, List.length_map, tile_modTile, macs_streamLeft, htile]
      exact length_dropAt (findAt_some h)
    · rw [hmarks.tile, tile_modTile, tile_modTile, htile]
      exact half_streamLeft hfold hrel i s.now

end Sys2Proof.Machine

/-! PROOFS. Entries and commits: a clause on the time of a block move's entry and one on the time of a commit mark fail. -/

namespace Sys2Proof.Machine

/-- The block POP of tile 1 that waits for a word of skip 160. -/
def strayMove : BlockMove :=
  { push := false, port := 3, thread := 0, addr := 0, count := 1, upTo := 1, issuedAt := 0, missing := 1, startedAt := some 0 }

/-- Tile 1 has a block POP waiting for a word of skip 160, whose consumer is tile 33, of a row whose clock is 100 fc ahead of
tile 1's. -/
def straySkip : State :=
  { State.reset with
    tiles := [(1, { mapped := true, logical := 1, moves := [strayMove]
                    ports := [(3, { thread := 0, output := false, dests := [(160, 0)] })] })]
    skips := [(160, { cfg := { valid := true, consumer := 33 }, fetches := [0], popWait := [(1, 0, 64, false)] })]
    power := { rows := [{}, { fc := 100 }] } }

/-- The entry reaches the block POP by the clock of tile 1's row. -/
theorem straySkip_moves {u : State} (h : exec (.headRefill 160) straySkip = .next u) : (u.tile 1).moves.map BlockMove.lastAt = [1] := by
  have hmoves : (match exec (.headRefill 160) straySkip with
      | .next u => decide ((u.tile 1).moves.map BlockMove.lastAt = [1])
      | _ => true) = true := by decide +kernel
  rw [h] at hmoves
  exact of_decide_eq_true hmoves

/-- Refutes O28: an entry that a refill brings to a block POP is timed by the clock of the tile that pops, which is not the
skip's where the port leads to a skip of another consumer. -/
theorem not_entriesAndMarksMove : ¬ Obligations.EntriesAndMarksMove := by
  rintro ⟨-, -, hrefill⟩
  obtain ⟨u, hu, -, -, hmoves⟩ := (hrefill 160 0 [] straySkip (by decide +kernel) (by decide +kernel) (by decide +kernel)).2.2
    1 0 false [] 0 strayMove (by decide +kernel) (by decide +kernel)
  have hlate : straySkip.skipFc 160 = 100 := by decide +kernel
  have hbefore : (straySkip.tile 1).moves = [strayMove] := by decide +kernel
  have hearly := straySkip_moves hu
  rw [hmoves, hlate, hbefore] at hearly
  exact absurd hearly (by decide)

/-- The state of `disorderedOutput` with a COMMIT of one push deferred. -/
def disorderedDeferred : State :=
  let committing : Tile := { mapped := true, logical := 9, enabled := true
                             ports := [(4, { thread := 0, output := true, dests := [(160, 0)], pushed := 1, deferred := [1] })] }
  { disorderedOutput 0 with tiles := [(37, { mapped := true, logical := 9 }), (1, committing), (9, { mapped := false })] }

/-- The mark of the deferred COMMIT leaves by the clock of tile 1's row. -/
theorem disorderedDeferred_marks {u : State} (h : exec (.commitTakesEffect 1 4) disorderedDeferred = .next u) :
    (u.skip 160).marks = [(1, 2)] := by
  have hmarks : (match exec (.commitTakesEffect 1 4) disorderedDeferred with
      | .next u => decide ((u.skip 160).marks = [(1, 2)])
      | _ => true) = true := by decide +kernel
  rw [h] at hmarks
  exact of_decide_eq_true hmarks

/-- Refutes O29, as O20: taking the deferred count off the port writes tile 1 anew, and the mark is due by another row's
clock than the one before. -/
theorem not_commitsMakeEntriesVisible : ¬ Obligations.CommitsMakeEntriesVisible := by
  rintro ⟨hcommit, -⟩
  obtain ⟨u, hu, -, -, hsent⟩ := (hcommit 1 4 1 []
    { thread := 0, output := true, dests := [(160, 0)], pushed := 1, deferred := [1] } disorderedDeferred
    (by decide +kernel) (by decide +kernel) (by decide +kernel)).1 (by decide +kernel) (by decide +kernel)
  have hmarks := (hsent (160, 0) (by simp)).2
  have hlate : disorderedDeferred.skipFc 160 = 100 := by decide +kernel
  have hnone : (disorderedDeferred.skip 160).marks = [] ∧ (disorderedDeferred.skip 160).effective = 0 := by decide +kernel
  rw [disorderedDeferred_marks hu, hlate, hnone.1, hnone.2] at hmarks
  exact absurd hmarks (by decide)

end Sys2Proof.Machine

/-! PROOFS. Skip timers and deadline fills (R192, R196, R197). -/

namespace Sys2Proof.Machine

/-! ## Timers -/

/-- Threads that go on change neither a skip nor the fault log. -/
theorem wakeQueues_kept (s : State) (t : Nat) : (s.wakeQueues t).skips = s.skips ∧ (s.wakeQueues t).faults = s.faults := by
  refine foldl_keeps (fun u => u.skips = s.skips ∧ u.faults = s.faults) _ (fun u th hu => ?_) _ _ ⟨rfl, rfl⟩
  split
  · split
    · exact hu
    · exact hu
  · exact hu

@[simp] theorem skip_wakeQueues (s : State) (t k : Nat) : (s.wakeQueues t).skip k = s.skip k := by
  simp only [State.skip, (wakeQueues_kept s t).1]

@[simp] theorem faults_wakeQueues (s : State) (t : Nat) : (s.wakeQueues t).faults = s.faults := (wakeQueues_kept s t).2

/-- A word that joins a skip leaves its timer and its tail alone. -/
theorem addWord_fields (k : Skip) (fc pfc : Nat) (w : RWord) :
    (k.addWord fc pfc w).timer = k.timer ∧ (k.addWord fc pfc w).timeoutBit = k.timeoutBit ∧ (k.addWord fc pfc w).tail = k.tail
      ∧ (k.addWord fc pfc w).tailCommitted = k.tailCommitted
      ∧ (k.releaseDue = 0 → k.dropping = false → (k.addWord fc pfc w).words = k.words ++ [w]) := by
  unfold Skip.addWord
  split
  next hdue =>
    unfold Skip.sendCredit
    split
    · exact ⟨rfl, rfl, rfl, rfl, fun h => by omega⟩
    · exact ⟨rfl, rfl, rfl, rfl, fun h => by omega⟩
  next =>
    split
    next hdrop => exact ⟨rfl, rfl, rfl, rfl, fun _ h => by simp [h] at hdrop⟩
    next => exact ⟨rfl, rfl, rfl, rfl, fun _ _ => rfl⟩

/-- Closing the open word takes its committed bytes out of the tail. -/
theorem forceTail_fields (k : Skip) (fc pfc : Nat) :
    (k.forceTail fc pfc).timer = k.timer ∧ (k.forceTail fc pfc).timeoutBit = k.timeoutBit
      ∧ (k.forceTail fc pfc).tail = k.tail.drop k.tailCommitted ∧ (k.forceTail fc pfc).tailCommitted = 0
      ∧ (0 < k.tailCommitted → k.releaseDue = 0 → k.dropping = false →
          (k.forceTail fc pfc).words = k.words ++ [mkWord k.cfg.zrc (k.tail.take k.tailCommitted) true]) := by
  unfold Skip.forceTail
  split
  next h0 => exact ⟨rfl, rfl, by rw [h0]; rfl, h0, fun h => by omega⟩
  next => 
    obtain ⟨htimer, hbit, htail, hcommitted, hwords⟩ := addWord_fields { k with tail := k.tail.drop k.tailCommitted, tailCommitted := 0 }
      fc pfc (mkWord k.cfg.zrc (k.tail.take k.tailCommitted) true)
    exact ⟨htimer, hbit, htail, hcommitted, fun _ => hwords⟩

/-- A skip whose timer has expired. -/
def Skip.expire (x : Skip) (fc pfc : Nat) : Skip :=
  let y := { x with timeoutBit := true, timer := x.timer - x.activeTimeout * 64, activeTimeout := x.timeout.toNat }
  if x.cfg.forceTail then (y.forceTail fc pfc).refill fc 16 else y

theorem expire_fields (x : Skip) (fc pfc : Nat) :
    (x.expire fc pfc).timeoutBit = true ∧ (x.expire fc pfc).timer = x.timer - x.activeTimeout * 64
      ∧ (x.cfg.forceTail = false → (x.expire fc pfc).words = x.words ∧ (x.expire fc pfc).tail = x.tail)
      ∧ (x.cfg.forceTail = true → (x.expire fc pfc).tailCommitted = 0 ∧ (x.expire fc pfc).tail = x.tail.drop x.tailCommitted
          ∧ (0 < x.tailCommitted → x.releaseDue = 0 → x.dropping = false →
              (x.expire fc pfc).words = x.words ++ [mkWord x.cfg.zrc (x.tail.take x.tailCommitted) true])) := by
  unfold Skip.expire
  dsimp only
  split
  next hforce =>
    rw [refill_eq]
    obtain ⟨htimer, hbit, htail, hcommitted, hwords⟩ := forceTail_fields
      { x with timeoutBit := true, timer := x.timer - x.activeTimeout * 64, activeTimeout := x.timeout.toNat } fc pfc
    exact ⟨hbit, htimer, fun h => by rw [h] at hforce; exact absurd hforce Bool.false_ne_true,
      fun _ => ⟨hcommitted, htail, hwords⟩⟩
  next hforce => exact ⟨rfl, rfl, fun _ => ⟨rfl, rfl⟩, fun h => absurd h hforce⟩

theorem skipTimerExpiry_fields (s : State) (k : Nat) :
    (skipTimerExpiryDo k s).skip k = (s.skip k).expire (s.skipFc k) (s.producerFc k)
      ∧ (skipTimerExpiryDo k s).faults.eventSeq = s.faults.eventSeq + 1
      ∧ ∀ j, j ≠ k → (skipTimerExpiryDo k s).skip j = s.skip j := by
  have hskip : ∀ j, (((s.raise Ev.skipTimeout (s.skipEv k)).hit (skipStatus k) 4).count 1 k 3 1).skip j = s.skip j := fun j => by
    rw [skip_count, skip_hit, skip_raise]
  unfold skipTimerExpiryDo
  dsimp only
  refine ⟨?_, ?_, fun j hj => ?_⟩
  · rw [skip_wakeQueues, skip_modSkip, hskip]
    rfl
  · rw [faults_wakeQueues]
    simp
  · rw [skip_wakeQueues, skip_modSkip_other _ _ _ _ hj, hskip]

/-! ## Deadline fills -/

/-- How many fill entries a skip has credit for (R180). -/
def Skip.fillRoom (x : Skip) : Nat :=
  if x.cfg.zrc then (if x.free < 72 then 0 else (x.free - 72) / 8 + 1) else x.credit

/-- What a fill entry is (R192). -/
def IsFill (c : SkipCfg) (e : Entry) : Prop :=
  e.miss = true ∧ e.data = 0 ∧ e.bytes = (if c.zrc then 0 else c.width) ∧ e.zrc = c.zrc

/-- u is s with c fill entries placed on skip k. -/
structure Filled (k c : Nat) (s u : State) : Prop where
  cfg : (u.skip k).cfg = (s.skip k).cfg
  fillDue : (u.skip k).fillDue = (s.skip k).fillDue - c
  credit : (s.skip k).cfg.zrc = false → (u.skip k).credit = (s.skip k).credit - c
  free : (s.skip k).cfg.zrc = true → (u.skip k).free = (s.skip k).free - 8 * c
  marks : (u.skip k).marks.length = (s.skip k).marks.length + c
  sent : ∃ es, (u.skip k).fly = (s.skip k).fly ++ es ∧ es.length = c ∧ (∀ e ∈ es, IsFill (s.skip k).cfg e)
    ∧ (0 < c → c = (s.skip k).fillDue → es.getLast?.map Entry.eop = some true)
  tiles : u.tiles = s.tiles
  mem : u.mem = s.mem
  other : ∀ j, j ≠ k → u.skip j = s.skip j

/-- A skip with one more fill entry on its way. -/
def Skip.fillOne (x : Skip) (e : Entry) (due : Nat) : Skip :=
  { x.useCredit 1 e.stored with
    fillDue := x.fillDue - 1, fly := x.fly ++ [{ e with due := due }], marks := x.marks ++ [(x.effective, due + 2)] }

theorem fillEntry_fields (c : SkipCfg) (eop degraded : Bool) (due : Nat) :
    let e : Entry := { fillEntry c eop with degraded := degraded }
    IsFill c { e with due := due } ∧ e.eop = eop ∧ (c.zrc = true → e.stored = 8) := by
  unfold fillEntry IsFill
  cases hz : c.zrc with
  | false => exact ⟨⟨rfl, rfl, rfl, rfl⟩, rfl, fun h => absurd h Bool.false_ne_true⟩
  | true => exact ⟨⟨rfl, rfl, rfl, rfl⟩, rfl, fun _ => by simp [Entry.stored, ceilDiv]⟩

theorem filled_one {s : State} {k : Nat} (e : Entry) (due : Nat) (he : IsFill (s.skip k).cfg { e with due := due })
    (heop : e.eop = (s.skip k).fillEnd) (hstored : (s.skip k).cfg.zrc = true → e.stored = 8) :
    Filled k 1 s (s.modSkip k (fun x => x.fillOne e due)) := by
  constructor
  case cfg =>
    rw [skip_modSkip, Skip.fillOne, Skip.useCredit]
    split <;> rfl
  case fillDue =>
    rw [skip_modSkip]
    rfl
  case credit =>
    intro hz
    rw [skip_modSkip, Skip.fillOne, Skip.useCredit, if_neg (by rw [hz]; exact Bool.false_ne_true)]
  case free =>
    intro hz
    rw [skip_modSkip, Skip.fillOne, Skip.useCredit, if_pos hz, hstored hz]
  case marks =>
    rw [skip_modSkip]
    exact List.length_append
  case sent =>
    refine ⟨[{ e with due := due }], by rw [skip_modSkip]; rfl, rfl, fun e' he' => ?_, fun _ hone => ?_⟩
    · rw [List.mem_singleton.1 he']
      exact he
    · rw [Skip.fillEnd, ← hone] at heop
      exact congrArg some heop
  case tiles => rfl
  case mem => rfl
  case other => exact fun j hj => skip_modSkip_other _ _ _ _ hj

theorem Filled.none (k : Nat) (s : State) : Filled k 0 s s :=
  ⟨rfl, rfl, fun _ => rfl, fun _ => rfl, rfl, ⟨[], (List.append_nil _).symm, rfl, by simp, fun h => absurd h (lt_irrefl _)⟩, rfl, rfl,
    fun _ _ => rfl⟩

theorem Filled.after {k c : Nat} {s v u : State} (h1 : Filled k 1 s v) (h : Filled k c v u) : Filled k (c + 1) s u := by
  obtain ⟨es, hfly, hlength, hfill, hend⟩ := h1.sent
  obtain ⟨fs, gfly, glength, gfill, gend⟩ := h.sent
  constructor
  case cfg => rw [h.cfg, h1.cfg]
  case fillDue => rw [h.fillDue, h1.fillDue, Nat.sub_sub, Nat.add_comm]
  case credit => 
    intro hz
    rw [h.credit (by rw [h1.cfg, hz]), h1.credit hz, Nat.sub_sub, Nat.add_comm]
  case free =>
    intro hz
    rw [h.free (by rw [h1.cfg, hz]), h1.free hz]
    omega
  case marks => rw [h.marks, h1.marks, Nat.add_assoc, Nat.add_comm 1]
  case sent =>
    refine ⟨es ++ fs, by rw [gfly, hfly, List.append_assoc], by rw [List.length_append, hlength, glength, Nat.add_comm],
      fun e he => ?_, fun _ hall => ?_⟩
    · obtain he | he := List.mem_append.1 he
      · exact hfill e he
      · rw [← h1.cfg]
        exact gfill e he
    · rw [h1.fillDue] at gend
      by_cases hc : c = 0
      · subst hc
        rw [List.length_eq_zero_iff.1 glength, List.append_nil]
        exact hend Nat.one_pos (by omega)
      · have hne : fs ≠ [] := fun hnil => hc (by rw [← glength, hnil]; rfl)
        rw [List.getLast?_append_of_ne_nil _ hne]
        exact gend (by omega) (by omega)
  case tiles => rw [h.tiles, h1.tiles]
  case mem => rw [h.mem, h1.mem]
  case other => exact fun j hj => (h.other j hj).trans (h1.other j hj)

theorem creditAll_pos_iff (x : Skip) : 0 < x.creditAll ↔ 0 < x.fillRoom := by
  unfold Skip.creditAll Skip.fillRoom
  split
  · split <;> omega
  · exact Iff.rfl

/-- A fill where one is due and has credit, then as many as are left to place. -/
theorem Filled.place {k n : Nat} {s v u : State} (hdue : 0 < (s.skip k).fillDue) (hcredit : 0 < (s.skip k).creditAll)
    (h1 : Filled k 1 s v) (h : Filled k (min n (min (v.skip k).fillDue (v.skip k).fillRoom)) v u) :
    Filled k (min (n + 1) (min (s.skip k).fillDue (s.skip k).fillRoom)) s u := by
  have hc : min n (min (v.skip k).fillDue (v.skip k).fillRoom) + 1 = min (n + 1) (min (s.skip k).fillDue (s.skip k).fillRoom) := by
    rw [h1.fillDue, Skip.fillRoom, h1.cfg]
    cases hz : (s.skip k).cfg.zrc with
    | false =>
      rw [h1.credit hz, Skip.fillRoom, hz]
      simp only [Skip.creditAll, hz, Bool.false_eq_true, if_false] at hcredit ⊢
      omega
    | true =>
      rw [h1.free hz, Skip.fillRoom, hz]
      simp only [Skip.creditAll, hz, if_true] at hcredit ⊢
      split <;> split <;> omega
  rw [← hc]
  exact h1.after h

/-- As many fills are placed as are due, asked for and have credit. -/
theorem placeFills_filled (k n : Nat) (s : State) :
    Filled k (min n (min (s.skip k).fillDue (s.skip k).fillRoom)) s (s.placeFills k n) := by
  induction n generalizing s with
  | zero =>
    rw [Nat.zero_min]
    exact .none k s
  | succ n ih =>
    rw [State.placeFills]
    dsimp only
    split
    next hgo =>
      obtain ⟨he, heop, hstored⟩ := fillEntry_fields (s.skip k).cfg (s.skip k).fillEnd
        ((((s.skip k).cfg.producer.map (fun q => (s.tile (s.physical q.1)).degraded)).getD false))
        (s.skipFc k + (s.skip k).cfg.routeLatency)
      exact .place hgo.1 hgo.2 (filled_one _ _ he heop hstored) (ih _)
    next hstop =>
      have hnone : min (n + 1) (min (s.skip k).fillDue (s.skip k).fillRoom) = 0 := by
        rw [creditAll_pos_iff, not_and_or] at hstop
        omega
      rw [hnone]
      exact .none k s

/-- Settles O30: the expired timer and, with FORCE_TAIL, the word cut out of the tail; fills one by one. -/
theorem skipTimersAndDeadlineFills : Obligations.SkipTimersAndDeadlineFills := by
  refine ⟨fun k s hactive hover => ?timer, fun k s hdue => ?fill⟩
  case timer =>
    have hexec : exec (.skipTimerExpiry k) s = .next (skipTimerExpiryDo k s) := by
      change whenDue _ _ = _
      rw [whenDue_next]
      refine ⟨?_, rfl⟩
      simp [skipTimerExpiryOk, Skip.timerOver, hactive, hover]
    obtain ⟨hskip, hevent, hother⟩ := skipTimerExpiry_fields s k
    obtain ⟨hbit, htimer, hkept, hforced⟩ := expire_fields (s.skip k) (s.skipFc k) (s.producerFc k)
    rw [hexec]
    refine answers_next ⟨?_, ?_, hevent, ?_, ?_, hother⟩ <;> rw [hskip]
    · exact hbit
    · exact htimer
    · exact hkept
    · exact hforced
  case fill =>
    intro z hcredit n
    have hroom : (s.skip k).fillRoom = if z then ((s.skip k).free - 72) / 8 + 1 else (s.skip k).credit := by
      unfold Skip.fillRoom
      cases hz : z with
      | false => rw [show (s.skip k).cfg.zrc = false from hz]; rfl
      | true =>
        rw [hz] at hcredit
        rw [show (s.skip k).cfg.zrc = true from hz]
        simp only [if_true] at hcredit ⊢
        exact if_neg (by omega)
    have hn : min (s.skip k).fillDue (min (s.skip k).fillDue (s.skip k).fillRoom) = n := by
      rw [hroom]
      omega
    have hexec : exec (.deadlineFillPush k) s = .next (s.placeFills k (s.skip k).fillDue) := by
      change whenDue _ _ = _
      rw [whenDue_next]
      have hpos : 0 < (s.skip k).fillRoom := by
        rw [hroom]
        split
        · exact Nat.succ_pos _
        next hz => rwa [if_neg hz] at hcredit
      refine ⟨?_, rfl⟩
      rw [deadlineFillPushOk, Bool.and_eq_true, decide_eq_true_eq, decide_eq_true_eq]
      exact ⟨hdue, (creditAll_pos_iff _).2 hpos⟩
    have h := placeFills_filled k (s.skip k).fillDue s
    rw [hn] at h
    obtain ⟨es, hfly, hlength, hfill, hend⟩ := h.sent
    rw [hexec]
    refine answers_next ⟨h.fillDue, h.credit, h.free, ?_, h.marks, fun e he => ?_, fun hall => ?_, h.tiles, h.mem, h.other⟩
    · rw [hfly, List.length_append, hlength]
    · rw [hfly, List.drop_left] at he
      exact hfill e he
    · have hne : es ≠ [] := fun hnil => by
        rw [hnil, hall] at hlength
        exact absurd hlength hdue.ne
      rw [hfly, List.getLast?_append_of_ne_nil _ hne]
      exact hend (hall ▸ hdue) hall

end Sys2Proof.Machine

/-! PROOFS. What a tick does to its pipelines leaves the tick domains alone: each operation of a tick writes neither a domain
nor the time. -/

namespace Sys2Proof.Machine

/-- The tick domains and the time are those of s. -/
structure TicksKept (s u : State) : Prop where
  ticks : u.ticks = s.ticks
  now : u.now = s.now

/-- What `TicksKept` compares. -/
def State.clockwork (s : State) : List (Nat × TickDomain) × Nat := (s.ticks, s.now)

namespace TicksKept

variable {s u : State}

theorem refl (s : State) : TicksKept s s := ⟨rfl, rfl⟩

/-- An update that writes neither domains nor time. -/
theorem same {w : State} (hs : TicksKept s u) (hw : w.clockwork = u.clockwork) : TicksKept s w := by
  obtain ⟨hticks, hnow⟩ := Prod.mk.inj hw
  exact ⟨hticks.trans hs.ticks, hnow.trans hs.now⟩

theorem ite {c : Prop} [Decidable c] {a b : State} (ha : TicksKept s a) (hb : TicksKept s b) :
    TicksKept s (if c then a else b) := by
  split
  · exact ha
  · exact hb

theorem foldl {α : Type} {f : State → α → State} {l : List α} (hf : ∀ u x, TicksKept s u → TicksKept s (f u x))
    (hs : TicksKept s u) : TicksKept s (l.foldl f u) :=
  foldl_keeps (TicksKept s) f hf l u hs

theorem upTo {n : Nat} {f : State → Nat → State} (hf : ∀ u x, TicksKept s u → TicksKept s (f u x)) (hs : TicksKept s u) :
    TicksKept s (Machine.upTo n f u) :=
  foldl hf hs

theorem modSkip (hs : TicksKept s u) {k : Nat} {f : Skip → Skip} : TicksKept s (u.modSkip k f) := by
  unfold State.modSkip
  exact .same hs (by rfl)

theorem modDebug (hs : TicksKept s u) {f : Debug → Debug} : TicksKept s (u.modDebug f) := by
  unfold State.modDebug
  exact .same hs (by rfl)

theorem count (hs : TicksKept s u) {k i c n : Nat} : TicksKept s (u.count k i c n) := by
  unfold State.count
  exact .ite hs (.modDebug hs)

theorem countPipe (hs : TicksKept s u) {p c n : Nat} : TicksKept s (u.countPipe p c n) := by
  unfold State.countPipe
  exact .count hs

theorem modAdit (hs : TicksKept s u) {f : Adit → Adit} : TicksKept s (u.modAdit f) := by
  unfold State.modAdit
  exact .same hs (by rfl)

theorem modLine (hs : TicksKept s u) {l : Nat} {f : DecLine → DecLine} : TicksKept s (u.modLine l f) := by
  unfold State.modLine
  exact .modAdit hs

theorem queueWord (hs : TicksKept s u) {x : Pipe} {tick pos ch : Nat} {w : Word} : TicksKept s (u.queueWord x tick pos ch w) := by
  unfold State.queueWord
  refine .ite hs ?_
  extract_lets l at_ s1
  have hs1 : TicksKept s s1 := .modLine hs
  exact .ite (.modLine hs1) hs1

theorem sumpWord (hs : TicksKept s u) {x : Pipe} {w : Word} : TicksKept s (u.sumpWord x w) := by
  unfold State.sumpWord
  split
  · exact hs
  · exact .modSkip hs

theorem writeBytes (hs : TicksKept s u) {a : Nat} {bs : List Byte} : TicksKept s (u.writeBytes a bs) := by
  unfold State.writeBytes
  exact .ite hs (.same hs (by rfl))

theorem modHost (hs : TicksKept s u) {f : HostIf → HostIf} : TicksKept s (u.modHost f) := by
  unfold State.modHost
  exact .same hs (by rfl)

theorem modRing (hs : TicksKept s u) {c k : Nat} {f : Machine.Ring → Machine.Ring} : TicksKept s (u.modRing c k f) := by
  unfold State.modRing
  exact .modHost hs

theorem modClaim (hs : TicksKept s u) {c : Nat} {f : Claim → Claim} : TicksKept s (u.modClaim c f) := by
  unfold State.modClaim
  exact .modHost hs

theorem emit (hs : TicksKept s u) {o : Out} : TicksKept s (u.emit o) := by
  unfold State.emit
  exact .same hs (by rfl)

theorem fireMsix (hs : TicksKept s u) {c v : Nat} : TicksKept s (u.fireMsix c v) := by
  unfold State.fireMsix
  exact .ite (.modClaim hs) (.emit hs)

theorem placeEntry (hs : TicksKept s u) {c k : Nat} {r : Record} : TicksKept s (u.placeEntry c k r) := by
  unfold State.placeEntry
  extract_lets g s1 s2
  have hs2 : TicksKept s s2 := .modRing (.writeBytes hs)
  exact .ite (.fireMsix hs2) hs2

theorem hit (hs : TicksKept s u) {o b : Nat} : TicksKept s (u.hit o b) := by
  unfold State.hit
  exact .same hs (by rfl)

theorem deliver (hs : TicksKept s u) {c : Nat} {r : Record} : TicksKept s (u.deliver c r) := by
  unfold State.deliver
  exact .ite hs (.ite (.placeEntry hs) (.ite (.modClaim hs) (.count (.hit (.hit (.modRing (.modClaim hs)))))))

theorem modFaults (hs : TicksKept s u) {f : Faults → Faults} : TicksKept s (u.modFaults f) := by
  unfold State.modFaults
  exact .same hs (by rfl)

theorem raise (hs : TicksKept s u) {k : EvKind} {e : EvArgs} : TicksKept s (u.raise k e) := by
  unfold State.raise
  refine .modFaults ?_
  split
  · exact .deliver hs
  · exact .deliver hs
  · extract_lets s1
    have hs1 : TicksKept s s1 := .deliver hs
    exact .ite hs1 (.deliver hs1)

theorem windowViolation (hs : TicksKept s u) {claim : Nat} {bad : Option Nat} : TicksKept s (u.windowViolation claim bad) := by
  unfold State.windowViolation
  split
  · exact hs
  · exact .raise hs

theorem uninitRead (hs : TicksKept s u) {claim addr n : Nat} : TicksKept s (u.uninitRead claim addr n) := by
  unfold State.uninitRead
  refine .ite hs ?_
  extract_lets x first total s1 due
  have hs1 : TicksKept s s1 := .count hs
  exact .ite (.hit (.modClaim (.raise hs1))) (.hit (.modClaim hs1))

theorem noteCvaRead (hs : TicksKept s u) {claim cva n : Nat} : TicksKept s (u.noteCvaRead claim cva n) := by
  unfold State.noteCvaRead
  extract_lets s1 marked
  have hs1 : TicksKept s s1 := .windowViolation hs
  clear_value marked
  split
  · exact hs1
  · exact .uninitRead hs1

theorem modSump (hs : TicksKept s u) {f : Sump → Sump} : TicksKept s (u.modSump f) := by
  unfold State.modSump
  exact .same hs (by rfl)

theorem modHoist (hs : TicksKept s u) {h : Nat} {f : Hoist → Hoist} : TicksKept s (u.modHoist h f) := by
  unfold State.modHoist
  exact .modSump hs

theorem keepFrame (hs : TicksKept s u) {p : Nat} {x : Pipe} {f : Frame} {w : Word} : TicksKept s (u.keepFrame p x f w) := by
  unfold State.keepFrame
  extract_lets img len full
  have hfull {v : State} (hv : TicksKept s v) : TicksKept s (full v) := .countPipe (.countPipe (.raise hv))
  split
  · extract_lets head s0
    have hs0 : TicksKept s s0 := .noteCvaRead hs
    split
    · exact .modHoist (.modSump hs0)
    · exact hfull hs0
  · exact hfull hs

theorem modPipe (hs : TicksKept s u) {p : Nat} {f : Pipe → Pipe} : TicksKept s (u.modPipe p f) := by
  unfold State.modPipe
  split
  · exact .same hs (by rfl)
  · exact hs

theorem releaseChannel (hs : TicksKept s u) {p n k per : Nat} {reset : Bool} {ch : Nat} :
    TicksKept s (u.releaseChannel p n k per reset ch) := by
  unfold State.releaseChannel
  split
  · exact hs
  · extract_lets img f valid sk taken s1 miss got cls degraded w s2 s3 keep s4
    have hs1 : TicksKept s s1 := by
      unfold s1
      clear_value sk
      refine .ite hs ?_
      split
      · exact .modSkip hs
      · exact hs
    have hs2 : TicksKept s s2 := .countPipe (.countPipe (.countPipe hs1))
    have hs3 : TicksKept s s3 := .ite (.queueWord hs2) (.sumpWord hs2)
    refine .modPipe ?_
    unfold s4
    clear_value f
    split
    · exact .ite (.ite (.keepFrame (.countPipe hs3)) (.countPipe hs3)) hs3
    · exact hs3

theorem releaseFrame (hs : TicksKept s u) {p n k : Nat} {reset : Bool} : TicksKept s (u.releaseFrame p n k reset) := by
  unfold State.releaseFrame
  split
  · exact hs
  · exact .foldl (fun _ _ hs => .releaseChannel hs) hs

theorem modImage (hs : TicksKept s u) {h : Nat} {f : Image → Image} : TicksKept s (u.modImage h f) := by
  unfold State.modImage
  exact .same hs (by rfl)

theorem unbind (hs : TicksKept s u) {p : Nat} : TicksKept s (u.unbind p) := by
  unfold State.unbind
  split
  · exact hs
  · exact .modAdit (.modImage (.foldl (fun _ _ hs => .modSkip hs) (.same hs (by rfl))))

theorem setTile (hs : TicksKept s u) {t : Nat} {x : Tile} : TicksKept s (u.setTile t x) := by
  unfold State.setTile
  exact .same hs (by rfl)

theorem modTile (hs : TicksKept s u) {t : Nat} {f : Tile → Tile} : TicksKept s (u.modTile t f) := by
  unfold State.modTile
  exact .setTile hs

theorem modThread (hs : TicksKept s u) {t th : Nat} {f : Thread → Thread} : TicksKept s (u.modThread t th f) := by
  unfold State.modThread
  exact .modTile hs

theorem freeLine (hs : TicksKept s u) {t th st line : Nat} : TicksKept s (u.freeLine t th st line) := by
  unfold State.freeLine
  exact .modTile hs

theorem freeUnlocks (hs : TicksKept s u) {t th : Nat} : TicksKept s (u.freeUnlocks t th) := by
  unfold State.freeUnlocks
  exact .modThread (.foldl (fun _ _ hs => .freeLine hs) hs)

theorem draw (hs : TicksKept s u) : TicksKept s u.draw := by
  unfold State.draw
  exact .same hs (by rfl)

theorem scramble (hs : TicksKept s u) {a n : Nat} : TicksKept s (u.scramble a n) := by
  unfold State.scramble
  exact .draw (.writeBytes hs)

theorem freeLock (hs : TicksKept s u) {t th : Nat} : TicksKept s (u.freeLock t th) := by
  unfold State.freeLock
  split
  · exact .modThread (.freeLine hs)
  · exact hs

theorem breakLock (hs : TicksKept s u) {t th : Nat} : TicksKept s (u.breakLock t th) := by
  unfold State.breakLock
  split
  · extract_lets s0 s1
    have hs1 : TicksKept s s1 := .hit (.modTile (.scramble (.freeLock hs)))
    exact .raise hs1
  · exact hs

theorem modRegs (hs : TicksKept s u) {t th : Nat} {f : Regs → Regs} : TicksKept s (u.modRegs t th f) := by
  unfold State.modRegs
  exact .modThread hs

theorem settleUnlocks (hs : TicksKept s u) {t th : Nat} : TicksKept s (u.settleUnlocks t th) := by
  unfold State.settleUnlocks
  exact .ite hs (.modThread (.foldl (fun _ _ hs => .freeLine hs) hs))

theorem wakeThread (hs : TicksKept s u) {t th : Nat} : TicksKept s (u.wakeThread t th) := by
  unfold State.wakeThread
  exact .modThread hs

theorem scratchSettled (hs : TicksKept s u) {t th : Nat} : TicksKept s (u.scratchSettled t th) := by
  unfold State.scratchSettled
  extract_lets s1
  have hs1 : TicksKept s s1 := .settleUnlocks hs
  refine .ite hs1 ?_
  split
  · exact .wakeThread hs1
  · exact hs1

theorem sendEntry (hs : TicksKept s u) {t p delay : Nat} {e : Entry} : TicksKept s (u.sendEntry t p delay e) := by
  unfold State.sendEntry
  exact .foldl (fun _ _ hs => .modSkip hs) hs

theorem pushEntry (hs : TicksKept s u) {t p delay seq after : Nat} {e : Entry} : TicksKept s (u.pushEntry t p delay seq after e)
    := by
  unfold State.pushEntry
  exact .sendEntry (.ite (.draw hs) hs)

theorem oqSend (hs : TicksKept s u) {t : Nat} {m : MacOp} {base : Nat} : TicksKept s (u.oqSend t m base) := by
  unfold State.oqSend
  exact .upTo (fun _ _ hs => .pushEntry hs) hs

theorem markMiss (hs : TicksKept s u) {t : Nat} : TicksKept s (u.markMiss t) := by
  unfold State.markMiss
  exact .foldl (fun _ _ hs => .foldl (fun _ _ hs => .ite (.foldl (fun _ _ hs => .modSkip hs) hs) hs) (.modTile hs)) hs

theorem noteTileRead (hs : TicksKept s u) {t o n : Nat} : TicksKept s (u.noteTileRead t o n) := by
  -- The kernel would evaluate the match's list on the applied function, so it is unfolded before it is applied.
  have unfolded (f) (hf : f = @State.noteTileRead) : TicksKept s (f u t o n) := by
    delta State.noteTileRead at hf
    subst hf
    beta_reduce
    generalize u.unwrittenWords (tileAddr t o) n = ws
    cases ws with
    | nil => exact hs
    | cons => exact .ite (.markMiss hs) (.uninitRead hs)
  exact unfolded _ rfl

theorem moveSend (hs : TicksKept s u) {t : Nat} {m : BlockMove} {base : Nat} : TicksKept s (u.moveSend t m base) := by
  unfold State.moveSend
  exact .upTo (fun _ _ hs => .pushEntry (.noteTileRead hs)) hs

theorem startUnits (hs : TicksKept s u) {t base : Nat} : TicksKept s (u.startUnits t base) := by
  unfold State.startUnits
  exact .foldl (fun _ _ hs => .ite (.moveSend hs) hs) (.foldl (fun _ _ hs => .ite (.oqSend hs) hs) (.modTile hs))

theorem modPower (hs : TicksKept s u) {f : Power → Power} : TicksKept s (u.modPower f) := by
  unfold State.modPower
  exact .same hs (by rfl)

theorem modRow (hs : TicksKept s u) {r : Nat} {f : Row → Row} : TicksKept s (u.modRow r f) := by
  unfold State.modRow
  exact .modPower hs

theorem leaveTokens (hs : TicksKept s u) {t : Nat} {old : Option MacOp} : TicksKept s (u.leaveTokens t old) := by
  unfold State.leaveTokens
  exact .ite hs (.modRow hs)

theorem stopUnits (hs : TicksKept s u) {t : Nat} {sel : Nat → Bool} : TicksKept s (u.stopUnits t sel) := by
  unfold State.stopUnits
  extract_lets x macs moves fns loads off s1 s2 s3 s4 s5 s6
  have hs6 : TicksKept s s6 := by
    unfold s6
    refine .upTo (fun _ _ hs => .ite (.scratchSettled (.modThread hs)) hs) (.foldl (fun _ _ hs => .ite (.draw (.modRegs
        hs)) (.draw (.modRegs hs))) (.foldl (fun _ _ hs => .foldl (fun _ _ hs => .scramble hs) hs) (.foldl (fun _ _ hs =>
        .scramble hs) (.foldl (fun _ _ hs => ?_) (.modTile hs)))))
    extract_lets k s1 s2
    have hs1 : TicksKept s s1 := .foldl (fun _ _ hs => .scramble hs) hs
    have hs2 : TicksKept s s2 := by
      unfold s2
      split
      · exact .scramble hs1
      · exact hs1
    split
    · exact .foldl (fun _ _ hs => .draw (.modTile hs)) hs2
    · exact hs2
  exact .startUnits (.leaveTokens hs6)

theorem haltImage (hs : TicksKept s u) {h : Nat} : TicksKept s (u.haltImage h) := by
  unfold State.haltImage
  exact .foldl (fun _ _ hs => .upTo (fun _ _ hs => .freeUnlocks (.breakLock hs)) (.modTile (.stopUnits hs))) hs

theorem resetRelease (hs : TicksKept s u) {p n : Nat} : TicksKept s (u.resetRelease p n) := by
  unfold State.resetRelease
  split
  · exact hs
  · extract_lets img first last s1 held
    have hs1 : TicksKept s s1 := .ite (.foldl (fun _ _ hs => .releaseFrame hs) hs) hs
    exact .unbind (.haltImage (.countPipe hs1))

theorem uncommitNow (hs : TicksKept s u) {h : Nat} : TicksKept s (u.uncommitNow h) := by
  unfold State.uncommitNow
  exact .foldl (fun _ _ hs => .foldl (fun _ _ hs => .ite (.foldl (fun _ _ hs => .modSkip hs) hs) hs) hs) hs

theorem abortClear (hs : TicksKept s u) {t th : Nat} : TicksKept s (u.abortClear t th) := by
  unfold State.abortClear
  extract_lets s1 s2 routes s3 ins s4
  have hs1 : TicksKept s s1 := .breakLock (.stopUnits hs)
  have hs2 : TicksKept s s2 := by
    unfold s2
    split
    · exact .modTile hs1
    · exact hs1
  have hs3 : TicksKept s s3 := .modTile hs2
  exact .modRegs (.foldl (fun _ _ hs => .modSkip hs) hs3)

theorem abortThread (hs : TicksKept s u) {t th : Nat} : TicksKept s (u.abortThread t th) := by
  unfold State.abortThread
  extract_lets s1 r regs s2
  have hs1 : TicksKept s s1 := .abortClear hs
  exact .modThread (.modTile hs1)

theorem placeFills (hs : TicksKept s u) {k n : Nat} : TicksKept s (u.placeFills k n) := by
  induction n generalizing u with
  | zero => exact hs
  | succ n ih =>
    unfold State.placeFills
    exact .ite (ih (.modSkip hs)) hs

theorem oweFills (hs : TicksKept s u) {k : Nat} : TicksKept s (u.oweFills k) := by
  unfold State.oweFills
  exact .ite hs (.placeFills (.modSkip hs))

theorem modPort (hs : TicksKept s u) {t p : Nat} {f : Port → Port} : TicksKept s (u.modPort t p f) := by
  unfold State.modPort
  exact .modTile hs

theorem discardPort (hs : TicksKept s u) {t p keep : Nat} : TicksKept s (u.discardPort t p keep) := by
  unfold State.discardPort
  exact .modPort (.foldl (fun _ _ hs => .ite (.modSkip hs) (.modSkip hs)) hs)

theorem oweReleases (hs : TicksKept s u) {k : Nat} : TicksKept s (u.oweReleases k) := by
  unfold State.oweReleases
  exact .modSkip hs

theorem missTile (hs : TicksKept s u) {t : Nat} : TicksKept s (u.missTile t) := by
  unfold State.missTile
  exact .foldl (fun _ _ hs => .ite (.foldl (fun _ _ hs => .oweFills hs) (.discardPort hs)) (.oweReleases hs)) (.modTile hs)

theorem missStage (hs : TicksKept s u) {tiles : List Nat} : TicksKept s (u.missStage tiles) := by
  unfold State.missStage
  exact .foldl (fun _ _ hs => .missTile hs) (.raise hs)

theorem endShift (hs : TicksKept s u) {h : Nat} {run : Bool} : TicksKept s (u.endShift h run) := by
  unfold State.endShift
  extract_lets s' missed s1 s2
  have hs' : TicksKept s s' := .uncommitNow hs
  have hs2 : TicksKept s s2 := .foldl (fun _ _ hs => .missStage hs) (.foldl (fun _ _ hs => .upTo (fun _ _ hs => .ite
      (.abortThread hs) hs) hs) hs')
  exact .foldl (fun _ _ hs => .modTile hs) hs2

theorem countChannel (hs : TicksKept s u) {p ch c : Nat} : TicksKept s (u.countChannel p ch c) := by
  unfold State.countChannel
  exact .count hs

theorem dueEntries (hs : TicksKept s u) {h ch : Nat} : TicksKept s (u.dueEntries h ch) := by
  unfold State.dueEntries
  split
  · exact .modSkip hs
  · exact hs

theorem missingFrames (hs : TicksKept s u) {p n : Nat} : TicksKept s (u.missingFrames p n) := by
  unfold State.missingFrames
  split
  · exact hs
  · refine .ite (.foldl (fun _ _ hs => ?_) hs) hs
    refine .ite hs ?_
    extract_lets early s1 s2
    have hs1 : TicksKept s s1 := .countChannel (.dueEntries hs)
    exact .modPipe (.ite hs1 (.modAdit hs1))

theorem noteTick (hs : TicksKept s u) {h : Nat} : TicksKept s (u.noteTick h) := by
  unfold State.noteTick
  exact .foldl (fun _ _ hs => .modTile hs) hs

theorem checkRate (hs : TicksKept s u) {k : Nat} : TicksKept s (u.checkRate k) := by
  unfold State.checkRate
  refine .ite (.modSkip hs) ?_
  extract_lets p q s1 s2 s3
  have hs1 : TicksKept s s1 := .modSkip hs
  have hs2 : TicksKept s s2 := .ite (.hit hs1) hs1
  have hs3 : TicksKept s s3 := .ite (.hit hs2) hs2
  exact .ite (.raise hs3) hs3

theorem releaseReady (hs : TicksKept s u) {p n : Nat} : TicksKept s (u.releaseReady p n) := by
  unfold State.releaseReady
  split
  · exact hs
  · exact .foldl (fun _ _ hs => .foldl (fun _ _ hs => .ite (.releaseChannel hs) hs) hs) hs

theorem modCmd (hs : TicksKept s u) {seq : Nat} {f : Cmd → Cmd} : TicksKept s (u.modCmd seq f) := by
  unfold State.modCmd
  exact .modHost hs

theorem journal (hs : TicksKept s u) {claim : Nat} {r : Record} : TicksKept s (u.journal claim r) := by
  unfold State.journal
  exact .modHost (.modClaim (.writeBytes (.writeBytes hs)))

theorem finishOne (hs : TicksKept s u) {c : Cmd} {ok : Bool} {reason : Nat} {result : BitVec 128} : TicksKept s (u.finishOne c ok
    reason result) := by
  unfold State.finishOne
  exact .modCmd (.journal hs)

theorem finish (hs : TicksKept s u) {seq : Nat} {ok : Bool} {reason : Nat} {result : BitVec 128} : TicksKept s (u.finish seq ok
    reason result) := by
  unfold State.finish
  split
  · exact hs
  · extract_lets s1 s2 dups
    have hs2 : TicksKept s s2 := .modClaim (.finishOne hs)
    exact .foldl (fun _ _ hs => .finishOne hs) hs2

theorem fail (hs : TicksKept s u) {seq reason : Nat} : TicksKept s (u.fail seq reason) := by
  unfold State.fail
  exact .finish hs

theorem swapRefused (hs : TicksKept s u) {ts : List Nat} : TicksKept s (u.swapRefused ts) := by
  unfold State.swapRefused
  exact .foldl (fun _ _ hs => .hit (.modTile hs)) hs

theorem unland (hs : TicksKept s u) {t : Nat} : TicksKept s (u.unland t).1 := by
  unfold State.unland
  dsimp only
  exact .modTile (.foldl (fun _ _ hs => .foldl (fun _ _ hs => .writeBytes hs) hs) hs)

theorem complete (hs : TicksKept s u) {seq : Nat} {result : BitVec 128} : TicksKept s (u.complete seq result) := by
  unfold State.complete
  exact .finish hs

theorem taintStreams (hs : TicksKept s u) {t o n : Nat} : TicksKept s (u.taintStreams t o n) := by
  unfold State.taintStreams
  exact .modTile hs

theorem fillHalf (hs : TicksKept s u) {t : Nat} {b : Bool} {o total : Nat} {data : List Byte} : TicksKept s (u.fillHalf t b o
    total data) := by
  unfold State.fillHalf
  exact .ite (.raise hs) (.modTile (.writeBytes hs))

theorem windowWrite (hs : TicksKept s u) {claim t o : Nat} {access : Nat × Nat} {noted : Bool} {bs : List Byte} :
    TicksKept s (u.windowWrite claim t o access noted bs) := by
  unfold State.windowWrite
  extract_lets x ok banked old s1 s2 a b s3
  have hs1 : TicksKept s s1 := by
    unfold s1
    clear_value banked
    split
    · exact hs
    · exact .modTile hs
  have hs2 : TicksKept s s2 := .ite (.taintStreams hs1) hs1
  have hs3 : TicksKept s s3 := .ite hs2 (.fillHalf hs2)
  exact .ite (.ite hs3 (.fillHalf hs3)) (.foldl (fun _ _ hs => .writeBytes hs) hs2)

theorem reland (hs : TicksKept s u) {t : Nat} {ws : List WindowWrite} : TicksKept s (u.reland t ws) := by
  unfold State.reland
  exact .foldl (fun _ _ hs => .windowWrite (.ite hs (.windowViolation hs))) hs

theorem startStreams (hs : TicksKept s u) {h : Nat} {r : TileRec} : TicksKept s (u.startStreams h r) := by
  unfold State.startStreams
  exact .upTo (fun _ _ hs => .foldl (fun _ _ hs => .modSkip hs) hs) hs

theorem startTile (hs : TicksKept s u) {h : Nat} {r : TileRec} : TicksKept s (u.startTile h r) := by
  unfold State.startTile
  exact .modTile hs

theorem skipEnds (hs : TicksKept s u) {h : Nat} {k : SkipRec} : TicksKept s (u.skipEnds h k) := by
  unfold State.skipEnds
  exact .modSkip hs

theorem startImage (hs : TicksKept s u) {h : Nat} : TicksKept s (u.startImage h) := by
  unfold State.startImage
  extract_lets s1
  have hs1 : TicksKept s s1 := .foldl (fun _ _ hs => .startStreams (.startTile hs)) hs
  exact .foldl (fun _ _ hs => .skipEnds hs) hs1

theorem swapTick (hs : TicksKept s u) {p n : Nat} : TicksKept s (u.swapTick p n) := by
  unfold State.swapTick
  split
  · exact hs
  · split
    · exact hs
    · extract_lets s1 tiles back
      have hs1 : TicksKept s s1 := .modImage (.modImage (.modPipe hs))
      have hback : TicksKept s back.1 :=
        List.foldlRecOn (motive := fun a : State × _ => TicksKept s a.1) tiles _ hs1 (fun _ ha _ _ => .unland ha)
      exact .ite hs (.ite (.fail (.modPipe (.swapRefused hs)))
        (.complete (.foldl (fun _ _ hs => .reland hs) (.startImage hback))))

theorem dropFrames (hs : TicksKept s u) {p : Nat} : TicksKept s (u.dropFrames p) := by
  unfold State.dropFrames
  split
  · exact hs
  · exact .modPipe hs

theorem startStopTick (hs : TicksKept s u) {p n : Nat} : TicksKept s (u.startStopTick p n) := by
  unfold State.startStopTick
  split
  · exact hs
  · extract_lets s1
    have hs1 : TicksKept s s1 := by
      unfold s1
      split
      · exact .ite (.complete (.modPipe hs)) hs
      · exact hs
    split
    · exact .ite (.complete (.unbind hs1)) hs1
    · exact hs1

theorem queueStanding (hs : TicksKept s u) {p : Nat} : TicksKept s (u.queueStanding p) := by
  unfold State.queueStanding
  split
  · exact hs
  · exact .foldl (fun _ _ hs => .ite (.raise hs) (.modHoist hs)) hs

theorem tickPipe (hs : TicksKept s u) {p n : Nat} : TicksKept s (u.tickPipe p n) := by
  unfold State.tickPipe
  split
  · exact hs
  · refine .ite (.resetRelease hs) ?_
    extract_lets s1 s2 s3 s4 s5
    have hs2 : TicksKept s s2 := .missingFrames (.noteTick (.ite (.endShift hs) hs))
    have hs3 : TicksKept s s3 := .foldl (fun _ _ hs => .checkRate hs) hs2
    exact .startStopTick (.queueStanding (.swapTick (.modPipe (.dropFrames (.ite (.releaseReady hs3) (.ite (.releaseFrame
        hs3) hs3))))))

theorem droopCheck (hs : TicksKept s u) {d : Nat} : TicksKept s (u.droopCheck d) := by
  unfold State.droopCheck
  refine .upTo (fun _ _ hs => ?_) hs
  extract_lets ps
  split
  · exact .ite hs (.foldl (fun _ _ hs => .raise hs) (.count (.hit (.modRow hs))))
  · exact hs

theorem modRiddle (hs : TicksKept s u) {f : Riddle → Riddle} : TicksKept s (u.modRiddle f) := by
  unfold State.modRiddle
  exact .same hs (by rfl)

theorem armTick (hs : TicksKept s u) {d n : Nat} : TicksKept s (u.armTick d n) := by
  unfold State.armTick
  extract_lets s1
  have hs1 : TicksKept s s1 := .modRiddle hs
  split
  · split
    · exact .ite (.modHost hs1) hs1
    · exact hs1
  · exact hs1

end TicksKept

end Sys2Proof.Machine

/-! PROOFS. Ticks and their windows (R11 to R16, R356). -/

namespace Sys2Proof.Machine

theorem dom_raise (s : State) (k : EvKind) (e : EvArgs) (d : Nat) : (s.raise k e).dom d = s.dom d := by simp [State.dom]
theorem dom_hit (s : State) (o b d : Nat) : (s.hit o b).dom d = s.dom d := rfl
theorem dom_emit (s : State) (o : Out) (d : Nat) : (s.emit o).dom d = s.dom d := rfl

/-- The shift count of a domain after a tick. -/
def TickDomain.nextCount (x : TickDomain) : BitVec 64 := BitVec.ofNat 64 (if x.running then x.count.toNat + 1 else x.count.toNat)

theorem nextCount_running {x : TickDomain} (h : x.running = true) : x.nextCount = x.count + 1 := by
  rw [TickDomain.nextCount, if_pos h]
  exact BitVec.eq_of_toNat_eq (by simp)

theorem TicksKept.dom {s u : State} (h : TicksKept s u) (e : Nat) : u.dom e = s.dom e := by rw [State.dom, h.ticks]; rfl

/-- A tick in effect: its domain runs on, and nothing else of the tick domains changes. -/
theorem tickEffect_fields (s : State) (d at_ : Nat) :
    (s.tickEffect d at_).dom d = { s.dom d with
        running := true, count := (s.dom d).nextCount, lastTick := at_, rowFc := s.power.rows.map Row.fc }
      ∧ (∀ e, e ≠ d → (s.tickEffect d at_).dom e = s.dom e) ∧ (s.tickEffect d at_).now = s.now := by
  unfold State.tickEffect
  extract_lets x n s1 ps tiles s2 s3
  have hfirst : TicksKept (s.modDom d (fun x => { x with running := true, count := BitVec.ofNat 64 n, lastTick := at_ }))
      (ps.foldl (fun s p => s.tickPipe p n) s1) :=
    .foldl (fun _ _ hs => hs.tickPipe) (.droopCheck (.refl _))
  have hlast : TicksKept s2 (s3.armTick d n) := .armTick (.foldl (fun _ _ hs => .modTile hs) (.refl _))
  refine ⟨?_, fun e he => ?_, ?_⟩
  · rw [hlast.dom, dom_modDom, hfirst.dom, dom_modDom]
    rfl
  · rw [hlast.dom, dom_modDom_other _ _ _ _ he, hfirst.dom, dom_modDom_other _ _ _ _ he]
  · rw [hlast.now, modDom_now, hfirst.now, modDom_now]

/-- An accepted tick in a domain that follows no head. -/
theorem acceptTick_dom {s : State} {d : Nat} (hfollows : s.follows d = false) (a : Nat) :
    (s.acceptTick d a).dom d = { s.dom d with
      lastArrival := some a, running := true, count := (s.dom d).nextCount, lastTick := a, rowFc := s.power.rows.map Row.fc } := by
  rw [State.acceptTick, hfollows, if_neg Bool.false_ne_true, (tickEffect_fields _ _ _).1, dom_modDom]
  rfl

theorem acceptTick_follows {s : State} {d : Nat} (hfollows : s.follows d = true) (a : Nat) :
    s.acceptTick d a = ((s.modDom d (fun x => { x with lastArrival := some a })).modDom d (fun x => { x with
      followAt := x.followAt ++ [s.emeel.meshTime - (s.now - a) + s.emeel.tickDelay.toNat] })).emit
        (.tickSent d false (s.emeel.meshTime - (s.now - a))) := by
  rw [State.acceptTick, hfollows]
  rfl

/-! ## Arriving ticks -/

section
variable {s : State} {d key a : Nat} {r : List (Nat × Nat)}

theorem dueTick_eq (hother : (s.follows d && !s.emeel.head) = false) (henable : (s.dom d).enable = true)
    (hdue : (s.dom d).dueTicks = (key, a) :: r) (ha : a ≤ s.now) (hfrom : s.tickFrom d key = true) : s.dueTick d = some a := by
  rw [State.dueTick, henable, hother, hdue]
  simp [ha, hfrom]

variable (hd : d < 8) (hdue : s.dueTick d = some a)
include hd hdue

theorem exec_tick_first (hnone : (s.dom d).lastArrival = none) :
    exec (.tick d) s = .next ((s.modDom d (fun x => x.arrived a)).acceptTick d a) := by
  change whenDue _ _ = _
  rw [whenDue_next, tickDo, hdue, hnone]
  refine ⟨?_, rfl⟩
  rw [tickOk, hdue, TickDomain.insertAt, hnone]
  simpa using hd

theorem exec_tick_next {b : Nat} (hlast : (s.dom d).lastArrival = some b) (hlimit : a ≤ b + (s.dom d).limit) :
    exec (.tick d) s = .next (if (s.dom d).tooEarly (a - b) then
        (((s.modDom d (fun x => x.arrived a)).modDom d (fun x => { x with early := true })).hit (tickStatus d) 2).raise Ev.tickEarly (tickEv d)
      else (s.modDom d (fun x => x.arrived a)).acceptTick d a) := by
  change whenDue _ _ = _
  rw [whenDue_next, tickDo, hdue, hlast]
  refine ⟨?_, rfl⟩
  rw [tickOk, hdue, TickDomain.insertAt, hlast]
  simp [hd, hlimit]

end

theorem arrived_fields (x : TickDomain) (a : Nat) : (x.arrived a).running = x.running ∧ (x.arrived a).nextCount = x.nextCount
    ∧ (x.arrived a).count = x.count ∧ (x.arrived a).followAt = x.followAt ∧ (x.arrived a).lastArrival = x.lastArrival :=
  ⟨rfl, rfl, rfl, rfl, rfl⟩

/-- The first clause on an enabled domain that follows no head: ticks that arrive. -/
theorem tick_arrives {s : State} {d key a : Nat} {r : List (Nat × Nat)} (hd : d < 8) (hfollows : s.follows d = false)
    (henable : (s.dom d).enable = true) (hticks : (s.dom d).dueTicks = (key, a) :: r) (ha : a ≤ s.now)
    (hfrom : s.tickFrom d key = true) :
    let x := s.dom d
    (x.lastArrival = none → Answers (exec (.tick d) s) (fun u =>
        (u.dom d).running = true ∧ (u.dom d).lastArrival = some a ∧ (u.dom d).lastTick = a))
      ∧ (∀ b, x.lastArrival = some b → x.period.toNat ≤ a - b + x.tolerance.toNat → a ≤ b + (x.period.toNat + x.tolerance.toNat) →
          Answers (exec (.tick d) s) (fun u =>
            (u.dom d).lastArrival = some a ∧ (u.dom d).lastTick = a ∧ (x.running = true → (u.dom d).count = x.count + 1)))
      ∧ (∀ b, x.lastArrival = some b → a - b + x.tolerance.toNat < x.period.toNat → Answers (exec (.tick d) s) (fun u =>
          (u.dom d).early = true ∧ (u.dom d).count = x.count ∧ (u.dom d).lastArrival = some b
            ∧ u.faults.eventSeq = s.faults.eventSeq + 1 ∧ u.tiles = s.tiles ∧ u.pipes = s.pipes)) := by
  have hdue := dueTick_eq (by rw [hfollows]; rfl) henable hticks ha hfrom
  have hdom := acceptTick_dom (s := s.modDom d (fun x => x.arrived a)) hfollows a
  rw [dom_modDom] at hdom
  refine ⟨fun hnone => ?_, fun b hlast hearly hlate => ?_, fun b hlast hearly => ?_⟩
  · rw [exec_tick_first hd hdue hnone]
    refine answers_next ?_
    rw [hdom]
    exact ⟨rfl, rfl, rfl⟩
  · rw [exec_tick_next hd hdue hlast hlate, if_neg (by simp only [TickDomain.tooEarly, decide_eq_true_eq]; omega)]
    refine answers_next ?_
    rw [hdom]
    exact ⟨rfl, rfl, fun hrun => nextCount_running hrun⟩
  · rw [exec_tick_next hd hdue hlast (by simp only [TickDomain.limit]; omega), if_pos (show (s.dom d).tooEarly (a - b) = true from decide_eq_true hearly)]
    refine answers_next ⟨?_, ?_, ?_, ?_, ?_, ?_⟩
    · rw [dom_raise, dom_hit, dom_modDom]
    · rw [dom_raise, dom_hit, dom_modDom, dom_modDom]
      rfl
    · rw [dom_raise, dom_hit, dom_modDom, dom_modDom]
      exact hlast
    · simp
    · simp
    · simp

/-- The tick that is inserted where none has arrived in time. -/
theorem tick_inserted {s : State} {d b : Nat} (hd : d < 8) (hfollows : s.follows d = false) (henable : (s.dom d).enable = true)
    (hexternal : (s.dom d).external = true) (hlast : (s.dom d).lastArrival = some b)
    (hnow : b + ((s.dom d).period.toNat + (s.dom d).tolerance.toNat) ≤ s.now)
    (hlate : ∀ p ∈ (s.dom d).dueTicks, s.tickFrom d p.1 = true → b + ((s.dom d).period.toNat + (s.dom d).tolerance.toNat) < p.2) :
    exec (.tickInserted d) s = .next ((((s.modDom d (fun x => { x with lost := true })).hit (tickStatus d) 1).raise Ev.tickLost
      (tickEv d)).acceptTick d (b + ((s.dom d).period.toNat + (s.dom d).tolerance.toNat))) := by
  have hat : (s.dom d).insertAt = some (b + ((s.dom d).period.toNat + (s.dom d).tolerance.toNat)) := by
    rw [TickDomain.insertAt, hlast]
    rfl
  have hnone : tickOk d s = false := by
    rw [tickOk, hat]
    cases hdue : s.dueTick d with
    | none => exact Bool.and_false _
    | some a =>
      rw [State.dueTick] at hdue
      split at hdue
      · obtain ⟨p, hp, rfl⟩ := Option.map_eq_some_iff.1 hdue
        have hmem := List.mem_of_find?_eq_some hp
        have hok := List.find?_some hp
        rw [Bool.and_eq_true] at hok
        have := hlate p hmem hok.2
        simp only [Option.all_some, Bool.and_eq_false_imp, decide_eq_true_eq, decide_eq_false_iff_not]
        omega
      · exact absurd hdue (by simp)
  change whenDue _ _ = _
  rw [whenDue_next, tickInsertedDo, hat]
  refine ⟨?_, rfl⟩
  rw [tickInsertedOk, hat, hnone, hfollows, henable, hexternal]
  simp [hd, hnow]

theorem tickMessage_answers {s : State} {d : Nat} (hd : d < 8) (hfollows : s.follows d = true) (hhead : s.emeel.head = false)
    (isStart : Bool) (time : Nat) : exec (.tickMessage d isStart time) s = .next (tickMessageDo d isStart time s) := by
  change whenDue _ _ = _
  rw [whenDue_next]
  refine ⟨?_, rfl⟩
  simp [tickMessageOk, hd, hfollows, hhead]

/-- Settles O31: what a tick in effect does to its domain, and the branches of the commands that bring one. -/
theorem ticksAndTheirWindows : Obligations.TicksAndTheirWindows := by
  refine ⟨fun d at_ s => tickEffect_fields s d at_, fun d s hd hfollows henable => ?alone, fun d s hd hfollows => ?mesh⟩
  case alone =>
    refine ⟨fun key a r hticks ha hfrom => tick_arrives hd hfollows henable hticks ha hfrom,
      fun b hexternal hlast hnow hlate => ?inserted, fun hsource hnext => ?internal⟩
    case inserted =>
      rw [tick_inserted hd hfollows henable hexternal hlast hnow hlate]
      refine answers_next ?_
      rw [acceptTick_dom (by simpa [State.follows] using hfollows)]
      rw [dom_raise, dom_hit, dom_modDom]
      exact ⟨rfl, rfl, rfl, fun hrun => nextCount_running hrun⟩
    case internal =>
      have hexec : exec (.internalGeneratorTick d) s = .next (internalGeneratorTickDo d s) := by
        change whenDue _ _ = _
        rw [whenDue_next]
        refine ⟨?_, rfl⟩
        simp [internalGeneratorTickOk, hd, henable, hsource, hfollows, hnext]
      rw [hexec]
      refine answers_next ?_
      rw [internalGeneratorTickDo, (tickEffect_fields _ _ _).1, dom_modDom]
      exact ⟨rfl, rfl, fun hrun => nextCount_running hrun⟩
  case mesh =>
    refine ⟨fun key a r hhead henable hticks ha hfrom hnone => ?head, fun hhead time => ?message, fun hhead time => ?start,
      fun a r hat ha => ?followed⟩
    case head =>
      rw [exec_tick_first hd (dueTick_eq (by rw [hhead]; exact Bool.and_false _) henable hticks ha hfrom) hnone,
        acceptTick_follows (s := s.modDom d (fun x => x.arrived a)) hfollows]
      refine answers_next ⟨?_, ?_, ?_, rfl⟩ <;> rw [dom_emit, dom_modDom, dom_modDom, dom_modDom] <;> rfl
    case message =>
      rw [tickMessage_answers hd hfollows hhead]
      exact answers_next ⟨by rw [tickMessageDo, dom_modDom]; rfl, by rw [tickMessageDo, dom_modDom]; rfl,
        fun e he => dom_modDom_other _ _ _ _ he, rfl⟩
    case start =>
      rw [tickMessage_answers hd hfollows hhead]
      exact answers_next ⟨by rw [tickMessageDo, dom_modDom]; rfl, by rw [tickMessageDo, dom_modDom]; rfl,
        fun e he => dom_modDom_other _ _ _ _ he⟩
    case followed =>
      have hexec : exec (.followedTick d) s = .next (followedTickDo d s) := by
        change whenDue _ _ = _
        rw [whenDue_next]
        refine ⟨?_, rfl⟩
        simp [followedTickOk, hd, hfollows, hat, ha]
      rw [hexec]
      refine answers_next ?_
      rw [followedTickDo, (tickEffect_fields _ _ _).1, dom_modDom, hat]
      exact ⟨rfl, rfl, rfl, fun hrun => nextCount_running hrun⟩

end Sys2Proof.Machine

/-! PROOFS. Marks that reach a tile (R18, R169, R170, R191). -/

namespace Sys2Proof.Machine

/-- A thread whose wait has ended. -/
def Thread.woken (x : Thread) (fc : Nat) : Thread := { x with wait := .none, readyAt := max (fc + 1) (x.readyAt + 1) }

/-- What mark n, the tick or a later one, makes of a thread (R170, R372). -/
def Thread.marked (x : Thread) (fc n : Nat) (isTick : Bool) : Thread :=
  match x.wait with
  | .tick => if isTick then
      { Thread.woken { x with late := false } fc with checkpoint := x.regs, issued := false, midCommit := false } else x
  | .eccWord => if isTick then x.woken fc else x
  | .slot v => if v = n then x.woken fc else x
  | .nextMark => x.woken fc
  | _ => x

/-- What a mark does to one thread of the tile. -/
def State.markThread (s : State) (t n : Nat) (isTick : Bool) (th : Nat) : State :=
  match (s.thread t th).wait with
  | .tick => if isTick then ((s.modThread t th (fun x => { x with late := false })).wakeThread t th).takeCheckpoint t th else s
  | .eccWord => if isTick then s.wakeThread t th else s
  | .slot v => if v = n then s.wakeThread t th else s
  | .nextMark => s.wakeThread t th
  | _ => s

/-- The part of a tile that a mark's threads leave alone. -/
def Tile.markPart (x : Tile) : List Nat × Option Nat × Nat × Bool := (x.tickDue, x.shiftFc, x.nextSlot, x.missMark)

/-- Nothing but threads, restarts and issue slots of tile t differs. -/
structure ThreadsOnly (t : Nat) (s u : State) : Prop where
  tile : ∀ x, x ≠ t → u.tile x = s.tile x
  part : (u.tile t).markPart = (s.tile t).markPart
  skips : u.skips = s.skips
  mem : u.mem = s.mem
  power : u.power = s.power

namespace ThreadsOnly

variable {t : Nat} {s u : State}

theorem refl (t : Nat) (s : State) : ThreadsOnly t s s := ⟨fun _ _ => rfl, rfl, rfl, rfl, rfl⟩

theorem modTile (h : ThreadsOnly t s u) (f : Tile → Tile) (hf : ∀ y, (f y).markPart = y.markPart) :
    ThreadsOnly t s (u.modTile t f) :=
  ⟨fun x hx => by rw [tile_modTile_other _ _ _ _ hx, h.tile x hx], by rw [tile_modTile, hf, h.part], h.skips, h.mem, h.power⟩

theorem modThread (h : ThreadsOnly t s u) (th : Nat) (f : Thread → Thread) : ThreadsOnly t s (u.modThread t th f) :=
  h.modTile _ fun _ => rfl

theorem wakeThread (h : ThreadsOnly t s u) (th : Nat) : ThreadsOnly t s (u.wakeThread t th) := by
  unfold State.wakeThread
  exact h.modThread _ _

theorem markThread (h : ThreadsOnly t s u) (n : Nat) (isTick : Bool) (th : Nat) : ThreadsOnly t s (u.markThread t n isTick th) := by
  unfold State.markThread
  split
  · split
    · unfold State.takeCheckpoint
      exact (((h.modThread _ _).wakeThread _).modTile _ (fun _ => by rfl)).modThread _ _
    · exact h
  · split
    · exact h.wakeThread _
    · exact h
  · split
    · exact h.wakeThread _
    · exact h
  · exact h.wakeThread _
  · exact h

theorem rowFc (h : ThreadsOnly t s u) (x : Nat) : u.rowFc x = s.rowFc x := by simp only [State.rowFc, State.row, h.power]

end ThreadsOnly

theorem thread_wakeThread (s : State) (t th : Nat) : (s.wakeThread t th).thread t th = (s.thread t th).woken (s.rowFc t) := by
  rw [State.wakeThread, thread_modThread]
  rfl

theorem thread_wakeThread_other (s : State) (t th y : Nat) (h : y ≠ th) : (s.wakeThread t th).thread t y = s.thread t y := by
  rw [State.wakeThread, thread_modThread_other _ _ _ _ _ h]

theorem thread_markThread (s : State) (t n : Nat) (isTick : Bool) (th : Nat) :
    (s.markThread t n isTick th).thread t th = (s.thread t th).marked (s.rowFc t) n isTick := by
  unfold State.markThread Thread.marked
  split
  · split
    · rw [State.takeCheckpoint, thread_modThread, thread_modTile _ _ _ _ _ (fun _ => by rfl), thread_wakeThread, thread_modThread]
      rfl
    · rfl
  · split
    · exact thread_wakeThread _ _ _
    · rfl
  · split
    · exact thread_wakeThread _ _ _
    · rfl
  · exact thread_wakeThread _ _ _
  · rfl

theorem thread_markThread_other (s : State) (t n : Nat) (isTick : Bool) (th y : Nat) (h : y ≠ th) :
    (s.markThread t n isTick th).thread t y = s.thread t y := by
  unfold State.markThread
  split
  · split
    · rw [State.takeCheckpoint, thread_modThread_other _ _ _ _ _ h, thread_modTile _ _ _ _ _ (fun _ => by rfl),
        thread_wakeThread_other _ _ _ _ h, thread_modThread_other _ _ _ _ _ h]
    · rfl
  · split
    · exact thread_wakeThread_other _ _ _ _ h
    · rfl
  · split
    · exact thread_wakeThread_other _ _ _ _ h
    · rfl
  · exact thread_wakeThread_other _ _ _ _ h
  · rfl

/-- The threads of a tile are marked one after the other. -/
theorem markThreads_fields (s : State) (t n k : Nat) (isTick : Bool) :
    ThreadsOnly t s (upTo k (fun s th => s.markThread t n isTick th) s)
      ∧ ∀ th, (upTo k (fun s th => s.markThread t n isTick th) s).thread t th
          = if th < k then (s.thread t th).marked (s.rowFc t) n isTick else s.thread t th := by
  induction k with
  | zero => exact ⟨.refl t s, fun _ => rfl⟩
  | succ k ih =>
    obtain ⟨hframe, hthreads⟩ := ih
    rw [upTo, List.range_succ, List.foldl_append]
    refine ⟨hframe.markThread n isTick k, fun th => ?_⟩
    change ((upTo k (fun s th => s.markThread t n isTick th) s).markThread t n isTick k).thread t th = _
    by_cases hth : th = k
    · subst hth
      rw [thread_markThread, hthreads, hframe.rowFc, if_neg (lt_irrefl _), if_pos (Nat.lt_succ_self _)]
    · rw [thread_markThread_other _ _ _ _ _ _ hth, hthreads]
      exact if_congr ⟨fun h => by omega, fun h => by omega⟩ rfl rfl

/-! ## The tile before its threads go on -/

/-- What a mark clears in its tile. -/
def Tile.cleared (x : Tile) (fc : Nat) : Tile :=
  { x with missMark := false, degradedMark := false, restartAt := if x.spareLoaded then some fc else x.restartAt }

/-- Everything but the entries on their way. -/
def State.offShaft (s : State) : Tab Tile × List Host.Cell × Power := (s.tiles, s.mem, s.power)

theorem unmarkMiss_offShaft (s : State) (t : Nat) : (s.unmarkMiss t).offShaft = s.offShaft := by
  unfold State.unmarkMiss
  split
  · rfl
  · refine foldl_keeps (fun u : State => u.offShaft = s.offShaft) _ (fun u p hu => ?_) _ _ (by rfl)
    split
    · refine foldl_keeps (fun u : State => u.offShaft = s.offShaft) _ (fun v d hv => ?_) _ _ hu
      exact hv
    · exact hu

theorem unmarkMiss_eq {s : State} {t : Nat} (h : (s.tile t).missMark = false) : s.unmarkMiss t = s := by
  rw [State.unmarkMiss, h]
  rfl

/-- The state in which the threads of the tile are marked. -/
def State.markClears (s : State) (t : Nat) : State :=
  ((s.unmarkMiss t).modTile t (fun x => x.cleared (s.rowFc t))).boundary t

theorem markClears_fields (s : State) (t : Nat) :
    (s.markClears t).tile t = (s.tile t).cleared (s.rowFc t) ∧ (∀ x, x ≠ t → (s.markClears t).tile x = s.tile x)
      ∧ (s.markClears t).mem = s.mem ∧ (s.markClears t).power = s.power
      ∧ ((s.tile t).missMark = false → (s.markClears t).skips = s.skips) := by
  obtain ⟨htiles, hrest⟩ := Prod.mk.inj (unmarkMiss_offShaft s t)
  obtain ⟨hmem, hpower⟩ := Prod.mk.inj hrest
  have htile : ∀ x, (s.unmarkMiss t).tile x = s.tile x := fun x => by rw [State.tile, htiles]; rfl
  have hclears : ∀ x, (s.markClears t).tile x = ((s.unmarkMiss t).modTile t (fun x => x.cleared (s.rowFc t))).tile x := fun _ => rfl
  refine ⟨?_, fun x hx => ?_, hmem, hpower, fun hm => ?_⟩
  · rw [hclears, tile_modTile, htile]
  · rw [hclears, tile_modTile_other _ _ _ _ hx, htile]
  · rw [State.markClears, unmarkMiss_eq hm]
    rfl

theorem markArrives_eq (s : State) (t n : Nat) (isTick : Bool) :
    s.markArrives t n isTick = upTo 4 (fun s th => s.markThread t n isTick th) (s.markClears t) := rfl

/-- What the arrival of a mark leaves of tile, threads, memory and skips. -/
theorem markArrives_fields (s : State) (t n : Nat) (isTick : Bool) :
    let u := s.markArrives t n isTick
    (u.tile t).markPart = ((s.tile t).tickDue, (s.tile t).shiftFc, (s.tile t).nextSlot, false)
      ∧ (∀ th, th < 4 → u.thread t th = (s.thread t th).marked (s.rowFc t) n isTick)
      ∧ u.mem = s.mem ∧ ((s.tile t).missMark = false → u.skips = s.skips) ∧ ∀ x, x ≠ t → u.tile x = s.tile x := by
  obtain ⟨htile, hother, hmem, hpower, hskips⟩ := markClears_fields s t
  obtain ⟨hframe, hthreads⟩ := markThreads_fields (s.markClears t) t n 4 isTick
  have hrow : (s.markClears t).rowFc t = s.rowFc t := by simp only [State.rowFc, State.row, hpower]
  have hthread : ∀ th, (s.markClears t).thread t th = s.thread t th := fun th => by
    rw [State.thread, htile]
    rfl
  rw [markArrives_eq]
  refine ⟨?_, fun th hth => ?_, hframe.mem.trans hmem, fun hm => hframe.skips.trans (hskips hm),
    fun x hx => (hframe.tile x hx).trans (hother x hx)⟩
  · rw [hframe.part, htile]
    rfl
  · rw [hthreads, if_pos hth, hthread, hrow]

theorem marked_tick {x : Thread} (h : x.wait = .tick) (fc n : Nat) :
    (x.marked fc n true).wait = .none ∧ (x.marked fc n true).checkpoint = x.regs ∧ (x.marked fc n true).late = false := by
  simp only [Thread.marked, h]
  exact ⟨rfl, rfl, rfl⟩

theorem marked_tick_later {x : Thread} (h : x.wait = .tick) (fc n : Nat) : x.marked fc n false = x := by
  simp only [Thread.marked, h]
  rfl

theorem marked_slot {x : Thread} {n : Nat} (h : x.wait = .slot n) (fc : Nat) (isTick : Bool) : (x.marked fc n isTick).wait = .none := by
  simp only [Thread.marked, h, if_true]
  rfl

theorem marked_slot_other {x : Thread} {v n : Nat} (h : x.wait = .slot v) (hv : v ≠ n) (fc : Nat) (isTick : Bool) :
    x.marked fc n isTick = x := by
  simp only [Thread.marked, h, if_neg hv]

theorem marked_nextMark {x : Thread} (h : x.wait = .nextMark) (fc n : Nat) (isTick : Bool) : (x.marked fc n isTick).wait = .none := by
  simp only [Thread.marked, h]
  rfl

/-- Settles O32: what a mark clears, then each thread by its wait. -/
theorem marksWakeThreads : Obligations.MarksWakeThreads := by
  refine ⟨fun t d r s hdue hd => ?tick, fun t f b s hshift hbudget hchannels hat => ?slot⟩
  case tick =>
    have hexec : exec (.tickMarkArrival t) s = .next (tickMarkArrivalDo t s) := by
      change whenDue _ _ = _
      rw [whenDue_next]
      refine ⟨?_, rfl⟩
      rw [tickMarkArrivalOk, hdue]
      exact decide_eq_true hd
    obtain ⟨hpart, hthreads, hmem, hskips, hother⟩ := markArrives_fields (s.modTile t (fun x => { x with
      tickDue := x.tickDue.tail, shiftFc := some (s.rowFc t), nextSlot := 1 })) t 0 true
    rw [tile_modTile] at hpart hskips
    simp only [Tile.markPart, Prod.mk.injEq, hdue, List.tail_cons] at hpart
    obtain ⟨htick, hfc, hslot, hmiss⟩ := hpart
    have hthread : ∀ th, (s.modTile t (fun x => { x with
        tickDue := x.tickDue.tail, shiftFc := some (s.rowFc t), nextSlot := 1 })).thread t th = s.thread t th :=
      fun th => thread_modTile _ _ _ _ _ (fun _ => by rfl)
    rw [hexec]
    refine answers_next ⟨htick, hfc, hslot, hmiss, fun th hth hw => ?_, fun th hth hw => ?_, fun th n hth hn hw => ?_, hmem, hskips,
      fun x hx => (hother x hx).trans (tile_modTile_other _ _ _ _ hx)⟩
    all_goals
      rw [tickMarkArrivalDo, hthreads th hth, hthread]
    · exact marked_tick hw _ _
    · exact marked_slot hw _ _
    · exact marked_slot_other hw hn _ _
  case slot =>
    have hexec : exec (.slotMarkArrival t) s = .next (slotMarkArrivalDo t s) := by
      change whenDue _ _ = _
      rw [whenDue_next]
      refine ⟨?_, rfl⟩
      simp only [slotMarkArrivalOk, hshift, hbudget, Bool.and_eq_true, decide_eq_true_eq]
      exact ⟨hchannels, hat⟩
    obtain ⟨hpart, hthreads, hmem, hskips, hother⟩ := markArrives_fields (s.modTile t (fun x => { x with
      nextSlot := (s.tile t).nextSlot + 1 })) t (s.tile t).nextSlot false
    rw [tile_modTile] at hpart hskips
    simp only [Tile.markPart, Prod.mk.injEq] at hpart
    obtain ⟨-, -, hslot, hmiss⟩ := hpart
    have hthread : ∀ th, (s.modTile t (fun x => { x with nextSlot := (s.tile t).nextSlot + 1 })).thread t th = s.thread t th :=
      fun th => thread_modTile _ _ _ _ _ (fun _ => by rfl)
    rw [hexec]
    refine answers_next ⟨hslot, hmiss, fun th hth hw => ?_, fun th hth hw => ?_, fun th hth hw => ?_, hmem, hskips,
      fun x hx => (hother x hx).trans (tile_modTile_other _ _ _ _ hx)⟩
    all_goals
      rw [slotMarkArrivalDo, hthreads th hth, hthread]
    · exact marked_slot hw _ _
    · exact marked_nextMark hw _ _ _
    · exact marked_tick_later hw _ _

end Sys2Proof.Machine

/-! PROOFS. Decision words, tick inputs and the loss of a lane (R22, R262 to R268). -/

namespace Sys2Proof.Machine

/-! ## The Adit's parts after updates -/

@[simp] theorem lane_modLane (s : State) (l : Nat) (f : Lane → Lane) : (s.modLane l f).lane l = f (s.lane l) := by
  simp [State.modLane, State.modAdit, State.lane]
theorem lane_modLane_other (s : State) (l x : Nat) (f : Lane → Lane) (h : x ≠ l) : (s.modLane l f).lane x = s.lane x := by
  simp [State.modLane, State.modAdit, State.lane, lookD_put_other _ _ _ _ _ h]
@[simp] theorem quad_modLane (s : State) (l q : Nat) (f : Lane → Lane) : (s.modLane l f).quad q = s.quad q := rfl
@[simp] theorem quad_modQuad (s : State) (q : Nat) (f : Quad → Quad) : (s.modQuad q f).quad q = f (s.quad q) := by
  simp [State.modQuad, State.modAdit, State.quad]
theorem quad_modQuad_other (s : State) (q x : Nat) (f : Quad → Quad) (h : x ≠ q) : (s.modQuad q f).quad x = s.quad x := by
  simp [State.modQuad, State.modAdit, State.quad, lookD_put_other _ _ _ _ _ h]
@[simp] theorem lane_modQuad (s : State) (l q : Nat) (f : Quad → Quad) : (s.modQuad q f).lane l = s.lane l := rfl
@[simp] theorem lane_raise (s : State) (k : EvKind) (e : EvArgs) (l : Nat) : (s.raise k e).lane l = s.lane l := by simp [State.lane]
@[simp] theorem quad_raise (s : State) (k : EvKind) (e : EvArgs) (q : Nat) : (s.raise k e).quad q = s.quad q := by simp [State.quad]
@[simp] theorem lane_hit (s : State) (o b l : Nat) : (s.hit o b).lane l = s.lane l := rfl
@[simp] theorem quad_hit (s : State) (o b q : Nat) : (s.hit o b).quad q = s.quad q := rfl
@[simp] theorem lane_count (s : State) (k i c n l : Nat) : (s.count k i c n).lane l = s.lane l := by simp [State.lane]
@[simp] theorem quad_count (s : State) (k i c n q : Nat) : (s.count k i c n).quad q = s.quad q := by simp [State.quad]
@[simp] theorem decLine_modLine (s : State) (l : Nat) (f : DecLine → DecLine) : (s.modLine l f).decLine l = f (s.decLine l) := by
  simp [State.modLine, State.modAdit, State.decLine]
theorem decLine_modLine_other (s : State) (l x : Nat) (f : DecLine → DecLine) (h : x ≠ l) :
    (s.modLine l f).decLine x = s.decLine x := by
  simp [State.modLine, State.modAdit, State.decLine, lookD_put_other _ _ _ _ _ h]

theorem decLine_emit (s : State) (o : Out) (l : Nat) : (s.emit o).decLine l = s.decLine l := rfl

/-! ## Ticks on their way -/

/-- A tick on its way to the first n domains. -/
theorem dom_scheduleTo (s : State) (key at_ n d : Nat) :
    (upTo n (fun s d => s.modDom d (fun x => { x with dueTicks := x.dueTicks ++ [(key, at_)] })) s).dom d
      = if d < n then { s.dom d with dueTicks := (s.dom d).dueTicks ++ [(key, at_)] } else s.dom d := by
  induction n with
  | zero => rfl
  | succ n ih =>
    rw [upTo, List.range_succ, List.foldl_append, List.foldl_cons, List.foldl_nil]
    change ((upTo n _ s).modDom n _).dom d = _
    by_cases hd : d = n
    · subst hd
      rw [dom_modDom, ih, if_neg (lt_irrefl _), if_pos (Nat.lt_succ_self _)]
    · rw [dom_modDom_other _ _ _ _ hd, ih]
      exact if_congr ⟨fun h => by omega, fun h => by omega⟩ rfl rfl

theorem dueTicks_scheduleTick (s : State) (key at_ d : Nat) (hd : d < 8) :
    ((s.scheduleTick key at_).dom d).dueTicks = (s.dom d).dueTicks ++ [(key, at_)] := by
  rw [State.scheduleTick, dom_scheduleTo, if_pos hd]

theorem scheduleTick_adit (s : State) (key at_ : Nat) : (s.scheduleTick key at_).adit = s.adit := by
  refine foldl_keeps (fun u : State => u.adit = s.adit) _ (fun _ _ h => ?_) _ _ rfl
  exact h

/-! ## Decision words -/

theorem decisionWord_toNat (v g m : Bool) (id ch cls : Nat) :
    (decisionWord v g m id ch cls).toNat = boolNat v * 2 ^ 31 + boolNat g * 2 ^ 30 + boolNat m * 2 ^ 29 + id % 32 * 2 ^ 24
      + ch % 256 * 2 ^ 16 + cls % 65536 := by
  have hv : boolNat v ≤ 1 := by cases v <;> decide
  have hg : boolNat g ≤ 1 := by cases g <;> decide
  have hm : boolNat m ≤ 1 := by cases m <;> decide
  rw [decisionWord, BitVec.toNat_ofNat]
  simp only [Nat.shiftLeft_eq]
  exact Nat.mod_eq_of_lt (by omega)

theorem bitAt_of_boolNat {x i : Nat} {b : Bool} (h : x / 2 ^ i % 2 = boolNat b) : bitAt x i = b := by
  rw [bitAt, Nat.shiftRight_eq_div_pow, h]
  cases b <;> rfl

theorem decisionWord_fields (v g m : Bool) (id ch cls : Nat) :
    let w := (decisionWord v g m id ch cls).toNat
    bitAt w 31 = v ∧ bitAt w 30 = g ∧ bitAt w 29 = m ∧ bits w 28 24 = id % 32 ∧ bits w 23 16 = ch % 256
      ∧ bits w 15 0 = cls % 65536 := by
  have hv : boolNat v ≤ 1 := by cases v <;> decide
  have hg : boolNat g ≤ 1 := by cases g <;> decide
  have hm : boolNat m ≤ 1 := by cases m <;> decide
  dsimp only
  rw [decisionWord_toNat]
  refine ⟨bitAt_of_boolNat ?_, bitAt_of_boolNat ?_, bitAt_of_boolNat ?_, ?_, ?_, ?_⟩
  case refine_4 | refine_5 | refine_6 =>
    rw [bits, Nat.shiftRight_eq_div_pow]
    omega
  all_goals omega

theorem wordChars_eq (w : Word) : wordChars w = [(true, 0xBC), (false, w.extractLsb' 24 8), (false, w.extractLsb' 16 8),
    (false, w.extractLsb' 8 8), (false, w.extractLsb' 0 8)] := by
  have hbyte : ∀ n, BitVec.ofNat 8 (w.toNat / 2 ^ n) = w.extractLsb' n 8 := fun n =>
    BitVec.eq_of_toNat_eq (by rw [BitVec.toNat_ofNat, BitVec.extractLsb'_toNat, Nat.shiftRight_eq_div_pow])
  simp only [wordChars, natLE, ← hbyte, Nat.div_div_eq_div_mul]
  simp [k28_5]

theorem exec_decisionWordTransmit {s : State} {line a : Nat} {w : Word} {r : List (Nat × Word)} (hline : line < 16)
    (hqueue : (s.decLine line).queue = (a, w) :: r) (ha : a < 10 * s.now + 10) :
    exec (.decisionWordTransmit line) s
      = .next ((s.modLine line (fun x => { x with queue := r })).emit (.decision line a w (wordChars w))) := by
  change whenDue _ _ = _
  rw [whenDue_next, decisionWordTransmitOk, decisionWordTransmitDo, hqueue]
  exact ⟨by simp [hline, ha], rfl⟩

theorem exec_lvdsTickEdge {s : State} {pair : Nat} (hpair : pair < 8) (rising : Bool) (before after : Nat) :
    exec (.lvdsTickEdge ⟨pair, rising, before, after⟩) s
      = .next (if (s.lvds pair).seesEdge rising before after then
          s.draw.scheduleTick pair (s.now + 12 + (s.lvds pair).delayLow
            + s.drawn % ((s.lvds pair).delayHigh - (s.lvds pair).delayLow + 2))
        else s) :=
  if_pos (decide_eq_true hpair)

/-- Settles O33: the fields of a decision word as sums of powers of two; the first word of a line; the edge of a pair. -/
theorem decisionWordsLeave : Obligations.DecisionWordsLeave := by
  refine ⟨decisionWord_fields, fun line a w r s hline hqueue ha => ?transmit, fun pair before after rising s hpair => ?edge⟩
  case transmit =>
    rw [exec_decisionWordTransmit hline hqueue ha]
    refine answers_next ⟨?_, ?_, rfl, rfl, fun l hl => ?_⟩
    · rw [wordChars_eq]
      rfl
    · rw [decLine_emit, decLine_modLine]
    · rw [decLine_emit, decLine_modLine_other _ _ _ _ hl]
  case edge =>
    refine ⟨fun henable hrising hbefore hafter => ?_, fun hno => ?_⟩
    · have hsees : (s.lvds pair).seesEdge rising before after = true := by
        simp [Lvds.seesEdge, henable, hrising, hbefore, hafter]
      rw [exec_lvdsTickEdge hpair, if_pos hsees]
      have hmod : s.drawn % ((s.lvds pair).delayHigh - (s.lvds pair).delayLow + 2)
          < (s.lvds pair).delayHigh - (s.lvds pair).delayLow + 2 := Nat.mod_lt _ (Nat.succ_pos _)
      have hlow : (s.lvds pair).delayLow = (s.lvds pair).delay.toNat * 96 / 10000 := rfl
      have hhigh : (s.lvds pair).delayHigh = ((s.lvds pair).delay.toNat * 144 + 9999) / 10000 := rfl
      refine answers_next ⟨12 + (s.lvds pair).delayLow + s.drawn % ((s.lvds pair).delayHigh - (s.lvds pair).delayLow + 2), ?_, ?_,
        fun d hd => ?_⟩
      · omega
      · omega
      · rw [dueTicks_scheduleTick _ _ _ _ hd, ← Nat.add_assoc, ← Nat.add_assoc]
        rfl
    · have hblind : ¬(s.lvds pair).seesEdge rising before after = true := by
        simp only [Lvds.seesEdge, Bool.and_eq_true, bne_iff_ne, decide_eq_true_eq]
        rintro ⟨⟨⟨henable, hrising⟩, hbefore⟩, hafter⟩
        obtain hno | hno | hno | hno := hno
        · exact Bool.false_ne_true (hno.symm.trans henable)
        · exact hrising hno
        · omega
        · omega
      rw [exec_lvdsTickEdge hpair, if_neg hblind]

end Sys2Proof.Machine

/-! PROOFS. Frames on a lane (R253 to R256, R260 to R263, R278). -/

namespace Sys2Proof.Machine

/-! ## Counters under events -/

theorem counterAt_deliver (s : State) (c o : Nat) (r : Record) (h : ∀ c, o ≠ ctrOff 5 c 4) :
    (s.deliver c r).counterAt o = s.counterAt o := by
  have hplace : (s.placeEntry c 15 r).dbg = s.dbg := by
    unfold State.placeEntry
    dsimp only
    split
    · rw [fireMsix_dbg, modRing_dbg, writeBytes_dbg]
    · rw [modRing_dbg, writeBytes_dbg]
  unfold State.deliver
  split
  · rfl
  · split
    · rw [State.counterAt, hplace]
      rfl
    · split
      · rfl
      · rw [counterAt_count _ _ _ _ _ _ (h c)]
        rfl

theorem counterAt_raise (s : State) (k : EvKind) (e : EvArgs) (o : Nat) (h : ∀ c, o ≠ ctrOff 5 c 4) :
    (s.raise k e).counterAt o = s.counterAt o := by
  unfold State.raise
  change State.counterAt (match k.audience with | .pf => _ | .claim => _ | .both => _) o = _
  split
  · exact counterAt_deliver _ _ _ _ h
  · exact counterAt_deliver _ _ _ _ h
  · dsimp only
    split
    · exact counterAt_deliver _ _ _ _ h
    · rw [counterAt_deliver _ _ _ _ h, counterAt_deliver _ _ _ _ h]

theorem counterAt_count_same (s : State) (k i c : Nat) :
    (s.count k i c 1).counterAt (ctrOff k i c) = (s.counterAt (ctrOff k i c)).add 1 := by
  simp [State.count, State.counterAt, State.modDebug]

/-- A lane's odd counters are no claim's count of lost events, and none of its counters is a riddle block's. -/
theorem ctrOff_lane_ne_lost {l c : Nat} (hodd : c % 2 = 1) (x : Nat) : ctrOff 7 l c ≠ ctrOff 5 x 4 := by
  simp only [ctrOff, ctrBase, ctrPer]
  omega

theorem ctrOff_lane_ne_riddle {l c : Nat} (hl : l < 64) (hc : c < 8) (q x : Nat) : ctrOff 7 l c ≠ ctrOff 9 q x := by
  simp only [ctrOff, ctrBase, ctrPer]
  omega

theorem ctrOff_ne {k i a b : Nat} (h : a ≠ b) : ctrOff k i a ≠ ctrOff k i b := by
  simp only [ctrOff]
  omega

/-! ## Into the riddle -/

/-- What feeding words to a riddle block leaves alone: the Adit, the times, the input EOFs, and counters other than those of
lost events and of riddle blocks. -/
structure Fed (s u : State) : Prop where
  adit : u.adit = s.adit
  ticks : u.ticks = s.ticks
  now : u.now = s.now
  events : s.faults.eventSeq ≤ u.faults.eventSeq
  eofs : ∀ q, (u.block q).eofs = (s.block q).eofs
  counters : ∀ o, (∀ c, o ≠ ctrOff 5 c 4) → (∀ q c, o ≠ ctrOff 9 q c) → u.counterAt o = s.counterAt o

@[simp] theorem block_modBlock (s : State) (q : Nat) (f : RBlock → RBlock) : (s.modBlock q f).block q = f (s.block q) := by
  simp [State.modBlock, State.modRiddle, State.block]
theorem block_modBlock_other (s : State) (q x : Nat) (f : RBlock → RBlock) (h : x ≠ q) : (s.modBlock q f).block x = s.block x := by
  simp [State.modBlock, State.modRiddle, State.block, lookD_put_other _ _ _ _ _ h]

namespace Fed

variable {s u : State}

theorem refl (s : State) : Fed s s := ⟨rfl, rfl, rfl, le_rfl, fun _ => rfl, fun _ _ _ => rfl⟩

theorem modBlock (h : Fed s u) (q : Nat) (f : RBlock → RBlock) (hf : ∀ b, (f b).eofs = b.eofs) : Fed s (u.modBlock q f) := by
  refine ⟨h.adit, h.ticks, h.now, h.events, fun x => ?_, h.counters⟩
  by_cases hx : x = q
  · subst hx
    rw [block_modBlock, hf, h.eofs]
  · rw [block_modBlock_other _ _ _ _ hx, h.eofs]

theorem hit (h : Fed s u) (o b : Nat) : Fed s (u.hit o b) := ⟨h.adit, h.ticks, h.now, h.events, h.eofs, h.counters⟩

theorem count (h : Fed s u) (q c n : Nat) : Fed s (u.count 9 q c n) := by
  refine ⟨by rw [count_adit, h.adit], by rw [count_ticks, h.ticks], by rw [count_now, h.now], by rw [count_faults]; exact h.events,
    fun x => ?_, fun o hlost hriddle => by rw [counterAt_count _ _ _ _ _ _ (hriddle q c), h.counters o hlost hriddle]⟩
  rw [State.block, count_riddle]
  exact h.eofs x

theorem raise (h : Fed s u) (k : EvKind) (e : EvArgs) : Fed s (u.raise k e) := by
  refine ⟨by rw [raise_adit, h.adit], by rw [raise_ticks, h.ticks], by rw [raise_now, h.now], ?_, fun x => ?_,
    fun o hlost hriddle => by rw [counterAt_raise _ _ _ _ hlost, h.counters o hlost hriddle]⟩
  · rw [raise_faults]
    exact h.events.trans (Nat.le_succ _)
  · rw [State.block, raise_riddle]
    exact h.eofs x

theorem feedWord (h : Fed s u) (q port : Nat) (full : Bool) (w : RWordIn) : Fed s (u.feedWord q port full w) := by
  unfold State.feedWord
  extract_lets b fifo dropping put_ s1
  have hput {v : State} (hv : Fed s v) (x : RWordIn) : Fed s (put_ x v) := hv.modBlock _ _ (fun _ => by rfl)
  have hs1 : Fed s s1 := (((h.modBlock _ _ (fun _ => by rfl)).hit _ _).count _ _ _).raise _ _
  split
  · split
    · exact hput h _
    · exact h
  · split
    · split
      · exact hput hs1 _
      · exact hs1
    · exact hput h _

theorem feedWords (h : Fed s u) (q port : Nat) (ws : List RWordIn) : Fed s (u.feedWords q port ws) := by
  unfold State.feedWords
  exact foldl_keeps (Fed s) _ (fun _ w hv => hv.feedWord _ _ _ w) _ _ h

end Fed

/-- A frame whose last words are given to a riddle block: its input EOF waits for the output's. -/
theorem feedFrame_fields (s : State) (q port : Nat) (chan : Half) (payload : List Byte) (sent due : Nat) (err : Bool) :
    let u := s.feedFrame q port chan payload sent due err
    u.adit = s.adit ∧ u.ticks = s.ticks ∧ s.faults.eventSeq ≤ u.faults.eventSeq
      ∧ (u.block q).eofs = (s.block q).eofs ++ [(port, due)]
      ∧ ∀ o, (∀ c, o ≠ ctrOff 5 c 4) → (∀ q c, o ≠ ctrOff 9 q c) → u.counterAt o = s.counterAt o := by
  unfold State.feedFrame
  extract_lets n s1
  have hs1 : Fed s s1 := (Fed.refl s).feedWords _ _ _
  refine ⟨?_, ?_, ?_, ?_, fun o hlost hriddle => ?_⟩
  · rw [count_adit]
    exact hs1.adit
  · rw [count_ticks]
    exact hs1.ticks
  · rw [count_faults]
    exact hs1.events
  · rw [State.block, count_riddle]
    change ((s1.modBlock q _).block q).eofs = _
    rw [block_modBlock, ← hs1.eofs q]
  · rw [counterAt_count _ _ _ _ _ _ (hriddle q 0)]
    exact hs1.counters o hlost hriddle

end Sys2Proof.Machine

/-! PROOFS. Blocks of a lane (R253 to R256, R260, R261). -/

namespace Sys2Proof.Machine

/-! ## Frames that leave the deframer -/

/-- What a frame that has left the deframer of lane l leaves alone. -/
structure Forwards (l : Nat) (s u : State) : Prop where
  lanes : u.adit.lanes = s.adit.lanes
  quads : u.adit.quads = s.adit.quads
  ticks : u.ticks = s.ticks
  events : s.faults.eventSeq ≤ u.faults.eventSeq
  counters : ∀ c, c % 2 = 1 → c < 7 → u.counterAt (ctrOff 7 l c) = s.counterAt (ctrOff 7 l c)

theorem Forwards.refl (l : Nat) (s : State) : Forwards l s s := ⟨rfl, rfl, rfl, le_rfl, fun _ _ _ => rfl⟩

/-- An update of the Adit that writes neither lanes nor quads. -/
theorem Forwards.modAdit (l : Nat) (s : State) (f : Adit → Adit) (hlanes : (f s.adit).lanes = s.adit.lanes)
    (hquads : (f s.adit).quads = s.adit.quads) : Forwards l s (s.modAdit f) :=
  ⟨hlanes, hquads, rfl, le_rfl, fun _ _ _ => rfl⟩

theorem forwardFrame_forwards {l : Nat} (hl : l < 64) (s : State) (chan : Half) (payload : List Byte) (complete : Bool)
    (sent port lat te id : Nat) : Forwards l s (s.forwardFrame l chan payload complete sent port lat te id) := by
  unfold State.forwardFrame
  extract_lets q
  split
  · unfold State.sendArriving
    exact .modAdit _ _ _ (by rfl) (by rfl)
  · split
    · obtain ⟨hadit, hticks, hevents, -, hcounters⟩ := feedFrame_fields s (l / 4) port chan payload sent (10 * s.now + te) (!complete)
      exact ⟨by rw [hadit], by rw [hadit], hticks, hevents,
        fun c hodd hc => hcounters _ (ctrOff_lane_ne_lost hodd) (ctrOff_lane_ne_riddle hl (by omega))⟩
    · refine ⟨by simp [State.countLane], by simp [State.countLane], by simp [State.countLane], by simp [State.countLane],
        fun c _ hc => counterAt_count _ _ _ _ _ _ (ctrOff_ne (by omega))⟩

theorem mirrorCopy_forwards (l m : Nat) (s : State) (chan : Half) (seq : Word) (c : Bool × List Byte × Word) :
    Forwards m s (s.mirrorCopy l chan seq c) := by
  unfold State.mirrorCopy
  extract_lets second known mine x old
  split
  · split
    · exact .modAdit _ _ _ rfl rfl
    · split <;> exact .modAdit _ _ _ rfl rfl
  · exact .modAdit _ _ _ rfl rfl

/-- The lane without its frame, which is counted. -/
def State.frameOut (s : State) (l : Nat) (complete : Bool) : State :=
  (s.modLane l (fun x => { x with frame := none })).countLane l (if complete then 0 else 1) 1

theorem frameDone_mirrored {s : State} {l o : Nat} (h : s.mirrorOf l = some o) (f : OpenFrame) (payload : List Byte) (complete : Bool)
    (crc : Word) : s.frameDone l f payload complete crc
      = (s.frameOut l complete).mirrorCopy l (BitVec.ofNat 16 f.chan) f.seq (complete, payload, crc) := by
  rw [State.frameDone, h]
  rfl

theorem frameDone_alone {s : State} {l : Nat} (h : s.mirrorOf l = none) (f : OpenFrame) (payload : List Byte) (complete : Bool)
    (crc : Word) : s.frameDone l f payload complete crc
      = (s.frameOut l complete).forwardFrame l (BitVec.ofNat 16 f.chan) payload complete f.sent (l % 4) 2160 1200 f.stream := by
  rw [State.frameDone, h]
  rfl

theorem frameDone_forwards {l : Nat} (hl : l < 64) (s : State) (f : OpenFrame) (payload : List Byte) (complete : Bool) (crc : Word) :
    Forwards l (s.frameOut l complete) (s.frameDone l f payload complete crc) := by
  cases h : s.mirrorOf l with
  | none =>
    rw [frameDone_alone h]
    exact forwardFrame_forwards hl _ _ _ _ _ _ _ _ _
  | some o =>
    rw [frameDone_mirrored h]
    exact mirrorCopy_forwards _ _ _ _ _ _

section
variable (s : State) (l : Nat) (complete : Bool)

theorem lane_frameOut : (s.frameOut l complete).lane l = { s.lane l with frame := none } := by
  rw [State.frameOut, State.countLane, lane_count, lane_modLane]

theorem lane_frameOut_other (x : Nat) (h : x ≠ l) : (s.frameOut l complete).lane x = s.lane x := by
  rw [State.frameOut, State.countLane, lane_count, lane_modLane_other _ _ _ _ h]

theorem adit_frameOut : (s.frameOut l complete).adit = (s.modLane l (fun x => { x with frame := none })).adit := by
  rw [State.frameOut, State.countLane, count_adit]

theorem counterAt_frameOut : (s.frameOut l complete).counterAt (ctrOff 7 l (if complete then 0 else 1))
    = (s.counterAt (ctrOff 7 l (if complete then 0 else 1))).add 1 :=
  counterAt_count_same _ _ _ _

theorem frameOut_kept : (s.frameOut l complete).mem = s.mem ∧ (s.frameOut l complete).now = s.now
    ∧ (s.frameOut l complete).ticks = s.ticks ∧ (s.frameOut l complete).riddle = s.riddle
    ∧ (s.frameOut l complete).faults = s.faults := by
  rw [State.frameOut, State.countLane]
  refine ⟨?_, ?_, ?_, ?_, ?_⟩ <;> simp [State.modLane, State.modAdit]

end

/-- A lane once its frame has ended. -/
theorem frameDone_lanes {l : Nat} (hl : l < 64) (s : State) (f : OpenFrame) (payload : List Byte) (complete : Bool) (crc : Word) :
    let u := s.frameDone l f payload complete crc
    u.lane l = { s.lane l with frame := none } ∧ (∀ x, x ≠ l → u.lane x = s.lane x) ∧ ∀ q, u.quad q = s.quad q := by
  have h := frameDone_forwards hl s f payload complete crc
  have hlane : ∀ x, (s.frameDone l f payload complete crc).lane x = (s.frameOut l complete).lane x := fun x => by
    rw [State.lane, h.lanes]
    rfl
  refine ⟨?_, fun x hx => ?_, fun q => ?_⟩
  · rw [hlane, lane_frameOut]
  · rw [hlane, lane_frameOut_other _ _ _ _ hx]
  · rw [State.quad, h.quads, adit_frameOut]
    rfl

/-- The frame of a lane's bypass, as it waits at its A-tile. -/
theorem sendArriving_mem (s : State) (a : Arriving) (ha : a.open_ = false) :
    ∃ b ∈ (s.sendArriving a).adit.arriving, b.id = a.id ∧ b.open_ = false ∧ b.complete = a.complete ∧ b.due = a.due
      ∧ b.payload = a.payload ∧ (b.pushed = 0 → b.target = a.target) := by
  unfold State.sendArriving
  extract_lets l ended known
  change ∃ b ∈ (if known = true then l.map ended else l ++ [a]), _
  split
  next hknown =>
    obtain ⟨-, hany⟩ := (Bool.and_eq_true _ _).mp hknown
    obtain ⟨b, hb, hid⟩ := List.any_eq_true.1 hany
    have hid : b.id = a.id := by simpa using hid
    have hended : ended b = { b with open_ := false, complete := a.complete, payload := a.payload, due := a.due
                                     target := if b.pushed = 0 then a.target else b.target } := if_pos hid
    refine ⟨ended b, List.mem_map_of_mem hb, ?_⟩
    rw [hended]
    exact ⟨hid, rfl, rfl, rfl, rfl, fun hp => if_pos hp⟩
  next => exact ⟨a, List.mem_append_right _ (List.mem_singleton.2 rfl), rfl, ha, rfl, rfl, rfl, fun _ => rfl⟩

/-- The end of a frame on an unmirrored lane of a bypassed quad. -/
theorem frameDone_bypass {s : State} {l : Nat} (hmirror : s.mirrorOf l = none) (hbypass : (s.quad (l / 4)).bypass = true)
    (f : OpenFrame) (payload : List Byte) (complete : Bool) (crc : Word) :
    s.frameDone l f payload complete crc = (s.frameOut l complete).sendArriving
      { lane := l, target := (s.quad (l / 4)).channelOf (f.chan % 65536), complete := complete, payload := payload
        due := 10 * s.now + 2160, id := f.stream } := by
  have hquad : (s.frameOut l complete).quad (l / 4) = s.quad (l / 4) := by
    rw [State.quad, adit_frameOut]
    rfl
  rw [frameDone_alone hmirror, State.forwardFrame, hquad, (frameOut_kept s l complete).2.1]
  rw [if_pos hbypass, BitVec.toNat_ofNat]

theorem frameDone_bypass_fields {s : State} {l : Nat} (hmirror : s.mirrorOf l = none) (hbypass : (s.quad (l / 4)).bypass = true)
    (f : OpenFrame) (payload : List Byte) (complete : Bool) (crc : Word) :
    let u := s.frameDone l f payload complete crc
    u.mem = s.mem ∧ u.dbg = (s.frameOut l complete).dbg
      ∧ ∃ a ∈ u.adit.arriving, a.id = f.stream ∧ a.open_ = false ∧ a.complete = complete ∧ a.due = 10 * s.now + 2160
          ∧ a.payload = payload ∧ (a.pushed = 0 → a.target = (s.quad (l / 4)).channelOf (f.chan % 65536)) := by
  rw [frameDone_bypass hmirror hbypass]
  exact ⟨(frameOut_kept s l complete).1, rfl, sendArriving_mem _ _ rfl⟩

/-- The end of a frame on an unmirrored lane of a quad with a loaded riddle block. -/
theorem frameDone_riddle_fields {s : State} {l : Nat} (hmirror : s.mirrorOf l = none) (hbypass : (s.quad (l / 4)).bypass = false)
    (hloaded : (s.block (l / 4)).loaded = true) (f : OpenFrame) (payload : List Byte) (complete : Bool) (crc : Word) :
    let u := s.frameDone l f payload complete crc
    u.adit.arriving = s.adit.arriving ∧ (u.block (l / 4)).eofs = (s.block (l / 4)).eofs ++ [(l % 4, 10 * s.now + 1200)] := by
  obtain ⟨-, hnow, -, hriddle, -⟩ := frameOut_kept s l complete
  have hquad : (s.frameOut l complete).quad (l / 4) = s.quad (l / 4) := by
    rw [State.quad, adit_frameOut]
    rfl
  have hblock : (s.frameOut l complete).block (l / 4) = s.block (l / 4) := by
    rw [State.block, hriddle]
    rfl
  rw [frameDone_alone hmirror, State.forwardFrame, hquad, hblock, hnow, if_neg (by rw [hbypass]; exact Bool.false_ne_true),
    if_pos hloaded]
  obtain ⟨hadit, -, -, heofs, -⟩ := feedFrame_fields (s.frameOut l complete) (l / 4) (l % 4) (BitVec.ofNat 16 f.chan) payload f.sent
    (10 * s.now + 1200) (!complete)
  rw [hblock] at heofs
  refine ⟨?_, heofs⟩
  rw [hadit, adit_frameOut]
  rfl

/-- The first copy of a frame on a mirrored lane. -/
theorem frameDone_window_fields {s : State} {l o : Nat} (hmirror : s.mirrorOf l = some o) (hnone : s.adit.mirrors = [])
    (f : OpenFrame) (payload : List Byte) (complete : Bool) (crc : Word) :
    let u := s.frameDone l f payload complete crc
    let c : Bool × List Byte × Word := (complete, payload, crc)
    u.adit.arriving = s.adit.arriving
      ∧ ∃ m : Mirror, u.adit.mirrors = [m] ∧ m.lane = l % 32 ∧ m.chan = f.chan % 65536 ∧ m.seq = f.seq
          ∧ m.endsAt = s.now + s.skewFc l ∧ m.closed = false
          ∧ (if l < 32 then m.primary = some c ∧ m.secondary = none else m.secondary = some c ∧ m.primary = none) := by
  have hmirrors : (s.frameOut l complete).adit.mirrors = [] := by
    rw [adit_frameOut]
    exact hnone
  have hskew : (s.frameOut l complete).skewFc l = s.skewFc l := by
    rw [State.skewFc, State.quad, adit_frameOut]
    rfl
  rw [frameDone_mirrored hmirror]
  simp only [State.mirrorCopy, hmirrors, List.filter_nil, findAt, List.nil_append, (frameOut_kept s l complete).2.1, hskew]
  refine ⟨?_, _, rfl, ?_⟩
  · change (s.frameOut l complete).adit.arriving = _
    rw [adit_frameOut]
    rfl
  · unfold Mirror.setCopy
    by_cases hl : l < 32
    · rw [if_neg (by simpa using hl), if_pos hl, BitVec.toNat_ofNat]
      exact ⟨rfl, rfl, rfl, rfl, rfl, rfl, rfl⟩
    · rw [if_pos (by simpa using hl), if_neg hl, BitVec.toNat_ofNat]
      exact ⟨rfl, rfl, rfl, rfl, rfl, rfl, rfl⟩

/-! ## The start of a frame -/

/-- What the sequence check of a frame leaves alone. -/
structure SeqNoted (s u : State) : Prop where
  adit : u.adit = { s.adit with quads := u.adit.quads }
  mem : u.mem = s.mem
  dbg : u.dbg = s.dbg
  now : u.now = s.now
  quad : ∀ q, u.quad q = { s.quad q with prevSeq := (u.quad q).prevSeq, seqGap := (u.quad q).seqGap }

theorem SeqNoted.modQuad (s : State) (q : Nat) (f : Quad → Quad)
    (hf : ∀ x, f x = { x with prevSeq := (f x).prevSeq, seqGap := (f x).seqGap }) : SeqNoted s (s.modQuad q f) := by
  refine ⟨rfl, rfl, rfl, rfl, fun x => ?_⟩
  by_cases hx : x = q
  · subst hx
    rw [quad_modQuad]
    exact hf _
  · rw [quad_modQuad_other _ _ _ _ hx]

theorem SeqNoted.noteGap {s u : State} (h : SeqNoted s u) (q : Nat) (gap : Bool) : SeqNoted s (u.noteGap q gap) := by
  unfold State.noteGap
  split
  · exact ⟨h.adit, h.mem, h.dbg, h.now, h.quad⟩
  · exact h

theorem noteSeq_noted (s : State) (l : Nat) (chan : Half) (seq : Word) : SeqNoted s (s.noteSeq l chan seq) := by
  unfold State.noteSeq
  split
  · exact .noteGap (.modQuad _ _ _ fun _ => by rfl) _ _
  · extract_lets qi q pk lk own
    split
    · exact .modQuad _ _ _ fun _ => by rfl
    · exact .noteGap (.modQuad _ _ _ fun _ => by rfl) _ _

/-- The channel that a frame's bytes go to as they come. -/
def State.streamTarget (s : State) (l chan : Nat) : Option (Nat × Nat) :=
  if (s.quad (l / 4)).bypass = true ∧ s.mirrorOf l = none then (s.quad (l / 4)).channelOf chan else none

theorem SeqNoted.streamTarget {s u : State} (h : SeqNoted s u) (l chan : Nat) : u.streamTarget l chan = s.streamTarget l chan := by
  have hmirror : u.mirrorOf l = s.mirrorOf l := by rw [State.mirrorOf, h.quad]; rfl
  rw [State.streamTarget, hmirror, h.quad]
  rfl

/-- The start of a frame on a lane whose open frame, if any, has ended. -/
def State.startFrame (s : State) (l : Nat) (chan : Half) (seq : Word) : State :=
  let r := (s.noteSeq l chan seq).openArriving l (s.streamTarget l chan.toNat)
  r.1.modLane l (fun x => { x with frame := some { chan := chan.toNat, seq := seq, stream := r.2 } })

theorem frameStartDo_eq (s : State) (l : Nat) (chan : Half) (seq : Word) :
    frameStartDo l chan seq s = (s.endOpen l).startFrame l chan seq := by
  have htarget := (noteSeq_noted (s.endOpen l) l chan seq).streamTarget l chan.toNat
  rw [State.startFrame, ← htarget]
  simp only [frameStartDo, State.streamTarget, Option.isNone_iff_eq_none]

theorem openArriving_none (s : State) (l : Nat) : s.openArriving l none = (s, 0) := rfl

/-- What the start of a frame leaves. -/
theorem startFrame_fields (s : State) (l : Nat) (chan : Half) (seq : Word) :
    let u := s.startFrame l chan seq
    (∃ f, (u.lane l).frame = some f ∧ f.chan = chan.toNat ∧ f.seq = seq ∧ f.payload = [] ∧ f.blocks = 0 ∧ f.broken = false)
      ∧ (s.streamTarget l chan.toNat = none → u.adit.arriving = s.adit.arriving)
      ∧ (∀ q, s.streamTarget l chan.toNat = some q → ∃ a : Arriving, u.adit.arriving = s.adit.arriving ++ [a] ∧ a.lane = l
          ∧ a.target = some q ∧ a.open_ = true ∧ a.payload = [] ∧ a.pushed = 0)
      ∧ u.mem = s.mem ∧ u.dbg = s.dbg ∧ ∀ x, x ≠ l → u.lane x = s.lane x := by
  have hnoted := noteSeq_noted s l chan seq
  have harriving : (s.noteSeq l chan seq).adit.arriving = s.adit.arriving := by rw [hnoted.adit]
  have hlane : ∀ x, (s.noteSeq l chan seq).lane x = s.lane x := fun x => by rw [State.lane, hnoted.adit]; rfl
  unfold State.startFrame
  cases htarget : s.streamTarget l chan.toNat with
  | none =>
    rw [openArriving_none]
    refine ⟨⟨_, by rw [lane_modLane], rfl, rfl, rfl, rfl, rfl⟩, fun _ => harriving, fun q hq => ?_, hnoted.mem, hnoted.dbg,
      fun x hx => ?_⟩
    · exact absurd hq (by simp)
    · rw [lane_modLane_other _ _ _ _ hx, hlane]
  | some p =>
    refine ⟨⟨_, by rw [lane_modLane], rfl, rfl, rfl, rfl, rfl⟩, fun h => ?_, fun q hq => ?_, hnoted.mem, hnoted.dbg, fun x hx => ?_⟩
    · exact absurd h (by simp)
    · refine ⟨_, congrArg (· ++ _) harriving, rfl, ?_, rfl, rfl, rfl⟩
      exact hq
    · rw [lane_modLane_other _ _ _ _ hx]
      exact hlane x

/-! ## Data blocks -/

/-- Words go ahead into the riddle, or nothing does. -/
theorem feedAhead_cases (s : State) (l : Nat) (f : OpenFrame) : s.feedAhead l f = s ∨ ((s.quad (l / 4)).bypass = false
    ∧ ∃ s1 n, Fed s s1 ∧ s.feedAhead l f = s1.modLane l (fun x => { x with frame := some { f with sent := n } })) := by
  unfold State.feedAhead
  extract_lets n due s1
  split
  next => exact .inl rfl
  next hgo =>
    refine .inr ⟨?_, s1, n, (Fed.refl s).feedWords _ _ _, rfl⟩
    simp only [Bool.or_eq_true, not_or, Bool.not_eq_true] at hgo
    exact hgo.1.1.1

/-- What goes ahead into the riddle changes neither what waits for an A-tile nor a lane's frame but for its count of words. -/
theorem feedAhead_fields (s : State) (l : Nat) (f : OpenFrame) (hf : (s.lane l).frame = some f) :
    (s.feedAhead l f).adit.arriving = s.adit.arriving ∧ (∃ n, ((s.feedAhead l f).lane l).frame = some { f with sent := n })
      ∧ (∀ x, x ≠ l → (s.feedAhead l f).lane x = s.lane x) ∧ ((s.quad (l / 4)).bypass = true → s.feedAhead l f = s) := by
  obtain h | ⟨hbypass, s1, n, hs1, h⟩ := feedAhead_cases s l f
  · rw [h]
    exact ⟨rfl, ⟨f.sent, hf⟩, fun _ _ => rfl, fun _ => rfl⟩
  · rw [h]
    refine ⟨?_, ⟨n, by rw [lane_modLane]⟩, fun x hx => ?_,
      fun ht => absurd (ht.symm.trans hbypass) (by decide)⟩
    · change s1.adit.arriving = _
      rw [hs1.adit]
    · rw [lane_modLane_other _ _ _ _ hx, State.lane, hs1.adit]
      rfl

/-- The frame with one more block. -/
def OpenFrame.add (f : OpenFrame) (data : DWord) : OpenFrame :=
  { f with payload := f.payload ++ natLE 8 data.toNat, blocks := f.blocks + 1 }

theorem dataBlockDo_eq {s : State} {l : Nat} {f : OpenFrame} (hf : (s.lane l).frame = some f) (data : DWord) :
    dataBlockDo l data s = ((s.modLane l (fun x => { x with frame := some (f.add data) })).feedAhead l (f.add data)).streamBytes
      f.stream (10 * s.now + 2160) f.payload.length (f.add data).payload := by
  rw [dataBlockDo, hf]
  rfl

theorem streamBytes_lane (s : State) (id due sure : Nat) (payload : List Byte) (l : Nat) :
    (s.streamBytes id due sure payload).lane l = s.lane l := by
  unfold State.streamBytes
  split <;> rfl

theorem streamBytes_mem (s : State) (id due sure : Nat) (payload : List Byte) : (s.streamBytes id due sure payload).mem = s.mem := by
  unfold State.streamBytes
  split <;> rfl

theorem streamBytes_payload {s : State} {id : Nat} (hid : id ≠ 0) (due sure : Nat) (payload : List Byte) :
    ∀ a ∈ (s.streamBytes id due sure payload).adit.arriving, a.id = id → a.open_ = true → a.payload = payload := by
  rw [State.streamBytes, if_neg hid]
  intro a ha hai hopen
  obtain ⟨b, -, rfl⟩ := List.mem_map.1 ha
  split
  next => rfl
  next hno =>
    rw [if_neg hno] at hai hopen
    exact absurd (by simp [hai, hopen]) hno

theorem dataBlockDo_fields {s : State} {l : Nat} {f : OpenFrame} (hf : (s.lane l).frame = some f) (data : DWord) :
    let u := dataBlockDo l data s
    (∃ g, (u.lane l).frame = some g ∧ g.chan = f.chan ∧ g.seq = f.seq ∧ g.payload = f.payload ++ natLE 8 data.toNat
        ∧ g.blocks = f.blocks + 1)
      ∧ ((s.quad (l / 4)).bypass = true → u.mem = s.mem
          ∧ ∀ a ∈ u.adit.arriving, f.stream ≠ 0 → a.id = f.stream → a.open_ = true → a.payload = f.payload ++ natLE 8 data.toNat)
      ∧ ∀ x, x ≠ l → u.lane x = s.lane x := by
  have hframe : ((s.modLane l (fun x => { x with frame := some (f.add data) })).lane l).frame = some (f.add data) := by
    rw [lane_modLane]
  obtain ⟨-, ⟨n, hfed⟩, hother, hbypassed⟩ := feedAhead_fields _ _ _ hframe
  rw [dataBlockDo_eq hf]
  refine ⟨⟨_, (congrArg Lane.frame (streamBytes_lane _ _ _ _ _ _)).trans hfed, rfl, rfl, rfl, rfl⟩, fun hbypass => ⟨?_, ?_⟩,
    fun x hx => ?_⟩
  · rw [streamBytes_mem, hbypassed hbypass]
    rfl
  · exact fun a ha hstream => streamBytes_payload hstream _ _ _ a ha
  · rw [streamBytes_lane, hother x hx, lane_modLane_other _ _ _ _ hx]

/-! ## The commands -/

theorem exec_frameStart {s : State} {l : Nat} (h : s.laneLive l = true) (chan : Half) (seq : Word) :
    exec (.frameStart l chan seq) s = .next (frameStartDo l chan seq s) := if_pos h

theorem exec_dataBlock {s : State} {l : Nat} (h : s.laneLive l = true) (data : DWord) :
    exec (.dataBlock l data) s = .next (dataBlockDo l data s) := if_pos h

theorem exec_frameEnd {s : State} {l : Nat} (h : s.laneLive l = true) (crc : Word) (len : BitVec 24) :
    exec (.frameEnd l crc len) s = .next (frameEndDo l crc len s) := if_pos h

theorem exec_uncorrectableCodeword {s : State} {l : Nat} (h : s.laneLive l = true) :
    exec (.uncorrectableCodeword l) s = .next (uncorrectableCodewordDo l s) := if_pos h

theorem lt_of_laneLive {s : State} {l : Nat} (h : s.laneLive l = true) : l < 64 := by
  simp only [State.laneLive, Bool.and_eq_true, decide_eq_true_eq] at h
  exact h.1.1.1.1

theorem endOpen_none {s : State} {l : Nat} (h : (s.lane l).frame = none) : s.endOpen l = s := by
  rw [State.endOpen, h]

theorem endOpen_some {s : State} {l : Nat} {f : OpenFrame} (h : (s.lane l).frame = some f) :
    s.endOpen l = s.frameDone l f f.payload false 0 := by
  rw [State.endOpen, h]

theorem frameEndDo_some {s : State} {l : Nat} {f : OpenFrame} (h : (s.lane l).frame = some f) (crc : Word) (len : BitVec 24) :
    frameEndDo l crc len s = s.frameDone l f (if f.completes crc len.toNat then f.payload.take len.toNat else f.payload)
      (f.completes crc len.toNat) crc := by
  rw [frameEndDo, h]

/-- Blocks of a live lane outside the end of a frame. -/
theorem laneBlocks_build (l : Nat) (s : State) (h : s.laneLive l = true) :
    (∀ (chan : Half) (seq : Word), (s.lane l).frame = none → Answers (exec (.frameStart l chan seq) s) (fun u =>
       let target := if (s.quad (l / 4)).bypass = true ∧ s.mirrorOf l = none then (s.quad (l / 4)).channelOf chan.toNat else none
       (∃ f, (u.lane l).frame = some f ∧ f.chan = chan.toNat ∧ f.seq = seq ∧ f.payload = [] ∧ f.blocks = 0 ∧ f.broken = false)
         ∧ (target = none → u.adit.arriving = s.adit.arriving)
         ∧ (∀ q, target = some q → ∃ a : Arriving, u.adit.arriving = s.adit.arriving ++ [a] ∧ a.lane = l ∧ a.target = some q
             ∧ a.open_ = true ∧ a.payload = [] ∧ a.pushed = 0)
         ∧ u.mem = s.mem ∧ ∀ x, x ≠ l → u.lane x = s.lane x))
     ∧ (∀ (chan : Half) (seq : Word) (f : OpenFrame), (s.lane l).frame = some f → Answers (exec (.frameStart l chan seq) s) (fun u =>
       (∃ g, (u.lane l).frame = some g ∧ g.chan = chan.toNat ∧ g.seq = seq ∧ g.payload = [] ∧ g.blocks = 0)
         ∧ u.counterAt (ctrOff 7 l 1) = (s.counterAt (ctrOff 7 l 1)).add 1)) := by
  refine ⟨fun chan seq hf => ?_, fun chan seq f hf => ?_⟩
  · rw [exec_frameStart h, frameStartDo_eq, endOpen_none hf]
    obtain ⟨hframe, hnone, hsome, hmem, -, hother⟩ := startFrame_fields s l chan seq
    exact answers_next ⟨hframe, hnone, hsome, hmem, hother⟩
  · rw [exec_frameStart h, frameStartDo_eq, endOpen_some hf]
    obtain ⟨⟨g, hg, hchan, hseq, hpayload, hblocks, -⟩, -, -, -, hdbg, -⟩ :=
      startFrame_fields (s.frameDone l f f.payload false 0) l chan seq
    refine answers_next ⟨⟨g, hg, hchan, hseq, hpayload, hblocks⟩, ?_⟩
    have hone := (frameDone_forwards (lt_of_laneLive h) s f f.payload false 0).counters 1 rfl (by decide)
    have hcount := counterAt_frameOut s l false
    rw [State.counterAt, hdbg]
    exact hone.trans hcount

/-- Settles O34: the blocks that build a frame, then its end through the bypass, into the riddle or into a mirror window. -/
theorem laneBlocksBuildAndEndFrames : Obligations.LaneBlocksBuildAndEndFrames := by
  refine ⟨fun l s h => ?builds, fun l f s h hf => ?ends⟩
  case builds =>
    obtain ⟨hstart, hrestart⟩ := laneBlocks_build l s h
    refine ⟨hstart, hrestart, fun data f hf => ?_, fun data crc len hf => ?_, if_pos (decide_eq_true (lt_of_laneLive h)),
      fun n => if_pos (decide_eq_true (lt_of_laneLive h))⟩
    · rw [exec_dataBlock h]
      exact answers_next (dataBlockDo_fields hf data)
    · have hcounted : Answers (.next (s.countLane l 2 1)) (fun u =>
          u.adit = s.adit ∧ u.counterAt (ctrOff 7 l 2) = (s.counterAt (ctrOff 7 l 2)).add 1) :=
        answers_next ⟨count_adit _ _ _ _ _, counterAt_count_same _ _ _ _⟩
      simp only [List.forall_mem_cons]
      refine ⟨?_, ?_, by simp⟩
      · rw [exec_dataBlock h, dataBlockDo, hf]
        exact hcounted
      · rw [exec_frameEnd h, frameEndDo, hf]
        exact hcounted
  case ends =>
    have hl := lt_of_laneLive h
    have hlane : ∀ payload complete crc, ((s.frameDone l f payload complete crc).lane l).frame = none := fun payload complete crc => by
      rw [(frameDone_lanes hl s f payload complete crc).1]
    refine ⟨fun hmirror hbypass => ⟨fun crc len => ?_, ?_⟩, fun hmirror hbypass hloaded crc len => ?_,
      fun o hmirror hnone crc len => ?_⟩
    · rw [exec_frameEnd h, frameEndDo_some hf]
      obtain ⟨hmem, hdbg, a, ha, hid, hopen, hcomplete, hdue, hpayload, htarget⟩ := frameDone_bypass_fields hmirror hbypass f
        (if f.completes crc len.toNat then f.payload.take len.toNat else f.payload) (f.completes crc len.toNat) crc
      refine answers_next ⟨hlane _ _ _, hmem, ?_, a, ha, hid, hopen, hcomplete, hdue, hpayload, htarget⟩
      rw [State.counterAt, hdbg]
      exact counterAt_frameOut s l _
    · rw [exec_uncorrectableCodeword h, uncorrectableCodewordDo, endOpen_some hf, State.countLane]
      obtain ⟨-, hdbg, a, ha, hid, hopen, hcomplete, -⟩ := frameDone_bypass_fields hmirror hbypass f f.payload false 0
      refine answers_next ⟨?_, ?_, a, ?_, hid, hopen, hcomplete⟩
      · rw [lane_count]
        exact hlane _ _ _
      · rw [counterAt_count_same]
        refine congrArg (fun c : Counter => c.add 1) ?_
        rw [State.counterAt, hdbg]
        exact counterAt_count _ _ _ _ _ _ (ctrOff_ne (by decide))
      · rw [count_adit]
        exact ha
    · rw [exec_frameEnd h, frameEndDo_some hf]
      obtain ⟨harriving, heofs⟩ := frameDone_riddle_fields hmirror hbypass hloaded f
        (if f.completes crc len.toNat then f.payload.take len.toNat else f.payload) (f.completes crc len.toNat) crc
      exact answers_next ⟨hlane _ _ _, harriving, heofs⟩
    · rw [exec_frameEnd h, frameEndDo_some hf]
      obtain ⟨harriving, m, hm⟩ := frameDone_window_fields hmirror hnone f
        (if f.completes crc len.toNat then f.payload.take len.toNat else f.payload) (f.completes crc len.toNat) crc
      exact answers_next ⟨hlane _ _ _, harriving, m, hm⟩

end Sys2Proof.Machine

/-! PROOFS. Loss and return of a lane, and TICK blocks (R262, R265, R370). -/

namespace Sys2Proof.Machine

/-! ## An occurrence of a fault changes the fault log alone -/

/-- The fault log differs, with no fewer events. -/
structure Logged (s u : State) : Prop where
  adit : u.adit = s.adit
  events : s.faults.eventSeq ≤ u.faults.eventSeq

theorem Logged.refl (s : State) : Logged s s := ⟨rfl, le_rfl⟩

theorem Logged.modFaults {s u : State} (h : Logged s u) (f : Faults → Faults) (hf : ∀ x, (f x).eventSeq = x.eventSeq) :
    Logged s (u.modFaults f) :=
  ⟨h.adit, h.events.trans_eq (hf u.faults).symm⟩

theorem Logged.raise {s u : State} (h : Logged s u) (k : EvKind) (e : EvArgs) : Logged s (u.raise k e) := by
  refine ⟨by rw [raise_adit, h.adit], ?_⟩
  rw [raise_faults]
  exact h.events.trans (Nat.le_succ _)

theorem track_logged (s : State) (key : Nat) (link : Bool) : Logged s (s.track key link).1 := by
  unfold State.track
  extract_lets f set
  have hset : ∀ ts, Logged s (set ts) := fun ts => (Logged.refl s).modFaults _ (fun _ => rfl)
  split
  · exact hset _
  · split
    · exact hset _
    · split
      · exact hset _
      · dsimp only
        refine Logged.raise ?_ _ _
        exact ⟨rfl, le_rfl⟩

theorem occur_logged (s : State) (r : FaultReport) : Logged s (s.occur r).1 := by
  unfold State.occur
  extract_lets key failed s1 s2
  have hs2 : Logged s s2 := (track_logged s _ _).modFaults _ (fun _ => rfl)
  dsimp only
  split
  · unfold State.decideRetire
    split
    · exact hs2
    · exact hs2.modFaults _ (fun _ => rfl)
  · exact hs2

/-- The loss of lane l is shown in its quad, with an event. -/
structure ShownDown (l : Nat) (s u : State) : Prop where
  lane : ∀ x, u.lane x = s.lane x
  quad : (u.quad (l / 4)).laneDown = true
  events : s.faults.eventSeq < u.faults.eventSeq

theorem ShownDown.raise {l : Nat} {s u : State} (h : ShownDown l s u) (k : EvKind) (e : EvArgs) : ShownDown l s (u.raise k e) := by
  refine ⟨fun x => by rw [lane_raise, h.lane], by rw [quad_raise, h.quad], ?_⟩
  rw [raise_faults]
  exact h.events.trans (Nat.lt_succ_self _)

theorem laneEventDown_shown (s : State) (l : Nat) : ShownDown l s (s.laneEventDown l) := by
  unfold State.laneEventDown
  extract_lets s1
  have hs1 : ShownDown l s s1 :=
    ⟨fun x => by rw [lane_raise, lane_hit, lane_modQuad], by rw [quad_raise, quad_hit, quad_modQuad], by simp [s1]⟩
  split
  · split
    · exact hs1.raise _ _
    · exact hs1
  · exact hs1

/-- The lane after its loss: down, without a frame. -/
theorem laneLosesLockDo_fields {l : Nat} (hl : l < 64) (s : State) :
    ((laneLosesLockDo l s).lane l).up = false ∧ ((laneLosesLockDo l s).lane l).frame = none
      ∧ ((laneLosesLockDo l s).quad (l / 4)).laneDown = true ∧ s.faults.eventSeq < (laneLosesLockDo l s).faults.eventSeq
      ∧ ∀ x, x ≠ l → (laneLosesLockDo l s).lane x = s.lane x := by
  have hended : ((s.endOpen l).lane l).frame = none ∧ (∀ x, x ≠ l → (s.endOpen l).lane x = s.lane x)
      ∧ s.faults.eventSeq ≤ (s.endOpen l).faults.eventSeq := by
    cases hf : (s.lane l).frame with
    | none =>
      rw [endOpen_none hf]
      exact ⟨hf, fun _ _ => rfl, le_rfl⟩
    | some f =>
      rw [endOpen_some hf]
      obtain ⟨hlane, hother, -⟩ := frameDone_lanes hl s f f.payload false 0
      refine ⟨by rw [hlane], hother, ?_⟩
      have hevents := (frameDone_forwards hl s f f.payload false 0).events
      rwa [(frameOut_kept s l false).2.2.2.2] at hevents
  obtain ⟨hframe, hother, hevents⟩ := hended
  unfold laneLosesLockDo
  extract_lets s1 s2
  have hs2 : (∀ x, s2.lane x = s1.lane x) ∧ s2.faults = s1.faults := by
    unfold s2
    split <;> exact ⟨fun _ => rfl, rfl⟩
  have hdown := laneEventDown_shown (s2.modLane l (fun x => { x with up := false })) l
  have hlogged := occur_logged ((s2.modLane l (fun x => { x with up := false })).laneEventDown l) (.detectorLane l)
  have hlane : ∀ x, ((((s2.modLane l (fun x => { x with up := false })).laneEventDown l).occur (.detectorLane l)).1).lane x
      = (s2.modLane l (fun x => { x with up := false })).lane x := fun x => by
    rw [State.lane, hlogged.adit]
    exact hdown.lane x
  refine ⟨?_, ?_, ?_, ?_, fun x hx => ?_⟩
  · rw [hlane, lane_modLane]
  · rw [hlane, lane_modLane, hs2.1]
    exact hframe
  · rw [State.quad, hlogged.adit]
    exact hdown.quad
  · have h1 : s1.faults.eventSeq < _ := hs2.2 ▸ hdown.events
    exact (hevents.trans_lt h1).trans_le hlogged.events
  · rw [hlane, lane_modLane_other _ _ _ _ hx, hs2.1]
    exact hother x hx

theorem forgetSeq_fields (s : State) (q : Nat) :
    ((s.forgetSeq q).quad q).prevSeq = [] ∧ (s.forgetSeq q).mem = s.mem ∧ ∀ x, (s.forgetSeq q).lane x = s.lane x := by
  unfold State.forgetSeq
  extract_lets s1
  split
  next h =>
    have hne : q ≠ q - 8 := by omega
    refine ⟨?_, rfl, fun _ => rfl⟩
    rw [quad_modQuad_other _ _ _ _ hne]
    exact congrArg Quad.prevSeq (quad_modQuad _ _ _)
  next => exact ⟨congrArg Quad.prevSeq (quad_modQuad _ _ _), rfl, fun _ => rfl⟩

theorem exec_tickBlock {s : State} {l : Nat} (h : s.laneLive l = true) (seq : Byte) :
    exec (.tickBlock l seq) s = .next (tickBlockDo l seq s) := if_pos h

theorem tickCopyCame_iff (s : State) (o : Nat) (seq : Byte) : s.tickCopyCame o seq = true ↔ (o, seq) ∈ s.adit.tickSeqs := by
  simp only [State.tickCopyCame, List.any_eq_true, Bool.and_eq_true, beq_iff_eq]
  exact ⟨fun ⟨p, hp, h1, h2⟩ => by rw [← h1, ← h2]; exact hp, fun h => ⟨_, h, rfl, rfl⟩⟩

/-- Settles O35: the loss of a lane and its return, then the three cases of a TICK block. -/
theorem laneLossAndTickBlocks : Obligations.LaneLossAndTickBlocks := by
  refine ⟨fun l s hl hup henable => ?loss, fun l s hl hup hretired henable => ?back, fun l seq s h => ?tick⟩
  case loss =>
    have hexec : exec (.laneLosesLock l) s = .next (laneLosesLockDo l s) := if_pos (by simp [hl, hup, henable])
    rw [hexec]
    exact answers_next (laneLosesLockDo_fields hl s)
  case back =>
    have hexec : exec (.laneRegainsLock l) s = .next (laneRegainsLockDo l s) := if_pos (by simp [hl, hup, hretired, henable])
    obtain ⟨hseq, hmem, hlane⟩ := forgetSeq_fields (s.modLane l (fun x => { x with up := true })) (l / 4)
    rw [hexec]
    refine answers_next ⟨?_, hseq, hmem, fun x hx => ?_⟩
    · rw [laneRegainsLockDo, hlane, lane_modLane]
    · rw [laneRegainsLockDo, hlane, lane_modLane_other _ _ _ _ hx]
  case tick =>
    refine ⟨fun hmirror => ?_, fun o hmirror hfirst => ?_, fun o hmirror hcopy => ?_⟩
    · rw [exec_tickBlock h, tickBlockDo, hmirror]
      exact answers_next ⟨scheduleTick_adit _ _ _, fun d hd => dueTicks_scheduleTick _ _ _ _ hd⟩
    · have hnone : ¬s.tickCopyCame o seq = true := fun hcame => hfirst _ ((tickCopyCame_iff s o seq).1 hcame) rfl
      rw [exec_tickBlock h, tickBlockDo, hmirror]
      dsimp only
      rw [if_neg hnone]
      refine answers_next ⟨?_, fun d hd => dueTicks_scheduleTick _ _ _ _ hd⟩
      rw [scheduleTick_adit]
      exact List.mem_append_right _ (List.mem_singleton.2 rfl)
    · rw [exec_tickBlock h, tickBlockDo, hmirror]
      dsimp only
      rw [if_pos ((tickCopyCame_iff s o seq).2 hcopy)]
      refine answers_next ⟨?_, rfl⟩
      change (o, seq) ∉ s.adit.tickSeqs.filter _
      rw [List.mem_filter]
      exact fun hmem => absurd hmem.2 (by simp)

end Sys2Proof.Machine

/-! PROOFS. The mirrored pair: an event that is lost is counted where the lane counts a CRC difference. -/

namespace Sys2Proof.Machine

/-- The window of lane 0's mirrored frame is over, and neither copy came. The lane feeds riddle block 0, whose input FIFO is
full and whose claim is number 427, with no room for one more event: the counter of the events it has lost lies where lane
0 counts the differences of its pair. -/
def lossyPair : State :=
  let w : RWordIn := { data := 0, valid := 0, sof := false, eof := false, err := false, chid := 0 }
  { State.reset with
    adit := { State.reset.adit with mirrors := [{ lane := 0, chan := 0, seq := 0, endsAt := 0 }], quads := [(0, { bypass := false })] }
    riddle := { State.reset.riddle with blocks := [(0, { loaded := true, claim := 427, inFifo := [(0, List.replicate 1024 w)] })] }
    host := { State.reset.host with rings := [(16 * 427 + 15, { entries := 1024 })], claims := [(427, { held := List.replicate 64 0 })] } }

/-- The end of the window loses the event of the full FIFO. -/
theorem lossyPair_counter {u : State} (h : exec (.mirrorWindowEnd 0) lossyPair = .next u) :
    u.counterAt (ctrOff 7 0 6) ≠ lossyPair.counterAt (ctrOff 7 0 6) := by
  have hcount : (match exec (.mirrorWindowEnd 0) lossyPair with
      | .next u => decide (u.counterAt (ctrOff 7 0 6) ≠ lossyPair.counterAt (ctrOff 7 0 6))
      | _ => true) = true := by decide +kernel
  rw [h] at hcount
  exact of_decide_eq_true hcount

/-- Refutes O36: no copy came, so no CRCs differ, and yet the counter of the pair's differences goes up. -/
theorem not_ethernetAndMirroredLanes : ¬ Obligations.EthernetAndMirroredLanes := by
  rintro ⟨-, hwindow⟩
  obtain ⟨u, hu, -, -, hsame⟩ := hwindow 0 0 { lane := 0, chan := 0, seq := 0, endsAt := 0 } lossyPair (by decide +kernel)
  exact lossyPair_counter hu (hsame (by simp))

end Sys2Proof.Machine

/-! PROOFS. Frames that arrive, and the entries that leave ingest (R21, R25, R30). -/

namespace Sys2Proof.Machine

/-! ## Pipelines -/

theorem pipe?_modPipe (s : State) (p : Nat) (f : Pipe → Pipe) : (s.modPipe p f).pipe? p = (s.pipe? p).map f := by
  unfold State.modPipe State.pipe?
  split
  next x hx => rw [look_put_same, hx]; rfl
  next hx => rw [hx]; rfl

/-- Pipeline p runs and has seen a frame of channel ch in this shift. -/
def State.Registered (p ch : Nat) (u : State) : Prop := ∃ y, u.pipe? p = some y ∧ ch ∈ y.seen

theorem State.Registered.of_pipes {p ch : Nat} {s u : State} (h : s.Registered p ch) (hp : u.pipes = s.pipes) : u.Registered p ch := by
  obtain ⟨y, hy, hch⟩ := h
  exact ⟨y, by rw [State.pipe?, hp]; exact hy, hch⟩

theorem State.Registered.modPipe {p ch : Nat} {s : State} (h : s.Registered p ch) (f : Pipe → Pipe) (hf : ∀ y, (f y).seen = y.seen) :
    (s.modPipe p f).Registered p ch := by
  obtain ⟨y, hy, hch⟩ := h
  exact ⟨f y, by rw [pipe?_modPipe, hy]; rfl, by rw [hf]; exact hch⟩

theorem registered_seen {s : State} {p : Nat} {x : Pipe} (ch : Nat) (h : s.pipe? p = some x) :
    (s.modPipe p (fun y => { y with seen := ch :: y.seen })).Registered p ch :=
  ⟨_, by rw [pipe?_modPipe, h]; rfl, List.mem_cons_self⟩

theorem replaceCopies_pipes (s : State) (claim cva : Nat) : (s.replaceCopies claim cva).pipes = s.pipes := by
  unfold State.replaceCopies
  refine foldl_keeps (fun u => u.pipes = s.pipes) _ (fun u n hu => ?_) _ _ rfl
  dsimp only
  split
  · split
    · exact hu
    · exact hu
  · exact hu

theorem holdWrite_pipes (s : State) (k lo : Nat) (bs : List Byte) : (s.holdWrite k lo bs).pipes = s.pipes := by
  unfold State.holdWrite
  refine foldl_keeps (fun u => u.pipes = s.pipes) _ (fun u n hu => ?_) _ _ rfl
  split
  · rw [writeBytes_pipes, hu]
  · exact hu

theorem State.Registered.holdTake {p ch : Nat} {s : State} (h : s.Registered p ch) (x : Pipe) (k n : Nat) :
    (s.holdTake p x k n).1.Registered p ch := by
  unfold State.holdTake
  extract_lets size lo hh streams lostCopies hit lostFrames s1 s2 lost s2' s3
  have h2 : s2.Registered p ch := (h.of_pipes rfl : s1.Registered p ch).modPipe _ (fun _ => rfl)
  have h2' : s2'.Registered p ch := by
    unfold s2'
    split
    · split
      · exact h2
      · exact h2.of_pipes (replaceCopies_pipes _ _ _)
    · exact h2
  have h3 : s3.Registered p ch :=
    foldl_keeps (State.Registered p ch) _ (fun u _ hu => hu.of_pipes (raise_pipes _ _ _)) _ _ h2'
  exact h3.of_pipes (by simp [State.countPipe])

/-- A frame that a registered pipeline takes in is among its frames. -/
theorem State.Registered.addFrame {p ch : Nat} {s : State} (h : s.Registered p ch) (f : Frame) :
    ∃ y, (s.addFrame p f).pipe? p = some y ∧ f ∈ y.frames ∧ ch ∈ y.seen := by
  obtain ⟨y, hy, hch⟩ := h
  exact ⟨{ y with frames := y.frames ++ [f] }, by rw [State.addFrame, pipe?_modPipe, hy]; rfl, by simp, hch⟩

/-! ## FRAME_ARRIVAL -/

/-- A complete frame of channel ch, number n, that the A-tile does not scatter and for which there is credit, is among the
frames of its pipeline. -/
theorem acceptFrame_frame {s : State} {p : Nat} {x : Pipe} {ch n : Nat} {a : Arriving} (hx : s.pipe? p = some x)
    (hcomplete : a.complete = true) (hcut : a.cut = false) (hmode : (s.channelTile x.image ch).mode ≠ 2)
    (hroom : (s.image x.image).realtime = true
      ∨ ∀ k, s.hwSkip x.image 1 ch = some k → s.ingestOwed x k + (s.skip k).cfg.pushRate ≤ (s.skip k).creditAll) :
    ∃ y f, (s.acceptFrame p x ch n a).pipe? p = some y ∧ f ∈ y.frames ∧ ch ∈ y.seen ∧ f.channel = ch ∧ f.number = n
      ∧ f.complete = true ∧ f.payload = a.payload ∧ f.pushed = a.pushed := by
  unfold State.acceptFrame
  extract_lets complete payload img at_ ai ati fc lacking s0 partial_ s1 hs s2
  have hlacking : ¬ (!img.realtime && lacking) = true := by
    rcases hroom with hrt | hcredit
    · simp [img, hrt]
    · have : lacking = false := by
        unfold lacking
        split
        next k hk => simpa using hcredit k hk
        next => rfl
      simp [this]
  have hc : ¬ (!complete) = true := by simp [complete, hcomplete, hcut]
  have hm : ati.mode ≠ 2 := hmode
  have h1 : s1.Registered p ch := by
    refine (registered_seen ch hx).of_pipes ?_
    unfold s1 State.dueEntries
    split <;> rfl
  have h2 : s2.Registered p ch := by
    unfold s2
    rw [if_neg hm]
    exact h1
  rw [if_neg hlacking, if_neg hc, if_neg (fun h => hm h.1), if_neg (fun h => hm h.1)]
  split
  next k hk =>
    have h3 := (h2.holdTake x k (64 * ceilDiv payload.length 64)).of_pipes (holdWrite_pipes _ k
      (s2.holdTake p x k (64 * ceilDiv payload.length 64)).2 (padTo (64 * ceilDiv payload.length 64) payload))
    obtain ⟨y, hy, hf, hch⟩ := h3.addFrame
      { channel := ch, number := n, complete := true, payload := payload
        lo := (s2.holdTake p x k (64 * ceilDiv payload.length 64)).2, size := 64 * ceilDiv payload.length 64, pushed := a.pushed
        nextAt := fc + 1 }
    exact ⟨y, _, hy, hf, hch, rfl, rfl, rfl, rfl, rfl⟩
  next =>
    obtain ⟨y, hy, hf, hch⟩ := h2.addFrame
      { channel := ch, number := n, complete := true, payload := payload, held := false, pushed := a.pushed, nextAt := fc + 1 }
    exact ⟨y, _, hy, hf, hch, rfl, rfl, rfl, rfl, rfl⟩

theorem counterAt_countPipe (s : State) (p c : Nat) :
    (s.countPipe p c 1).counterAt (ctrOff 3 p c) = (s.counterAt (ctrOff 3 p c)).add 1 :=
  counterAt_count_same s 3 p c

/-- The counters of a pipeline lie below those of the claims. -/
theorem ctrOff_pipe_ne_lost {p c : Nat} (hp : p < 256) (hc : c < 8) (x : Nat) : ctrOff 3 p c ≠ ctrOff 5 x 4 := by
  simp only [ctrOff, ctrBase, ctrPer]
  omega

/-- Pipeline counters 2 and 5 are none of a channel's counters 1 and 0. -/
theorem ctrOff_pipe_ne_channel {p c i e : Nat} (hodd : c % 2 ≠ e % 2) : ctrOff 3 p c ≠ ctrOff 4 i e := by
  simp only [ctrOff, ctrBase, ctrPer]
  omega

theorem exec_frameArrival {l i : Nat} {a : Arriving} {s : State} (h : arrivalOf l s = some (i, a)) :
    exec (.frameArrival l) s = .next (frameArrivalDo l s) := by
  show whenDue _ _ = _
  rw [h]
  rfl

/-- A frame that no pipeline takes. -/
theorem frameArrivalDo_lost {l i : Nat} {a : Arriving} {s : State} (h : arrivalOf l s = some (i, a))
    (hlost : a.target = none ∨ ∃ p ch, a.target = some (p, ch) ∧ (s.pipe? p = none ∨ (s.dom (p / 32)).enable = false)) :
    frameArrivalDo l s = (s.modAdit (fun x => { x with arriving := dropAt x.arriving i })).countLane l 7 1 := by
  unfold frameArrivalDo
  rw [h]
  dsimp only
  rcases hlost with hnone | ⟨p, ch, ht, hp | hoff⟩
  · rw [hnone]
  · rw [ht]
    have : (s.modAdit (fun x => { x with arriving := dropAt x.arriving i })).pipe? p = none := hp
    simp only [this]
  · rw [ht]
    have : ((s.modAdit (fun x => { x with arriving := dropAt x.arriving i })).dom (p / 32)).enable = false := hoff
    simp only [this]
    split <;> rfl

/-- A frame for a pipeline that runs, of a domain that is on. -/
theorem frameArrivalDo_bound {l i p ch : Nat} {a : Arriving} {x : Pipe} {s : State} (h : arrivalOf l s = some (i, a))
    (ht : a.target = some (p, ch)) (hx : s.pipe? p = some x) (hon : (s.dom (p / 32)).enable = true) :
    frameArrivalDo l s =
      if !x.accepts (s.frameNumber (p / 32)) then (s.modAdit (fun x => { x with arriving := dropAt x.arriving i })).countPipe p 2 1
      else if x.seen.contains ch then
        ((((s.modAdit (fun x => { x with arriving := dropAt x.arriving i })).raise Ev.frameOverrun (pipeEv p x)).countChannel p ch 1)).countPipe p 2 1
      else (s.modAdit (fun x => { x with arriving := dropAt x.arriving i })).acceptFrame p x ch (s.frameNumber (p / 32)) a := by
  unfold frameArrivalDo
  rw [h]
  dsimp only
  rw [ht]
  have hx' : (s.modAdit (fun x => { x with arriving := dropAt x.arriving i })).pipe? p = some x := hx
  have hon' : ((s.modAdit (fun x => { x with arriving := dropAt x.arriving i })).dom (p / 32)).enable = true := hon
  simp only [hx', hon', Bool.not_true, Bool.false_eq_true, if_false]
  rfl

/-- A second frame of a channel in a shift. -/
theorem overrun_counter {s : State} {p ch : Nat} {e : EvArgs} (hp : p < 256) :
    (((s.raise Ev.frameOverrun e).countChannel p ch 1).countPipe p 2 1).counterAt (ctrOff 3 p 2) = (s.counterAt (ctrOff 3 p 2)).add 1 := by
  rw [counterAt_countPipe, State.countChannel, counterAt_count _ _ _ _ _ _ (ctrOff_pipe_ne_channel (by decide)),
    counterAt_raise _ _ _ _ (ctrOff_pipe_ne_lost hp (by decide))]

/-! ## INGEST_PUSH and ZERO_FILL_PUSH -/

/-- What the push of entry i of a frame of channel ch into skip k changes, and what it does not. -/
theorem pushIngest_fields (s : State) (p k ch i : Nat) (data : Line) :
    ((s.pushIngest p k ch i data).skip k).effective = (s.skip k).effective + 1
      ∧ (s.pushIngest p k ch i data).mem = s.mem ∧ (s.pushIngest p k ch i data).pipes = s.pipes
      ∧ (s.pushIngest p k ch i data).adit = s.adit
      ∧ (∀ j, j ≠ k → (s.pushIngest p k ch i data).skip j = s.skip j)
      ∧ ∃ e : Entry, ((s.pushIngest p k ch i data).skip k).fly = (s.skip k).fly ++ [e] ∧ e.miss = false
          ∧ e.bytes = (s.skip k).cfg.width ∧ e.data = data := by
  have hcredit : ∀ y : Skip, (y.useCredit 1 72).fly = y.fly := fun y => by unfold Skip.useCredit; split <;> rfl
  unfold State.pushIngest
  extract_lets x h ai due seq e s1
  have hk : s1.skip k = _ := skip_modSkip s k _
  refine ⟨?_, by rw [count_mem]; rfl, by rw [count_pipes]; rfl, by rw [count_adit]; rfl, fun j hj => ?_, e, ?_, rfl, rfl, rfl⟩
  · rw [skip_count, hk]
  · rw [skip_count]
    exact skip_modSkip_other s k j _ hj
  · rw [skip_count, hk, ← hcredit (s.skip k)]

/-- The same of the next entry of a frame that has arrived. -/
theorem pushFrameEntry_fields (s : State) (p k : Nat) (f : Frame) (data : Line) :
    ((s.pushFrameEntry p k f data).skip k).effective = (s.skip k).effective + 1
      ∧ (s.pushFrameEntry p k f data).mem = s.mem ∧ (s.pushFrameEntry p k f data).adit = s.adit
      ∧ (∀ j, j ≠ k → (s.pushFrameEntry p k f data).skip j = s.skip j)
      ∧ ∃ e : Entry, ((s.pushFrameEntry p k f data).skip k).fly = (s.skip k).fly ++ [e] ∧ e.miss = false
          ∧ e.bytes = (s.skip k).cfg.width ∧ e.data = data := by
  obtain ⟨heff, hmem, -, hadit, hother, hfly⟩ := pushIngest_fields s p k f.channel f.pushed data
  have hskip : ∀ j, (s.pushFrameEntry p k f data).skip j = (s.pushIngest p k f.channel f.pushed data).skip j := fun j => by
    rw [State.pushFrameEntry, State.skip, modPipe_skips]
    rfl
  refine ⟨by rw [hskip, heff], ?_, ?_, fun j hj => by rw [hskip, hother j hj], by rw [hskip]; exact hfly⟩
  · rw [State.pushFrameEntry, modPipe_mem, hmem]
  · rw [State.pushFrameEntry, modPipe_adit, hadit]

/-- A real-time frame that lacks credit becomes incomplete, and its zero fill begins. -/
theorem ingestOverflow_fields (s : State) (q : Nat) (f : Frame) :
    (s.ingestOverflow q f).skips = s.skips ∧ (s.ingestOverflow q f).mem = s.mem
      ∧ (s.ingestOverflow q f).counterAt (ctrOff 3 q 5) = (s.counterAt (ctrOff 3 q 5)).add 1
      ∧ ∀ y, (s.ingestOverflow q f).pipe? q = some y → ∀ g ∈ y.frames, g.channel = f.channel → g.number = f.number →
          g.complete = false ∧ g.fill = true := by
  unfold State.ingestOverflow
  extract_lets h ai s1
  refine ⟨?_, ?_, ?_, fun y hy g hg hch hn => ?_⟩
  · simp [s1, State.countChannel, State.countPipe]
  · simp [s1, State.countChannel, State.countPipe]
  · have hdbg : ∀ v : State, ∀ g : Pipe → Pipe, (v.modPipe q g).counterAt (ctrOff 3 q 5) = v.counterAt (ctrOff 3 q 5) := fun v g => by
      rw [State.counterAt, modPipe_dbg]
      rfl
    rw [hdbg]
    show ((s.countPipe q 5 1).countChannel q f.channel 0).counterAt (ctrOff 3 q 5) = _
    rw [State.countChannel, counterAt_count _ _ _ _ _ _ (ctrOff_pipe_ne_channel (by decide)), counterAt_countPipe]
  · rw [pipe?_modPipe] at hy
    obtain ⟨z, -, rfl⟩ := Option.map_eq_some_iff.1 hy
    obtain ⟨g0, -, rfl⟩ := List.mem_map.1 hg
    by_cases hsame : (g0.channel == f.channel && g0.number == f.number) = true
    · rw [if_pos hsame]
      exact ⟨rfl, rfl⟩
    · rw [if_neg hsame] at hch hn
      exact absurd (by simp [hch, hn]) hsame

theorem ingestPushDo_data {d p c k : Nat} {f : Frame} {s : State} (h : s.dataDue (32 * d + p) c false = some (k, f, true)) :
    ingestPushDo d p c s = s.pushFrameEntry (32 * d + p) k f
      (s.frameEntry (((s.pipe? (32 * d + p)).map Pipe.image).getD 0) c f.payload f.pushed (s.skip k).cfg.width) := by
  unfold ingestPushDo
  simp only [h]

theorem ingestPushDo_overflow {d p c k : Nat} {f : Frame} {s : State} (h : s.dataDue (32 * d + p) c false = some (k, f, false)) :
    ingestPushDo d p c s = s.ingestOverflow (32 * d + p) f := by
  unfold ingestPushDo
  simp only [h]

theorem ingestPushDo_early {d p c : Nat} {s : State} (h : s.dataDue (32 * d + p) c false = none) :
    ingestPushDo d p c s = s.pushEarly (32 * d + p) c := by
  unfold ingestPushDo
  simp only [h]

theorem zeroFillPushDo_due {d p c k : Nat} {f : Frame} {s : State} (h : s.fillDueOf (32 * d + p) c = some (k, f)) :
    zeroFillPushDo d p c s = s.pushFrameEntry (32 * d + p) k f 0 := by
  unfold zeroFillPushDo
  simp only [h]

theorem exec_ingestPush {d p c : Nat} {s : State} (hp : p < 32)
    (hdue : (s.dataDue (32 * d + p) c false).isSome = true ∨ (s.earlyDue (32 * d + p) c).isSome = true) :
    exec (.ingestPush d p c) s = .next (ingestPushDo d p c s) := by
  show whenDue _ _ = _
  have hok : (decide (p < 32) && ((s.dataDue (32 * d + p) c false).isSome || (s.earlyDue (32 * d + p) c).isSome)) = true := by
    simp only [hp, decide_true, Bool.true_and, Bool.or_eq_true]
    exact hdue
  rw [hok]
  rfl

/-- The frame that an entry goes to is the one that the scan found. -/
theorem earlyDue_arriving {s : State} {q c k i : Nat} {a : Arriving} {credit : Bool} (h : s.earlyDue q c = some (k, i, a, credit)) :
    s.adit.arriving[i]? = some a := by
  unfold State.earlyDue at h
  split at h
  · exact nomatch h
  · split at h
    next hcoming =>
      dsimp only at h
      split at h
      · simp only [Option.some.injEq, Prod.mk.injEq] at h
        obtain ⟨-, rfl, rfl, -⟩ := h
        exact findAt_some hcoming
      · exact nomatch h
    · exact nomatch h

/-- An entry that leaves ahead of its frame's last bit. -/
theorem pushEarly_fields {s : State} {q c k i : Nat} {a : Arriving} (h : s.earlyDue q c = some (k, i, a, true)) :
    ((s.pushEarly q c).skip k).effective = (s.skip k).effective + 1 ∧ (s.pushEarly q c).mem = s.mem
      ∧ (s.pushEarly q c).pipes = s.pipes
      ∧ (∃ e : Entry, ((s.pushEarly q c).skip k).fly = (s.skip k).fly ++ [e] ∧ e.miss = false
          ∧ e.data = s.frameEntry (((s.pipe? q).map Pipe.image).getD 0) c a.payload a.pushed (s.skip k).cfg.width)
      ∧ (i < s.adit.arriving.length → ((s.pushEarly q c).adit.arriving[i]?).map Arriving.pushed = some (a.pushed + 1)) := by
  obtain ⟨heff, hmem, hpipes, hadit, -, e, hfly, hmiss, -, hdata⟩ := pushIngest_fields s q k c a.pushed
    (s.frameEntry (((s.pipe? q).map Pipe.image).getD 0) c a.payload a.pushed (s.skip k).cfg.width)
  unfold State.pushEarly
  rw [h]
  refine ⟨heff, hmem, hpipes, ⟨e, hfly, hmiss, hdata⟩, fun hi => ?_⟩
  show (((State.pushIngest _ _ _ _ _ _).adit.arriving.set i _)[i]?).map _ = _
  rw [hadit, List.getElem?_set_self hi]
  rfl

/-- Settles O37: each clause is the branch of FRAME_ARRIVAL, INGEST_PUSH or ZERO_FILL_PUSH that its premises choose. -/
theorem framesAreNumberedAndIngested : Obligations.FramesAreNumberedAndIngested := by
  refine ⟨fun l i a s harrival => ⟨fun hlost => ?_, fun p ch x ht hx hp hon => ?_⟩, fun d p c k f s hp => ?_⟩
  · refine ⟨_, exec_frameArrival harrival, ?_⟩
    rw [frameArrivalDo_lost harrival hlost]
    exact ⟨by simp [State.countLane], counterAt_count_same _ 7 l 7, by simp [State.countLane]⟩
  · intro n
    have hdo := frameArrivalDo_bound harrival ht hx hon
    refine ⟨fun hrefused => ⟨_, exec_frameArrival harrival, ?_⟩, fun haccepted hseen => ⟨_, exec_frameArrival harrival, ?_⟩,
      fun haccepted hfirst hcomplete hcut hmode hroom => ⟨_, exec_frameArrival harrival, ?_⟩⟩
    · rw [hdo, if_pos (by simpa using hrefused)]
      exact ⟨by simp [State.countPipe], counterAt_countPipe _ p 2, by simp [State.countPipe]⟩
    · rw [hdo, if_neg (by simpa using haccepted), if_pos hseen]
      refine ⟨by simp [State.countPipe, State.countChannel], overrun_counter hp, ?_⟩
      simp [State.countPipe, State.countChannel]
    · rw [hdo, if_neg (by simpa using haccepted), if_neg (by simpa using hfirst)]
      exact acceptFrame_frame hx hcomplete hcut hmode hroom
  · intro q h
    refine ⟨fun hdue => ?_, fun hdue => ?_, fun i a hnone hearly => ?_, fun hfill => ?_⟩
    · refine ⟨_, exec_ingestPush hp (.inl (by rw [hdue]; rfl)), ?_⟩
      rw [ingestPushDo_data hdue]
      obtain ⟨heff, hmem, -, hother, hfly⟩ := pushFrameEntry_fields s q k f
        (s.frameEntry h c f.payload f.pushed (s.skip k).cfg.width)
      exact ⟨heff, hmem, hother, hfly⟩
    · refine ⟨_, exec_ingestPush hp (.inl (by rw [hdue]; rfl)), ?_⟩
      rw [ingestPushDo_overflow hdue]
      exact ingestOverflow_fields s q f
    · refine ⟨_, exec_ingestPush hp (.inr (by rw [hearly]; rfl)), ?_⟩
      rw [ingestPushDo_early hnone]
      exact pushEarly_fields hearly
    · refine ⟨zeroFillPushDo d p c s, ?_, ?_⟩
      · show whenDue _ _ = _
        rw [decide_eq_true hp, hfill]
        rfl
      · obtain ⟨heff, hmem, -, -, e, hfly, -, -, hdata⟩ := pushFrameEntry_fields s q k f 0
        rw [zeroFillPushDo_due hfill]
        exact ⟨heff, hmem, e, hfly, hdata⟩

end Sys2Proof.Machine

/-! PROOFS. Scatter tiles that drain, and transmit packets (R259, R271). -/

namespace Sys2Proof.Machine

/-! ## SCATTER_DRAIN -/

theorem pushFrameEntry_atile (s : State) (p k : Nat) (f : Frame) (data : Line) (a : Nat) :
    (s.pushFrameEntry p k f data).atile a = s.atile a := by
  obtain ⟨-, -, hadit, -⟩ := pushFrameEntry_fields s p k f data
  rw [State.atile, hadit]
  rfl

theorem atile_modAtile (s : State) (a : Nat) (f : ATile → ATile) : (s.modAtile a f).atile a = f (s.atile a) :=
  lookD_put_same _ _ _ _

theorem exec_scatterDrain {a : Nat} {s : State} (ha : a < 48) (h : (s.drainDue a).isSome = true) :
    exec (.scatterDrain a) s = .next (scatterDrainDo a s) := by
  show whenDue _ _ = _
  rw [h, decide_eq_true ha]
  rfl

theorem scatterDrainDo_push {a p ch k : Nat} {f : Frame} {bs : List Byte} {s : State}
    (h : s.drainDue a = some (p, ch, k, f, true, bs)) :
    scatterDrainDo a s = (s.pushFrameEntry p k f (bytesLine (padTo 64 (bs.take (s.skip k).cfg.width)))).modAtile a (fun y => { y with
      nextAt := s.rowFc (atilePos a) + 1
      buffers := if decide ((s.skip k).cfg.pushRate ≤ f.pushed + 1)
        then y.buffers.filter (fun b => !(b.1 == p && b.2.1 == ch && b.2.2.1 == f.number))
        else y.buffers.map (fun b => if b.1 == p && b.2.1 == ch && b.2.2.1 == f.number
          then (b.1, b.2.1, b.2.2.1, bs.drop (s.skip k).cfg.width) else b) }) := by
  unfold scatterDrainDo
  rw [h]

theorem scatterDrainDo_overflow {a p ch k : Nat} {f : Frame} {bs : List Byte} {s : State}
    (h : s.drainDue a = some (p, ch, k, f, false, bs)) : scatterDrainDo a s = s.ingestOverflow p f := by
  unfold scatterDrainDo
  rw [h]

/-! ## TRANSMIT_PACKET: the words that leave -/

theorem packetOf_prefix {l ws : List RWord} (h : packetOf l = some ws) : l.take ws.length = ws := by
  induction l generalizing ws with
  | nil => exact nomatch h
  | cons w l ih =>
    rw [packetOf] at h
    split at h
    · obtain rfl := Option.some.inj h
      rfl
    · obtain ⟨r, hr, rfl⟩ := Option.map_eq_some_iff.1 h
      simp [ih hr]

/-- The fields of a skip that words which leave it at once change, and its configuration. -/
def Skip.outflow (k : Skip) : SkipCfg × List RWord × List RWord × List (Nat × Nat) := (k.cfg, k.words, k.consumed, k.creditFly)

theorem outflow_consume (k : Skip) (n fc : Nat) :
    (k.consume n fc).outflow = (k.cfg, k.words.drop n, k.consumed ++ k.words.take n, k.creditFly) := by
  rw [Skip.consume, refill_eq, touch_eq]
  rfl

/-- What n words that leave skip k of s at once give its producer. -/
def State.takenOut (s : State) (k n : Nat) : State :=
  (s.modSkip k (fun x => x.consume n (s.skipFc k))).releaseWords k n

theorem producerFc_modSkip (s : State) (k : Nat) (f : Skip → Skip) (hcfg : (f (s.skip k)).cfg = (s.skip k).cfg) :
    (s.modSkip k f).producerFc k = s.producerFc k := by
  unfold State.producerFc State.skipFc State.skipPos
  rw [skip_modSkip, hcfg]
  rfl

theorem outflow_sendCredit (k : Skip) (amount fc : Nat) (h : 0 < amount) :
    (k.sendCredit amount fc).outflow = (k.cfg, k.words, k.consumed, k.creditFly ++ [(amount, fc + k.cfg.routeLatency + 2)]) := by
  rw [Skip.sendCredit, if_neg (by omega)]
  rfl

theorem words_sendCredit (k : Skip) (amount fc : Nat) : (k.sendCredit amount fc).words = k.words := by
  unfold Skip.sendCredit
  split <;> rfl

theorem takenOut_kept (s : State) (k n : Nat) :
    (s.takenOut k n).mem = s.mem ∧ (s.takenOut k n).adit = s.adit ∧ (s.takenOut k n).free = s.free ∧ (s.takenOut k n).out = s.out :=
  ⟨rfl, rfl, rfl, rfl⟩

theorem takenOut_words (s : State) (k n : Nat) : ((s.takenOut k n).skip k).words = (s.skip k).words.drop n := by
  unfold State.takenOut State.releaseWords
  rw [skip_modSkip]
  dsimp only
  rw [words_sendCredit, Skip.countReleased, skip_modSkip]
  exact congrArg (·.2.1) (outflow_consume (s.skip k) n _)

/-- The credit of the words goes back to the producer. -/
theorem takenOut_credit {s : State} {k : Nat} {ws : List RWord} (hws : (s.skip k).words.take ws.length = ws)
    (hnone : (s.skip k).consumed = []) (hback : 0 < (ws.map (s.skip k).wordCredit).foldl (· + ·) 0) :
    ((s.takenOut k ws.length).skip k).consumed = []
      ∧ ((s.takenOut k ws.length).skip k).creditFly = (s.skip k).creditFly
          ++ [((ws.map (s.skip k).wordCredit).foldl (· + ·) 0, s.producerFc k + (s.skip k).cfg.routeLatency + 2)] := by
  have hout := outflow_consume (s.skip k) ws.length (s.skipFc k)
  rw [hws, hnone, List.nil_append] at hout
  simp only [Skip.outflow, Prod.mk.injEq] at hout
  obtain ⟨hcfg, -, hconsumed, hfly⟩ := hout
  have hcredit : ∀ w, ((s.skip k).consume ws.length (s.skipFc k)).wordCredit w = (s.skip k).wordCredit w := fun w => by
    unfold Skip.wordCredit
    rw [hcfg]
  have htaken : ((s.takenOut k ws.length).skip k).outflow = ((s.skip k).cfg, (s.skip k).words.drop ws.length, [], (s.skip k).creditFly
      ++ [((ws.map (s.skip k).wordCredit).foldl (· + ·) 0, s.producerFc k + (s.skip k).cfg.routeLatency + 2)]) := by
    unfold State.takenOut State.releaseWords
    rw [skip_modSkip, skip_modSkip, producerFc_modSkip s k _ hcfg]
    dsimp only
    rw [hconsumed, List.take_length, funext hcredit, outflow_sendCredit _ _ _ hback]
    simp only [Skip.countReleased, List.drop_length, hcfg, hfly]
    exact congrArg (fun w => ((s.skip k).cfg, w, _, _)) (congrArg (·.2.1) (outflow_consume (s.skip k) ws.length _))
  simp only [Skip.outflow, Prod.mk.injEq] at htaken
  exact ⟨htaken.2.2.1, htaken.2.2.2⟩

/-! ## TRANSMIT_PACKET: the frame that leaves -/

theorem sendFrame_raw (s : State) (n : Nat) (bs : List Byte) :
    (s.sendFrame false n bs).out = .rawFrame n (BitVec.ofNat 16 (fieldLE bs 0 2)) (BitVec.ofNat 32 (fieldLE bs 2 4)) (bs.drop 8)
      (BitVec.ofNat 32 (crc32 (bs.drop 8))) (driftBlocks (fieldLE bs 0 2) (fieldLE bs 2 4) (crc32 (bs.drop 8)) (bs.drop 8)) :: s.out := rfl

/-- A frame that fits one datagram. -/
theorem datagrams_single (chan seq crc room n : Nat) (all : List Byte) (h : all.length ≤ room) :
    datagrams chan seq crc room all (n + 1) 0 =
      [natLE 2 chan ++ [3, 0] ++ natLE 4 seq ++ natLE 4 0 ++ natLE 4 crc ++ all] := by
  have hpart : (all.drop 0).take (max room 1) = all := List.take_of_length_le (by simp; omega)
  rw [datagrams]
  simp only [hpart, Nat.zero_add, le_refl, if_true]
  rfl

theorem sendFrame_eth (s : State) (n : Nat) (bs : List Byte) (h : bs.length ≤ 8 + datagramRoom (s.ethPort n)) :
    (s.sendFrame true n bs).out = .ethFrame n (ethFrameOf (s.ethPort n) s.drawn (natLE 2 (fieldLE bs 0 2) ++ [3, 0]
      ++ natLE 4 (fieldLE bs 2 4) ++ natLE 4 0 ++ natLE 4 (crc32 (bs.drop 8)) ++ bs.drop 8)) :: s.out := by
  have hroom : (bs.drop 8).length ≤ datagramRoom (s.ethPort n) := by rw [List.length_drop]; omega
  rw [State.sendFrame, if_pos rfl, datagrams_single _ _ _ _ _ _ hroom]
  rfl

/-- A frame that leaves changes what has left and the free value alone. -/
theorem sendFrame_kept (s : State) (eth : Bool) (n : Nat) (bs : List Byte) :
    (s.sendFrame eth n bs).mem = s.mem ∧ (s.sendFrame eth n bs).skips = s.skips := by
  unfold State.sendFrame
  extract_lets chan seq payload crc x
  split
  · refine foldl_keeps (fun u => u.mem = s.mem ∧ u.skips = s.skips) _ (fun _ _ h => ?_) _ _ ⟨rfl, rfl⟩
    exact h
  · exact ⟨rfl, rfl⟩

/-- The frame of a packet whose words have left skip k. -/
theorem sentPacket (s : State) (eth : Bool) (n k m : Nat) (bs : List Byte) :
    let u := ((s.takenOut k m).modAdit (fun a => { a with txOpen := del a.txOpen k })).sendFrame eth n bs
    u.mem = s.mem ∧ u.skips = (s.takenOut k m).skips
      ∧ (eth = false → u.out = .rawFrame n (BitVec.ofNat 16 (fieldLE bs 0 2)) (BitVec.ofNat 32 (fieldLE bs 2 4)) (bs.drop 8)
        (BitVec.ofNat 32 (crc32 (bs.drop 8))) (driftBlocks (fieldLE bs 0 2) (fieldLE bs 2 4) (crc32 (bs.drop 8)) (bs.drop 8)) :: s.out)
      ∧ (eth = true → bs.length ≤ 8 + datagramRoom (s.ethPort n) →
        u.out = .ethFrame n (ethFrameOf (s.ethPort n) s.drawn (natLE 2 (fieldLE bs 0 2) ++ [3, 0]
          ++ natLE 4 (fieldLE bs 2 4) ++ natLE 4 0 ++ natLE 4 (crc32 (bs.drop 8)) ++ bs.drop 8)) :: s.out) := by
  obtain ⟨hmem, hadit, hfree, hout⟩ := takenOut_kept s k m
  generalize s.takenOut k m = v at hmem hadit hfree hout ⊢
  obtain ⟨hsentMem, hsentSkips⟩ := sendFrame_kept (v.modAdit (fun a => { a with txOpen := del a.txOpen k })) eth n bs
  have hport : (v.modAdit (fun a => { a with txOpen := del a.txOpen k })).ethPort n = s.ethPort n := by
    unfold State.ethPort State.modAdit
    rw [hadit]
  have hdrawn : (v.modAdit (fun a => { a with txOpen := del a.txOpen k })).drawn = s.drawn := congrArg Config.freeBits hfree
  refine ⟨hsentMem.trans hmem, hsentSkips, ?_, ?_⟩
  · rintro rfl
    rw [sendFrame_raw, ← hout]
    rfl
  · rintro rfl hroom
    rw [sendFrame_eth _ _ _ (by rw [hport]; exact hroom), hport, hdrawn, ← hout]
    rfl

theorem exec_transmitPacket {eth : Bool} {n : Nat} {s : State} (hn : n < 64)
    (hlive : if eth then s.ethLive n = true ∧ (s.lane n).paused = false else (s.quad (n / 4)).enable = true ∧ (s.quad (n / 4)).mode = 0)
    (hpart : (s.txPart (txStreamSkip (eth, n))).isSome = true) :
    exec (.transmitPacket eth n) s = .next (transmitPacketDo eth n s) := by
  show whenDue _ _ = _
  have hok : transmitPacketOk eth n s = true := by
    unfold transmitPacketOk
    cases eth
    · simp_all
    · simp_all
  rw [hok]
  rfl

theorem transmitPacketDo_part {eth : Bool} {n : Nat} {s : State} {ws : List RWord} {last : Bool}
    (h : s.txPart (txStreamSkip (eth, n)) = some (ws, last)) :
    transmitPacketDo eth n s =
      if last then ((s.takenOut (txStreamSkip (eth, n)) ws.length).modAdit (fun a => { a with
          txOpen := del a.txOpen (txStreamSkip (eth, n)) })).sendFrame eth n
        (lookD s.adit.txOpen (txStreamSkip (eth, n)) [] ++ ws.flatMap (fun w => (lineBytes w.data).take w.valid))
      else (s.takenOut (txStreamSkip (eth, n)) ws.length).modAdit (fun a => { a with
        txOpen := put a.txOpen (txStreamSkip (eth, n))
          (lookD s.adit.txOpen (txStreamSkip (eth, n)) [] ++ ws.flatMap (fun w => (lineBytes w.data).take w.valid)) }) := by
  unfold transmitPacketDo
  simp only [h]
  rfl

/-- Settles O38: each clause is the branch of SCATTER_DRAIN or TRANSMIT_PACKET that its premises choose. -/
theorem scatterDrainsAndPacketsLeave : Obligations.ScatterDrainsAndPacketsLeave := by
  refine ⟨fun a p ch k f bs s ha => ⟨fun hdue => ?_, fun hdue => ?_⟩, fun eth n s hn hlive => ?_⟩
  · refine ⟨_, exec_scatterDrain ha (by rw [hdue]; rfl), ?_⟩
    rw [scatterDrainDo_push hdue]
    obtain ⟨heff, hmem, -, -, e, hfly, -, -, hdata⟩ := pushFrameEntry_fields s p k f
      (bytesLine (padTo 64 (bs.take (s.skip k).cfg.width)))
    intro w mine
    refine ⟨by rw [atile_modAtile], hmem, heff, ⟨e, hfly, hdata⟩, fun hlast b hb => ?_, fun hmore b hb hmine => ?_⟩
    · rw [atile_modAtile] at hb
      rw [if_pos (decide_eq_true hlast)] at hb
      have hkept := (List.mem_filter.1 hb).2
      rintro ⟨hp, hch, hnum⟩
      simp [hp, hch, hnum] at hkept
    · rw [atile_modAtile] at hb
      rw [if_neg (by simpa using hmore)] at hb
      obtain ⟨b0, -, rfl⟩ := List.mem_map.1 hb
      by_cases hsame : (b0.1 == p && b0.2.1 == ch && b0.2.2.1 == f.number) = true
      · rw [if_pos hsame]
      · rw [if_neg hsame] at hmine
        obtain ⟨hp, hch, hnum⟩ := hmine
        exact absurd (by simp [hp, hch, hnum]) hsame
  · refine ⟨_, exec_scatterDrain ha (by rw [hdue]; rfl), ?_⟩
    rw [scatterDrainDo_overflow hdue]
    obtain ⟨hskips, hmem, -, hframes⟩ := ingestOverflow_fields s p f
    exact ⟨hskips, hmem, hframes⟩
  · intro k
    refine ⟨fun ws hws => ?_, fun hnone hwords hcredit => ?_⟩
    · intro bs chan seq crc back
      have hpart : s.txPart k = some (ws, true) := by
        rw [State.txPart, hws]
      refine ⟨_, exec_transmitPacket hn hlive (by rw [hpart]; rfl), ?_⟩
      rw [transmitPacketDo_part hpart, if_pos rfl]
      obtain ⟨hmem, hskips, hraw, hethernet⟩ := sentPacket s eth n k ws.length bs
      have hskip : ∀ u : State, u.skips = (s.takenOut k ws.length).skips → u.skip k = (s.takenOut k ws.length).skip k := fun u hu => by
        rw [State.skip, hu]
        rfl
      refine ⟨?_, hmem, fun hempty hback => ?_, hraw, hethernet⟩
      · rw [hskip _ hskips, takenOut_words]
      · rw [hskip _ hskips]
        exact takenOut_credit (packetOf_prefix hws) hempty hback
    · have hpart : s.txPart k = some ((s.skip k).words, false) := by
        rw [State.txPart, hnone, if_neg (by simp [hwords, hcredit])]
      refine ⟨_, exec_transmitPacket hn hlive (by rw [hpart]; rfl), ?_⟩
      rw [transmitPacketDo_part hpart, if_neg Bool.false_ne_true]
      refine ⟨?_, rfl, rfl⟩
      show ((s.takenOut k (s.skip k).words.length).skip k).words = []
      rw [takenOut_words, List.drop_length]

end Sys2Proof.Machine

/-! PROOFS. The ports of a riddle block (R276, R279, R280). -/

namespace Sys2Proof.Machine

/-! ## The values of a block's signals -/

/-- The fields of a block that its signals read. -/
def RBlock.wired (b : RBlock) : List Byte × List Nat × List RMemory × Tab Nat × Tab RWordIn × List Nat :=
  (b.config, b.q, b.memories, b.outFill, b.inNow, b.tickPulse)

/-- The signals of every block have the same inputs in both states. -/
structure SameWires (s u : State) : Prop where
  blocks : ∀ q, (u.block q).wired = (s.block q).wired
  globals : u.riddle.globals = s.riddle.globals
  pairIn : u.riddle.pairIn = s.riddle.pairIn

theorem cfgByte_of_wired {b c : RBlock} (h : c.wired = b.wired) (o : Nat) : c.cfgByte o = b.cfgByte o :=
  congrArg (fun x => (x.getD o 0).toNat) (congrArg (·.1) h : c.config = b.config)

theorem cfg2_of_wired {b c : RBlock} (h : c.wired = b.wired) (o : Nat) : c.cfg2 o = b.cfg2 o := by
  unfold RBlock.cfg2
  rw [cfgByte_of_wired h, cfgByte_of_wired h]

theorem reg_of_wired {b c : RBlock} (h : c.wired = b.wired) (i : Nat) : c.reg i = b.reg i :=
  congrArg (fun x => x.contains i) (congrArg (·.2.1) h : c.q = b.q)

theorem cell_of_wired {b c : RBlock} (h : c.wired = b.wired) (i : Nat) : c.cell i = b.cell i := by
  unfold RBlock.cell
  simp only [cfgByte_of_wired h]

theorem hardSignal_of_wires {s u : State} (h : SameWires s u) (q i : Nat) : u.hardSignal q i = s.hardSignal q i := by
  have hwired := h.blocks q
  simp only [RBlock.wired, Prod.mk.injEq] at hwired
  obtain ⟨-, -, hmem, hfill, hin, hpulse⟩ := hwired
  unfold State.hardSignal
  simp only [hmem, hfill, hin, hpulse, h.pairIn]

theorem comb_term_of_wires {s u : State} (h : SameWires s u) (n : Nat) :
    (∀ q i, u.comb n q i = s.comb n q i) ∧ ∀ q c p, u.term n q c p = s.term n q c p := by
  induction n with
  | zero => exact ⟨fun _ _ => by rw [State.comb, State.comb], fun _ _ _ => by rw [State.term, State.term]⟩
  | succ n ih =>
    obtain ⟨hcomb, hterm⟩ := ih
    refine ⟨fun q i => ?_, fun q c p => ?_⟩
    · rw [State.comb, State.comb]
      simp only [cell_of_wired (h.blocks q), RBlock.alloc, cfgByte_of_wired (h.blocks q), hterm]
    · have hbyte : (u.block q).cfgByte = (s.block q).cfgByte := funext (cfgByte_of_wired (h.blocks q))
      have hcfg : (u.block q).cfg2 = (s.block q).cfg2 := funext (cfg2_of_wired (h.blocks q))
      rw [State.term, State.term]
      unfold RBlock.literal RBlock.select
      rw [hbyte, hcfg]
      simp only [reg_of_wired (h.blocks _), hcomb, hardSignal_of_wires h, h.globals]

theorem sink_of_wires {s u : State} (h : SameWires s u) (q i : Nat) : u.sink q i = s.sink q i := by
  unfold State.sink
  generalize combFuel = n
  unfold RBlock.sinkEntry
  rw [cfg2_of_wired (h.blocks q)]
  simp only [reg_of_wired (h.blocks q), (comb_term_of_wires h n).1]

theorem sinks_of_wires {s u : State} (h : SameWires s u) (q i n : Nat) : u.sinks q i n = s.sinks q i n := by
  unfold State.sinks
  simp only [sink_of_wires h]

theorem sameWires_modBlock (s : State) (q : Nat) (f : RBlock → RBlock) (hf : ∀ b, (f b).wired = b.wired) : SameWires s (s.modBlock q f) := by
  refine ⟨fun x => ?_, rfl, rfl⟩
  by_cases hx : x = q
  · subst hx
    rw [block_modBlock, hf]
  · rw [block_modBlock_other _ _ _ _ hx]

/-! ## Output frames -/

theorem look_del_same {α : Type} (t : Tab α) (k : Nat) : look (del t k) k = none := by
  unfold del
  induction t with
  | nil => rfl
  | cons x t ih =>
    rw [List.filter_cons]
    split
    next hx =>
      rw [look, if_neg (by simpa using hx)]
      exact ih
    next => exact ih

/-- A frame of a lane that is not late waits for its deadline. -/
theorem endOutput_waits {s : State} {q : Nat} {f : ROut} {err : Bool} (h : (s.block q).lateLanes.contains f.src = false) :
    ((s.endOutput q f err).block q).done = (s.block q).done
        ++ [(f.src, { f with err := err || f.err || (s.block q).errNext || (s.block q).repairing, ended := 10 * s.now })]
      ∧ ((s.endOutput q f err).block q).outOpen = (s.block q).outOpen ∧ (s.endOutput q f err).mem = s.mem := by
  have hsame : ((s.modBlock q (fun b => { b with errNext := false })).count 9 q 1 1).block q = { s.block q with errNext := false } := by
    rw [State.block, count_riddle]
    exact block_modBlock s q _
  unfold State.endOutput
  extract_lets b e s1
  rw [if_neg (by rw [show b.lateLanes = (s.block q).lateLanes from rfl, h]; exact Bool.false_ne_true)]
  rw [block_modBlock, hsame]
  exact ⟨rfl, rfl, by simp [s1]⟩

/-! ## RIDDLE_OUTPUT_WORD -/

theorem streamBytes_kept (s : State) (id due sure : Nat) (payload : List Byte) :
    (s.streamBytes id due sure payload).riddle = s.riddle ∧ (s.streamBytes id due sure payload).mem = s.mem
      ∧ (s.streamBytes id due sure payload).now = s.now ∧ (id = 0 → (s.streamBytes id due sure payload).adit = s.adit) := by
  unfold State.streamBytes
  split
  · exact ⟨rfl, rfl, rfl, fun _ => rfl⟩
  next h => exact ⟨rfl, rfl, rfl, fun h0 => absurd h0 h⟩

/-- The open frame of a port takes n bytes of a word from lane src. -/
def State.takeOutput (s : State) (q p src n due : Nat) (bytes : List Byte) : State :=
  let s1 := s.modBlock q (fun b => { b with
    outFill := put b.outFill p (lookD b.outFill p 0 + 1)
    outOpen := match look b.outOpen p with
      | some f => put b.outOpen p { f with src := src, payload := f.payload ++ bytes }
      | none => b.outOpen })
  match look (s1.block q).outOpen p with
  | some f => s1.streamBytes f.stream due (f.payload.length - n) f.payload
  | none => s1

/-- The word of port p, which s presents, with a free place in the FIFO of u. -/
def State.putWord (s u : State) (q p : Nat) : State :=
  let n := popcount 16 (s.sinks q (256 * p + 128) 16)
  let s3 := u.takeOutput q p (s.sinks q (256 * p + 148) 2) n (10 * s.now + 576) (natLE n (s.sinks q (256 * p) 128))
  if s.sink q (256 * p + 145) then
    match look (s3.block q).outOpen p with
    | some f => (s3.modBlock q (fun b => { b with outOpen := del b.outOpen p })).endOutput q f (s.sink q (256 * p + 146))
    | none => s3
  else s3

/-- The state that has noted that port p has handed over a word. -/
def State.noteTaken (s : State) (q p : Nat) : State := s.modBlock q (fun b => { b with outTaken := p :: b.outTaken })

theorem riddleOutputWordDo_eq (s : State) (q p : Nat) :
    riddleOutputWordDo q p s =
      if decide (1024 ≤ lookD (s.block q).outFill p 0) = true then
        (if s.sink q (256 * p + 144) = true then (s.noteTaken q p).openOutput q p else s.noteTaken q p).abortOutput q p
      else s.putWord (if s.sink q (256 * p + 144) = true then (s.noteTaken q p).openOutput q p else s.noteTaken q p) q p := rfl

/-- The frame that is open takes the word's bytes. -/
theorem takeOutput_open {s : State} {q p src n due : Nat} {bytes : List Byte} {f : ROut} (h : look (s.block q).outOpen p = some f) :
    (s.takeOutput q p src n due bytes).block q = { s.block q with
        outFill := put (s.block q).outFill p (lookD (s.block q).outFill p 0 + 1)
        outOpen := put (s.block q).outOpen p { f with src := src, payload := f.payload ++ bytes } }
      ∧ (s.takeOutput q p src n due bytes).mem = s.mem ∧ (s.takeOutput q p src n due bytes).now = s.now
      ∧ (f.stream = 0 → (s.takeOutput q p src n due bytes).adit = s.adit) := by
  unfold State.takeOutput
  extract_lets s1
  have h1 : s1.block q = { s.block q with
      outFill := put (s.block q).outFill p (lookD (s.block q).outFill p 0 + 1)
      outOpen := put (s.block q).outOpen p { f with src := src, payload := f.payload ++ bytes } } := by
    unfold s1
    rw [block_modBlock, h]
  rw [h1]
  simp only [look_put_same]
  obtain ⟨hriddle, hmem, hnow, hadit⟩ := streamBytes_kept s1 f.stream due ((f.payload ++ bytes).length - n) (f.payload ++ bytes)
  refine ⟨?_, hmem, hnow, hadit⟩
  rw [State.block, hriddle]
  exact h1

/-- Outside a frame the word is dropped. -/
theorem takeOutput_none {s : State} {q p src n due : Nat} {bytes : List Byte} (h : look (s.block q).outOpen p = none) :
    s.takeOutput q p src n due bytes = s.modBlock q (fun b => { b with outFill := put b.outFill p (lookD b.outFill p 0 + 1) }) := by
  have h1 : s.modBlock q (fun b => { b with
      outFill := put b.outFill p (lookD b.outFill p 0 + 1)
      outOpen := match look b.outOpen p with
        | some f => put b.outOpen p { f with src := src, payload := f.payload ++ bytes }
        | none => b.outOpen }) = s.modBlock q (fun b => { b with outFill := put b.outFill p (lookD b.outFill p 0 + 1) }) := by
    have hb : lookD s.riddle.blocks q {} = s.block q := rfl
    unfold State.modBlock State.modRiddle
    simp only [hb, h]
  unfold State.takeOutput
  rw [h1]
  extract_lets s1
  have hopen : look (s1.block q).outOpen p = none := by
    unfold s1
    rw [block_modBlock]
    exact h
  rw [hopen]

theorem noteTaken_block (s : State) (q p : Nat) :
    (s.noteTaken q p).block q = { s.block q with outTaken := p :: (s.block q).outTaken } := block_modBlock s q _

theorem noteTaken_wires (s : State) (q p : Nat) : SameWires s (s.noteTaken q p) := sameWires_modBlock s q _ (fun _ => by rfl)

theorem openArriving_kept (s : State) (l : Nat) (target : Option (Nat × Nat)) :
    (s.openArriving l target).1.riddle = s.riddle ∧ (s.openArriving l target).1.mem = s.mem := by
  unfold State.openArriving
  split
  · exact ⟨rfl, rfl⟩
  · exact ⟨rfl, rfl⟩

/-- A frame opens at a port that has none open, with a TAG below CHANNELS. -/
theorem openOutput_opens {s : State} {q p : Nat} (hnone : look (s.block q).outOpen p = none)
    (htag : s.sinks q (256 * p + 150) 8 < (s.image (s.block q).image).channels) :
    (∃ n, (s.openOutput q p).block q = { s.block q with outOpen := put (s.block q).outOpen p (ROut.mk
        (s.sinks q (256 * p + 150) 8) (s.sinks q (256 * p + 148) 2) [] false n 0) })
      ∧ (s.openOutput q p).mem = s.mem := by
  have habort : s.abortOutput q p = s := by
    unfold State.abortOutput
    rw [hnone]
  unfold State.openOutput
  rw [habort]
  extract_lets tag f img s0 r s1
  obtain ⟨hriddle, hmem⟩ := openArriving_kept s (4 * q + f.src) (if img.channels ≤ tag then none else img.bound.map (fun p => (p, tag)))
  rw [if_neg (Nat.not_le.2 htag)]
  refine ⟨⟨r.2, ?_⟩, hmem⟩
  have hblock : r.1.block q = s.block q := by
    rw [State.block, hriddle]
    rfl
  show (r.1.modBlock q _).block q = _
  rw [block_modBlock, hblock]

theorem exec_riddleOutputWord {q p : Nat} {s : State} (hq : q < 16) (hp : p < 4) (hloaded : (s.block q).loaded = true)
    (hfree : (s.block q).outTaken.contains p = false) (hword : s.sink q (256 * p + 147) = true) :
    exec (.riddleOutputWord q p) s = .next (riddleOutputWordDo q p s) := by
  show whenDue _ _ = _
  have hok : riddleOutputWordOk q p s = true := by
    unfold riddleOutputWordOk
    simp only [hfree, hword, hloaded, hq, hp, decide_true, Bool.not_false, Bool.and_true]
  rw [hok]
  rfl

theorem riddleOutputWordDo_room {s : State} {q p : Nat} (hroom : lookD (s.block q).outFill p 0 < 1024) :
    riddleOutputWordDo q p s =
      s.putWord (if s.sink q (256 * p + 144) = true then (s.noteTaken q p).openOutput q p else s.noteTaken q p) q p := by
  rw [riddleOutputWordDo_eq, if_neg (by simpa using hroom)]

theorem putWord_more {s u : State} {q p : Nat} (heof : s.sink q (256 * p + 145) = false) :
    s.putWord u q p = u.takeOutput q p (s.sinks q (256 * p + 148) 2) (popcount 16 (s.sinks q (256 * p + 128) 16)) (10 * s.now + 576)
      (natLE (popcount 16 (s.sinks q (256 * p + 128) 16)) (s.sinks q (256 * p) 128)) := by
  unfold State.putWord
  rw [heof]
  exact if_neg Bool.false_ne_true

theorem putWord_last {s u : State} {q p : Nat} (heof : s.sink q (256 * p + 145) = true) :
    s.putWord u q p =
      match look ((u.takeOutput q p (s.sinks q (256 * p + 148) 2) (popcount 16 (s.sinks q (256 * p + 128) 16)) (10 * s.now + 576)
          (natLE (popcount 16 (s.sinks q (256 * p + 128) 16)) (s.sinks q (256 * p) 128))).block q).outOpen p with
      | some f => ((u.takeOutput q p (s.sinks q (256 * p + 148) 2) (popcount 16 (s.sinks q (256 * p + 128) 16)) (10 * s.now + 576)
          (natLE (popcount 16 (s.sinks q (256 * p + 128) 16)) (s.sinks q (256 * p) 128))).modBlock q (fun b => { b with
            outOpen := del b.outOpen p })).endOutput q f (s.sink q (256 * p + 146))
      | none => u.takeOutput q p (s.sinks q (256 * p + 148) 2) (popcount 16 (s.sinks q (256 * p + 128) 16)) (10 * s.now + 576)
          (natLE (popcount 16 (s.sinks q (256 * p + 128) 16)) (s.sinks q (256 * p) 128)) := by
  unfold State.putWord
  rw [heof]
  exact if_pos rfl

/-! ## RIDDLE_EOF_DEADLINE -/

/-- A frame that ends on its way to its A-tile is there with what its end says. -/
theorem sendArriving_arrives (s : State) (a : Arriving) (hclosed : a.open_ = false) :
    ∃ b ∈ (s.sendArriving a).adit.arriving, b.id = a.id ∧ b.open_ = false ∧ b.payload = a.payload ∧ b.complete = a.complete
      ∧ b.due = a.due ∧ (b.pushed = 0 → b.target = a.target) := by
  unfold State.sendArriving
  extract_lets l ended known
  by_cases hknown : known = true
  · obtain ⟨b, hb, hid⟩ := List.any_eq_true.1 ((Bool.and_eq_true _ _).mp hknown).2
    have hend : ended b = { b with open_ := false, complete := a.complete, payload := a.payload, due := a.due
                                   target := if b.pushed = 0 then a.target else b.target } := if_pos (by simpa using hid)
    refine ⟨ended b, ?_, ?_⟩
    · show ended b ∈ (if known = true then l.map ended else l ++ [a])
      rw [if_pos hknown]
      exact List.mem_map_of_mem hb
    · rw [hend]
      exact ⟨by simpa using hid, rfl, rfl, rfl, rfl, fun h => if_pos h⟩
  · refine ⟨a, ?_, rfl, hclosed, rfl, rfl, rfl, fun _ => rfl⟩
    show a ∈ (if known = true then l.map ended else l ++ [a])
    rw [if_neg hknown]
    simp

theorem passFrame_bound {s : State} {q pl : Nat} {f : ROut} (err : Bool) (due : Nat)
    (hbound : (s.image (s.block q).image).bound = some pl) (htag : f.tag < (s.image (s.block q).image).channels) :
    s.passFrame q f err due = s.sendArriving
      { lane := 4 * q + f.src, target := some (pl, f.tag), complete := !err, payload := f.payload, due := due, id := f.stream } := by
  unfold State.passFrame
  simp only [hbound, if_neg (Nat.not_le.2 htag)]

/-- The lane of block q is late. -/
def State.lateLane (s : State) (q p : Nat) : State :=
  (((s.modBlock q (fun b => { b with late := true })).hit (blockStatus q) 2).count 9 q 4 1).raise
    Ev.riddleLate { (blockEv s q) with locSub := p }

theorem lateLane_fields (s : State) (q p : Nat) :
    (s.lateLane q p).block q = { s.block q with late := true } ∧ (s.lateLane q p).adit = s.adit ∧ (s.lateLane q p).images = s.images
      ∧ (s.lateLane q p).faults.eventSeq = s.faults.eventSeq + 1 := by
  unfold State.lateLane
  refine ⟨?_, by simp, by simp, by simp⟩
  rw [State.block, raise_riddle, count_riddle]
  exact block_modBlock s q (fun b => { b with late := true })

theorem riddleEofDeadlineDo_frame {s : State} {q p i te j : Nat} {d : Nat × ROut} (hdue : (s.block q).eofDue p s.now = some (i, te))
    (hdone : findAt (fun (d : Nat × ROut) => d.1 == p) (s.block q).done = some (j, d)) :
    riddleEofDeadlineDo q p s =
      if d.2.ended ≤ te + 384 then
        ((s.modBlock q (fun b => { b with eofs := dropAt b.eofs i })).modBlock q (fun b => { b with done := dropAt b.done j })).passFrame
          q d.2 d.2.err (te + 960)
      else (((s.modBlock q (fun b => { b with eofs := dropAt b.eofs i })).modBlock q (fun b => { b with done := dropAt b.done j })).lateLane
        q p).passFrame q d.2 true (d.2.ended + 576) := by
  unfold riddleEofDeadlineDo
  rw [hdue]
  dsimp only
  rw [hdone]
  rfl

theorem riddleEofDeadlineDo_late {s : State} {q p i te : Nat} (hdue : (s.block q).eofDue p s.now = some (i, te))
    (hdone : findAt (fun (d : Nat × ROut) => d.1 == p) (s.block q).done = none) :
    riddleEofDeadlineDo q p s =
      ((s.modBlock q (fun b => { b with eofs := dropAt b.eofs i })).modBlock q (fun b => { b with lateLanes := b.lateLanes ++ [p] })).lateLane
        q p := by
  unfold riddleEofDeadlineDo
  rw [hdue]
  dsimp only
  rw [hdone]
  rfl

theorem exec_riddleEofDeadline {q p i te : Nat} {s : State} (hq : q < 16) (hdue : (s.block q).eofDue p s.now = some (i, te)) :
    exec (.riddleEofDeadline q p) s = .next (riddleEofDeadlineDo q p s) := by
  show whenDue _ _ = _
  rw [hdue, decide_eq_true hq]
  rfl

theorem findAt_none_of_all {α : Type} {p : α → Bool} {l : List α} (h : l.all (fun x => !p x) = true) : findAt p l = none := by
  induction l with
  | nil => rfl
  | cons x l ih =>
    simp only [List.all_cons, Bool.and_eq_true, Bool.not_eq_true'] at h
    rw [findAt, h.1, ih h.2]
    rfl

/-- The frame of an output EOF that is found at the deadline of its input EOF leaves. -/
theorem riddleEofDeadlineDo_leaves {s : State} {q p i te j pl : Nat} {d : Nat × ROut} (hdue : (s.block q).eofDue p s.now = some (i, te))
    (hdone : findAt (fun (d : Nat × ROut) => d.1 == p) (s.block q).done = some (j, d))
    (hbound : (s.image (s.block q).image).bound = some pl) (htag : d.2.tag < (s.image (s.block q).image).channels) :
    let u := riddleEofDeadlineDo q p s
    (u.block q).done = dropAt (s.block q).done j ∧ (u.block q).eofs = dropAt (s.block q).eofs i
      ∧ (d.2.ended ≤ te + 384 → u.faults = s.faults)
      ∧ (te + 384 < d.2.ended → (u.block q).late = true ∧ u.faults.eventSeq = s.faults.eventSeq + 1)
      ∧ ∃ a ∈ u.adit.arriving, a.id = d.2.stream ∧ a.open_ = false ∧ a.payload = d.2.payload
          ∧ (d.2.ended ≤ te + 384 → a.complete = !d.2.err ∧ a.due = te + 960)
          ∧ (te + 384 < d.2.ended → a.complete = false ∧ a.due = d.2.ended + 576)
          ∧ (a.pushed = 0 → a.target = some (pl, d.2.tag)) := by
  rw [riddleEofDeadlineDo_frame hdue hdone]
  have hblock : ((s.modBlock q (fun b => { b with eofs := dropAt b.eofs i })).modBlock q (fun b => { b with done := dropAt b.done j })).block q
      = { s.block q with eofs := dropAt (s.block q).eofs i, done := dropAt (s.block q).done j } := by
    rw [block_modBlock, block_modBlock]
  have himages : ((s.modBlock q (fun b => { b with eofs := dropAt b.eofs i })).modBlock q (fun b => { b with done := dropAt b.done j })).images
      = s.images := rfl
  have hfaults : ((s.modBlock q (fun b => { b with eofs := dropAt b.eofs i })).modBlock q (fun b => { b with done := dropAt b.done j })).faults
      = s.faults := rfl
  generalize (s.modBlock q (fun b => { b with eofs := dropAt b.eofs i })).modBlock q (fun b => { b with done := dropAt b.done j }) = v
    at hblock himages hfaults ⊢
  by_cases hin : d.2.ended ≤ te + 384
  · rw [if_pos hin]
    have himage : v.image (v.block q).image = s.image (s.block q).image := by
      rw [hblock, State.image, himages]
      rfl
    rw [passFrame_bound _ _ (by rw [himage]; exact hbound) (by rw [himage]; exact htag)]
    obtain ⟨a, ha, hid, hopen, hpayload, hcomplete, hat, htarget⟩ := sendArriving_arrives v
      { lane := 4 * q + d.2.src, target := some (pl, d.2.tag), complete := !d.2.err, payload := d.2.payload, due := te + 960
        id := d.2.stream } rfl
    refine ⟨congrArg RBlock.done hblock, congrArg RBlock.eofs hblock, fun _ => hfaults, fun hlate => absurd hin (by omega),
      a, ha, hid, hopen, hpayload, fun _ => ⟨hcomplete, hat⟩, fun hlate => absurd hin (by omega), htarget⟩
  · rw [if_neg hin]
    obtain ⟨hlate, -, hlateImages, hevents⟩ := lateLane_fields v q p
    have himage : (v.lateLane q p).image ((v.lateLane q p).block q).image = s.image (s.block q).image := by
      rw [hlate, hblock, State.image, hlateImages, himages]
      rfl
    rw [passFrame_bound _ _ (by rw [himage]; exact hbound) (by rw [himage]; exact htag)]
    obtain ⟨a, ha, hid, hopen, hpayload, hcomplete, hat, htarget⟩ := sendArriving_arrives (v.lateLane q p)
      { lane := 4 * q + d.2.src, target := some (pl, d.2.tag), complete := !true, payload := d.2.payload, due := d.2.ended + 576
        id := d.2.stream } rfl
    rw [hblock] at hlate
    exact ⟨congrArg RBlock.done hlate, congrArg RBlock.eofs hlate, fun h => absurd h hin,
      fun _ => ⟨congrArg RBlock.late hlate, by rw [← hfaults]; exact hevents⟩,
      a, ha, hid, hopen, hpayload, fun h => absurd h hin, fun _ => ⟨hcomplete, hat⟩, htarget⟩

/-- Settles O39: each clause is the branch of its command that its premises choose. -/
theorem riddlePortsMoveFrames : Obligations.RiddlePortsMoveFrames := by
  intro q p s hq hp hloaded b
  refine ⟨fun w r hnone hfifo hdue => ?_, fun hfree hword => ?_, fun i te hdue => ⟨fun j d hdone pl hbound htag => ?_, fun hall => ?_⟩, ?_⟩
  · have hok : riddleInputWordOk q p s = true := by
      have hnone' : look (s.block q).inNow p = none := hnone
      have hfifo' : lookD (s.block q).inFifo p [] = w :: r := hfifo
      unfold riddleInputWordOk
      simp only [hnone', hfifo', hq, hp, hloaded, hdue, decide_true, Option.isNone_none, Bool.and_true]
    refine ⟨riddleInputWordDo q p s, ?_, ?_⟩
    · show whenDue _ _ = _
      rw [hok]
      rfl
    · have hblock : (riddleInputWordDo q p s).block q = { b with inFifo := put b.inFifo p r, inNow := put b.inNow p w } := by
        unfold riddleInputWordDo
        rw [block_modBlock]
        have hfifo' : lookD (s.block q).inFifo p [] = w :: r := hfifo
        rw [hfifo']
      dsimp only
      rw [hblock]
      exact ⟨look_put_same _ _ _, lookD_put_same _ _ _ _, rfl, rfl, fun x hx => block_modBlock_other _ _ _ _ hx⟩
  · intro n data src sof eof
    have hexec := exec_riddleOutputWord hq hp hloaded hfree hword
    have hnoted := noteTaken_block s q p
    refine ⟨fun f hopen hroom hsof heof => ⟨_, hexec, ?_⟩, fun hnone hroom hsof heof htag => ⟨_, hexec, ?_⟩,
      fun f hopen hroom hsof heof hintime herr hrepairs => ⟨_, hexec, ?_⟩, fun hnone hroom hsof => ⟨_, hexec, ?_⟩,
      fun f hopen hfull hsof hintime herr => ⟨_, hexec, ?_⟩⟩
    · rw [riddleOutputWordDo_room hroom, if_neg (by rw [show s.sink q (256 * p + 144) = false from hsof]; exact Bool.false_ne_true),
        putWord_more heof]
      obtain ⟨hblock, hmem, -, hadit⟩ := takeOutput_open (q := q) (p := p) (src := src) (n := n) (due := 10 * s.now + 576) (bytes := data)
        (show look ((s.noteTaken q p).block q).outOpen p = some f by rw [hnoted]; exact hopen)
      rw [hnoted] at hblock
      rw [hblock]
      exact ⟨by rw [look_put_same]; rfl, lookD_put_same _ _ _ _, List.mem_cons_self, hmem, hadit⟩
    · have hwires := sinks_of_wires (noteTaken_wires s q p)
      obtain ⟨⟨m, hopened⟩, hmemOpened⟩ := openOutput_opens (s := s.noteTaken q p) (q := q) (p := p) (by rw [hnoted]; exact hnone)
        (by rw [hwires, hnoted]; exact htag)
      rw [hnoted, hwires, hwires] at hopened
      rw [riddleOutputWordDo_room hroom, if_pos hsof, putWord_more heof]
      obtain ⟨hblock, hmem, -, -⟩ := takeOutput_open (q := q) (p := p) (src := src) (n := n) (due := 10 * s.now + 576) (bytes := data)
        (show look (((s.noteTaken q p).openOutput q p).block q).outOpen p = some _ by rw [hopened]; exact look_put_same _ _ _)
      dsimp only
      rw [hblock]
      exact ⟨⟨_, look_put_same _ _ _, rfl, rfl, List.nil_append _, rfl⟩, hmem.trans hmemOpened⟩
    · rw [riddleOutputWordDo_room hroom, if_neg (by rw [show s.sink q (256 * p + 144) = false from hsof]; exact Bool.false_ne_true),
        putWord_last heof]
      obtain ⟨hblock, hmem, hnow, -⟩ := takeOutput_open (q := q) (p := p) (src := src) (n := n) (due := 10 * s.now + 576) (bytes := data)
        (show look ((s.noteTaken q p).block q).outOpen p = some f by rw [hnoted]; exact hopen)
      rw [hnoted] at hblock
      generalize (s.noteTaken q p).takeOutput q p src n (10 * s.now + 576) data = v at hblock hmem hnow ⊢
      have hfound : look (v.block q).outOpen p = some { f with src := src, payload := f.payload ++ data } := by
        rw [hblock]
        exact look_put_same _ _ _
      have hv : (v.modBlock q (fun b => { b with outOpen := del b.outOpen p })).block q
          = { v.block q with outOpen := del (v.block q).outOpen p } := block_modBlock _ _ _
      obtain ⟨hdone, hout, hmemEnd⟩ := endOutput_waits (s := v.modBlock q (fun b => { b with outOpen := del b.outOpen p })) (q := q)
        (f := { f with src := src, payload := f.payload ++ data }) (err := s.sink q (256 * p + 146))
        (by rw [hv, hblock]; exact hintime)
      have hnow' : (v.modBlock q (fun b => { b with outOpen := del b.outOpen p })).now = s.now := hnow
      have herr' : ((v.modBlock q (fun b => { b with outOpen := del b.outOpen p })).block q).errNext = false := by
        rw [hv, hblock]
        exact herr
      have hrepairing : ((v.modBlock q (fun b => { b with outOpen := del b.outOpen p })).block q).repairing = false := by
        rw [hv, hblock, RBlock.repairing, show (s.block q).repairs = [] from hrepairs]
        rfl
      rw [herr', hrepairing, Bool.or_false, Bool.or_false, hnow', hv, hblock] at hdone
      rw [hv, hblock] at hout
      simp only [hfound]
      exact ⟨by rw [hout]; exact look_del_same _ _, hmemEnd.trans hmem, hdone⟩
    · have hnone' : look ((s.noteTaken q p).block q).outOpen p = none := by rw [hnoted]; exact hnone
      have hput : s.putWord (s.noteTaken q p) q p
          = (s.noteTaken q p).modBlock q (fun b => { b with outFill := put b.outFill p (lookD b.outFill p 0 + 1) }) := by
        by_cases heof : s.sink q (256 * p + 145) = true
        · rw [putWord_last heof, takeOutput_none hnone', block_modBlock]
          simp only [hnone']
        · rw [putWord_more (Bool.eq_false_iff.2 heof), takeOutput_none hnone']
      rw [riddleOutputWordDo_room hroom, if_neg (by rw [show s.sink q (256 * p + 144) = false from hsof]; exact Bool.false_ne_true), hput]
      dsimp only
      rw [block_modBlock, hnoted]
      exact ⟨hnone, rfl, rfl⟩
    · rw [riddleOutputWordDo_eq, if_pos (decide_eq_true hfull),
        if_neg (by rw [show s.sink q (256 * p + 144) = false from hsof]; exact Bool.false_ne_true)]
      have hfound : look ((s.noteTaken q p).block q).outOpen p = some f := by rw [hnoted]; exact hopen
      unfold State.abortOutput
      simp only [hfound]
      have hv : ((s.noteTaken q p).modBlock q (fun b => { b with outOpen := del b.outOpen p })).block q
          = { s.block q with outTaken := p :: (s.block q).outTaken, outOpen := del (s.block q).outOpen p } := by
        rw [block_modBlock, hnoted]
      obtain ⟨hdone, hout, -⟩ := endOutput_waits (s := (s.noteTaken q p).modBlock q (fun b => { b with outOpen := del b.outOpen p }))
        (q := q) (f := f) (err := true) (by rw [hv]; exact hintime)
      rw [hv] at hdone hout
      refine ⟨by rw [hout]; exact look_del_same _ _, hdone.trans ?_⟩
      simp only [Bool.true_or]
      rfl
  · exact ⟨_, exec_riddleEofDeadline hq hdue, riddleEofDeadlineDo_leaves hdue hdone hbound htag⟩
  · refine ⟨_, exec_riddleEofDeadline hq hdue, ?_⟩
    rw [riddleEofDeadlineDo_late hdue (findAt_none_of_all hall)]
    obtain ⟨hblock, hadit, -, hevents⟩ := lateLane_fields
      ((s.modBlock q (fun b => { b with eofs := dropAt b.eofs i })).modBlock q (fun b => { b with lateLanes := b.lateLanes ++ [p] })) q p
    rw [block_modBlock, block_modBlock] at hblock
    rw [hblock]
    exact ⟨rfl, rfl, hadit, hevents⟩
  · refine ⟨_, if_pos (decide_eq_true hq), block_modBlock _ _ _, rfl, fun x hx => block_modBlock_other _ _ _ _ hx⟩

end Sys2Proof.Machine

/-! PROOFS. How a host command ends, and what an event or a write to claim memory leaves to the headframe (R325, R329,
R332). -/

namespace Sys2Proof.Machine

/-! ## A command that ends -/

/-- Some command has this SEQ, and all that have it ended alike. -/
structure AllEnded (seq : Nat) (ok : Bool) (reason : Nat) (result : BitVec 128) (u : State) : Prop where
  some : ∃ d ∈ u.host.cmds, d.seq = seq
  all : ∀ d ∈ u.host.cmds, d.seq = seq → d.state = .ended ok reason result

theorem AllEnded.cmd? {seq : Nat} {ok : Bool} {reason : Nat} {r : BitVec 128} {u : State} (h : AllEnded seq ok reason r u) :
    ∃ m, u.cmd? seq = .some m ∧ m.state = .ended ok reason r := by
  obtain ⟨d, hd, hseq⟩ := h.some
  cases hfind : u.cmd? seq with
  | none => exact absurd (by simpa using hseq) (List.find?_eq_none.1 hfind d hd)
  | some m =>
    have hm : m.seq = seq := beq_iff_eq.1 (List.find?_some (p := fun d : Cmd => d.seq == seq) hfind)
    exact ⟨m, rfl, h.all m (List.mem_of_find?_eq_some hfind) hm⟩

theorem AllEnded.ended {seq : Nat} {ok : Bool} {reason : Nat} {r : BitVec 128} {u : State} (h : AllEnded seq ok reason r u) :
    u.Ended seq ok reason := by
  obtain ⟨m, hm, hstate⟩ := h.cmd?
  exact ⟨m, r, hm, hstate⟩

theorem AllEnded.of_cmds {seq : Nat} {ok : Bool} {reason : Nat} {r : BitVec 128} {u v : State} (h : AllEnded seq ok reason r u)
    (hcmds : v.host.cmds = u.host.cmds) : AllEnded seq ok reason r v :=
  ⟨by rw [hcmds]; exact h.some, by rw [hcmds]; exact h.all⟩

/-- The end of one command, in the same way, changes nothing about that. -/
theorem AllEnded.finishOne {seq : Nat} {ok : Bool} {reason : Nat} {r : BitVec 128} {u : State} (h : AllEnded seq ok reason r u) (c : Cmd) :
    AllEnded seq ok reason r (u.finishOne c ok reason r) := by
  refine ⟨?_, fun d hd hseq => ?_⟩
  · obtain ⟨d, hd, hseq⟩ := h.some
    rw [finishOne_cmds]
    refine ⟨_, List.mem_map_of_mem hd, ?_⟩
    split <;> exact hseq
  · rw [finishOne_cmds] at hd
    obtain ⟨e, he, rfl⟩ := List.mem_map.1 hd
    by_cases hsame : (e.seq == c.seq) = true
    · rw [if_pos hsame]
    · rw [if_neg hsame] at hseq ⊢
      exact h.all e he hseq

theorem finishOne_allEnded {s : State} {c : Cmd} (hc : c ∈ s.host.cmds) (ok : Bool) (n : Nat) (r : BitVec 128) :
    AllEnded c.seq ok n r (s.finishOne c ok n r) := by
  refine ⟨?_, fun d hd hseq => ?_⟩
  · rw [finishOne_cmds]
    refine ⟨_, List.mem_map_of_mem hc, ?_⟩
    split <;> rfl
  · rw [finishOne_cmds] at hd
    obtain ⟨e, -, rfl⟩ := List.mem_map.1 hd
    by_cases hsame : (e.seq == c.seq) = true
    · rw [if_pos hsame]
    · rw [if_neg hsame] at hseq
      exact absurd (by simpa using hseq) hsame

theorem seq_of_cmd? {s : State} {seq : Nat} {c : Cmd} (h : s.cmd? seq = some c) : c.seq = seq :=
  beq_iff_eq.1 (List.find?_some (p := fun d : Cmd => d.seq == seq) h)

theorem mem_of_cmd? {s : State} {seq : Nat} {c : Cmd} (h : s.cmd? seq = some c) : c ∈ s.host.cmds := List.mem_of_find?_eq_some h

theorem cmd?_of_cmds {s u : State} (h : u.host.cmds = s.host.cmds) (seq : Nat) : u.cmd? seq = s.cmd? seq := by
  rw [State.cmd?, h]
  rfl

theorem finish_allEnded {s : State} {seq : Nat} {c : Cmd} (h : s.cmd? seq = some c) (ok : Bool) (n : Nat) (r : BitVec 128) :
    AllEnded seq ok n r (s.finish seq ok n r) := by
  have hone := finishOne_allEnded (mem_of_cmd? h) ok n r
  rw [seq_of_cmd? h] at hone
  unfold State.finish
  rw [h]
  exact foldl_keeps (AllEnded seq ok n r) _ (fun u x hu => hu.finishOne x) _ _ (hone.of_cmds rfl)

/-- A command that finishes has ended. -/
theorem ended_finish {s : State} {seq : Nat} {c : Cmd} (h : s.cmd? seq = some c) (ok : Bool) (n : Nat) (r : BitVec 128) :
    (s.finish seq ok n r).Ended seq ok n := (finish_allEnded h ok n r).ended

theorem ended_complete {s : State} {seq : Nat} {c : Cmd} (h : s.cmd? seq = some c) (r : BitVec 128) :
    (s.complete seq r).Ended seq true 0 := ended_finish h true 0 r

theorem ended_fail {s : State} {seq : Nat} {c : Cmd} (h : s.cmd? seq = some c) (n : Nat) : (s.fail seq n).Ended seq false n :=
  ended_finish h false n 0

/-! ## What the end of a command leaves alone -/

/-- What a journal record writes of its claim is left out. -/
def Claim.unjournaled (x : Claim) : Claim := { x with journalHead := 0, tags := [] }

/-- The state outside claims, commands, journals and sequence numbers. -/
def State.offJournal (s : State) :=
  (s.hits, s.faults, s.dbg, s.out, s.host.snapshot, s.host.rings, s.host.ready, s.host.nextClaim)

/-- What a finished command leaves alone. -/
structure Finished (s u : State) : Prop where
  claims : ∀ x, (u.claim x).unjournaled = (s.claim x).unjournaled
  rest : u.offJournal = s.offJournal
  memory : ∀ b, b < 0xB80000000 → memGet u.mem b = memGet s.mem b
  unwritten : ∀ b, b < 0xB80000000 → rangeHas u.unwritten (b / 8) = rangeHas s.unwritten (b / 8)

namespace Finished

theorem refl (s : State) : Finished s s := ⟨fun _ => rfl, rfl, fun _ _ => rfl, fun _ _ => rfl⟩

theorem trans {s u w : State} (h : Finished s u) (h' : Finished u w) : Finished s w :=
  ⟨fun x => (h'.claims x).trans (h.claims x), h'.rest.trans h.rest, fun b hb => (h'.memory b hb).trans (h.memory b hb),
    fun b hb => (h'.unwritten b hb).trans (h.unwritten b hb)⟩

end Finished

/-- A stretch of words other than this one is deleted. -/
theorem rangeHas_rangeDel_outside (r : List (Nat × Nat)) {lo hi w : Nat} (h : w < lo ∨ hi ≤ w) :
    rangeHas (rangeDel r lo hi) w = rangeHas r w := by
  induction r with
  | nil => rfl
  | cons p r ih =>
    have hsplit : rangeHas (rangeDel (p :: r) lo hi) w
        = (rangeHas ([(p.1, min p.2 lo), (max p.1 hi, p.2)].filter (fun p => decide (p.1 < p.2))) w || rangeHas (rangeDel r lo hi) w) := by
      simp only [rangeHas, rangeDel, List.flatMap_cons, List.filter_append, List.any_append]
    have hhead : rangeHas ([(p.1, min p.2 lo), (max p.1 hi, p.2)].filter (fun p => decide (p.1 < p.2))) w
        = (decide (p.1 ≤ w) && decide (w < p.2)) := by
      rw [Bool.eq_iff_iff]
      simp only [rangeHas, List.any_filter, List.any_cons, List.any_nil, Bool.or_false, Bool.or_eq_true, Bool.and_eq_true, decide_eq_true_eq]
      omega
    rw [hsplit, hhead, ih]
    rfl

theorem memGet_writeBytes_outside {s : State} {a b : Nat} {bs : List Byte} (h : b < a ∨ a + bs.length ≤ b) :
    memGet (s.writeBytes a bs).mem b = memGet s.mem b := by
  unfold State.writeBytes
  split
  · rfl
  · exact memGet_memWrite_outside _ _ _ _ h

theorem rangeHas_writeBytes_outside {s : State} {a w : Nat} {bs : List Byte} (h : w < a / 8) :
    rangeHas (s.writeBytes a bs).unwritten w = rangeHas s.unwritten w := by
  unfold State.writeBytes
  split
  · rfl
  · exact rangeHas_rangeDel_outside _ (.inl h)

theorem le_journalAddr (c n : Nat) : 0xB80000000 ≤ journalAddr c n := by
  unfold journalAddr journalPage dualPrimary hfBase
  dsimp only
  omega

theorem modClaim_finished (s : State) (c : Nat) (f : Claim → Claim) (hf : ∀ x, (f x).unjournaled = x.unjournaled) :
    Finished s (s.modClaim c f) :=
  ⟨fun x => field_modClaim Claim.unjournaled s c x f hf, rfl, fun _ _ => rfl, fun _ _ => rfl⟩

theorem modSeq_finished (s : State) (f : Nat → Nat) : Finished s (s.modHost (fun h => { h with seq := f h.seq })) :=
  ⟨fun _ => rfl, rfl, fun _ _ => rfl, fun _ _ => rfl⟩

theorem writeBytes_finished (s : State) {a : Nat} (bs : List Byte) (ha : 0xB80000000 ≤ a) : Finished s (s.writeBytes a bs) := by
  refine ⟨fun x => ?_, ?_, fun b hb => memGet_writeBytes_outside (.inl (hb.trans_le ha)), fun b hb => ?_⟩
  · rw [State.claim, writeBytes_host]
    rfl
  · simp [State.offJournal]
  · exact rangeHas_writeBytes_outside (by omega)

/-- A record is written twice, and the claim and SEQ take note of it. -/
theorem journal_eq (s : State) (c : Nat) (r : Record) :
    s.journal c r = (((s.writeBytes (journalAddr c (s.claim c).journalHead.toNat) (lineBytes r)).writeBytes
      (journalAddr c (s.claim c).journalHead.toNat + 0x2000) (lineBytes r)).modClaim c
        (fun x => { x with journalHead := x.journalHead + 1 })).modHost (fun h => { h with seq := h.seq + 1 }) := rfl

theorem journal_finished (s : State) (c : Nat) (r : Record) : Finished s (s.journal c r) := by
  have hlow := le_journalAddr c (s.claim c).journalHead.toNat
  rw [journal_eq]
  generalize journalAddr c (s.claim c).journalHead.toNat = a at hlow ⊢
  have hmirror : 0xB80000000 ≤ a + 0x2000 := by omega
  have hwritten := (writeBytes_finished s (lineBytes r) hlow).trans (writeBytes_finished _ (lineBytes r) hmirror)
  refine (hwritten.trans (modClaim_finished _ c (fun x => { x with journalHead := x.journalHead + 1 }) ?_)).trans
    (modSeq_finished _ (fun n => n + 1))
  exact fun _ => rfl

theorem modCmd_finished (s : State) (seq : Nat) (f : Cmd → Cmd) : Finished s (s.modCmd seq f) :=
  ⟨fun _ => rfl, rfl, fun _ _ => rfl, fun _ _ => rfl⟩

theorem finishOne_finished (s : State) (c : Cmd) (ok : Bool) (n : Nat) (r : BitVec 128) : Finished s (s.finishOne c ok n r) :=
  (journal_finished s _ _).trans (modCmd_finished _ _ _)

theorem finish_finished (s : State) (seq : Nat) (ok : Bool) (n : Nat) (r : BitVec 128) : Finished s (s.finish seq ok n r) := by
  unfold State.finish
  split
  next => exact Finished.refl s
  next c _ =>
    refine foldl_keeps (Finished s) _ (fun u x h => h.trans (finishOne_finished u x ok n r)) _ _ ((finishOne_finished s c ok n r).trans ?_)
    exact modClaim_finished _ _ _ (fun _ => rfl)

/-! ## What a write through a claim's translation leaves alone -/

/-- The state outside tiles, memory, claims and rings. -/
def State.offCva (s : State) :=
  (s.pending, s.skips, s.images, s.pipes, s.adit, s.riddle, s.sump, s.emeel, s.power, s.host.snapshot, s.host.ready)

/-- What a write to claim memory leaves alone. -/
structure CvaFrame (s u : State) : Prop where
  events : EventFrame s u
  rest : u.offCva = s.offCva

namespace CvaFrame

theorem refl (s : State) : CvaFrame s s := ⟨EventFrame.refl s, rfl⟩

theorem trans {s u w : State} (h : CvaFrame s u) (h' : CvaFrame u w) : CvaFrame s w := ⟨h.events.trans h'.events, h'.rest.trans h.rest⟩

theorem of_host {s u : State} (hhost : u.host = s.host) (hnow : u.now = s.now) (hticks : u.ticks = s.ticks) (hrest : u.offCva = s.offCva) :
    CvaFrame s u := ⟨EventFrame.of_host hhost hnow hticks, hrest⟩

theorem writeBytes (s : State) (a : Nat) (bs : List Byte) : CvaFrame s (s.writeBytes a bs) :=
  of_host (by simp) (by simp) (by simp) (by simp [State.offCva])

theorem modTile (s : State) (t : Nat) (f : Tile → Tile) : CvaFrame s (s.modTile t f) := of_host rfl rfl rfl rfl

theorem emit (s : State) (o : Out) : CvaFrame s (s.emit o) := of_host rfl rfl rfl rfl

theorem placeEntry_rest (s : State) (c k : Nat) (r : Record) : (s.placeEntry c k r).offCva = s.offCva := by
  have hsnap (u : State) (c v : Nat) : (u.fireMsix c v).host.snapshot = u.host.snapshot ∧ (u.fireMsix c v).host.ready = u.host.ready := by
    unfold State.fireMsix
    split <;> exact ⟨rfl, rfl⟩
  have hplaced (bs : List Byte) (a : Nat) (f : Ring → Ring) : ((s.writeBytes a bs).modRing c k f).offCva = s.offCva := by
    simp [State.offCva, State.modRing, State.modHost]
  unfold State.placeEntry
  dsimp only
  split
  · have hs := hplaced (lineBytes r) (ringPhys c k + 64 * ((s.ring c k).producer.toNat % 1024)) (fun g => { g with producer := g.producer + 1 })
    rw [← hs]
    simp [State.offCva, (hsnap _ _ _).1, (hsnap _ _ _).2]
  · exact hplaced _ _ _

theorem deliver_rest (s : State) (c : Nat) (r : Record) : (s.deliver c r).offCva = s.offCva := by
  unfold State.deliver
  split
  · rfl
  · split
    · exact placeEntry_rest s c 15 r
    · split
      · rfl
      · simp [State.offCva, State.modRing, State.modClaim, State.modHost]

theorem raise (s : State) (k : EvKind) (e : EvArgs) : CvaFrame s (s.raise k e) := by
  refine ⟨EventFrame.raise s k e, ?_⟩
  unfold State.raise
  show State.offCva (match k.audience with
    | .pf => s.deliver 0 (s.eventRecord k e false)
    | .claim => s.deliver e.claim (s.eventRecord k e false)
    | .both => if e.claim = 0 then s.deliver e.claim (s.eventRecord k e false)
      else (s.deliver e.claim (s.eventRecord k e false)).deliver 0 (s.eventRecord k e true)) = _
  split
  · exact deliver_rest _ _ _
  · exact deliver_rest _ _ _
  · split
    · exact deliver_rest _ _ _
    · rw [deliver_rest, deliver_rest]

theorem windowViolation (s : State) (c : Nat) (bad : Option Nat) : CvaFrame s (s.windowViolation c bad) := by
  cases bad with
  | none => exact refl s
  | some a =>
    unfold State.windowViolation
    exact raise _ _ _

theorem fillHalf (s : State) (t : Nat) (b : Bool) (o total : Nat) (data : List Byte) : CvaFrame s (s.fillHalf t b o total data) := by
  unfold State.fillHalf
  extract_lets x n done left want s1
  split
  · exact raise _ _ _
  · exact (writeBytes _ _ _).trans (modTile _ _ _)

theorem windowWrite (s : State) (claim t o : Nat) (access : Nat × Nat) (noted : Bool) (bs : List Byte) :
    CvaFrame s (s.windowWrite claim t o access noted bs) := by
  unfold State.windowWrite
  extract_lets x ok banked old s1 s2 a b s3
  have hs1 : CvaFrame s s1 := by
    unfold s1
    clear_value banked
    split
    · exact refl s
    · exact modTile _ _ _
  have hs2 : CvaFrame s s2 := by
    unfold s2
    split
    · unfold State.taintStreams
      exact hs1.trans (modTile _ _ _)
    · exact hs1
  have hs3 : CvaFrame s s3 := by
    unfold s3
    split
    · exact hs2
    · exact hs2.trans (fillHalf _ _ _ _ _ _)
  split
  · split
    · exact hs3
    · exact hs3.trans (fillHalf _ _ _ _ _ _)
  · exact foldl_keeps (CvaFrame s) _ (fun u p hu => hu.trans (writeBytes _ _ _)) _ _ hs2

theorem putRun (s : State) (claim : Nat) (p : Phys) (access : Nat × Nat) (noted : Bool) (bs : List Byte) :
    CvaFrame s (s.putRun claim p access noted bs) := by
  unfold State.putRun
  split
  · dsimp only
    split
    · exact (emit _ _).trans (emit _ _)
    · exact emit _ _
  · split
    · exact windowWrite _ _ _ _ _ _ _
    · dsimp only
      split
      · exact (writeBytes _ _ _).trans (writeBytes _ _ _)
      · exact writeBytes _ _ _

theorem putCva (s : State) (claim cva : Nat) (bs : List Byte) : CvaFrame s (s.putCva claim cva bs) := by
  unfold State.putCva
  exact foldl_keeps (CvaFrame s) _ (fun u r hu => hu.trans (putRun _ _ _ _ _ _)) _ _ (windowViolation _ _ _)

theorem writeCva {s u : State} {claim cva : Nat} {bs : List Byte} (h : s.writeCva claim cva bs = some u) : CvaFrame s u := by
  obtain ⟨-, hput⟩ := Option.ite_none_right_eq_some.1 h
  exact Option.some.inj hput ▸ putCva s claim cva bs

end CvaFrame

end Sys2Proof.Machine

/-! PROOFS. Riddle clocks, readback, repair and capture (R275, R286 to R289). -/

namespace Sys2Proof.Machine

/-! ## What an edge does to one block -/

/-- The fields of a block that a clock edge sets. -/
def RBlock.clocked (b : RBlock) : List Nat × Tab RWordIn × Bool := (b.q, b.inNow, b.resetAsked)

/-- What follows the registers of block q at an edge: nothing of the tiles, the skips, the queue or another block, and no
clocked field of a block. -/
structure EdgeKept (q : Nat) (s u : State) : Prop where
  clocked : ∀ x, (u.block x).clocked = (s.block x).clocked
  others : ∀ x, x ≠ q → u.block x = s.block x
  tiles : u.tiles = s.tiles
  skips : u.skips = s.skips
  pending : u.pending = s.pending

namespace EdgeKept

theorem refl (q : Nat) (s : State) : EdgeKept q s s := ⟨fun _ => rfl, fun _ _ => rfl, rfl, rfl, rfl⟩

theorem trans {q : Nat} {s u w : State} (h : EdgeKept q s u) (h' : EdgeKept q u w) : EdgeKept q s w :=
  ⟨fun x => (h'.clocked x).trans (h.clocked x), fun x hx => (h'.others x hx).trans (h.others x hx), h'.tiles.trans h.tiles,
    h'.skips.trans h.skips, h'.pending.trans h.pending⟩

theorem of_riddle {q : Nat} {s u : State} (hr : u.riddle = s.riddle) (ht : u.tiles = s.tiles) (hk : u.skips = s.skips)
    (hp : u.pending = s.pending) : EdgeKept q s u :=
  ⟨fun _ => by rw [State.block, hr]; rfl, fun _ _ => by rw [State.block, hr]; rfl, ht, hk, hp⟩

theorem modBlock (q : Nat) (s : State) (f : RBlock → RBlock) (hf : ∀ b, (f b).clocked = b.clocked) : EdgeKept q s (s.modBlock q f) := by
  refine ⟨fun x => ?_, fun x hx => block_modBlock_other s q x f hx, rfl, rfl, rfl⟩
  by_cases hx : x = q
  · subst hx
    rw [block_modBlock, hf]
  · rw [block_modBlock_other _ _ _ _ hx]

theorem count (q : Nat) (s : State) (k i c n : Nat) : EdgeKept q s (s.count k i c n) := of_riddle (by simp) (by simp) (by simp) (by simp)

theorem raise (q : Nat) (s : State) (k : EvKind) (e : EvArgs) : EdgeKept q s (s.raise k e) :=
  of_riddle (by simp) (by simp) (by simp) (by simp)

theorem passFrame (q x : Nat) (s : State) (f : ROut) (err : Bool) (due : Nat) : EdgeKept q s (s.passFrame x f err due) := by
  unfold State.passFrame
  extract_lets img
  split
  · exact refl q s
  · split
    · exact refl q s
    · exact of_riddle rfl rfl rfl rfl

theorem endOutput (q : Nat) (s : State) (f : ROut) (err : Bool) : EdgeKept q s (s.endOutput q f err) := by
  unfold State.endOutput
  extract_lets b e s1
  have h1 : EdgeKept q s s1 := (modBlock q s (fun b => { b with errNext := false }) (fun _ => rfl)).trans (count q _ 9 q 1 1)
  split
  · exact (h1.trans (modBlock q _ _ (fun _ => by rfl))).trans (passFrame q q _ _ _ _)
  · exact h1.trans (modBlock q _ _ (fun _ => by rfl))

theorem abortOutput (q : Nat) (s : State) (port : Nat) : EdgeKept q s (s.abortOutput q port) := by
  unfold State.abortOutput
  split
  · exact (modBlock q s _ (fun _ => by rfl)).trans (endOutput q _ _ _)
  · exact refl q s

theorem upTo {q n : Nat} {s u : State} (f : State → Nat → State) (h : EdgeKept q s u) (hf : ∀ u k, EdgeKept q u (f u k)) :
    EdgeKept q s (Machine.upTo n f u) :=
  foldl_keeps (EdgeKept q s) f (fun u k hu => hu.trans (hf u k)) _ _ h

end EdgeKept

/-- The registers of block q after an edge of a tree, the state before it being s. -/
def State.edgeBlock (s : State) (q tree : Nat) (x : RBlock) : List Nat × Tab RWordIn × Bool :=
  let reset := (s.block q).portTree == tree && (s.block q).resetAsked
  (if reset then (s.block q).initRegs else s.blockNext q tree, if (s.block q).portTree == tree then [] else x.inNow, x.resetAsked && !reset)

theorem blockEdge_off {s : State} {q : Nat} (u : State) (tree : Nat) (h : (s.block q).loaded = false) : s.blockEdge u q tree = u := by
  unfold State.blockEdge
  dsimp only
  rw [if_pos (by rw [h]; rfl)]

/-- A loaded block takes its next registers; the rest of the edge writes no clocked field. -/
theorem blockEdge_on {s : State} {q : Nat} (u : State) (tree : Nat) (h : (s.block q).loaded = true) :
    ∃ v, EdgeKept q v (s.blockEdge u q tree) ∧ (v.block q).clocked = s.edgeBlock q tree (u.block q)
      ∧ (∀ x, x ≠ q → v.block x = u.block x) ∧ v.tiles = u.tiles ∧ v.skips = u.skips ∧ v.pending = u.pending := by
  unfold State.blockEdge
  extract_lets b ms bad port reset u1 u2 u3
  rw [if_neg (by rw [show b.loaded = true from h]; exact Bool.false_ne_true)]
  refine ⟨u1, ?_, ?_, fun x hx => block_modBlock_other _ _ _ _ hx, rfl, rfl, rfl⟩
  · have h2 : EdgeKept q u1 u2 := (EdgeKept.refl q u1).upTo _ (fun v k => (EdgeKept.count q v 9 q 5 1).trans (EdgeKept.raise q _ _ _))
    have h3 : EdgeKept q u1 u3 := by
      unfold u3
      split
      · exact h2.upTo _ (fun v k => EdgeKept.abortOutput q v k)
      · exact h2
    split
    · split
      · exact h3.trans (EdgeKept.modBlock q _ _ (fun _ => by rfl))
      · exact h3
    · exact h3
  · show ((u.modBlock q _).block q).clocked = _
    rw [block_modBlock]
    rfl

/-- An edge of one block leaves the others, the tiles, the skips and the queue alone. -/
theorem blockEdge_kept (s u : State) (q tree : Nat) :
    (∀ x, x ≠ q → (s.blockEdge u q tree).block x = u.block x) ∧ (s.blockEdge u q tree).tiles = u.tiles
      ∧ (s.blockEdge u q tree).skips = u.skips ∧ (s.blockEdge u q tree).pending = u.pending := by
  cases h : (s.block q).loaded with
  | false =>
    rw [blockEdge_off u tree h]
    exact ⟨fun _ _ => rfl, rfl, rfl, rfl⟩
  | true =>
    obtain ⟨v, hkept, -, hothers, htiles, hskips, hpending⟩ := blockEdge_on u tree h
    exact ⟨fun x hx => (hkept.others x hx).trans (hothers x hx), hkept.tiles.trans htiles, hkept.skips.trans hskips,
      hkept.pending.trans hpending⟩

/-! ## The edge over all blocks -/

theorem foldl_blockEdge_kept (s : State) (tree : Nat) (l : List Nat) (u : State) :
    (∀ x, x ∉ l → (l.foldl (fun u q => s.blockEdge u q tree) u).block x = u.block x)
      ∧ (l.foldl (fun u q => s.blockEdge u q tree) u).tiles = u.tiles ∧ (l.foldl (fun u q => s.blockEdge u q tree) u).skips = u.skips
      ∧ (l.foldl (fun u q => s.blockEdge u q tree) u).pending = u.pending := by
  induction l generalizing u with
  | nil => exact ⟨fun _ _ => rfl, rfl, rfl, rfl⟩
  | cons q l ih =>
    obtain ⟨hothers, htiles, hskips, hpending⟩ := ih (s.blockEdge u q tree)
    obtain ⟨hothers1, htiles1, hskips1, hpending1⟩ := blockEdge_kept s u q tree
    refine ⟨fun x hx => ?_, htiles.trans htiles1, hskips.trans hskips1, hpending.trans hpending1⟩
    rw [List.mem_cons, not_or] at hx
    exact (hothers x hx.2).trans (hothers1 x hx.1)

/-- Block q sees the edge once, as it stood before it. -/
theorem foldl_blockEdge_block (s : State) (tree : Nat) {l : List Nat} (hl : l.Nodup) {q : Nat} (hq : q ∈ l) (u : State) :
    ∃ w, w.block q = u.block q ∧ (l.foldl (fun u q => s.blockEdge u q tree) u).block q = (s.blockEdge w q tree).block q := by
  induction l generalizing u with
  | nil => exact absurd hq List.not_mem_nil
  | cons x l ih =>
    rw [List.nodup_cons] at hl
    by_cases hx : q = x
    · subst hx
      exact ⟨u, rfl, (foldl_blockEdge_kept s tree l _).1 q hl.1⟩
    · obtain ⟨w, hw, hfold⟩ := ih hl.2 ((List.mem_cons.1 hq).resolve_left hx) (s.blockEdge u x tree)
      exact ⟨w, hw.trans ((blockEdge_kept s u x tree).1 q hx), hfold⟩

/-- The pairs take their levels, and nothing else changes. -/
theorem pairEdge_kept (s u : State) (tree i : Nat) (rise fall : Bool) :
    (∀ x, (s.pairEdge u tree i rise fall).block x = u.block x) ∧ (s.pairEdge u tree i rise fall).tiles = u.tiles
      ∧ (s.pairEdge u tree i rise fall).skips = u.skips ∧ (s.pairEdge u tree i rise fall).pending = u.pending := by
  unfold State.pairEdge
  extract_lets x qs drive set
  split
  · exact ⟨fun _ => rfl, rfl, rfl, rfl⟩
  · split
    · exact ⟨fun _ => rfl, rfl, rfl, rfl⟩
    · exact ⟨fun _ => rfl, rfl, rfl, rfl⟩

theorem treeRisingEdgeDo_kept (tree : Nat) (rise fall : Byte) (s : State) :
    (∀ q, q < 16 → ∃ w, w.block q = s.block q ∧ (treeRisingEdgeDo tree rise fall s).block q = (s.blockEdge w q tree).block q)
      ∧ (treeRisingEdgeDo tree rise fall s).tiles = s.tiles ∧ (treeRisingEdgeDo tree rise fall s).skips = s.skips
      ∧ (treeRisingEdgeDo tree rise fall s).pending = s.pending := by
  have hpairs : ∀ v : State, (∀ x, (upTo 8 (fun u i => s.pairEdge u tree i (rise.getLsbD i) (fall.getLsbD i)) v).block x = v.block x)
      ∧ (upTo 8 (fun u i => s.pairEdge u tree i (rise.getLsbD i) (fall.getLsbD i)) v).tiles = v.tiles
      ∧ (upTo 8 (fun u i => s.pairEdge u tree i (rise.getLsbD i) (fall.getLsbD i)) v).skips = v.skips
      ∧ (upTo 8 (fun u i => s.pairEdge u tree i (rise.getLsbD i) (fall.getLsbD i)) v).pending = v.pending := fun v => by
    refine foldl_keeps (fun u => (∀ x, u.block x = v.block x) ∧ u.tiles = v.tiles ∧ u.skips = v.skips ∧ u.pending = v.pending) _
      (fun u i hu => ?_) _ _ ⟨fun _ => rfl, rfl, rfl, rfl⟩
    obtain ⟨hblock, htiles, hskips, hpending⟩ := pairEdge_kept s u tree i (rise.getLsbD i) (fall.getLsbD i)
    exact ⟨fun x => (hblock x).trans (hu.1 x), htiles.trans hu.2.1, hskips.trans hu.2.2.1, hpending.trans hu.2.2.2⟩
  obtain ⟨hblock, htiles, hskips, hpending⟩ := hpairs (upTo 16 (fun u q => s.blockEdge u q tree) s)
  obtain ⟨-, htiles1, hskips1, hpending1⟩ := foldl_blockEdge_kept s tree (List.range 16) s
  refine ⟨fun q hq => ?_, htiles.trans htiles1, hskips.trans hskips1, hpending.trans hpending1⟩
  obtain ⟨w, hw, hfold⟩ := foldl_blockEdge_block s tree List.nodup_range (List.mem_range.2 hq) s
  exact ⟨w, hw, (hblock q).trans hfold⟩

/-- A loaded block after the edge. -/
theorem treeRisingEdgeDo_clocked {tree q : Nat} (rise fall : Byte) {s : State} (hq : q < 16) (hloaded : (s.block q).loaded = true) :
    ((treeRisingEdgeDo tree rise fall s).block q).clocked = s.edgeBlock q tree (s.block q) := by
  obtain ⟨w, hw, hblock⟩ := (treeRisingEdgeDo_kept tree rise fall s).1 q hq
  obtain ⟨v, hkept, hclocked, -⟩ := blockEdge_on w tree hloaded
  rw [hblock, hkept.clocked, hclocked, hw]

theorem contains_filter_range {n i : Nat} (p : Nat → Bool) (h : i < n) : ((List.range n).filter p).contains i = p i := by
  cases hp : p i with
  | true => simpa [List.contains_iff_mem] using ⟨h, hp⟩
  | false => simpa [List.contains_iff_mem] using fun _ => hp

theorem reg_blockNext (s : State) (q tree : Nat) {i : Nat} (hi : i < 1024) :
    (s.blockNext q tree).contains i =
      (if ((s.block q).cell i).regEn && ((s.block q).cell i).clock == tree then s.cellNext q i else (s.block q).reg i) := by
  unfold State.blockNext
  exact contains_filter_range _ hi

theorem reg_initRegs (b : RBlock) {i : Nat} (hi : i < 1024) : b.initRegs.contains i = (b.cell i).init :=
  contains_filter_range _ hi

/-! ## Readback and repair -/

theorem track_kept (s : State) (key : Nat) (link : Bool) :
    (s.track key link).1.riddle = s.riddle ∧ (s.track key link).1.tiles = s.tiles := by
  unfold State.track
  extract_lets f set
  split
  · exact ⟨rfl, rfl⟩
  · split
    · exact ⟨rfl, rfl⟩
    · split
      · exact ⟨rfl, rfl⟩
      · dsimp only
        exact ⟨by rw [raise_riddle]; rfl, by rw [raise_tiles]; rfl⟩

/-- One bad record: of a loaded block, its repair begins if it has not begun. -/
def State.noteBad (s : State) (r : Nat × Nat) : State :=
  if (s.block r.1).loaded && !(s.block r.1).repairs.contains r.2 then
    ((s.modBlock r.1 (fun b => { b with repairs := b.repairs ++ [r.2] })).track (locKey 14 r.1 0 r.2) false).1
  else s

/-- The fields of a block that readback goes by. -/
def RBlock.readback (b : RBlock) : List Nat × Bool := (b.q, b.loaded)

/-- After the records of `bad`, with the registers as they were. -/
structure ReadBack (bad : List (Nat × Nat)) (s u : State) : Prop where
  tiles : u.tiles = s.tiles
  readbackAt : u.riddle.readbackAt = s.riddle.readbackAt
  readback : ∀ q, (u.block q).readback = (s.block q).readback
  repairs : ∀ q r, r ∈ (u.block q).repairs ↔ r ∈ (s.block q).repairs ∨ ((s.block q).loaded = true ∧ (q, r) ∈ bad)

theorem noteBad_readBack (s : State) (r : Nat × Nat) : ReadBack [r] s (s.noteBad r) := by
  obtain ⟨p, n⟩ := r
  unfold State.noteBad
  by_cases h : ((s.block p).loaded && !(s.block p).repairs.contains n) = true
  · rw [if_pos h]
    obtain ⟨hriddle, htiles⟩ := track_kept (s.modBlock p (fun b => { b with repairs := b.repairs ++ [n] })) (locKey 14 p 0 n) false
    obtain ⟨hloaded, -⟩ := (Bool.and_eq_true _ _).mp h
    have hblock : ∀ q, (((s.modBlock p (fun b => { b with repairs := b.repairs ++ [n] })).track (locKey 14 p 0 n) false).1).block q
        = (s.modBlock p (fun b => { b with repairs := b.repairs ++ [n] })).block q := fun q => by
      rw [State.block, hriddle]
      rfl
    refine ⟨htiles, by rw [hriddle]; rfl, fun q => ?_, fun q m => ?_⟩
    · rw [hblock]
      by_cases hq : q = p
      · subst hq
        rw [block_modBlock]
        rfl
      · rw [block_modBlock_other _ _ _ _ hq]
    · rw [hblock]
      by_cases hq : q = p
      · subst hq
        rw [block_modBlock]
        simp [hloaded]
      · rw [block_modBlock_other _ _ _ _ hq]
        simp [hq]
  · rw [if_neg h]
    refine ⟨rfl, rfl, fun _ => rfl, fun q m => ⟨.inl, ?_⟩⟩
    rintro (hm | ⟨hloaded, hmem⟩)
    · exact hm
    · obtain ⟨rfl, rfl⟩ := Prod.mk.inj (List.mem_singleton.1 hmem)
      rw [hloaded] at h
      simpa [List.contains_iff_mem] using h

theorem ReadBack.trans {a b : List (Nat × Nat)} {s u w : State} (h : ReadBack a s u) (h' : ReadBack b u w) : ReadBack (a ++ b) s w := by
  refine ⟨h'.tiles.trans h.tiles, h'.readbackAt.trans h.readbackAt, fun q => (h'.readback q).trans (h.readback q), fun q r => ?_⟩
  have hloaded : (u.block q).loaded = (s.block q).loaded := congrArg (·.2) (h.readback q)
  rw [h'.repairs, h.repairs, hloaded, List.mem_append]
  tauto

theorem foldl_noteBad (bad : List (Nat × Nat)) (s : State) : ReadBack bad s (bad.foldl State.noteBad s) := by
  induction bad generalizing s with
  | nil => exact ⟨rfl, rfl, fun _ => rfl, fun _ _ => by simp⟩
  | cons r bad ih => exact (noteBad_readBack s r).trans (ih _)

theorem riddleConfigReadbackDo_eq (bad : List (Nat × Nat)) (s : State) :
    riddleConfigReadbackDo bad s = bad.foldl State.noteBad (s.modRiddle (fun r => { r with readbackAt := s.now + msFc })) := rfl

/-! ## The measured frequencies -/

theorem lookD_foldl_put {α : Type} (f : Nat → α → α) (d : α) (ts : Tab α) {l : List Nat} (hl : l.Nodup) {t : Nat} (ht : t ∈ l) :
    lookD (l.foldl (fun ts t => put ts t (f t (lookD ts t d))) ts) t d = f t (lookD ts t d) := by
  have hother : ∀ (l : List Nat) (ts : Tab α), t ∉ l → lookD (l.foldl (fun ts t => put ts t (f t (lookD ts t d))) ts) t d = lookD ts t d := by
    intro l
    induction l with
    | nil => exact fun _ _ => rfl
    | cons x l ih =>
      intro ts hx
      rw [List.mem_cons, not_or] at hx
      rw [List.foldl_cons, ih _ hx.2, lookD_put_other _ _ _ _ _ hx.1]
  induction l generalizing ts with
  | nil => exact absurd ht List.not_mem_nil
  | cons x l ih =>
    rw [List.nodup_cons] at hl
    rw [List.foldl_cons]
    by_cases hx : t = x
    · subst hx
      rw [hother l _ hl.1, lookD_put_same]
    · rw [ih _ hl.2 ((List.mem_cons.1 ht).resolve_left hx), lookD_put_other _ _ _ _ _ hx]

/-! ## Capture -/

theorem endCapture_block (s : State) (q : Nat) : (s.endCapture q).block q = { s.block q with capture := none, captureBusy := false } :=
  block_modBlock _ _ _

theorem captureEdgeDo_written {q : Nat} {c : RCapture} {m : Cmd} {s v : State} (hc : (s.block q).capture = some c)
    (hm : s.cmd? c.seq = some m) (hv : (s.endCapture q).writeCva m.claim c.dest c.record = some v) :
    captureEdgeDo q s = v.complete c.seq (BitVec.ofNat 128 (boolNat c.disturbed)) := by
  have hm' : (s.endCapture q).cmd? c.seq = some m := hm
  unfold captureEdgeDo
  rw [hc]
  dsimp only
  rw [hm']
  dsimp only
  rw [hv]

/-- Settles O40: each clause is the branch of its command that its premises choose; an edge goes over the blocks one by one,
each seeing the values before it. -/
theorem riddleClocksUpkeepAndCapture : Obligations.RiddleClocksUpkeepAndCapture := by
  refine ⟨fun tree rise fall s htree hon => ⟨treeRisingEdgeDo tree rise fall s, ?_, ?_⟩,
    fun bad s hdue hplaces => ⟨riddleConfigReadbackDo bad s, ?_, ?_⟩, fun q s hq hrepairs => ⟨riddleRepairCompleteDo q s, ?_, ?_⟩,
    fun f s hf => ⟨treeFrequencyUpdateDo f s, ?_, ?_⟩, fun q c m s u' hc hrecord hm hu' => ⟨captureEdgeDo q s, ?_, ?_⟩,
    fun q c m s hc hm hrecord hrunning hlate => ⟨captureTimeoutDo q s, ?_, ?_⟩⟩
  · show whenDue _ _ = _
    rw [decide_eq_true htree, hon]
    rfl
  · obtain ⟨hblocks, htiles, hskips, hpending⟩ := treeRisingEdgeDo_kept tree rise fall s
    refine ⟨fun q hq hoff => ?_, fun q i hq hi hloaded hstays => ?_, fun q i hq hi hloaded hport hreset => ?_,
      fun q hq hloaded hport => ?_, htiles, hskips, hpending⟩
    · obtain ⟨w, hw, hblock⟩ := hblocks q hq
      rw [hblock, blockEdge_off w tree hoff, hw]
    · have hclocked := treeRisingEdgeDo_clocked (tree := tree) rise fall hq hloaded
      have hreset : ((s.block q).portTree == tree && (s.block q).resetAsked) = false := by
        rcases hstays with hport | hnot
        · rw [beq_eq_false_iff_ne.2 hport]
          rfl
        · rw [hnot, Bool.and_false]
      have hregs : ((treeRisingEdgeDo tree rise fall s).block q).q = s.blockNext q tree := by
        refine (congrArg (·.1) hclocked).trans ?_
        show (if _ then _ else _) = _
        rw [hreset]
        rfl
      rw [RBlock.reg, hregs]
      exact reg_blockNext s q tree hi
    · have hclocked := treeRisingEdgeDo_clocked (tree := tree) rise fall hq hloaded
      have hboth : ((s.block q).portTree == tree && (s.block q).resetAsked) = true := by rw [hport, hreset, beq_self_eq_true]; rfl
      have hregs : ((treeRisingEdgeDo tree rise fall s).block q).q = (s.block q).initRegs := by
        refine (congrArg (·.1) hclocked).trans ?_
        show (if _ then _ else _) = _
        rw [hboth]
        rfl
      have hasked : ((treeRisingEdgeDo tree rise fall s).block q).resetAsked = false := by
        refine (congrArg (·.2.2) hclocked).trans ?_
        show ((s.block q).resetAsked && !((s.block q).portTree == tree && (s.block q).resetAsked)) = false
        rw [hboth, Bool.not_true, Bool.and_false]
      refine ⟨?_, hasked⟩
      rw [RBlock.reg, hregs]
      exact reg_initRegs _ hi
    · have hclocked := treeRisingEdgeDo_clocked (tree := tree) rise fall hq hloaded
      refine (congrArg (·.2.1) hclocked).trans ?_
      show (if ((s.block q).portTree == tree) = true then [] else _) = _
      rw [if_pos (by rw [hport, beq_self_eq_true])]
  · show whenDue _ _ = _
    have hok : (decide (s.riddle.readbackAt ≤ s.now) && bad.all (fun r => decide (r.1 < 16) && decide (r.2 < 64))) = true := by
      simpa [hdue] using fun a b hab => hplaces (a, b) hab
    rw [hok]
    rfl
  · have hread := foldl_noteBad bad (s.modRiddle (fun r => { r with readbackAt := s.now + msFc }))
    rw [riddleConfigReadbackDo_eq]
    exact ⟨hread.readbackAt, hread.tiles, fun q => ⟨congrArg (·.1) (hread.readback q), hread.repairs q⟩⟩
  · show whenDue _ _ = _
    have hrepairing : (s.block q).repairing = true := by simpa [RBlock.repairing] using hrepairs
    rw [decide_eq_true hq, hrepairing]
    rfl
  · have hblock : ∀ x, (riddleRepairCompleteDo q s).block x = (s.modBlock q (fun b => { b with
        repairs := b.repairs.drop 1, configRepaired := true, repairedAt := some s.now
        capture := b.capture.map (fun c => if c.takenAt = some s.now then { c with disturbed := true } else c) })).block x := fun x => by
      rw [State.block, riddleRepairCompleteDo, raise_riddle]
      rfl
    refine ⟨?_, ?_, ?_, ?_, fun x hx => ?_⟩
    · rw [hblock, block_modBlock, List.drop_one]
    · rw [hblock, block_modBlock]
    · rw [hblock, block_modBlock]
    · rw [riddleRepairCompleteDo, raise_faults]
      rfl
    · rw [hblock, block_modBlock_other _ _ _ _ hx]
  · exact if_pos (decide_eq_true hf)
  · refine ⟨rfl, fun t ht => ?_⟩
    exact lookD_foldl_put (fun t x => { x with freqKhz := f.getD t 0 }) {} s.riddle.trees List.nodup_range (List.mem_range.2 ht)
  · show whenDue _ _ = _
    have hok : captureEdgeOk q s = true := by
      unfold captureEdgeOk
      rw [hc]
      simpa using hrecord
    rw [hok]
    rfl
  · have hframe := CvaFrame.writeCva hu'
    have hcmd : u'.cmd? c.seq = some m := (cmd?_of_cmds hframe.events.cmds c.seq).trans hm
    have hriddle : u'.riddle = (s.endCapture q).riddle := congrArg (·.2.2.2.2.2.1) hframe.rest
    rw [captureEdgeDo_written hc hm hu']
    have hblock : (u'.complete c.seq (BitVec.ofNat 128 (boolNat c.disturbed))).block q
        = { s.block q with capture := none, captureBusy := false } := by
      rw [State.block, State.complete, finish_riddle, hriddle]
      exact endCapture_block s q
    dsimp only
    rw [hblock]
    exact ⟨rfl, rfl, ended_complete hcmd _⟩
  · show whenDue _ _ = _
    have hok : captureTimeoutOk q s = true := by
      unfold captureTimeoutOk
      rw [hc]
      simp only [hrecord, hrunning, hlate, List.isEmpty_nil, decide_true, Bool.and_self]
    rw [hok]
    rfl
  · have hdo : captureTimeoutDo q s = (s.endCapture q).fail c.seq Reason.captureTimeout := by
      unfold captureTimeoutDo
      rw [hc]
    rw [hdo]
    have hblock : ((s.endCapture q).fail c.seq Reason.captureTimeout).block q = { s.block q with capture := none, captureBusy := false } := by
      rw [State.block, State.fail, finish_riddle]
      exact endCapture_block s q
    dsimp only
    rw [hblock]
    exact ⟨rfl, rfl, ended_fail (s := s.endCapture q) hm _⟩

end Sys2Proof.Machine

/-! PROOFS. The sump ports: runs granted by deadline, and the canary (R313 to R317). -/

namespace Sys2Proof.Machine

/-! ## Ports -/

@[simp] theorem sumpPort_modSumpPort (s : State) (p : Nat) (f : SumpPort → SumpPort) : (s.modSumpPort p f).sumpPort p = f (s.sumpPort p) := by
  simp [State.sumpPort, State.modSumpPort, State.modSump]

theorem sumpPort_modSumpPort_other (s : State) (p x : Nat) (f : SumpPort → SumpPort) (h : x ≠ p) :
    (s.modSumpPort p f).sumpPort x = s.sumpPort x := by
  simp [State.sumpPort, State.modSumpPort, State.modSump, lookD_put_other _ _ _ _ _ h]

@[simp] theorem sumpPort_count (s : State) (k i c n p : Nat) : (s.count k i c n).sumpPort p = s.sumpPort p := by simp [State.sumpPort]

/-! ## The best run -/

/-- No run goes before one that goes before none of those that it goes before. -/
def Negative (before : Run → Run → Bool) : Prop :=
  (∀ a, before a a = false) ∧ (∀ a b, before a b = true → before b a = false)
    ∧ ∀ a b c, before a b = false → before b c = false → before a c = false

theorem earlier_negative : Negative Run.earlier := by
  refine ⟨fun a => ?_, fun a b => ?_, fun a b c => ?_⟩ <;>
    simp only [Run.earlier, Bool.or_eq_true, Bool.or_eq_false_iff, Bool.and_eq_true, Bool.and_eq_false_iff, decide_eq_true_eq,
      decide_eq_false_iff_not, beq_iff_eq, beq_eq_false_iff_ne] <;>
    omega

theorem bestRun_isSome (before : Run → Run → Bool) {l : List Run} (h : l ≠ []) : ∃ r, bestRun before l = some r := by
  induction l with
  | nil => exact absurd rfl h
  | cons r l ih =>
    cases l with
    | nil => exact ⟨r, rfl⟩
    | cons q l =>
      obtain ⟨g, hg⟩ := ih (List.cons_ne_nil _ _)
      exact ⟨if before g r then g else r, by rw [bestRun]; rw [hg]; exact List.cons_ne_nil _ _⟩

/-- The best run is one of the list, and none of the list goes before it. -/
theorem bestRun_best {before : Run → Run → Bool} (hb : Negative before) {l : List Run} {g : Run} (h : bestRun before l = some g) :
    g ∈ l ∧ ∀ q ∈ l, before q g = false := by
  induction l generalizing g with
  | nil => exact nomatch h
  | cons r l ih =>
    cases l with
    | nil =>
      obtain rfl := Option.some.inj h
      exact ⟨List.mem_singleton_self _, fun q hq => by rw [List.mem_singleton.1 hq]; exact hb.1 _⟩
    | cons q0 l =>
      obtain ⟨x, hx⟩ := bestRun_isSome before (List.cons_ne_nil q0 l)
      obtain ⟨hmem, hbest⟩ := ih hx
      rw [bestRun] at h
      · rw [hx] at h
        obtain rfl := Option.some.inj h
        by_cases hxr : before x r = true
        · rw [if_pos hxr]
          refine ⟨List.mem_cons_of_mem _ hmem, fun q hq => ?_⟩
          rcases List.mem_cons.1 hq with rfl | hq
          · exact hb.2.1 _ _ hxr
          · exact hbest q hq
        · rw [if_neg hxr]
          refine ⟨List.mem_cons_self, fun q hq => ?_⟩
          rcases List.mem_cons.1 hq with rfl | hq
          · exact hb.1 _
          · exact hb.2.2 _ _ _ (hbest q hq) (Bool.eq_false_iff.2 hxr)
      · exact List.cons_ne_nil _ _

/-! ## A grant decision -/

theorem portDecide_none {s : State} {port : Nat} (h : (s.sumpPort port).pending = []) : s.portDecide port = s := by
  unfold State.portDecide
  dsimp only
  rw [h]
  exact if_pos rfl

/-- The order by which the next decision of a port goes. -/
def State.decisionOrder (s : State) (port : Nat) : Run → Run → Bool :=
  if decide (((s.sumpPort port).decisions + 1) % s.sump.lwInterval.toNat = 0) = true then Run.longer else Run.earlier

theorem portDecide_grants {s : State} {port : Nat} {r : Run} (h : bestRun (s.decisionOrder port) (s.sumpPort port).pending = some r) :
    s.portDecide port =
      ((s.modSumpPort port (fun x => { x with
        holder := some r, pending := x.pending.erase r, grantAt := s.now, decisions := (s.sumpPort port).decisions + 1
        limit := s.sump.canary.toNat * 256, retried := false })).count 11 port 0 1).count
        11 port 1 (boolNat (decide (((s.sumpPort port).decisions + 1) % s.sump.lwInterval.toNat = 0))) := by
  have hne : ¬ (s.sumpPort port).pending.isEmpty = true := by
    intro hempty
    rw [List.isEmpty_iff.1 hempty] at h
    exact nomatch h
  unfold State.portDecide
  extract_lets p n lw
  rw [if_neg hne]
  change bestRun (if lw = true then Run.longer else Run.earlier) p.pending = some r at h
  rw [h]

/-- The port after its decision. -/
theorem portDecide_port {s : State} {port : Nat} {r : Run} (h : bestRun (s.decisionOrder port) (s.sumpPort port).pending = some r) :
    ((s.portDecide port).sumpPort port).holder = some r
      ∧ ((s.portDecide port).sumpPort port).pending = (s.sumpPort port).pending.erase r
      ∧ ((s.portDecide port).sumpPort port).grantAt = s.now := by
  rw [portDecide_grants h, sumpPort_count, sumpPort_count, sumpPort_modSumpPort]
  exact ⟨rfl, rfl, rfl⟩

theorem portDecide_one {s : State} {port : Nat} {r : Run} (h : (s.sumpPort port).pending = [r]) :
    ((s.portDecide port).sumpPort port).holder = some r ∧ ((s.portDecide port).sumpPort port).pending = []
      ∧ ((s.portDecide port).sumpPort port).grantAt = s.now := by
  have hbest : bestRun (s.decisionOrder port) (s.sumpPort port).pending = some r := by
    rw [h]
    rfl
  obtain ⟨hholder, hpending, hat⟩ := portDecide_port hbest
  exact ⟨hholder, by rw [hpending, h, List.erase_cons_head], hat⟩

/-- What a decision leaves alone. -/
theorem portDecide_kept (s : State) (port : Nat) :
    (s.portDecide port).mem = s.mem ∧ (s.portDecide port).faults = s.faults
      ∧ ((s.portDecide port).sump.logValid = s.sump.logValid ∧ (s.portDecide port).sump.logPort = s.sump.logPort
        ∧ (s.portDecide port).sump.logRequester = s.sump.logRequester
        ∧ (s.portDecide port).sump.enginesStopped = s.sump.enginesStopped)
      ∧ ∀ p, ∀ q ∈ ((s.portDecide port).sumpPort p).pending, q ∈ (s.sumpPort p).pending := by
  by_cases hempty : (s.sumpPort port).pending = []
  · rw [portDecide_none hempty]
    exact ⟨rfl, rfl, ⟨rfl, rfl, rfl, rfl⟩, fun _ _ h => h⟩
  · obtain ⟨r, hr⟩ := bestRun_isSome (s.decisionOrder port) hempty
    rw [portDecide_grants hr]
    refine ⟨by simp, by simp, ⟨by rw [count_sump, count_sump]; rfl, by rw [count_sump, count_sump]; rfl,
      by rw [count_sump, count_sump]; rfl, by rw [count_sump, count_sump]; rfl⟩, fun p q hq => ?_⟩
    rw [sumpPort_count, sumpPort_count] at hq
    by_cases hp : p = port
    · subst hp
      rw [sumpPort_modSumpPort] at hq
      exact List.mem_of_mem_erase hq
    · rwa [sumpPort_modSumpPort_other _ _ _ _ hp] at hq

/-! ## SUMP_REQUEST -/

theorem presentRun_waits {s : State} {port : Nat} (r : Run) (h : 1024 ≤ s.stackRequests (port / 32)) :
    s.presentRun port r = s.modSumpPort port (fun x => { x with waiting := x.waiting ++ [r] }) := if_pos h

theorem presentRun_presented {s : State} {port : Nat} (r : Run) (h : s.stackRequests (port / 32) < 1024) :
    s.presentRun port r =
      if (s.sumpPort port).holder.isNone then (s.modSumpPort port (fun x => { x with
        pending := x.pending ++ [{ r with since := s.now, deadline := (s.dom r.domain).lastTick + r.lst }] })).portDecide port
      else s.modSumpPort port (fun x => { x with
        pending := x.pending ++ [{ r with since := s.now, deadline := (s.dom r.domain).lastTick + r.lst }] }) :=
  if_neg (by omega)

/-! ## PORT_BURST_COMPLETE -/

theorem exec_portBurstComplete {port : Nat} {retry : Bool} {r : Run} {s : State} (hp : port < 64) (hr : (s.sumpPort port).holder = some r) :
    exec (.portBurstComplete ⟨port, retry⟩) s = .next (portBurstCompleteDo port retry s) := by
  show whenDue _ _ = _
  have hok : (decide (port < 64) && (s.sumpPort port).holder.isSome) = true := by
    rw [decide_eq_true hp, hr]
    rfl
  rw [hok]
  rfl

theorem portBurstCompleteDo_retry {port : Nat} {r : Run} {s : State} (hr : (s.sumpPort port).holder = some r) :
    portBurstCompleteDo port true s = s.modSumpPort port (fun x => { x with retried := true }) := by
  unfold portBurstCompleteDo
  rw [hr]
  rfl

theorem portBurstCompleteDo_done {port : Nat} {r : Run} {s : State} (hr : (s.sumpPort port).holder = some r) :
    portBurstCompleteDo port false s = (s.modSumpPort port (fun x => { x with
      holder := none, pending := if r.left ≤ 1 then x.pending else x.pending ++ [{ r with left := r.left - 1 }] })).portDecide port := by
  unfold portBurstCompleteDo
  rw [hr]
  rfl

/-! ## CANARY_COUNT_EXPIRY -/

/-- What the end of a stream leaves of the sump. -/
structure StreamEnded (s u : State) : Prop where
  port : ∀ p, u.sumpPort p = s.sumpPort p
  faults : u.faults = s.faults
  log : u.sump.logValid = s.sump.logValid ∧ u.sump.logPort = s.sump.logPort ∧ u.sump.logRequester = s.sump.logRequester

theorem streamEnded_finish {s u : State} (h : StreamEnded s u) (seq : Nat) (ok : Bool) (n : Nat) (r : BitVec 128) :
    StreamEnded s (u.finish seq ok n r) := by
  have hsump : (u.finish seq ok n r).sump = u.sump := finish_sump u seq ok n r
  refine ⟨fun p => ?_, (congrArg (·.2.1) (finish_finished u seq ok n r).rest).trans h.faults, by rw [hsump]; exact h.log⟩
  rw [State.sumpPort, hsump]
  exact h.port p

theorem endStream_ended (s : State) (h : Nat) (x : Stream) (ok : Bool) (n : Nat) : StreamEnded s (s.endStream h x ok n) := by
  unfold State.endStream
  extract_lets s1
  have h1 : StreamEnded s s1 := ⟨fun _ => rfl, rfl, rfl, rfl, rfl⟩
  split
  · exact streamEnded_finish h1 _ _ _ _
  · exact h1

/-- The ports without the runs of a requester. -/
def State.dropRuns (s : State) (req : Nat) : State :=
  upTo 64 (fun s p => s.modSumpPort p (fun x => { x with
    pending := x.pending.filter (fun r => r.requester != req), waiting := x.waiting.filter (fun r => r.requester != req) })) s

/-- Every run that a port has pending after that is of another requester. -/
theorem dropRuns_pending (s : State) (req : Nat) {p : Nat} (hp : p < 64) :
    ∀ q ∈ ((s.dropRuns req).sumpPort p).pending, q.requester ≠ req := by
  have hport : ∀ (l : List Nat) (u : State), (p ∈ l ∨ ∀ q ∈ (u.sumpPort p).pending, q.requester ≠ req) →
      ∀ q ∈ ((l.foldl (fun s p => s.modSumpPort p (fun x => { x with
        pending := x.pending.filter (fun r => r.requester != req), waiting := x.waiting.filter (fun r => r.requester != req) })) u).sumpPort
          p).pending, q.requester ≠ req := by
    intro l
    induction l with
    | nil => exact fun u h => h.resolve_left List.not_mem_nil
    | cons y l ih =>
      refine fun u h => ih _ ?_
      by_cases hy : p = y
      · subst hy
        refine .inr fun q hq => ?_
        rw [sumpPort_modSumpPort] at hq
        simpa using (List.mem_filter.1 hq).2
      · rw [sumpPort_modSumpPort_other _ _ _ _ hy]
        exact h.imp_left fun h => (List.mem_cons.1 h).resolve_left hy
  exact hport (List.range 64) s (.inl (List.mem_range.2 hp))

/-- What the loss of its runs leaves alone. -/
theorem dropRuns_kept (s : State) (req : Nat) :
    (s.dropRuns req).faults = s.faults ∧ (s.dropRuns req).sump.logValid = s.sump.logValid
      ∧ (s.dropRuns req).sump.logPort = s.sump.logPort ∧ (s.dropRuns req).sump.logRequester = s.sump.logRequester := by
  refine foldl_keeps (fun u => u.faults = s.faults ∧ u.sump.logValid = s.sump.logValid ∧ u.sump.logPort = s.sump.logPort
    ∧ u.sump.logRequester = s.sump.logRequester) _ (fun _ _ h => ?_) _ _ ⟨rfl, rfl, rfl, rfl⟩
  exact h

/-- A requester that is stopped has no run pending, and a middle engine is noted. -/
structure Stopped (req : Nat) (s u : State) : Prop where
  pending : ∀ p, p < 64 → ∀ q ∈ (u.sumpPort p).pending, q.requester ≠ req
  engine : 40 ≤ req → req ∈ u.sump.enginesStopped
  faults : u.faults = s.faults
  log : u.sump.logValid = s.sump.logValid ∧ u.sump.logPort = s.sump.logPort ∧ u.sump.logRequester = s.sump.logRequester

theorem stopRequester_stopped (s : State) (req : Nat) : Stopped req s (s.stopRequester req) := by
  have hpending : ∀ p, p < 64 → ∀ q ∈ ((s.dropRuns req).sumpPort p).pending, q.requester ≠ req := fun p hp => dropRuns_pending s req hp
  obtain ⟨hfaults, hlog⟩ := dropRuns_kept s req
  have hdef : s.stopRequester req =
      if req < 32 then
        match ((s.dropRuns req).hoist req).running with
        | some x => (s.dropRuns req).endStream req { x with bursts := [], next := x.progress } false Reason.canary
        | none => s.dropRuns req
      else if 40 ≤ req then (s.dropRuns req).modSump (fun x => { x with enginesStopped := req :: x.enginesStopped })
      else s.dropRuns req := rfl
  rw [hdef]
  generalize s.dropRuns req = v at hpending hfaults hlog ⊢
  split
  next hlow =>
    split
    next x _ =>
      have hended := endStream_ended v req { x with bursts := [], next := x.progress } false Reason.canary
      refine ⟨fun p hp => ?_, fun h => absurd hlow (by omega), hended.faults.trans hfaults, ?_⟩
      · rw [hended.port]
        exact hpending p hp
      · exact ⟨hended.log.1.trans hlog.1, hended.log.2.1.trans hlog.2.1, hended.log.2.2.trans hlog.2.2⟩
    next => exact ⟨hpending, fun h => absurd hlow (by omega), hfaults, hlog⟩
  · split
    · exact ⟨hpending, fun _ => List.mem_cons_self, hfaults, hlog⟩
    next hmid => exact ⟨hpending, fun h => absurd h hmid, hfaults, hlog⟩

/-- The port is free, and the bite is logged for run r. -/
def State.logBite (s : State) (port : Nat) (r : Run) : State :=
  let hf := decide (32 ≤ r.requester) && decide (r.requester ≤ 36)
  let claim := if hf then 0 else r.claim
  ((((s.modSumpPort port (fun x => { x with holder := none })).modSump (fun x => { x with
    logValid := true, logPort := port, logRequester := r.requester, logClaim := claim, logHeadframe := hf })).modClaim
    claim (fun c => { c with canary := true })).hit sumpLog 31).hit (sumpClaim claim) 2

def biteEv (port : Nat) (r : Run) : EvArgs :=
  { claim := if decide (32 ≤ r.requester) && decide (r.requester ≤ 36) then 0 else r.claim, locKind := 3, loc := port }

theorem logBite_log (s : State) (port : Nat) (r : Run) :
    (s.logBite port r).sump.logValid = true ∧ (s.logBite port r).sump.logPort = port
      ∧ (s.logBite port r).sump.logRequester = r.requester ∧ (s.logBite port r).faults = s.faults := by
  unfold State.logBite
  extract_lets hf claim
  rw [hit_sump, hit_sump, modClaim_sump, hit_faults, hit_faults, modClaim_faults]
  exact ⟨rfl, rfl, rfl, rfl⟩

theorem canaryCountExpiryDo_eq {port : Nat} {r : Run} {s : State} (hr : (s.sumpPort port).holder = some r) :
    canaryCountExpiryDo port s = ((((s.logBite port r).stopRequester r.requester).count 11 port 2 1).raise Ev.canaryBite
      (biteEv port r)).portDecide port := by
  unfold canaryCountExpiryDo State.logBite biteEv
  rw [hr]

/-- Settles O42: the best run of a list goes before none that is in it, and a decision takes that run. -/
theorem sumpPortsGrantByDeadline : Obligations.SumpPortsGrantByDeadline := by
  refine ⟨fun port req claim d len lst wr s hport hreq hclaim hd h1 h64 hlst => ?_, fun port r s hport hr => ?_,
    fun port r s hport hr hover => ?_⟩
  · have hexec : exec (.sumpRequest port req claim d len lst wr) s = .next (sumpRequestDo port req claim d len lst wr s) := by
      refine if_pos ?_
      simp only [hport, hreq, hclaim, hd, h1, h64, hlst, decide_true, Bool.and_true]
    intro r
    refine ⟨fun hroom hfree hempty => ⟨_, hexec, ?_⟩, fun h hroom hheld => ⟨_, hexec, ?_⟩, fun hfull => ⟨_, hexec, ?_⟩⟩
    · rw [sumpRequestDo, presentRun_presented _ hroom, hfree]
      obtain ⟨hholder, hpending, hat⟩ := portDecide_one (s := s.modSumpPort port (fun x => { x with pending := x.pending ++ [r] }))
        (port := port) (r := r) (by rw [sumpPort_modSumpPort, hempty]; rfl)
      exact ⟨hholder, hpending, hat, (portDecide_kept _ port).1⟩
    · rw [sumpRequestDo, presentRun_presented _ hroom, hheld, if_neg (by simp)]
      dsimp only
      rw [sumpPort_modSumpPort]
      exact ⟨hheld, rfl, rfl⟩
    · rw [sumpRequestDo, presentRun_waits _ hfull]
      exact ⟨sumpPort_modSumpPort _ _ _, rfl⟩
  · refine ⟨?_, fun hmore hempty => ⟨_, exec_portBurstComplete hport hr, ?_⟩, fun hlast hempty => ⟨_, exec_portBurstComplete hport hr, ?_⟩,
      fun hlast hpending hturn => ⟨_, exec_portBurstComplete hport hr, ?_⟩⟩
    · rw [exec_portBurstComplete hport hr, portBurstCompleteDo_retry hr]
    · rw [portBurstCompleteDo_done hr]
      exact portDecide_one (by rw [sumpPort_modSumpPort, hempty, if_neg (by omega)]; rfl)
    · rw [portBurstCompleteDo_done hr, portDecide_none (by rw [sumpPort_modSumpPort, hempty, if_pos hlast])]
      dsimp only
      rw [sumpPort_modSumpPort]
    · rw [portBurstCompleteDo_done hr]
      have hport' : (s.modSumpPort port (fun x => { x with
          holder := none, pending := if r.left ≤ 1 then x.pending else x.pending ++ [{ r with left := r.left - 1 }] })).sumpPort port
          = { s.sumpPort port with holder := none } := by
        rw [sumpPort_modSumpPort, if_pos hlast]
      have horder : (s.modSumpPort port (fun x => { x with
          holder := none, pending := if r.left ≤ 1 then x.pending else x.pending ++ [{ r with left := r.left - 1 }] })).decisionOrder port
          = Run.earlier := by
        unfold State.decisionOrder
        rw [hport']
        exact if_neg (fun h => hturn (of_decide_eq_true h))
      obtain ⟨g, hg⟩ := bestRun_isSome Run.earlier hpending
      obtain ⟨hmem, hbest⟩ := bestRun_best earlier_negative hg
      obtain ⟨hholder, hleft, -⟩ := portDecide_port (port := port) (r := g) (by rw [horder, hport']; exact hg)
      rw [hport'] at hleft
      exact ⟨g, hmem, hholder, hbest, hleft⟩
  · refine ⟨canaryCountExpiryDo port s, ?_, ?_⟩
    · show whenDue _ _ = _
      have hok : canaryCountExpiryOk port s = true := by
        unfold canaryCountExpiryOk
        rw [decide_eq_true hport, hr, decide_eq_true hover]
        rfl
      rw [hok]
      rfl
    · obtain ⟨hvalid, hlogPort, hrequester, hfaults⟩ := logBite_log s port r
      rw [canaryCountExpiryDo_eq hr]
      generalize s.logBite port r = s2 at hvalid hlogPort hrequester hfaults ⊢
      generalize biteEv port r = e
      have hstopped := stopRequester_stopped s2 r.requester
      generalize s2.stopRequester r.requester = v at hstopped ⊢
      have hsump : ((v.count 11 port 2 1).raise Ev.canaryBite e).sump = v.sump := by rw [raise_sump, count_sump]
      obtain ⟨-, hf, ⟨h1, h2, h3, h4⟩, hpending⟩ := portDecide_kept ((v.count 11 port 2 1).raise Ev.canaryBite e) port
      refine ⟨?_, ?_, ?_, ?_, fun p hp q hq => ?_, fun hengine => ?_⟩
      · rw [h1, hsump, hstopped.log.1, hvalid]
      · rw [h2, hsump, hstopped.log.2.1, hlogPort]
      · rw [h3, hsump, hstopped.log.2.2, hrequester]
      · rw [hf, raise_faults]
        show (v.count 11 port 2 1).faults.eventSeq + 1 = _
        rw [count_faults, hstopped.faults, hfaults]
      · refine hstopped.pending p hp q ?_
        have hq' := hpending p q hq
        rw [State.sumpPort, hsump] at hq'
        exact hq'
      · rw [h4, hsump]
        exact hstopped.engine hengine

end Sys2Proof.Machine

/-! PROOFS. Hoists: bursts, walks and hold copies (R298, R305 to R311). -/

namespace Sys2Proof.Machine

/-! ## Hoists -/

@[simp] theorem hoist_modHoist (s : State) (h : Nat) (f : Hoist → Hoist) : (s.modHoist h f).hoist h = f (s.hoist h) := by
  simp [State.hoist, State.modHoist, State.modSump]

theorem hoist_modHoist_other (s : State) (h x : Nat) (f : Hoist → Hoist) (hx : x ≠ h) : (s.modHoist h f).hoist x = s.hoist x := by
  simp [State.hoist, State.modHoist, State.modSump, lookD_put_other _ _ _ _ _ hx]

/-- Memory and hoists are as before. -/
structure HoistsKept (s u : State) : Prop where
  mem : u.mem = s.mem
  hoists : u.sump.hoists = s.sump.hoists

namespace HoistsKept

theorem refl (s : State) : HoistsKept s s := ⟨rfl, rfl⟩

theorem trans {s u w : State} (h : HoistsKept s u) (h' : HoistsKept u w) : HoistsKept s w :=
  ⟨h'.mem.trans h.mem, h'.hoists.trans h.hoists⟩

theorem hoist {s u : State} (h : HoistsKept s u) (k : Nat) : u.hoist k = s.hoist k := by
  rw [State.hoist, h.hoists]
  rfl

theorem portDecide (s : State) (port : Nat) : HoistsKept s (s.portDecide port) := by
  by_cases hempty : (s.sumpPort port).pending = []
  · rw [portDecide_none hempty]
    exact refl s
  · obtain ⟨r, hr⟩ := bestRun_isSome (s.decisionOrder port) hempty
    rw [portDecide_grants hr]
    exact ⟨by simp, by rw [count_sump, count_sump]; rfl⟩

theorem modSumpPort (s : State) (p : Nat) (f : SumpPort → SumpPort) : HoistsKept s (s.modSumpPort p f) := ⟨rfl, rfl⟩

theorem presentRun (s : State) (port : Nat) (r : Run) : HoistsKept s (s.presentRun port r) := by
  unfold State.presentRun
  split
  · exact modSumpPort _ _ _
  · extract_lets r1 s1
    split
    · exact (modSumpPort _ _ _).trans (portDecide _ _)
    · exact modSumpPort _ _ _

theorem presentSide (s : State) (h claim domain offset lst a n : Nat) (write : Bool) :
    HoistsKept s (s.presentSide h claim domain offset lst a n write) := by
  unfold State.presentSide
  split
  · exact refl s
  · exact foldl_keeps (HoistsKept s) _ (fun u p hu => hu.trans (presentRun _ _ _)) _ _ (refl s)

theorem presentBurst (s : State) (h : Nat) (x : Stream) (u : Burst) (srcLst dstLst : Nat) :
    HoistsKept s (s.presentBurst h x u srcLst dstLst) := by
  unfold State.presentBurst
  extract_lets s1 s2
  have h1 : HoistsKept s s1 := by
    unfold s1
    split
    · exact refl s
    · exact presentSide _ _ _ _ _ _ _ _ _
  have h2 : HoistsKept s s2 := h1.trans (presentSide _ _ _ _ _ _ _ _ _)
  split
  · exact h2.trans (presentSide _ _ _ _ _ _ _ _ _)
  · exact h2

end HoistsKept

/-! ## HOIST_BURST_ISSUE -/

/-- A stream that no real-time one waits for goes on. -/
theorem settle_take_running {y : Hoist} {x : Stream} {now : Nat} (hrun : y.running = some x) (hrt : x.realtime = true ∨ y.rt = []) :
    (y.settle now).take = y ∧ y.settle now = y := by
  have hsettle : y.settle now = y := by
    unfold Hoist.settle
    rw [hrun]
    dsimp only
    refine if_neg ?_
    rcases hrt with hreal | hempty
    · simp [hreal]
    · simp [hempty]
  refine ⟨?_, hsettle⟩
  rw [hsettle]
  unfold Hoist.take
  rw [hrun]

theorem hoistBurstIssueDo_started {h : Nat} {x : Stream} {s : State} (hrun : (s.hoist h).running = some x)
    (hrt : x.realtime = true ∨ (s.hoist h).rt = []) (hstarted : x.started = true) (hhold : x.isHold = false) :
    hoistBurstIssueDo h s = (s.modHoist h (fun y => (y.settle s.now).take)).issueBurst h x := by
  have hrun' : ((s.modHoist h (fun y => (y.settle s.now).take)).hoist h).running = some x := by
    rw [hoist_modHoist, (settle_take_running hrun hrt).1, hrun]
  unfold hoistBurstIssueDo
  simp only [hrun']
  split
  next c hc =>
    rw [Stream.isHold, hc] at hhold
    exact absurd hhold (by simp)
  next => rw [if_pos hstarted]

/-- The next burst of a stream whose lists are good and whose bytes are translated on both sides. -/
theorem issueBurst_issued {h : Nat} {x : Stream} {a b : Place} {p q : Phys} {s : State} (ha : placeAt x.src 0 x.next = some a)
    (hb : placeAt x.dst 0 x.next = some b) (hsrc : x.src.all (fun d => !d.bad) = true) (hdst : x.dst.all (fun d => !d.bad) = true)
    (hfill : b.desc.fill = false) (hphys : b.desc.phys = false) (hp : s.translate x.claim a.addr false = some p)
    (hq : s.translate x.claim b.addr true = some q) :
    let n := min (min (maxBurstBytes (s.hoist h)) (min a.left b.left)) (min (4096 - a.addr % 4096) (4096 - b.addr % 4096))
    let c : Burst := { offset := x.next, length := n, src := p.addr, srcDual := p.dual, dst := q.addr, dstDual := q.dual, fill := false }
    s.issueBurst h x = (s.modHoist h (fun y => { y with running := some { x with next := x.next + n, bursts := x.bursts ++ [c] } })).presentBurst
      h x c a.desc.lst b.desc.lst := by
  have hgood : ∀ (ds : List Desc) (i : Nat), ds.all (fun d => !d.bad) = true → (ds.take (i + 1)).any Desc.bad = false := by
    intro ds i hds
    rw [List.any_eq_false]
    intro d hd
    simpa using List.all_eq_true.1 hds d (List.mem_of_mem_take hd)
  unfold State.issueBurst
  simp only [ha, hb, hgood _ _ hsrc, hgood _ _ hdst, hfill, hphys, hp, hq, Bool.false_and, Bool.or_false, Bool.false_eq_true, if_false,
    Bool.and_false]

/-! ## HOIST_BURST_COMPLETE: the bytes move -/

/-- A place below the headframe's part of the sump. -/
theorem runBad_sump (s : State) {p : Phys} (n : Nat) (write : Bool) (access : Nat × Nat) (h : p.addr < 0xB80000000) :
    s.runBad p n write access = none := by
  have hwindow : isWindow p.addr = false := by
    unfold isWindow
    rw [decide_eq_false (by omega), Bool.false_and]
  unfold State.runBad
  rw [hwindow]
  rfl

theorem runRead_sump {s : State} (claim cva : Nat) {p : Phys} {n : Nat} (h : p.addr + n ≤ 0xB80000000) (h' : p.addr < 0xB80000000)
    (hwritten : s.unwritten = []) :
    s.runRead claim cva p n = (s.draw, (List.range n).map (fun i => s.readPhys { p with addr := p.addr + i })) := by
  have hremote : isRemote p.addr = false := decide_eq_false (by omega)
  have hwords : s.unwrittenWords p.addr n = [] := by
    simp [State.unwrittenWords, hwritten, rangeHas]
  have hpeek : (List.range n).map (fun i => s.peekPhys { p with addr := p.addr + i })
      = (List.range n).map (fun i => s.readPhys { p with addr := p.addr + i }) := by
    refine List.map_congr_left fun i hi => ?_
    have hi' := List.mem_range.1 hi
    have hr : isRemote (p.addr + i) = false := decide_eq_false (by omega)
    have hw : isWindow (p.addr + i) = false := by
      unfold isWindow
      rw [decide_eq_false (by omega), Bool.false_and]
    unfold State.peekPhys
    rw [hr, hw]
    rfl
  unfold State.runRead
  rw [runBad_sump s n false _ h']
  show s.takeRun claim cva p n = _
  unfold State.takeRun
  simp only [hremote, hwords, hpeek, Bool.false_eq_true, if_false]

theorem runWrite_sump {s : State} (claim : Nat) {p : Phys} (bs : List Byte) (h : p.addr < 0xB80000000) :
    s.runWrite claim p bs = if p.dual then (s.writeBytes p.addr bs).writeBytes (p.addr + 0x2000) bs else s.writeBytes p.addr bs := by
  have hremote : isRemote p.addr = false := decide_eq_false (by omega)
  have hwindow : isWindow p.addr = false := by
    unfold isWindow
    rw [decide_eq_false (by omega), Bool.false_and]
  unfold State.runWrite
  simp only [runBad_sump s _ true _ h]
  show s.putRun claim p _ _ bs = _
  unfold State.putRun
  simp only [hremote, hwindow, Bool.false_eq_true, if_false]

theorem memRead_writeBytes {s : State} (hs : s.MemoryOk) (a : Nat) (bs : List Byte) : memRead (s.writeBytes a bs).mem a bs.length = bs := by
  unfold State.writeBytes
  split
  next hempty =>
    rw [List.isEmpty_iff.1 hempty]
    rfl
  next => exact memRead_memWrite _ _ _ hs

theorem memRead_congr {m m' : List Host.Cell} {a n : Nat} (h : ∀ b, a ≤ b → b < a + n → memGet m' b = memGet m b) :
    memRead m' a n = memRead m a n := by
  induction n generalizing a with
  | zero => rfl
  | succ n ih => rw [memRead, memRead, h a le_rfl (by omega), ih fun b hab hb => h b (by omega) (by omega)]

/-- A run of up to 4 KiB that is written reads back: its second copy lies 8 KiB above. -/
theorem memRead_runWrite_sump {s : State} (hs : s.MemoryOk) (claim : Nat) {p : Phys} {bs : List Byte} (h : p.addr < 0xB80000000)
    (hlen : bs.length ≤ 4096) : memRead (s.runWrite claim p bs).mem p.addr bs.length = bs := by
  rw [runWrite_sump claim bs h]
  split
  · exact (memRead_congr (m := (s.writeBytes p.addr bs).mem) fun b _ hb => memGet_writeBytes_outside (.inl (by omega))).trans
      (memRead_writeBytes hs _ _)
  · exact memRead_writeBytes hs p.addr bs

theorem runWrite_frame (s : State) (claim : Nat) (p : Phys) (bs : List Byte) : CvaFrame s (s.runWrite claim p bs) := by
  unfold State.runWrite
  exact (CvaFrame.windowViolation _ _ _).trans (CvaFrame.putRun _ _ _ _ _ _)

/-- The bytes that a burst within the sump takes to its destination. -/
def State.burstBytes (s : State) (x : Stream) (b : Burst) : List Byte :=
  match x.kind with
  | .hold c => ((s.holdRecord c).drop b.offset).take b.length
  | _ => (List.range b.length).map (fun j => s.readPhys { addr := b.src + j, dual := b.srcDual, write := false })

/-- A stream that copies no hold goes by its lists. -/
theorem not_hold {x : Stream} (h : x.isHold = false) :
    x.lostCopy = false ∧ x.total = descTotal x.src
      ∧ (∀ (s : State) (b : Burst), s.burstBytes x b
        = (List.range b.length).map (fun j => s.readPhys { addr := b.src + j, dual := b.srcDual, write := false }))
      ∧ ∀ (s : State) (b : Burst), s.moveBurst x b
        = (s.runRead x.claim (x.sourceOf b) { addr := b.src, dual := b.srcDual, write := false } b.length).1.runWrite x.claim
          { addr := b.dst, dual := b.dstDual, write := true }
          (s.runRead x.claim (x.sourceOf b) { addr := b.src, dual := b.srcDual, write := false } b.length).2 := by
  cases hk : x.kind with
  | hold c =>
    rw [Stream.isHold, hk] at h
    exact absurd h.symm Bool.false_ne_true
  | standing p n =>
    simp only [Stream.lostCopy, Stream.total, State.burstBytes, State.moveBurst, hk]
    exact ⟨trivial, trivial, fun _ _ => trivial, fun _ _ => trivial⟩
  | command n =>
    simp only [Stream.lostCopy, Stream.total, State.burstBytes, State.moveBurst, hk]
    exact ⟨trivial, trivial, fun _ _ => trivial, fun _ _ => trivial⟩

/-- A burst within the sump writes its bytes, unless its hold space is lost. -/
theorem moveBurst_sump {s : State} {x : Stream} {b : Burst} (hwritten : s.unwritten = []) (hlen : b.length ≤ 4096)
    (hsrc : b.src + 0x3000 ≤ 0xB80000000) (hlost : x.lostCopy = false) :
    ∃ v : State, s.moveBurst x b = v.runWrite x.claim { addr := b.dst, dual := b.dstDual, write := true } (s.burstBytes x b)
      ∧ v.mem = s.mem ∧ v.host = s.host ∧ v.sump = s.sump := by
  cases hhold : x.isHold with
  | false =>
    obtain ⟨-, -, hbytes, hmove⟩ := not_hold hhold
    refine ⟨s.draw, ?_, rfl, rfl, rfl⟩
    rw [hmove, hbytes, runRead_sump (n := b.length) x.claim (x.sourceOf b) (p := { addr := b.src, dual := b.srcDual, write := false })
      (by show b.src + b.length ≤ _; omega) (by show b.src < _; omega) hwritten]
  | true =>
    cases hk : x.kind with
    | hold c =>
      rw [Stream.lostCopy, hk] at hlost
      simp only [State.moveBurst, State.burstBytes, hk]
      exact ⟨s, if_neg (fun h => Bool.false_ne_true (hlost.symm.trans h)), rfl, rfl, rfl⟩
    | standing p n =>
      rw [Stream.isHold, hk] at hhold
      exact absurd hhold Bool.false_ne_true
    | command n =>
      rw [Stream.isHold, hk] at hhold
      exact absurd hhold Bool.false_ne_true

/-- What a burst within the sump does to its hoist: it is done, with those at the head that are. -/
def Stream.afterBurst (x : Stream) (i : Nat) (b : Burst) : Stream :=
  { x with bursts := (x.bursts.set i { b with done := true }).dropWhile Burst.done }

theorem halfTaken_sump (s : State) {b : Burst} (h : b.dst < 0xB80000000) : s.halfTaken b = false := by
  have hwindow : isWindow b.dst = false := by
    unfold isWindow
    rw [decide_eq_false (by omega), Bool.false_and]
  unfold State.halfTaken
  simp only [hwindow, Bool.false_and]

theorem hoistBurstCompleteDo_sump {h i : Nat} {x : Stream} {b : Burst} {s : State} (hrun : (s.hoist h).running = some x)
    (hb : x.bursts[i]? = some b) (hdst : b.dst < 0xB80000000) :
    hoistBurstCompleteDo h i s =
      let s2 := (((s.moveBurst x b).count 6 h 0 b.length).count 6 h 1 1).modHoist h (fun y => { y with running := some (x.afterBurst i b) })
      if !x.isHold && (x.afterBurst i b).bursts.isEmpty && !(s2.hoist h).stopped && decide (x.total ≤ (x.afterBurst i b).next) then
        (if x.src.any Desc.bad || x.dst.any Desc.bad then s2.endStream h (x.afterBurst i b) false Reason.descriptorInvalid
        else s2.endStream h (x.afterBurst i b) true 0)
      else s2.modHoist h (fun y => y.park.settle s.now) := by
  unfold hoistBurstCompleteDo
  simp only [hrun, hb, halfTaken_sump s hdst, Bool.false_eq_true, if_false]
  rfl

theorem endStream_command (s : State) (h : Nat) {x : Stream} (ok : Bool) (n seq : Nat) (hkind : x.kind = .command seq) :
    ∃ r, s.endStream h x ok n
      = (s.modHoist h (fun y => { y with running := none, waitHalf := false, stopped := false })).finish seq ok n r := by
  unfold State.endStream
  rw [hkind]
  exact ⟨_, rfl⟩

/-- The end of a stream writes no memory below the headframe's part of the sump. -/
theorem memGet_endStream (s : State) (h : Nat) (x : Stream) (ok : Bool) (n : Nat) {b : Nat} (hb : b < 0xB80000000) :
    memGet (s.endStream h x ok n).mem b = memGet s.mem b := by
  unfold State.endStream
  extract_lets s1
  split
  · exact (finish_finished s1 _ ok n _).memory b hb
  · rfl

/-- Whatever the burst means for its stream, the memory below the headframe's part is that after the move. -/
theorem memGet_hoistBurstCompleteDo {h i : Nat} {x : Stream} {b : Burst} {s : State} (hrun : (s.hoist h).running = some x)
    (hb : x.bursts[i]? = some b) (hdst : b.dst < 0xB80000000) {a : Nat} (ha : a < 0xB80000000) :
    memGet (hoistBurstCompleteDo h i s).mem a = memGet (s.moveBurst x b).mem a := by
  rw [hoistBurstCompleteDo_sump hrun hb hdst]
  generalize s.moveBurst x b = v
  have hmem : (((v.count 6 h 0 b.length).count 6 h 1 1).modHoist h (fun y => { y with running := some (x.afterBurst i b) })).mem = v.mem := by
    show ((v.count 6 h 0 b.length).count 6 h 1 1).mem = _
    rw [count_mem, count_mem]
  generalize ((v.count 6 h 0 b.length).count 6 h 1 1).modHoist h (fun y => { y with running := some (x.afterBurst i b) }) = w at hmem ⊢
  dsimp only
  split
  · split
    · rw [memGet_endStream _ _ _ _ _ ha, hmem]
    · rw [memGet_endStream _ _ _ _ _ ha, hmem]
  · exact congrArg (fun m => memGet m a) hmem

/-- A burst within the sump that completes has copied its bytes. -/
theorem burst_copied {h i : Nat} {x : Stream} {b : Burst} {s : State} (hrun : (s.hoist h).running = some x)
    (hb : x.bursts[i]? = some b) (hwritten : s.unwritten = []) (hs : s.MemoryOk) (hlen : b.length ≤ 4096)
    (hsrc : b.src + 0x3000 ≤ 0xB80000000) (hdst : b.dst + 0x3000 ≤ 0xB80000000) (hlost : x.lostCopy = false)
    (hbytes : (s.burstBytes x b).length = b.length) :
    memRead (hoistBurstCompleteDo h i s).mem b.dst b.length = s.burstBytes x b := by
  obtain ⟨v, hmove, hmem, -, -⟩ := moveBurst_sump (b := b) hwritten hlen hsrc hlost
  rw [memRead_congr (m := (s.moveBurst x b).mem) (fun a _ ha => memGet_hoistBurstCompleteDo hrun hb (by omega) (by omega)), hmove, ← hbytes]
  exact memRead_runWrite_sump (memoryOk_of_mem _ _ hs hmem) x.claim (p := { addr := b.dst, dual := b.dstDual, write := true })
    (by show b.dst < _; omega) (by omega)

/-- The last burst of a command's stream ends the stream and completes the command. -/
theorem lastBurst_ends {h seq : Nat} {x : Stream} {b : Burst} {m : Cmd} {s : State} (hrun : (s.hoist h).running = some x)
    (hbursts : x.bursts = [b]) (hwritten : s.unwritten = []) (hlen : b.length ≤ 4096)
    (hsrc : b.src + 0x3000 ≤ 0xB80000000) (hdst : b.dst + 0x3000 ≤ 0xB80000000) (hgo : (s.hoist h).stopped = false)
    (hover : descTotal x.src ≤ x.next) (hkind : x.kind = .command seq) (hm : s.cmd? seq = some m)
    (hgoodSrc : x.src.all (fun d => !d.bad) = true) (hgoodDst : x.dst.all (fun d => !d.bad) = true) :
    ((hoistBurstCompleteDo h 0 s).hoist h).running = none ∧ (hoistBurstCompleteDo h 0 s).Ended seq true 0 := by
  have hnone : (x.afterBurst 0 b).bursts = [] := by
    unfold Stream.afterBurst
    rw [hbursts]
    rfl
  have hbad : ∀ ds : List Desc, ds.all (fun d => !d.bad) = true → ds.any Desc.bad = false := by
    intro ds hds
    rw [List.any_eq_false]
    intro d hd
    simpa using List.all_eq_true.1 hds d hd
  have hhold : x.isHold = false := by rw [Stream.isHold, hkind]
  have hlost : x.lostCopy = false := by rw [Stream.lostCopy, hkind]
  have htotal : x.total = descTotal x.src := by rw [Stream.total, hkind]
  rw [hoistBurstCompleteDo_sump hrun (by rw [hbursts]; rfl) (by omega)]
  obtain ⟨v, hmove, -, hhost, hsump⟩ := moveBurst_sump (b := b) hwritten hlen hsrc hlost
  have hframe := runWrite_frame v x.claim { addr := b.dst, dual := b.dstDual, write := true } (s.burstBytes x b)
  rw [← hmove] at hframe
  have hhoist : (s.moveBurst x b).hoist h = s.hoist h := by
    have hmoved : (s.moveBurst x b).sump = v.sump := congrArg (·.2.2.2.2.2.2.1) hframe.rest
    rw [State.hoist, hmoved, hsump]
    rfl
  have hcmds : (s.moveBurst x b).host.cmds = s.host.cmds := by rw [hframe.events.cmds, hhost]
  generalize s.moveBurst x b = w at hhoist hcmds ⊢
  have hstopped : ((((w.count 6 h 0 b.length).count 6 h 1 1).modHoist h (fun y => { y with
      running := some (x.afterBurst 0 b) })).hoist h).stopped = false := by
    rw [hoist_modHoist]
    show (((w.count 6 h 0 b.length).count 6 h 1 1).hoist h).stopped = false
    rw [State.hoist, count_sump, count_sump]
    exact (congrArg Hoist.stopped hhoist).trans hgo
  have hcmd : (((w.count 6 h 0 b.length).count 6 h 1 1).modHoist h (fun y => { y with running := some (x.afterBurst 0 b) })).cmd? seq = some m := by
    refine (cmd?_of_cmds (s := s) ?_ seq).trans hm
    show ((w.count 6 h 0 b.length).count 6 h 1 1).host.cmds = _
    rw [count_host, count_host, hcmds]
  generalize ((w.count 6 h 0 b.length).count 6 h 1 1).modHoist h (fun y => { y with running := some (x.afterBurst 0 b) }) = z
    at hstopped hcmd ⊢
  have hend : (!x.isHold && (x.afterBurst 0 b).bursts.isEmpty && !(z.hoist h).stopped && decide (x.total ≤ (x.afterBurst 0 b).next)) = true := by
    rw [hhold, hnone, hstopped, htotal, decide_eq_true (show descTotal x.src ≤ (x.afterBurst 0 b).next from hover)]
    rfl
  dsimp only
  rw [if_pos hend, hbad _ hgoodSrc, hbad _ hgoodDst, if_neg (by simp)]
  obtain ⟨r, hr⟩ := endStream_command z h true 0 seq (x := x.afterBurst 0 b) hkind
  rw [hr]
  refine ⟨?_, ended_finish (s := z.modHoist h _) hcmd true 0 r⟩
  rw [State.hoist, finish_sump]
  show ((z.modHoist h _).hoist h).running = none
  rw [hoist_modHoist]

/-! ## HOLD_COPY_COMPLETE -/

theorem holdCopyCompleteDo_copy {h : Nat} {x : Stream} {c : HoldCopy} {s : State} (hrun : (s.hoist h).running = some x)
    (hkind : x.kind = .hold c) :
    holdCopyCompleteDo h s = (if c.lost then s.modHoist h (fun y => { y with running := none })
      else (s.modHoist h (fun y => { y with running := none })).modSump (fun y => { y with
        storeDone := y.storeDone ++ [(c.claim, c.store, c.order, c.newHead)] })).advanceHead c.claim c.store := by
  unfold holdCopyCompleteDo
  simp only [hrun, hkind]

theorem advanceHead_none {s : State} (claim cva : Nat) (h : s.sump.storeDone = []) : s.advanceHead claim cva = s := by
  unfold State.advanceHead
  rw [h]
  rfl

/-- The only record that is done goes into HEAD when every copy of its store comes after it. -/
theorem advanceHead_one {s : State} {claim cva order head : Nat} (h : s.sump.storeDone = [])
    (hfirst : ∀ p ∈ s.openCopies claim cva, order < p.1.order) :
    (s.modSump (fun y => { y with storeDone := y.storeDone ++ [(claim, cva, order, head)] })).advanceHead claim cva
      = s.putCva claim cva (natLE 8 head) := by
  have hopen : (s.modSump (fun y => { y with storeDone := y.storeDone ++ [(claim, cva, order, head)] })).openCopies claim cva
      = s.openCopies claim cva := rfl
  have hdone : (s.modSump (fun y => { y with storeDone := y.storeDone ++ [(claim, cva, order, head)] })).sump.storeDone
      = [(claim, cva, order, head)] := by
    show s.sump.storeDone ++ _ = _
    rw [h]
    rfl
  have hall : ((s.openCopies claim cva).map (fun c => c.1.order)).all (fun n => decide (order < n)) = true := by
    simpa using fun a b hab => hfirst (a, b) hab
  have hback : ((s.modSump (fun y => { y with storeDone := y.storeDone ++ [(claim, cva, order, head)] })).modSump (fun x => { x with
      storeDone := x.storeDone.filter (fun y => !([(claim, cva, order, head)].contains y)) })) = s := by
    have hfilter : (s.sump.storeDone ++ [(claim, cva, order, head)]).filter (fun y => !([(claim, cva, order, head)].contains y))
        = s.sump.storeDone := by
      rw [h]
      simp
    exact congrArg (fun l => { s with sump := { s.sump with storeDone := l } }) hfilter
  unfold State.advanceHead
  simp only [hopen, hdone]
  rw [List.filter_cons_of_pos (by simp only [beq_self_eq_true, Bool.true_and]; exact hall), List.filter_nil]
  dsimp only
  rw [hback]
  rfl

/-- With an earlier copy open HEAD stays. -/
theorem advanceHead_waits {s : State} {claim cva order head : Nat} (h : s.sump.storeDone = [])
    (hopen : ∃ p ∈ s.openCopies claim cva, p.1.order ≤ order) :
    (s.modSump (fun y => { y with storeDone := y.storeDone ++ [(claim, cva, order, head)] })).advanceHead claim cva
      = s.modSump (fun y => { y with storeDone := y.storeDone ++ [(claim, cva, order, head)] }) := by
  obtain ⟨p, hp, hle⟩ := hopen
  have hcopies : (s.modSump (fun y => { y with storeDone := y.storeDone ++ [(claim, cva, order, head)] })).openCopies claim cva
      = s.openCopies claim cva := rfl
  have hdone : (s.modSump (fun y => { y with storeDone := y.storeDone ++ [(claim, cva, order, head)] })).sump.storeDone
      = [(claim, cva, order, head)] := by
    show s.sump.storeDone ++ _ = _
    rw [h]
    rfl
  have hall : ((s.openCopies claim cva).map (fun c => c.1.order)).all (fun n => decide (order < n)) = false := by
    rw [List.all_eq_false]
    exact ⟨p.1.order, List.mem_map_of_mem hp, by simpa using hle⟩
  unfold State.advanceHead
  simp only [hcopies, hdone]
  rw [List.filter_cons_of_neg (by simp only [beq_self_eq_true, Bool.true_and, hall]; exact Bool.false_ne_true), List.filter_nil]

/-- Settles O41: each clause is the branch of its command that its premises choose. -/
theorem hoistsRunStreams : Obligations.HoistsRunStreams := by
  refine ⟨⟨fun h x a b p q s hh hon hgo hready hrun hstarted hhold hmore hroom hrt ha hb hsrc hdst hfill hphys hp hq => ?_,
    fun h i x b s hrun hb hnew hserved hwritten hs hlen hsrc hdst => ?_⟩, fun h s hwait hfree => ?_,
    fun claim page e s hclaim hpage hwalk hvalid hleaf => ?_, fun h x c s hrun hkind hbursts hover => ?_⟩
  · intro n
    refine ⟨hoistBurstIssueDo h s, ?_, ?_⟩
    · show whenDue _ _ = _
      have hsettle := (settle_take_running (now := s.now) hrun hrt).2
      have hcan : x.canIssue = true := by
        obtain ⟨hlost, htotal, -⟩ := not_hold hhold
        simp only [Stream.canIssue, Stream.more, hlost, htotal, hmore, hroom, decide_true, Bool.not_false, Bool.or_true, Bool.true_and]
      have hturn : (x.realtime || (s.hoist h).rt.all (fun r => decide (s.now ≤ r.readyAt))) = true := by
        rcases hrt with hreal | hempty
        · rw [hreal, Bool.true_or]
        · rw [hempty, List.all_nil, Bool.or_true]
      have hok : hoistBurstIssueOk h s = true := by
        unfold hoistBurstIssueOk
        simp only [hsettle, hrun, hon, hgo, hready, hcan, hturn, hh, decide_true, Bool.not_false, Bool.and_self]
      rw [hok]
      rfl
    · rw [hoistBurstIssueDo_started hrun hrt hstarted hhold]
      have hsame : (s.modHoist h (fun y => (y.settle s.now).take)).hoist h = s.hoist h := by
        rw [hoist_modHoist, (settle_take_running hrun hrt).1]
      rw [issueBurst_issued (s := s.modHoist h (fun y => (y.settle s.now).take)) ha hb hsrc hdst hfill hphys hp hq, hsame]
      have hkept := fun (v : State) (c : Burst) => HoistsKept.presentBurst v h x c a.desc.lst b.desc.lst
      refine ⟨(hkept _ _).mem, fun k hk => ?_, ?_⟩
      · rw [(hkept _ _).hoist, hoist_modHoist_other _ _ _ _ hk, hoist_modHoist_other _ _ _ _ hk]
      · rw [(hkept _ _).hoist, hoist_modHoist]
        exact ⟨_, rfl, rfl, _, rfl, rfl, rfl, rfl, rfl, rfl⟩
  · refine ⟨hoistBurstCompleteDo h i s, ?_, fun hhold => ?_, fun c hkind hlost hin => ?_,
      fun seq m hbursts hgo hover hkind hm hgoodSrc hgoodDst => ?_⟩
    · show whenDue _ _ = _
      have hok : hoistBurstCompleteOk h i s = true := by
        unfold hoistBurstCompleteOk
        simp only [hrun, hb, hnew, hserved, Bool.not_false, Bool.and_self]
      rw [hok]
      rfl
    · obtain ⟨hlost, -, hbytes, -⟩ := not_hold hhold
      rw [← hbytes]
      exact burst_copied hrun hb hwritten hs hlen hsrc hdst hlost (by rw [hbytes, List.length_map, List.length_range])
    · have hbytes : s.burstBytes x b = ((s.holdRecord c).drop b.offset).take b.length := by
        unfold State.burstBytes
        rw [hkind]
      rw [← hbytes]
      refine burst_copied hrun hb hwritten hs hlen hsrc hdst (by rw [Stream.lostCopy, hkind]; exact hlost) ?_
      rw [hbytes, List.length_take, List.length_drop]
      omega
    · have hi : i = 0 := by
        rw [hbursts] at hb
        cases i with
        | zero => rfl
        | succ i => exact nomatch hb
      subst hi
      exact lastBurst_ends hrun hbursts hwritten hlen hsrc hdst hgo hover hkind hm hgoodSrc hgoodDst
  · refine ⟨s.modHoist h (fun y => { y with waitHalf := false }), ?_, hoist_modHoist _ _ _, rfl, fun k hk => hoist_modHoist_other _ _ _ _ hk⟩
    show whenDue _ _ = _
    have hok : waitHalfEndOk h s = true := by
      unfold waitHalfEndOk
      rw [hwait, Bool.true_and]
      split
      next t b hw => exact hfree t b hw
      · rfl
    rw [hok]
    rfl
  · refine ⟨translationWalkCompleteDo claim page s, if_pos (by rw [decide_eq_true hclaim, decide_eq_true hpage]; rfl), ?_⟩
    have hdo : translationWalkCompleteDo claim page s = s.modSump (fun x => { x with
        cache := ((claim, page, e) :: x.cache.filter (fun c => !(c.1 == claim && c.2.1 == page))).take 4096 }) := by
      unfold translationWalkCompleteDo
      rw [hwalk, Option.filter_some, hvalid, hleaf]
      rfl
    rw [hdo]
    refine ⟨rfl, ?_, rfl⟩
    exact List.length_take_le _ _
  · intro t
    refine ⟨holdCopyCompleteDo h s, ?_, fun hdone hlost => ?_, fun hdone hlost hfirst => ?_, fun hdone hlost hopen => ?_⟩
    · show whenDue _ _ = _
      have hok : holdCopyCompleteOk h s = true := by
        unfold holdCopyCompleteOk
        rw [hrun]
        dsimp only
        rw [Stream.isHold, Stream.lostCopy, Stream.total, hkind, hbursts]
        rcases hover with hlost | hall
        · simp [hlost]
        · simp [hall]
      rw [hok]
      rfl
    · rw [holdCopyCompleteDo_copy hrun hkind, if_pos hlost]
      exact advanceHead_none (s := t) _ _ hdone
    · rw [holdCopyCompleteDo_copy hrun hkind, if_neg (by rw [hlost]; exact Bool.false_ne_true)]
      exact advanceHead_one (s := t) hdone hfirst
    · rw [holdCopyCompleteDo_copy hrun hkind, if_neg (by rw [hlost]; exact Bool.false_ne_true), advanceHead_waits (s := t) hdone hopen]
      refine ⟨rfl, ?_⟩
      show s.sump.storeDone ++ _ = _
      rw [hdone]
      rfl

end Sys2Proof.Machine

/-! PROOFS. Entries in rings 14 and 15, in order (R325, R363). -/

namespace Sys2Proof.Machine

/-! ## A flit that is sent -/

/-- Nothing changes but the links, what leaves the device and the counters. -/
def OnLinks (s u : State) : Prop := u = { s with emeel := u.emeel, out := u.out, dbg := u.dbg }

namespace OnLinks

theorem refl (s : State) : OnLinks s s := rfl

theorem trans {s u w : State} (h : OnLinks s u) (h' : OnLinks u w) : OnLinks s w := by
  unfold OnLinks at *
  rw [h', h]

theorem count (s : State) (k i c n : Nat) : OnLinks s (s.count k i c n) := by
  unfold State.count
  split <;> rfl

theorem sendOn (s : State) (p : Nat) (f : Flit) (delay : Nat) : OnLinks s (s.sendOn p f delay) := by
  unfold State.sendOn
  extract_lets x g s1
  have h1 : OnLinks s s1 := rfl
  split
  · exact (h1.trans (rfl : OnLinks s1 (s1.emit (.flit p g)))).trans (count _ _ _ _ _)
  · exact h1

theorem sendFlit (s : State) (device : Nat) (kind : FlitKind) (stream tag : Nat) (payload : Line) (delay : Nat) :
    OnLinks s (s.sendFlit device kind stream tag payload delay) := by
  unfold State.sendFlit
  split
  · exact sendOn _ _ _ _
  · exact refl s

theorem tellMembers (s : State) (op : Nat) (entry : BitVec 512) : OnLinks s (s.tellMembers op entry) := by
  unfold State.tellMembers
  split
  · exact foldl_keeps (OnLinks s) _ (fun u i hu => hu.trans (sendFlit _ _ _ _ _ _ _)) _ _ (refl s)
  · exact refl s

theorem eq {s u : State} (h : OnLinks s u) : u = { s with emeel := u.emeel, out := u.out, dbg := u.dbg } := h

theorem host {s u : State} (h : OnLinks s u) : u.host = s.host := (congrArg State.host h.eq).trans rfl
theorem mem {s u : State} (h : OnLinks s u) : u.mem = s.mem := (congrArg State.mem h.eq).trans rfl
theorem tiles {s u : State} (h : OnLinks s u) : u.tiles = s.tiles := (congrArg State.tiles h.eq).trans rfl
theorem skips {s u : State} (h : OnLinks s u) : u.skips = s.skips := (congrArg State.skips h.eq).trans rfl
theorem images {s u : State} (h : OnLinks s u) : u.images = s.images := (congrArg State.images h.eq).trans rfl
theorem pipes {s u : State} (h : OnLinks s u) : u.pipes = s.pipes := (congrArg State.pipes h.eq).trans rfl
theorem unwritten {s u : State} (h : OnLinks s u) : u.unwritten = s.unwritten := (congrArg State.unwritten h.eq).trans rfl

theorem cmd? {s u : State} (h : OnLinks s u) (seq : Nat) : u.cmd? seq = s.cmd? seq := cmd?_of_cmds (congrArg HostIf.cmds h.host) seq

end OnLinks

/-! ## An entry that is placed -/

/-- An entry stands at PRODUCER, which moves on; where the ring was empty its vector fires or waits. -/
structure EntryPlaced (c k : Nat) (r : Record) (s u : State) : Prop where
  producer : (u.ring c k).producer = (s.ring c k).producer + 1
  entry : memRead u.mem (ringPhys c k + 64 * ((s.ring c k).producer.toNat % 1024)) 64 = lineBytes r
  out : u.out = (if (s.ring c k).fill = 0 ∧ (s.claim c).msixMask.getLsbD (k - 14) = false then [.msix c (k - 14)] else []) ++ s.out
  pending : (s.ring c k).fill = 0 → (s.claim c).msixMask.getLsbD (k - 14) = true → (u.claim c).msixPending.getLsbD (k - 14) = true
  cmds : u.host.cmds = s.host.cmds

/-- The state of an entry that is written and counted, before its vector fires. -/
def State.entryWritten (s : State) (c k : Nat) (r : Record) : State :=
  (s.writeBytes (ringPhys c k + 64 * ((s.ring c k).producer.toNat % 1024)) (lineBytes r)).modRing c k
    (fun g => { g with producer := g.producer + 1 })

theorem placeEntry_fires {c k : Nat} {r : Record} {s : State} (h : (s.ring c k).fill = 0) :
    s.placeEntry c k r = (s.entryWritten c k r).fireMsix c (k - 14) := by
  rw [State.placeEntry]
  exact if_pos h

theorem placeEntry_behind {c k : Nat} {r : Record} {s : State} (h : (s.ring c k).fill ≠ 0) :
    s.placeEntry c k r = s.entryWritten c k r := by
  rw [State.placeEntry]
  exact if_neg h

/-- The written entry: its bytes and the producer. -/
structure EntryWritten (c k : Nat) (r : Record) (s u : State) : Prop where
  producer : (u.ring c k).producer = (s.ring c k).producer + 1
  entry : memRead u.mem (ringPhys c k + 64 * ((s.ring c k).producer.toNat % 1024)) 64 = lineBytes r
  out : u.out = s.out
  claim : u.claim c = s.claim c

theorem entryWritten_written {c k : Nat} (r : Record) {s : State} (hs : s.MemoryOk) : EntryWritten c k r s (s.entryWritten c k r) := by
  have hread := memRead_writeBytes hs (ringPhys c k + 64 * ((s.ring c k).producer.toNat % 1024)) (lineBytes r)
  rw [lineBytes_length] at hread
  have hhost := writeBytes_host s (ringPhys c k + 64 * ((s.ring c k).producer.toNat % 1024)) (lineBytes r)
  have hout := writeBytes_out s (ringPhys c k + 64 * ((s.ring c k).producer.toNat % 1024)) (lineBytes r)
  unfold State.entryWritten
  generalize s.writeBytes (ringPhys c k + 64 * ((s.ring c k).producer.toNat % 1024)) (lineBytes r) = w at hread hhost hout ⊢
  refine ⟨?_, hread, hout, ?_⟩
  · rw [ring_modRing, State.ring, hhost]
    rfl
  · rw [claim_modRing, State.claim, hhost]
    rfl

/-- A vector that is not masked leaves the device. -/
theorem fireMsix_leaves {s : State} {c v : Nat} (h : (s.claim c).msixMask.getLsbD v = false) :
    s.fireMsix c v = s.emit (.msix c v) := by
  unfold State.fireMsix
  rw [h]
  rfl

/-- A masked vector is pending. -/
theorem fireMsix_waits {s : State} {c v : Nat} (h : (s.claim c).msixMask.getLsbD v = true) :
    s.fireMsix c v = s.modClaim c (fun x => { x with msixPending := x.msixPending ||| BitVec.ofNat 2 (1 <<< v) }) := by
  unfold State.fireMsix
  rw [if_pos h]

theorem getLsbD_or_vector (p : BitVec 2) {v : Nat} (h : v < 2) : (p ||| BitVec.ofNat 2 (1 <<< v)).getLsbD v = true := by
  rw [BitVec.getLsbD_or]
  obtain rfl | rfl : v = 0 ∨ v = 1 := by omega
  · exact Bool.or_true _
  · exact Bool.or_true _

theorem placeEntry_placed {c k : Nat} (r : Record) {s : State} (hs : s.MemoryOk) (h14 : 14 ≤ k) (h16 : k < 16) :
    EntryPlaced c k r s (s.placeEntry c k r) := by
  have hcmds := (EventFrame.placeEntry s c k r h14 h16).cmds
  obtain ⟨hproducer, hentry, hout, hclaim⟩ := entryWritten_written (c := c) (k := k) r hs
  by_cases hempty : (s.ring c k).fill = 0
  · rw [placeEntry_fires hempty] at hcmds ⊢
    generalize s.entryWritten c k r = v at hcmds hproducer hentry hout hclaim ⊢
    cases hmask : (s.claim c).msixMask.getLsbD (k - 14) with
    | true =>
      rw [fireMsix_waits (by rw [hclaim, hmask])] at hcmds ⊢
      refine ⟨hproducer, hentry, ?_, fun _ _ => ?_, hcmds⟩
      · rw [if_neg (by rw [hmask]; exact fun h => absurd h.2.symm Bool.false_ne_true)]
        exact hout
      · rw [claim_modClaim]
        exact getLsbD_or_vector _ (by omega)
    | false =>
      rw [fireMsix_leaves (by rw [hclaim, hmask])] at hcmds ⊢
      refine ⟨hproducer, hentry, ?_, fun _ h => absurd (hmask.symm.trans h) Bool.false_ne_true, hcmds⟩
      rw [if_pos ⟨hempty, hmask⟩]
      exact congrArg (_ :: ·) hout
  · rw [placeEntry_behind hempty] at hcmds ⊢
    refine ⟨hproducer, hentry, ?_, fun h => absurd h hempty, hcmds⟩
    rw [if_neg (fun h => hempty h.1)]
    exact hout

theorem placeCompletion_here {s : State} (h : s.isMember = false) (c : Nat) (r : Record) : s.placeCompletion c r = s.placeEntry c 14 r := by
  rw [State.placeCompletion, h]
  rfl

theorem placeCompletion_member {s : State} (h : s.isMember = true) (c : Nat) (r : Record) :
    s.placeCompletion c r = s.sendFlit 0 .command c (2 + 256 * s.emeel.deviceId.toNat) r 0 := by
  rw [State.placeCompletion, if_pos h]

/-- The command of the entry is in flight no longer. -/
theorem mem_dropCmd {cmds : List Cmd} {seq : Nat} :
    (∀ d ∈ cmds.filter (fun d => d.seq != seq), d.seq ≠ seq) ∧ ∀ d ∈ cmds, d.seq ≠ seq → d ∈ cmds.filter (fun d => d.seq != seq) :=
  ⟨fun d hd => by simpa using (List.mem_filter.1 hd).2, fun d hd hne => List.mem_filter.2 ⟨hd, by simpa using hne⟩⟩

theorem completionEntryPlaceDo_next {c : Nat} {m : Cmd} {s : State} (h : s.nextCompletion c = some m) :
    completionEntryPlaceDo c s
      = (s.placeCompletion c m.record).modHost (fun h => { h with cmds := h.cmds.filter (fun d => d.seq != m.seq) }) := by
  unfold completionEntryPlaceDo
  rw [h]

theorem exec_completionEntryPlace {c : Nat} {m : Cmd} {s : State} (h : s.nextCompletion c = some m)
    (hroom : s.isMember = true ∨ (s.ring c 14).fill < (s.ring c 14).entries) :
    exec (.completionEntryPlace c) s = .next (completionEntryPlaceDo c s) := by
  show whenDue _ _ = _
  have hok : ((s.nextCompletion c).isSome && (s.isMember || decide ((s.ring c 14).fill < (s.ring c 14).entries))) = true := by
    rw [h]
    rcases hroom with hmember | hroom
    · rw [hmember]
      rfl
    · rw [decide_eq_true hroom, Bool.or_true]
      rfl
  rw [hok]
  rfl

/-- Settles O44: a placed entry is what `placeEntry` writes, and a member sends its completion over its links. -/
theorem entriesArePlacedInOrder : Obligations.EntriesArePlacedInOrder := by
  refine fun c s hs => ⟨fun m hm hhere hroom => ⟨_, exec_completionEntryPlace hm (.inr hroom), ?_⟩,
    fun m hm hmember => ⟨_, exec_completionEntryPlace hm (.inl hmember), ?_⟩, fun r rs hheld hroom => ⟨eventRecordPlaceDo c s, ?_, ?_⟩⟩
  · have hplaced := placeEntry_placed (c := c) m.record hs (le_refl 14) (by decide)
    rw [completionEntryPlaceDo_next hm, placeCompletion_here hhere]
    obtain ⟨hgone, hkept⟩ := mem_dropCmd (cmds := s.host.cmds) (seq := m.seq)
    generalize s.placeEntry c 14 m.record = v at hplaced ⊢
    refine ⟨hplaced.producer, ?_, ?_, hplaced.entry, hplaced.out, hplaced.pending⟩
    · show ∀ d ∈ v.host.cmds.filter _, _
      rw [hplaced.cmds]
      exact hgone
    · show ∀ d ∈ s.host.cmds, d.seq ≠ m.seq → d ∈ v.host.cmds.filter _
      rw [hplaced.cmds]
      exact hkept
  · rw [completionEntryPlaceDo_next hm, placeCompletion_member hmember]
    have hlinks := OnLinks.sendFlit s 0 .command c (2 + 256 * s.emeel.deviceId.toNat) m.record 0
    obtain ⟨hgone, hkept⟩ := mem_dropCmd (cmds := s.host.cmds) (seq := m.seq)
    generalize s.sendFlit 0 .command c (2 + 256 * s.emeel.deviceId.toNat) m.record 0 = v at hlinks ⊢
    refine ⟨?_, ?_, hlinks.mem, ?_⟩
    · show ∀ d ∈ v.host.cmds.filter _, _
      rw [hlinks.host]
      exact hgone
    · show ∀ d ∈ s.host.cmds, d.seq ≠ m.seq → d ∈ v.host.cmds.filter _
      rw [hlinks.host]
      exact hkept
    · show v.host.rings = _
      rw [hlinks.host]
  · show whenDue _ _ = _
    rw [hheld, decide_eq_true hroom]
    rfl
  · have hplaced := placeEntry_placed (c := c) r hs (show 14 ≤ 15 by decide) (by decide)
    have hdo : eventRecordPlaceDo c s = (s.placeEntry c 15 r).modClaim c (fun x => { x with held := rs }) := by
      unfold eventRecordPlaceDo
      rw [hheld]
    rw [hdo]
    generalize s.placeEntry c 15 r = v at hplaced ⊢
    refine ⟨hplaced.producer, by rw [claim_modClaim], hplaced.entry, hplaced.out, fun hempty hmask => ?_⟩
    rw [claim_modClaim]
    exact hplaced.pending hempty hmask

end Sys2Proof.Machine

/-! PROOFS. Mappings and rings: what MAP, UNMAP, the end of marking and RING_SETUP write (R298, R302, R327). -/

namespace Sys2Proof.Machine

/-! ## A host command that is ready -/

theorem hostCmd_ready {s : State} {seq op : Nat} {c : Cmd} (h : s.Ready seq op c) (f : Cmd → State → State) :
    s.hostCmd seq op f = .next (f c s) := (hostCmd_next s (f c s) seq op f).2 ⟨c, h, rfl⟩

/-- The command of this SEQ is found again after it is changed. -/
theorem cmd?_modCmd {s : State} {seq : Nat} {c : Cmd} (h : s.cmd? seq = some c) {f : Cmd → Cmd} (hf : (f c).seq = c.seq) :
    (s.modCmd seq f).cmd? seq = some (f c) := by
  unfold State.cmd? at *
  show (s.host.cmds.map (fun d => if d.seq == seq then f d else d)).find? _ = _
  generalize s.host.cmds = cmds at h ⊢
  induction cmds with
  | nil => exact absurd h (by simp)
  | cons d cmds ih =>
    rw [List.map_cons]
    rw [List.find?_cons] at h ⊢
    cases hd : d.seq == seq with
    | true =>
      rw [hd] at h
      obtain rfl : d = c := Option.some.inj h
      simp [hf, beq_iff_eq.1 hd]
    | false =>
      rw [hd] at h
      simp only [hd, Bool.false_eq_true, if_false]
      exact ih h

theorem pages_finish (s : State) (seq : Nat) (ok : Bool) (n : Nat) (r : BitVec 128) (c : Nat) :
    ((s.finish seq ok n r).claim c).pages = (s.claim c).pages ∧ ((s.finish seq ok n r).claim c).bigPages = (s.claim c).bigPages := by
  have h := (finish_finished s seq ok n r).claims c
  generalize (s.finish seq ok n r).claim c = x at h ⊢
  exact ⟨(congrArg Claim.pages h :), (congrArg Claim.bigPages h :)⟩

/-! ## Leaves -/

/-- One leaf of a plan in its table. -/
def Claim.leafIn (x : Claim) (p : Nat × DWord) : Claim :=
  if p.1 % 2 = 1 then { x with bigPages := put x.bigPages (p.1 / 2) p.2 } else { x with pages := put x.pages (p.1 / 2) p.2 }

theorem install_claim (s : State) (c : Nat) (plan : List (Nat × DWord)) :
    (s.install c plan).claim c = plan.foldl Claim.leafIn (s.claim c) := by
  unfold State.install
  rw [claim_modClaim]
  rfl

/-- Leaves of consecutive small pages, each at its page. -/
theorem look_leavesIn (x : Claim) (q : Nat) (f : Nat → DWord) (n : Nat) :
    ∀ i, i < n → look (((List.range n).map (fun i => (2 * (q + i), f i))).foldl Claim.leafIn x).pages (q + i) = some (f i) := by
  induction n with
  | zero => exact fun i hi => absurd hi (Nat.not_lt_zero i)
  | succ n ih =>
    intro i hi
    rw [List.range_succ, List.map_append, List.foldl_append]
    generalize ((List.range n).map _).foldl Claim.leafIn x = y at ih ⊢
    have hodd : ¬ (2 * (q + n)) % 2 = 1 := by omega
    have hpage : 2 * (q + n) / 2 = q + n := by omega
    show look (Claim.leafIn y (2 * (q + n), f n)).pages _ = _
    rw [Claim.leafIn, if_neg hodd]
    show look (put y.pages (2 * (q + n) / 2) (f n)) _ = _
    rw [hpage]
    rcases Nat.lt_succ_iff_lt_or_eq.1 hi with hlt | rfl
    · rw [look_put_other _ _ _ _ (by omega), ih i hlt]
    · exact look_put_same _ _ _

theorem look_filter_none {α : Type} (t : Tab α) (p : Nat × α → Bool) (k : Nat) (h : ∀ x, p (k, x) = false) : look (t.filter p) k = none := by
  induction t with
  | nil => rfl
  | cons q t ih =>
    obtain ⟨j, x⟩ := q
    rw [List.filter_cons]
    by_cases hj : j = k
    · rw [hj, h x, if_neg Bool.false_ne_true]
      exact ih
    · cases p (j, x) with
      | false => exact ih
      | true => exact (if_neg hj).trans ih

/-! ## MAP -/

/-- Planning takes units of the sump and writes nothing else. -/
theorem planPages_sump {big dual write : Bool} {v : State} {plan : List (Nat × DWord)} (m : Nat) : ∀ (s : State) (page : Nat) (acc : List (Nat × DWord)),
    s.planPages big dual write m page acc = some (v, plan) → v = { s with sump := v.sump } := by
  induction m with
  | zero =>
    intro s page acc h
    rw [State.planPages] at h
    obtain ⟨rfl, -⟩ := Prod.mk.inj (Option.some.inj h)
    rfl
  | succ m ih =>
    intro s page acc h
    rw [State.planPages] at h
    split at h
    · exact absurd h (by simp)
    · exact (ih _ _ _ h).trans rfl

/-- What a MAP names: the size of its pages, its first byte and its length. -/
def Cmd.mapBytes (c : Cmd) : Nat := c.arg 24 4 * pageBytes (bitAt (c.arg 28 1) 0)

/-- Some page that a MAP names is mapped or planned. -/
def State.mapTaken (s : State) (c : Cmd) : Bool :=
  (s.claim c.claim).anyMapped (c.arg 16 8) c.mapBytes || s.anyPlanned c.claim (c.arg 16 8) c.mapBytes

section
variable {c : Cmd} {s : State}

theorem mapDo_headframe (h : inHeadframeWindow (c.arg 16 8) c.mapBytes = true) : mapDo c s = s.fail c.seq Reason.notPermitted := by
  unfold mapDo
  exact if_pos h

variable (hout : inHeadframeWindow (c.arg 16 8) c.mapBytes = false)
include hout

theorem mapDo_tile (htile : c.arg 29 1 = 1) : mapDo c s =
    if !s.claimOwns c.claim (s.physical (c.arg 30 2)) then s.fail c.seq Reason.notPermitted
    else if s.mapTaken c then s.fail c.seq Reason.alreadyMapped
    else (s.install c.claim ((List.range (c.arg 24 4)).map (fun i => (2 * (c.arg 16 8 / 0x10000 + i),
      leafEntry (tileAddr (s.physical (c.arg 30 2)) (c.arg 32 8 + i * 0x10000)) false (bitAt (c.arg 28 1) 2))))).complete c.seq 0 := by
  unfold mapDo
  exact (if_neg (Bool.eq_false_iff.1 hout)).trans (if_pos htile)

theorem mapDo_taken (htile : c.arg 29 1 ≠ 1) (htaken : s.mapTaken c = true) : mapDo c s = s.fail c.seq Reason.alreadyMapped := by
  unfold mapDo
  exact (if_neg (Bool.eq_false_iff.1 hout)).trans ((if_neg htile).trans (if_pos htaken))

theorem mapDo_remote (hdev : c.arg 29 1 = 2) (hfree : s.mapTaken c = false) (hhead : s.isMember = false) (henum : s.emeel.enumerated = true)
    (hin : c.arg 30 2 < s.emeel.devices) :
    mapDo c s = (s.running c.seq).sendFlit (c.arg 30 2) .command 0x0010 0 (c.entry ||| BitVec.ofNat 512 (c.seq <<< 384)) 0 := by
  unfold mapDo
  refine (if_neg (Bool.eq_false_iff.1 hout)).trans ((if_neg (by omega)).trans ((if_neg (Bool.eq_false_iff.1 hfree)).trans ((if_pos hdev).trans
    ((if_neg (Bool.eq_false_iff.1 hhead)).trans (if_neg ?_)))))
  rw [henum]
  rintro (h | h)
  · exact absurd h (by decide)
  · exact absurd hin (Nat.not_lt.2 h)

theorem mapDo_sump {v : State} {plan : List (Nat × DWord)} (hsump : c.arg 29 1 = 0) (hfree : s.mapTaken c = false)
    (hquota : c.claim = 0 ∨ (s.claim c.claim).used + c.arg 24 4 * pageUnits (bitAt (c.arg 28 1) 0) (bitAt (c.arg 28 1) 1) ≤ (s.claim c.claim).quota)
    (hunits : c.arg 24 4 * pageUnits (bitAt (c.arg 28 1) 0) (bitAt (c.arg 28 1) 1) ≤ 0xB8000)
    (hplan : s.planPages (bitAt (c.arg 28 1) 0) (bitAt (c.arg 28 1) 1) (bitAt (c.arg 28 1) 2) (c.arg 24 4)
      (c.arg 16 8 / pageBytes (bitAt (c.arg 28 1) 0)) [] = some (v, plan)) :
    mapDo c s = ((v.modClaim c.claim (fun x => { x with
      used := x.used + c.arg 24 4 * pageUnits (bitAt (c.arg 28 1) 0) (bitAt (c.arg 28 1) 1) })).running c.seq).modCmd c.seq
        (fun d => { d with plan := plan }) := by
  unfold mapDo
  refine (if_neg (Bool.eq_false_iff.1 hout)).trans ((if_neg (by omega)).trans ((if_neg (Bool.eq_false_iff.1 hfree)).trans
    ((if_neg (by omega)).trans ((if_neg ?_).trans ?_))))
  · rintro ⟨hclaim, hover⟩
    rcases hquota with h | h
    · exact hclaim h
    · exact absurd hover (Nat.not_lt.2 h)
  · rw [if_neg (Nat.not_lt.2 hunits), hplan]

end

/-! ## The end of marking -/

theorem rangeHas_rangeInsert (r : List (Nat × Nat)) (x : Nat × Nat) (w : Nat) :
    rangeHas (rangeInsert r x) w = (rangeHas [x] w || rangeHas r w) := by
  induction r with
  | nil => exact (Bool.or_false _).symm
  | cons p r ih =>
    rw [rangeInsert]
    split
    · simp [rangeHas]
    · show (_ || rangeHas (rangeInsert r x) w) = (_ || (_ || rangeHas r w))
      rw [ih, Bool.or_left_comm]

theorem rangeHas_rangeAdd (r : List (Nat × Nat)) (lo hi w : Nat) :
    rangeHas (rangeAdd r lo hi) w = (decide (lo ≤ w ∧ w < hi) || rangeHas r w) := by
  unfold rangeAdd
  by_cases hin : lo ≤ w ∧ w < hi
  · rw [if_pos (by omega), rangeHas_rangeInsert]
    simp [rangeHas, hin.1, hin.2]
  · rw [decide_eq_false hin, Bool.false_or]
    split
    · rw [rangeHas_rangeInsert, rangeHas_rangeDel_outside _ (by omega)]
      have hnone : rangeHas [(lo, hi)] w = false := by
        simpa [rangeHas] using hin
      rw [hnone, Bool.false_or]
    · rfl

/-- A byte that reads 0 and whose word counts as unwritten (R302). -/
def State.Marked (s : State) (b : Nat) : Prop := memGet s.mem b = 0 ∧ rangeHas s.unwritten (b / 8) = true

theorem markRange_marks {s : State} {a n b : Nat} (ha : a % 8 = 0) (hn : n % 8 = 0) (hlo : a ≤ b) (hhi : b < a + n) : (s.markRange a n).Marked b := by
  refine ⟨?_, ?_⟩
  · show memGet (memClear s.mem a n) b = 0
    rw [memGet_memClear, if_pos ⟨hlo, hhi⟩]
  · show rangeHas (rangeAdd s.unwritten (a / 8) ((a + n) / 8)) (b / 8) = true
    rw [rangeHas_rangeAdd, decide_eq_true (by omega), Bool.true_or]

theorem markRange_keeps_marked {s : State} {b : Nat} (h : s.Marked b) (a n : Nat) : (s.markRange a n).Marked b := by
  refine ⟨?_, ?_⟩
  · show memGet (memClear s.mem a n) b = 0
    rw [memGet_memClear, h.1, ite_self]
  · show rangeHas (rangeAdd s.unwritten (a / 8) ((a + n) / 8)) (b / 8) = true
    rw [rangeHas_rangeAdd, h.2, Bool.or_true]

/-- The page of a planned leaf, where it is of this device's sump, is marked. -/
def State.markLeaf (s : State) (p : Nat × DWord) : State :=
  if leafAddr p.2 < 0xB80000000 then s.markRange (leafAddr p.2) (0x10000 * pageUnits (p.1 % 2 == 1) (leafDual p.2)) else s

theorem markLeaf_host (s : State) (p : Nat × DWord) : (s.markLeaf p).host = s.host := by
  unfold State.markLeaf
  split <;> rfl

theorem markLeaf_keeps_marked {s : State} {b : Nat} (h : s.Marked b) (p : Nat × DWord) : (s.markLeaf p).Marked b := by
  unfold State.markLeaf
  split
  · exact markRange_keeps_marked h _ _
  · exact h

theorem markLeaf_marks {s : State} {p : Nat × DWord} {b : Nat} (hsump : leafAddr p.2 < 0xB80000000) (hlo : leafAddr p.2 ≤ b)
    (hhi : b < leafAddr p.2 + 0x10000 * pageUnits (p.1 % 2 == 1) (leafDual p.2)) : (s.markLeaf p).Marked b := by
  rw [State.markLeaf, if_pos hsump]
  refine markRange_marks ?_ ?_ hlo hhi
  · unfold leafAddr
    omega
  · omega

theorem foldl_markLeaf_host (plan : List (Nat × DWord)) (s : State) : (plan.foldl State.markLeaf s).host = s.host :=
  foldl_keeps (fun u => u.host = s.host) _ (fun u p hu => (markLeaf_host u p).trans hu) _ _ rfl

theorem foldl_markLeaf_marks {plan : List (Nat × DWord)} {p : Nat × DWord} (hp : p ∈ plan) {b : Nat} (hsump : leafAddr p.2 < 0xB80000000)
    (hlo : leafAddr p.2 ≤ b) (hhi : b < leafAddr p.2 + 0x10000 * pageUnits (p.1 % 2 == 1) (leafDual p.2)) (s : State) :
    (plan.foldl State.markLeaf s).Marked b := by
  obtain ⟨before, after, rfl⟩ := List.append_of_mem hp
  rw [List.foldl_append, List.foldl_cons]
  exact foldl_keeps (fun u => u.Marked b) _ (fun u q hu => markLeaf_keeps_marked hu q) _ _ (markLeaf_marks hsump hlo hhi)

theorem markingCompleteDo_eq {seq : Nat} {c : Cmd} {s : State} (h : s.cmd? seq = some c) :
    markingCompleteDo seq s
      = (((c.plan.foldl State.markLeaf s).install c.claim c.plan).modCmd seq (fun d => { d with plan := [] })).complete seq 0 := by
  unfold markingCompleteDo
  rw [h]
  rfl

theorem exec_markingComplete {seq : Nat} {c : Cmd} {s : State} (h : s.cmd? seq = some c) (hop : c.opcode = 0x0010) (hrun : c.state = .running)
    (hall : c.plan.length = c.arg 24 4) : exec (.markingComplete seq) s = .next (markingCompleteDo seq s) := by
  show whenDue (markingCompleteOk seq s) _ = _
  have hok : markingCompleteOk seq s = true := by
    unfold markingCompleteOk
    rw [h]
    simp [hop, hrun, hall]
  rw [hok]
  rfl

/-! ## UNMAP -/

/-- The leaves that an UNMAP removes, with their pages. -/
def State.unmapped (s : State) (c : Cmd) : List (Nat × DWord) :=
  (s.unmapLeaves c).filterMap (fun p => p.2.map (fun e => (p.1, e)))

section
variable {c : Cmd} {s : State}

theorem unmapDo_headframe (h : inHeadframeWindow (c.arg 16 8) c.mapBytes = true) : unmapDo c s = s.fail c.seq Reason.notPermitted := by
  unfold unmapDo
  exact if_pos h

variable (hout : inHeadframeWindow (c.arg 16 8) c.mapBytes = false)
include hout

theorem unmapDo_notMapped (h : (s.unmapLeaves c).any (fun p => p.2.isNone) = true) : unmapDo c s = s.fail c.seq Reason.notMapped := by
  unfold unmapDo
  exact (if_neg (Bool.eq_false_iff.1 hout)).trans (if_pos h)

theorem unmapDo_pinned (hall : ¬ (s.unmapLeaves c).any (fun p => p.2.isNone) = true)
    (h : (s.unmapLeaves c).any (fun p => (p.2.map leafPinned).getD false) = true) : unmapDo c s = s.fail c.seq Reason.pinned := by
  unfold unmapDo
  exact (if_neg (Bool.eq_false_iff.1 hout)).trans ((if_neg hall).trans (if_pos h))

theorem unmapDo_removes (hall : ¬ (s.unmapLeaves c).any (fun p => p.2.isNone) = true)
    (h : (s.unmapLeaves c).any (fun p => (p.2.map leafPinned).getD false) = false) :
    unmapDo c s = (s.removeLeaves c.claim (bitAt (c.arg 28 1) 0) (s.unmapped c)).complete c.seq 0 := by
  unfold unmapDo
  exact (if_neg (Bool.eq_false_iff.1 hout)).trans ((if_neg hall).trans (if_neg (Bool.eq_false_iff.1 h)))

end

theorem not_any_isNone {ls : List (Nat × Option DWord)} (h : ls.all (fun p => p.2.isSome) = true) :
    ¬ ls.any (fun p => p.2.isNone) = true := by
  rw [List.any_eq_true]
  rintro ⟨p, hp, hnone⟩
  have hsome := List.all_eq_true.1 h p hp
  rw [Option.isNone_iff_eq_none.1 hnone] at hsome
  exact absurd hsome (by decide)

/-- Every page that an UNMAP names is among those that it removes, when all are mapped. -/
theorem unmapped_covers {s : State} {c : Cmd} (hall : (s.unmapLeaves c).all (fun p => p.2.isSome) = true) {i : Nat} (hi : i < c.arg 24 4) :
    (s.unmapped c).any (fun p => p.1 == c.arg 16 8 / pageBytes (bitAt (c.arg 28 1) 0) + i) = true := by
  have hmem : (c.arg 16 8 / pageBytes (bitAt (c.arg 28 1) 0) + i,
      (look (if bitAt (c.arg 28 1) 0 then (s.claim c.claim).bigPages else (s.claim c.claim).pages)
        (c.arg 16 8 / pageBytes (bitAt (c.arg 28 1) 0) + i)).filter leafValid) ∈ s.unmapLeaves c :=
    List.mem_map.2 ⟨i, List.mem_range.2 hi, rfl⟩
  obtain ⟨e, he⟩ := Option.isSome_iff_exists.1 (List.all_eq_true.1 hall _ hmem)
  refine List.any_eq_true.2 ⟨(_, e), List.mem_filterMap.2 ⟨_, hmem, ?_⟩, beq_self_eq_true _⟩
  dsimp only at he ⊢
  rw [he]
  rfl

/-- A page whose leaf is removed is not in its table. -/
theorem look_removeLeaves {s : State} {c : Nat} {big : Bool} {ps : List (Nat × DWord)} {k : Nat} (h : ps.any (fun p => p.1 == k) = true) :
    look (if big then ((s.removeLeaves c big ps).claim c).bigPages else ((s.removeLeaves c big ps).claim c).pages) k = none := by
  have hclaim : (s.removeLeaves c big ps).claim c = _ := claim_modClaim s c (fun x => { x with
    pages := if big then x.pages else x.pages.filter (fun q => !ps.any (fun p => p.1 == q.1))
    bigPages := if big then x.bigPages.filter (fun q => !ps.any (fun p => p.1 == q.1)) else x.bigPages
    used := x.used - (ps.flatMap (fun p => leafUnits p.2 big)).length })
  rw [hclaim]
  have hgone : ∀ x : DWord, (!ps.any (fun p => p.1 == (k, x).1)) = false := fun x => by rw [h]; rfl
  cases big <;> exact look_filter_none _ _ k hgone

/-! ## RING_SETUP -/

theorem repin_host (s : State) (c : Nat) : (s.repin c).host.rings = s.host.rings ∧ (s.repin c).host.cmds = s.host.cmds := ⟨rfl, rfl⟩

theorem tellRing_onLinks (s : State) (dev claim ring n addr : Nat) : OnLinks s (s.tellRing dev claim ring n addr) := by
  unfold State.tellRing
  split
  · exact OnLinks.refl s
  · exact OnLinks.sendFlit _ _ _ _ _ _ _

/-- The setup of a ring: its new form, the pages that it pins, and word of it to its device. -/
theorem ring_setUp {s : State} {c k seq : Nat} {m : Cmd} (hm : s.cmd? seq = some m) (f : Ring → Ring) (dev n addr : Nat) :
    let u := (((s.modRing c k f).repin c).tellRing dev c k n addr).complete seq 0
    u.Ended seq true 0 ∧ u.ring c k = f (s.ring c k) := by
  have hpin := repin_host (s.modRing c k f) c
  have hring := ring_modRing s c k f
  have hcmds : (s.modRing c k f).host.cmds = s.host.cmds := rfl
  rw [State.ring, ← hpin.1] at hring
  rw [← hpin.2] at hcmds
  dsimp only
  generalize (s.modRing c k f).repin c = v at hring hcmds ⊢
  have hlinks := tellRing_onLinks v dev c k n addr
  generalize v.tellRing dev c k n addr = w at hlinks ⊢
  refine ⟨ended_complete (by rw [hlinks.cmd?, cmd?_of_cmds hcmds, hm]) 0, ?_⟩
  have hkept : (w.complete seq 0).ring c k = w.ring c k := (EndFrame.finish _ _ _ _ _).ring c k
  rw [hkept, State.ring, hlinks.host]
  exact hring

section
variable {c : Cmd} {s : State}

theorem ringSetupDo_member (h : s.isMember = true) : ringSetupDo c s = s.fail c.seq Reason.notPermitted := by
  unfold ringSetupDo
  exact if_pos h

variable (hhead : s.isMember = false)
include hhead

theorem ringSetupDo_busy (h : (s.ring c.claim (c.arg 16 1)).producer ≠ (s.ring c.claim (c.arg 16 1)).consumer) :
    ringSetupDo c s = s.fail c.seq Reason.busy := by
  unfold ringSetupDo
  exact (if_neg (Bool.eq_false_iff.1 hhead)).trans (if_pos h)

variable (hidle : (s.ring c.claim (c.arg 16 1)).producer = (s.ring c.claim (c.arg 16 1)).consumer)
include hidle

theorem ringSetupDo_away (h : c.arg 20 4 = 0) : ringSetupDo c s
    = (((s.modRing c.claim (c.arg 16 1) (fun r => r.setUp 0 0 0)).repin c.claim).tellRing (s.ring c.claim (c.arg 16 1)).device c.claim
      (c.arg 16 1) 0 0).complete c.seq 0 := by
  unfold ringSetupDo
  exact (if_neg (Bool.eq_false_iff.1 hhead)).trans ((if_neg (not_not.2 hidle)).trans (if_pos h))

theorem ringSetupDo_notMapped (h : c.arg 20 4 ≠ 0) (hmap : s.mapped c.claim (c.arg 24 8) (64 * c.arg 20 4) true = false) :
    ringSetupDo c s = s.fail c.seq Reason.notMapped := by
  unfold ringSetupDo
  exact (if_neg (Bool.eq_false_iff.1 hhead)).trans ((if_neg (not_not.2 hidle)).trans ((if_neg h).trans (if_pos (by rw [hmap]; rfl))))

theorem ringSetupDo_given (h : c.arg 20 4 ≠ 0) (hmap : s.mapped c.claim (c.arg 24 8) (64 * c.arg 20 4) true = true) {p : Phys}
    (hp : s.translate c.claim (c.arg 24 8) true = some p) : ringSetupDo c s
    = (((s.modRing c.claim (c.arg 16 1) (fun r => r.setUp (c.arg 20 4) (c.arg 24 8) (if isRemote p.addr then remoteDevice p.addr else 0))).repin
      c.claim).tellRing (if isRemote p.addr then remoteDevice p.addr else 0) c.claim (c.arg 16 1) (c.arg 20 4) (remoteOff p.addr)).complete c.seq 0 := by
  unfold ringSetupDo
  refine (if_neg (Bool.eq_false_iff.1 hhead)).trans ((if_neg (not_not.2 hidle)).trans ((if_neg h).trans ((if_neg (by rw [hmap]; decide)).trans ?_)))
  rw [hp]
  rfl

end

/-! ## The four commands -/

theorem mapped_by_map {seq : Nat} {c : Cmd} {s : State} (h : s.Ready seq 0x0010 c) {p : State → Prop} (hp : p (mapDo c s)) :
    Answers (exec (.map seq) s) p := ⟨_, hostCmd_ready h mapDo, hp⟩

theorem cmd?_running {seq : Nat} {c : Cmd} {s : State} (h : s.cmd? seq = some c) :
    (s.running seq).cmd? seq = some { c with state := .running } :=
  cmd?_modCmd h (f := fun c => { c with state := .running }) rfl

theorem exec_unmap {seq : Nat} {c : Cmd} {s : State} (h : s.Ready seq 0x0011 c)
    (hquiet : s.burstsThrough ((s.unmapLeaves c).filterMap (fun p => p.2.map (fun e => (e, bitAt (c.arg 28 1) 0)))) = false) :
    exec (.unmap seq) s = .next (unmapDo c s) := by
  show execUnmap seq s = _
  unfold execUnmap
  rw [h.1]
  dsimp only
  rw [hquiet, if_neg Bool.false_ne_true]
  exact hostCmd_ready h unmapDo

/-- A command that fails has ended, and a ring is as before. -/
theorem fail_ring {s : State} {seq : Nat} {m : Cmd} (hm : s.cmd? seq = some m) (n c k : Nat) :
    (s.fail seq n).Ended seq false n ∧ (s.fail seq n).ring c k = s.ring c k :=
  ⟨ended_fail hm n, (EndFrame.finish _ _ _ _ _).ring c k⟩

/-- Settles O47: each command's branch, with what the end of a command and a flit leave alone. -/
theorem mappingsAndRings : Obligations.MappingsAndRings := by
  refine ⟨fun seq c s h => ?_, fun seq c s h hop hrun hall _ => ⟨_, exec_markingComplete h hop hrun hall, ?_⟩, fun seq c s h => ?_, fun seq c s h => ?_⟩
  · have hseq : c.seq = seq := seq_of_cmd? h.1
    refine ⟨fun hin => mapped_by_map h ?_, fun hout => ⟨fun htile htaken => mapped_by_map h ?_, fun v plan hsump hfree hquota hunits hplan => mapped_by_map h ?_,
      fun htile hfree howns => mapped_by_map h ?_, fun htile htaken howns => mapped_by_map h ?_, fun htile hnot => mapped_by_map h ?_,
      fun hdev hfree hhead henum hin => mapped_by_map h ?_⟩⟩
    · rw [mapDo_headframe hin, hseq]
      exact ended_fail h.1 _
    · rw [mapDo_taken hout htile htaken, hseq]
      exact ended_fail h.1 _
    · rw [mapDo_sump hout hsump hfree hquota hunits hplan, hseq]
      have hkept := planPages_sump _ _ _ _ hplan
      have hcmd : (v.modClaim c.claim (fun x => { x with
          used := x.used + c.arg 24 4 * pageUnits (bitAt (c.arg 28 1) 0) (bitAt (c.arg 28 1) 1) })).cmd? seq = some c := by
        rw [hkept]
        exact h.1
      exact ⟨⟨_, cmd?_modCmd (cmd?_running hcmd) (f := fun d => { d with plan := plan }) rfl, rfl, rfl⟩, (congrArg State.mem hkept).trans rfl⟩
    · rw [mapDo_tile hout htile, howns, if_neg (by decide), if_neg (Bool.eq_false_iff.1 (show s.mapTaken c = false from hfree)), hseq]
      refine ⟨ended_complete (s := s.install _ _) (c := c) h.1 0, fun i hi => ?_⟩
      rw [State.complete, (pages_finish _ _ _ _ _ _).1, install_claim]
      exact look_leavesIn _ _ _ _ i hi
    · rw [mapDo_tile hout htile, howns, if_neg (by decide), if_pos (show s.mapTaken c = true from htaken), hseq]
      exact ended_fail h.1 _
    · rw [mapDo_tile hout htile, hnot, if_pos (by decide), hseq]
      exact ended_fail h.1 _
    · rw [mapDo_remote hout hdev hfree hhead henum hin, hseq]
      exact ⟨_, ((OnLinks.sendFlit _ _ _ _ _ _ _).cmd? seq).trans (cmd?_running h.1), rfl, rfl⟩
  · rw [markingCompleteDo_eq h]
    have hmarks (p) (hp : p ∈ c.plan) (hsump) (b) (hlo) (hhi) := foldl_markLeaf_marks (p := p) hp (b := b) hsump hlo hhi s
    have hhost := foldl_markLeaf_host c.plan s
    generalize c.plan.foldl State.markLeaf s = v at hmarks hhost ⊢
    have hcmd : v.cmd? seq = some c := by rw [cmd?_of_cmds (congrArg HostIf.cmds hhost), h]
    have hplanned : ((v.install c.claim c.plan).modCmd seq (fun d => { d with plan := [] })).cmd? seq = some { c with plan := [] } :=
      
      cmd?_modCmd (s := v.install c.claim c.plan) hcmd (f := fun d => { d with plan := [] }) rfl
    refine ⟨ended_complete hplanned 0, fun p hp hsump b hlo hhi hb => ?_⟩
    have hfin := finish_finished ((v.install c.claim c.plan).modCmd seq (fun d => { d with plan := [] })) seq true 0 0
    obtain ⟨hzero, hun⟩ := hmarks p hp hsump b hlo hhi
    exact ⟨(hfin.memory b hb).trans hzero, (hfin.unwritten b hb).trans hun⟩
  · have hseq : c.seq = seq := seq_of_cmd? h.1
    intro big ls hquiet
    refine ⟨fun hin => ⟨_, exec_unmap h hquiet, ?_⟩, fun hout => ⟨fun hnone => ⟨_, exec_unmap h hquiet, ?_⟩,
      fun hall hpin => ⟨_, exec_unmap h hquiet, ?_⟩, fun hall hpin => ⟨_, exec_unmap h hquiet, ?_⟩⟩⟩
    · rw [unmapDo_headframe hin, hseq]
      exact ended_fail h.1 _
    · rw [unmapDo_notMapped hout hnone, hseq]
      exact ended_fail h.1 _
    · rw [unmapDo_pinned hout (not_any_isNone hall) hpin, hseq]
      exact ended_fail h.1 _
    · rw [unmapDo_removes hout (not_any_isNone hall) hpin, hseq]
      refine ⟨ended_complete (s := s.removeLeaves _ _ _) (c := c) h.1 0, fun i hi => ?_⟩
      rw [State.complete, (pages_finish _ _ _ _ _ _).1, (pages_finish _ _ _ _ _ _).2]
      exact look_removeLeaves (unmapped_covers hall hi)
  · have hseq : c.seq = seq := seq_of_cmd? h.1
    refine ⟨fun hmember => ⟨_, hostCmd_ready h ringSetupDo, ?_⟩, fun hhead hbusy => ⟨_, hostCmd_ready h ringSetupDo, ?_⟩,
      fun hhead hidle haway => ⟨_, hostCmd_ready h ringSetupDo, ?_⟩, fun hhead hidle hgive hnot => ⟨_, hostCmd_ready h ringSetupDo, ?_⟩,
      fun p hhead hidle hgive hmap hp => ⟨_, hostCmd_ready h ringSetupDo, ?_⟩⟩
    · rw [ringSetupDo_member hmember, hseq]
      exact fail_ring h.1 _ _ _
    · rw [ringSetupDo_busy hhead hbusy, hseq]
      exact fail_ring h.1 _ _ _
    · rw [ringSetupDo_away hhead hidle haway, hseq]
      exact ring_setUp h.1 _ _ _ _
    · rw [ringSetupDo_notMapped hhead hidle hgive hnot, hseq]
      exact fail_ring h.1 _ _ _
    · rw [ringSetupDo_given hhead hidle hgive hmap hp, hseq]
      exact ring_setUp h.1 _ _ _ _

end Sys2Proof.Machine

/-! PROOFS. Pipelines that bind, start, stop and swap (R17, R32, R330). -/

namespace Sys2Proof.Machine

@[simp] theorem image_modImage (s : State) (h : Nat) (f : Image → Image) : (s.modImage h f).image h = f (s.image h) := by
  show ((look (put s.images h (f (s.image h))) h).getD {}) = _
  rw [look_put_same]
  rfl

/-- A command that finishes keeps its result. -/
theorem result_finish {s : State} {seq : Nat} {c : Cmd} (h : s.cmd? seq = some c) (ok : Bool) (n : Nat) (r : BitVec 128) :
    ∃ m, (s.finish seq ok n r).cmd? seq = some m ∧ m.state = .ended ok n r := (finish_allEnded h ok n r).cmd?

/-! ## What binding leaves alone -/

/-- Commands, images and pipelines are as before. -/
structure SameBindings (s u : State) : Prop where
  host : u.host = s.host
  images : u.images = s.images
  pipes : u.pipes = s.pipes

namespace SameBindings

theorem refl (s : State) : SameBindings s s := ⟨rfl, rfl, rfl⟩

theorem trans {s u w : State} (h : SameBindings s u) (h' : SameBindings u w) : SameBindings s w :=
  ⟨h'.host.trans h.host, h'.images.trans h.images, h'.pipes.trans h.pipes⟩

theorem modSkip (s : State) (k : Nat) (f : Skip → Skip) : SameBindings s (s.modSkip k f) := ⟨rfl, rfl, rfl⟩

theorem modAdit (s : State) (f : Adit → Adit) : SameBindings s (s.modAdit f) := ⟨rfl, rfl, rfl⟩

theorem forgetSeq (s : State) (q : Nat) : SameBindings s (s.forgetSeq q) := by
  unfold State.forgetSeq
  dsimp only
  split
  · exact (modAdit s _).trans (modAdit _ _)
  · exact modAdit s _

theorem bindLines (s : State) (d id base n channels : Nat) : SameBindings s (s.bindLines d id base n channels) := by
  unfold State.bindLines
  exact foldl_keeps (SameBindings s) _ (fun u i hu => hu.trans ((modAdit u _).trans (modAdit _ _))) _ _ (refl s)

theorem bindQuads (s : State) (x : Image) (d id quads : Nat) : SameBindings s (s.bindQuads x d id quads) := by
  unfold State.bindQuads
  refine foldl_keeps (SameBindings s) _ (fun u q hu => ?_) _ _ (refl s)
  split
  · exact hu.trans ((modAdit u _).trans (forgetSeq _ _))
  · split
    · exact hu.trans (forgetSeq _ _)
    · exact hu

end SameBindings

/-! ## BIND -/

/-- The pipeline that a BIND makes: of its image and claim, with nothing scheduled. -/
structure FreshPipe (h claim : Nat) (x : Pipe) : Prop where
  image : x.image = h
  claim : x.claim = claim
  start : x.start = none
  stop : x.stop = none
  frames : x.frames = []

/-- An image of pipeline p, which is new. -/
structure Bound (h p claim : Nat) (u : State) : Prop where
  image : (u.image h).bound = some p
  pipe : ∃ x, u.pipe? p = some x ∧ FreshPipe h claim x

theorem Bound.of_same {h p claim : Nat} {u v : State} (hu : Bound h p claim u) (himages : v.images = u.images) (hpipes : v.pipes = u.pipes) :
    Bound h p claim v := by
  refine ⟨?_, ?_⟩
  · rw [State.image, himages]
    exact hu.image
  · rw [State.pipe?, hpipes]
    exact hu.pipe

/-- A new pipeline, and its image bound to it. -/
theorem bound_put (s : State) (h p : Nat) {x : Pipe} (hx : FreshPipe h (s.image h).claim x) :
    Bound h p (s.image h).claim (({ s with pipes := put s.pipes p x }).modImage h (fun y => { y with bound := some p, started := false })) := by
  refine ⟨?_, x, look_put_same _ _ _, hx⟩
  rw [image_modImage]

theorem bindPipe_bound (s : State) (h d id base n hoist quads : Nat) :
    Bound h (32 * d + id) (s.image h).claim (s.bindPipe h d id base n hoist quads)
      ∧ (s.bindPipe h d id base n hoist quads).host = s.host := by
  unfold State.bindPipe
  extract_lets x p standing pipe s1 s2
  have h1 : Bound h p (s.image h).claim s1 := bound_put s h p ⟨rfl, rfl, rfl, rfl, rfl⟩
  have h2 : SameBindings s1 s2 := foldl_keeps (SameBindings s1) _ (fun u k hu => hu.trans (.modSkip u _ _)) _ _ (.refl s1)
  have hall := (h2.trans (.bindLines s2 d id base n x.channels)).trans (.bindQuads _ x d id quads)
  exact ⟨h1.of_same hall.images hall.pipes, hall.host⟩

section
variable {c : Cmd} {s : State} (himage : s.hasImage c.claim (c.arg 16 2) = true) (hfree : (s.image (c.arg 16 2)).bound = none)
include himage hfree

/-- What a BIND draws for an image that its peers must allow. -/
def State.drawForMesh (s : State) (x : Image) : State := if x.mesh.isEmpty then s else s.draw

omit himage hfree in
theorem drawForMesh_kept (s : State) (x : Image) : SameBindings s (s.drawForMesh x) := by
  unfold State.drawForMesh
  split <;> exact ⟨rfl, rfl, rfl⟩

theorem bindDo_refused {code : Nat}
    (h : s.bindRefusal (s.image (c.arg 16 2)) (c.arg 18 1) (c.arg 19 1) (c.arg 20 1) (c.arg 21 1) (c.arg 24 2) = some code) :
    bindDo c s = (s.drawForMesh (s.image (c.arg 16 2))).finish c.seq false Reason.bindRejected (BitVec.ofNat 128 code) := by
  unfold bindDo
  refine (if_neg (by rw [himage]; decide)).trans ((if_neg (by rw [hfree]; decide)).trans ?_)
  dsimp only
  rw [h]
  rfl

theorem bindDo_binds
    (h : s.bindRefusal (s.image (c.arg 16 2)) (c.arg 18 1) (c.arg 19 1) (c.arg 20 1) (c.arg 21 1) (c.arg 24 2) = none) :
    bindDo c s = ((s.drawForMesh (s.image (c.arg 16 2))).bindPipe (c.arg 16 2) (c.arg 18 1) (c.arg 19 1) (c.arg 20 1) (c.arg 21 1)
      (c.arg 22 1) (c.arg 24 2)).complete c.seq 0 := by
  unfold bindDo
  refine (if_neg (by rw [himage]; decide)).trans ((if_neg (by rw [hfree]; decide)).trans ?_)
  dsimp only
  rw [h]
  rfl

end

/-! ## START, STOP and SWAP -/

section
variable {c : Cmd} {s : State} {p : Nat} {x : Pipe} (hp : s.boundPipe c.claim (c.arg 16 2) = some p) (hx : s.pipe? p = some x)
include hp hx

theorem startDo_idle (hidle : x.start = none) (hends : x.ending = false) : startDo c s =
    if (s.dom (p / 32)).past ((s.dom (p / 32)).boundShift (c.arg 24 8)) then s.fail c.seq Reason.tooLate
    else ((s.modPipe p (fun x => { x with start := some ((s.dom (p / 32)).boundShift (c.arg 24 8), c.seq) })).modImage (c.arg 16 2)
      (fun x => { x with started := true })).running c.seq := by
  unfold startDo
  dsimp only
  rw [hp]
  dsimp only
  rw [hx]
  dsimp only
  exact if_neg (by rw [hidle, hends]; decide)

theorem stopDo_idle (hidle : x.stop = none) (hends : x.ending = false)
    (hswap : x.swap.any (fun w => w.1 == (s.dom (p / 32)).boundShift (c.arg 24 8)) = false) : stopDo c s =
    if (s.dom (p / 32)).past ((s.dom (p / 32)).boundShift (c.arg 24 8)) then s.fail c.seq Reason.tooLate
    else (s.modPipe p (fun x => { x with stop := some ((s.dom (p / 32)).boundShift (c.arg 24 8), c.seq) })).running c.seq := by
  unfold stopDo
  rw [hp]
  dsimp only
  rw [hx]
  dsimp only
  exact if_neg (by rw [hidle, hends, hswap]; decide)

theorem swapDo_idle (hidle : x.swap = none) (hends : x.ending = false)
    (hstop : x.stop.any (fun w => w.1 == (s.dom (p / 32)).boundShift (c.arg 24 8)) = false)
    (himage : s.hasImage c.claim (c.arg 18 2) = true) (hok : successorOk (s.image (c.arg 16 2)) (s.image (c.arg 18 2)) = true) : swapDo c s =
    if (s.dom (p / 32)).past ((s.dom (p / 32)).boundShift (c.arg 24 8)) then s.fail c.seq Reason.tooLate
    else (s.modPipe p (fun x => { x with swap := some ((s.dom (p / 32)).boundShift (c.arg 24 8), c.seq, c.arg 18 2) })).running c.seq := by
  unfold swapDo
  dsimp only
  rw [hp]
  dsimp only
  rw [hx]
  dsimp only
  exact (if_neg (by rw [himage]; decide)).trans ((if_neg (by rw [hok]; decide)).trans (if_neg (by rw [hidle, hends, hstop]; decide)))

end

/-- A command that schedules something on a pipeline runs, and only that pipeline changes. -/
theorem runs_modPipe {s : State} {seq p : Nat} {c : Cmd} {x : Pipe} (hc : s.cmd? seq = some c) (hx : s.pipe? p = some x) (f : Pipe → Pipe) :
    ((s.modPipe p f).running seq).Runs seq ∧ ((s.modPipe p f).running seq).pipe? p = some (f x)
      ∧ ((s.modPipe p f).running seq).tiles = s.tiles ∧ ((s.modPipe p f).running seq).images = s.images := by
  have hmod : s.modPipe p f = { s with pipes := put s.pipes p (f x) } := by
    unfold State.modPipe
    rw [show look s.pipes p = some x from hx]
  rw [hmod]
  exact ⟨⟨_, cmd?_running (s := { s with pipes := put s.pipes p (f x) }) hc, rfl⟩, look_put_same _ _ _, rfl, rfl⟩

/-- A command on a shift that has begun fails and changes no pipeline. -/
theorem fail_tooLate {s : State} {seq : Nat} {c : Cmd} (hc : s.cmd? seq = some c) :
    (s.fail seq Reason.tooLate).Ended seq false Reason.tooLate ∧ (s.fail seq Reason.tooLate).pipes = s.pipes :=
  ⟨ended_fail hc _, finish_pipes _ _ _ _ _⟩

/-- Settles O49: each command by its branch, with what binding and the end of a command leave alone. -/
theorem pipelinesBindStartStopSwap : Obligations.PipelinesBindStartStopSwap := by
  refine ⟨fun seq c s h himage hfree => ⟨fun code hcode => ⟨_, hostCmd_ready h bindDo, ?_⟩, fun hnone => ⟨_, hostCmd_ready h bindDo, ?_⟩⟩,
    fun seq p c x s h hp hx hidle hends => ⟨fun hto => ⟨_, hostCmd_ready h startDo, ?_⟩, fun hpast => ⟨_, hostCmd_ready h startDo, ?_⟩⟩,
    fun seq p c x s h hp hx => fun hidle hends hswap => ⟨fun hto => ⟨_, hostCmd_ready h stopDo, ?_⟩, fun hpast => ⟨_, hostCmd_ready h stopDo, ?_⟩⟩,
    fun seq p c x s h hp hx => fun hidle hends hstop himage hok =>
      ⟨fun hto => ⟨_, hostCmd_ready h swapDo, ?_⟩, fun hpast => ⟨_, hostCmd_ready h swapDo, ?_⟩⟩⟩
  · have hdrawn := drawForMesh_kept s (s.image (c.arg 16 2))
    rw [bindDo_refused himage hfree hcode, seq_of_cmd? h.1]
    exact ⟨result_finish ((cmd?_of_cmds (congrArg HostIf.cmds hdrawn.host) seq).trans h.1) _ _ _, (finish_pipes _ _ _ _ _).trans hdrawn.pipes⟩
  · have hdrawn := drawForMesh_kept s (s.image (c.arg 16 2))
    have hsame : (s.drawForMesh (s.image (c.arg 16 2))).image (c.arg 16 2) = s.image (c.arg 16 2) := by
      rw [State.image, hdrawn.images]
      rfl
    rw [bindDo_binds himage hfree hnone, seq_of_cmd? h.1]
    have hbound := bindPipe_bound (s.drawForMesh (s.image (c.arg 16 2))) (c.arg 16 2) (c.arg 18 1) (c.arg 19 1) (c.arg 20 1) (c.arg 21 1)
      (c.arg 22 1) (c.arg 24 2)
    rw [hsame] at hbound
    generalize (s.drawForMesh (s.image (c.arg 16 2))).bindPipe _ _ _ _ _ _ _ = v at hbound ⊢
    obtain ⟨hbound, hhost⟩ := hbound
    have hcmd : v.cmd? seq = some c := (cmd?_of_cmds (congrArg HostIf.cmds (hhost.trans hdrawn.host)) seq).trans h.1
    obtain ⟨hb, x, hx, hfresh⟩ := hbound.of_same (finish_images v seq true 0 0) (finish_pipes v seq true 0 0)
    exact ⟨ended_complete hcmd 0, hb, x, hx, hfresh.image, hfresh.claim, hfresh.start, hfresh.stop, hfresh.frames⟩
  · rw [startDo_idle hp hx hidle hends, show (s.dom (p / 32)).past ((s.dom (p / 32)).boundShift (c.arg 24 8)) = false from hto,
      if_neg Bool.false_ne_true]
    obtain ⟨⟨m, hm, -⟩, hpipe, htiles, -⟩ := runs_modPipe h.1 hx (fun x => { x with start := some ((s.dom (p / 32)).boundShift (c.arg 24 8), c.seq) })
    rw [seq_of_cmd? h.1] at hpipe ⊢
    have hcmd : ((s.modPipe p (fun x => { x with start := some ((s.dom (p / 32)).boundShift (c.arg 24 8), seq) })).modImage (c.arg 16 2)
        (fun x => { x with started := true })).cmd? seq = some c := (cmd?_of_cmds (congrArg HostIf.cmds (modPipe_host _ _ _)) seq).trans h.1
    refine ⟨⟨_, cmd?_running hcmd, rfl⟩, hpipe, ?_, modPipe_tiles _ _ _⟩
    exact (congrArg Image.started (image_modImage (s.modPipe p _) (c.arg 16 2) (fun x => { x with started := true })) :)
  · rw [startDo_idle hp hx hidle hends, show (s.dom (p / 32)).past ((s.dom (p / 32)).boundShift (c.arg 24 8)) = true from hpast,
      if_pos rfl, seq_of_cmd? h.1]
    exact fail_tooLate h.1
  · rw [stopDo_idle hp hx hidle hends hswap, show (s.dom (p / 32)).past ((s.dom (p / 32)).boundShift (c.arg 24 8)) = false from hto,
      if_neg Bool.false_ne_true, seq_of_cmd? h.1]
    exact runs_modPipe h.1 hx _
  · rw [stopDo_idle hp hx hidle hends hswap, show (s.dom (p / 32)).past ((s.dom (p / 32)).boundShift (c.arg 24 8)) = true from hpast,
      if_pos rfl, seq_of_cmd? h.1]
    exact fail_tooLate h.1
  · rw [swapDo_idle hp hx hidle hends hstop himage hok, show (s.dom (p / 32)).past ((s.dom (p / 32)).boundShift (c.arg 24 8)) = false from hto,
      if_neg Bool.false_ne_true, seq_of_cmd? h.1]
    exact runs_modPipe h.1 hx _
  · rw [swapDo_idle hp hx hidle hends hstop himage hok, show (s.dom (p / 32)).past ((s.dom (p / 32)).boundShift (c.arg 24 8)) = true from hpast,
      if_pos rfl, seq_of_cmd? h.1]
    exact fail_tooLate h.1

end Sys2Proof.Machine

/-! PROOFS. Reports, snapshots, captures and the self test (R287, R329, R386, R387, R412 to R415). -/

namespace Sys2Proof.Machine

/-! ## A change of every row -/

/-- Each row below n is changed by its f, and nothing but rows is. -/
structure RowsMapped (f : Nat → Row → Row) (n : Nat) (s u : State) : Prop where
  length : u.power.rows.length = s.power.rows.length
  mapped : ∀ r, r < n → u.row r = f r (s.row r)
  beyond : ∀ r, n ≤ r → u.row r = s.row r
  kept : u = { s with power := { s.power with rows := u.power.rows } }

theorem row_modRow_other {s : State} {r q : Nat} (f : Row → Row) (h : q ≠ r) : (s.modRow r f).row q = s.row q := by
  unfold State.modRow State.row
  show (s.power.rows.set r (f (s.power.rows.getD r {}))).getD q {} = s.power.rows.getD q {}
  rw [List.getD_eq_getElem?_getD, List.getElem?_set_ne h.symm, ← List.getD_eq_getElem?_getD]

theorem upTo_modRow (f : Nat → Row → Row) (s : State) (n : Nat) (hn : n ≤ s.power.rows.length) :
    RowsMapped f n s (upTo n (fun s r => s.modRow r (f r)) s) := by
  induction n with
  | zero => exact ⟨rfl, fun r hr => absurd hr (Nat.not_lt_zero r), fun _ _ => rfl, rfl⟩
  | succ n ih =>
    obtain ⟨hlen, hmap, hbeyond, hkept⟩ := ih (Nat.le_of_succ_le hn)
    have hstep : upTo (n + 1) (fun s r => s.modRow r (f r)) s = (upTo n (fun s r => s.modRow r (f r)) s).modRow n (f n) := by
      unfold upTo
      rw [List.range_succ, List.foldl_append]
      rfl
    rw [hstep]
    generalize upTo n (fun s r => s.modRow r (f r)) s = v at hlen hmap hbeyond hkept ⊢
    refine ⟨?_, fun r hr => ?_, fun r hr => ?_, ?_⟩
    · exact (List.length_set ..).trans hlen
    · rcases Nat.lt_succ_iff_lt_or_eq.1 hr with hlt | rfl
      · rw [row_modRow_other _ (by omega), hmap r hlt]
      · rw [row_modRow _ (by omega), hbeyond r (le_refl r)]
    · rw [row_modRow_other _ (by omega), hbeyond r (by omega)]
    · rw [hkept]
      rfl

/-- Every row of the list is a row below its length. -/
theorem row_of_mem {s : State} {x : Row} (h : x ∈ s.power.rows) : ∃ r, r < s.power.rows.length ∧ x = s.row r := by
  obtain ⟨r, hr, rfl⟩ := List.mem_iff_getElem.1 h
  exact ⟨r, hr, by rw [State.row, List.getD_eq_getElem _ _ hr]⟩

/-- After a change of all rows, each row of the list is a changed one. -/
theorem RowsMapped.all {f : Nat → Row → Row} {s u : State} (h : RowsMapped f 24 s u) (hlen : s.power.rows.length = 24) {p : Row → Prop}
    (hp : ∀ r x, p (f r x)) : ∀ x ∈ u.power.rows, p x := by
  intro x hx
  obtain ⟨r, hr, rfl⟩ := row_of_mem hx
  rw [h.mapped r (by rw [h.length, hlen] at hr; exact hr)]
  exact hp _ _

/-! ## Reports -/

/-- A command that completes on what a write to claim memory leaves has ended. -/
theorem written_completes {s v : State} {seq claim cva : Nat} {c : Cmd} {bs : List Byte} (hc : s.cmd? seq = some c)
    (hw : s.writeCva claim cva bs = some v) (r : BitVec 128) :
    (v.complete seq r).Ended seq true 0 ∧ ∃ m, (v.complete seq r).cmd? seq = some m ∧ m.state = .ended true 0 r := by
  have hcmd : v.cmd? seq = some c := (cmd?_of_cmds (CvaFrame.writeCva hw).events.cmds seq).trans hc
  exact ⟨ended_complete hcmd r, result_finish hcmd true 0 r⟩

section
variable {c : Cmd} {s v : State}

theorem scrubDo_writes (h : s.writeCva c.claim (c.arg 32 8) (s.scrubSummary c.claim (bitAt (c.arg 40 1) 0) (c.arg 16 8) (c.arg 24 8)) = some v) :
    scrubDo c s = v.complete c.seq 0 := by
  unfold scrubDo
  rw [h]

theorem scrubDo_unmapped (h : s.writeCva c.claim (c.arg 32 8) (s.scrubSummary c.claim (bitAt (c.arg 40 1) 0) (c.arg 16 8) (c.arg 24 8)) = none) :
    scrubDo c s = s.fail c.seq Reason.notMapped := by
  unfold scrubDo
  rw [h]

/-- The counters that a COUNTER_READ names may be read. -/
def State.countersOpen (s : State) (c : Cmd) : Bool :=
  c.claim == 0 || (List.range (c.arg 24 4)).all (fun j => s.mayRead c.claim (c.arg 16 2) (c.arg 20 4 + j))

theorem countersOpen_iff : ¬ (c.claim ≠ 0 ∧ (!(List.range (c.arg 24 4)).all (fun j => s.mayRead c.claim (c.arg 16 2) (c.arg 20 4 + j))) = true)
    ↔ s.countersOpen c = true := by
  unfold State.countersOpen
  rw [Bool.or_eq_true, beq_iff_eq, Bool.not_eq_true', ← Bool.not_eq_true]
  tauto

theorem counterReadDo_closed (h : s.countersOpen c = false) : counterReadDo c s = s.fail c.seq Reason.notPermitted := by
  unfold counterReadDo
  exact if_pos (by_contra fun hn => Bool.eq_false_iff.1 h (countersOpen_iff.1 hn))

theorem counterReadDo_writes (h : s.countersOpen c = true)
    (hw : s.writeCva c.claim (c.arg 32 8) (s.counterBytes (c.arg 16 2) (c.arg 20 4) (c.arg 24 4)) = some v) :
    counterReadDo c s = v.complete c.seq 0 := by
  unfold counterReadDo
  refine (if_neg (countersOpen_iff.2 h)).trans ?_
  rw [hw]

theorem counterReadDo_unmapped (h : s.countersOpen c = true)
    (hw : s.writeCva c.claim (c.arg 32 8) (s.counterBytes (c.arg 16 2) (c.arg 20 4) (c.arg 24 4)) = none) :
    counterReadDo c s = s.fail c.seq Reason.notMapped := by
  unfold counterReadDo
  refine (if_neg (countersOpen_iff.2 h)).trans ?_
  rw [hw]

/-- The records that a JOURNAL_READ reports: how many, and their bytes. -/
def State.journalCount (s : State) (c : Cmd) : Nat := min (c.arg 24 4) ((s.claim c.claim).journalHead.toNat - c.arg 16 8)

def State.journalBytes (s : State) (c : Cmd) : List Byte :=
  (List.range (s.journalCount c)).flatMap (fun i => (List.range 64).map (fun j =>
    s.readPhys { addr := journalAddr c.claim (c.arg 16 8 + i) + j, dual := true, write := false }))

theorem journalReadDo_overwritten (h : c.arg 16 8 + 16384 < (s.claim c.claim).journalHead.toNat) :
    journalReadDo c s = s.fail c.seq Reason.overwritten := by
  unfold journalReadDo
  exact if_pos h

theorem journalReadDo_writes (h : (s.claim c.claim).journalHead.toNat ≤ c.arg 16 8 + 16384)
    (hw : s.writeCva c.claim (c.arg 32 8) (s.journalBytes c) = some v) :
    journalReadDo c s = v.complete c.seq (BitVec.ofNat 128 (s.journalCount c)) := by
  unfold journalReadDo
  refine (if_neg (Nat.not_lt.2 h)).trans ?_
  unfold State.journalBytes State.journalCount at hw
  dsimp only
  rw [hw]
  rfl

theorem journalReadDo_unmapped (h : (s.claim c.claim).journalHead.toNat ≤ c.arg 16 8 + 16384)
    (hw : s.writeCva c.claim (c.arg 32 8) (s.journalBytes c) = none) : journalReadDo c s = s.fail c.seq Reason.notMapped := by
  unfold journalReadDo
  refine (if_neg (Nat.not_lt.2 h)).trans ?_
  unfold State.journalBytes State.journalCount at hw
  dsimp only
  rw [hw]

end

theorem exec_fenceCommand {seq : Nat} {c : Cmd} {s : State} (h : s.Ready seq 0x0090 c)
    (hall : s.host.cmds.all (fun d => d.claim != c.claim || decide (seq ≤ d.seq) || d.ended) = true) :
    exec (.fenceCommand seq) s = .next (s.complete seq 0) := by
  show execFenceCommand seq s = _
  unfold execFenceCommand
  rw [h.1]
  dsimp only
  rw [hall, if_pos rfl, hostCmd_ready h, seq_of_cmd? h.1]

/-! ## Snapshots -/

section
variable {c : Cmd} {s : State} {p : Nat} (hp : s.boundPipe c.claim (c.arg 16 2) = some p)
include hp

theorem snapshotDo_busy (h : s.host.snapshot ≠ none) : snapshotDo c s = s.fail c.seq Reason.busy := by
  unfold snapshotDo
  dsimp only
  rw [hp]
  exact if_pos (Option.isSome_iff_ne_none.2 h)

theorem snapshotDo_runs (h : s.host.snapshot = none) (hto : (s.dom (p / 32)).past ((s.dom (p / 32)).boundShift (c.arg 24 8)) = false)
    (hmap : s.mapped c.claim (c.arg 40 8) (s.image (c.arg 16 2)).snapshotLength true = true) :
    snapshotDo c s = (s.modHost (fun x => { x with snapshot := some (c.seq, none), snapped := [] })).running c.seq := by
  unfold snapshotDo
  dsimp only
  rw [hp]
  exact (if_neg (by rw [h]; decide)).trans ((if_neg (Bool.eq_false_iff.1 hto)).trans (if_neg (by rw [hmap]; decide)))

end

theorem snapshotLatchDo_writes {s v : State} {seq n a : Nat} {c : Cmd} (h : s.host.snapshot = some (seq, some (n, a))) (hc : s.cmd? seq = some c)
    (hw : (s.modHost (fun x => { x with snapshot := none, snapped := [] })).writeCva c.claim (c.arg 40 8)
      (s.snapshotRecord (c.arg 16 2) n (c.arg 32 4) ((s.image (c.arg 16 2)).bound.getD 0)) = some v) :
    snapshotLatchDo s = v.complete seq 0 := by
  unfold snapshotLatchDo
  rw [h]
  dsimp only
  rw [hc]
  dsimp only
  rw [hw]

theorem exec_snapshotLatch {s : State} {seq n a : Nat} (h : s.host.snapshot = some (seq, some (n, a))) (hnow : a ≤ s.now)
    (htaken : s.snapTaken seq = true) : exec .snapshotLatch s = .next (snapshotLatchDo s) := by
  show whenDue (snapshotLatchOk s) _ = _
  have hok : snapshotLatchOk s = true := by
    unfold snapshotLatchOk
    rw [h]
    dsimp only
    rw [decide_eq_true hnow, htaken]
    rfl
  rw [hok]
  rfl

theorem snapshot_finish (s : State) (seq : Nat) (ok : Bool) (n : Nat) (r : BitVec 128) : (s.finish seq ok n r).host.snapshot = s.host.snapshot :=
  congrArg (·.2.2.2.2.1) (finish_finished s seq ok n r).rest

/-! ## Captures -/

/-- The capture that a CAPTURE asks for, at a shift n of a domain. -/
def Cmd.captureAt (c : Cmd) (n dom : Nat) : RCapture :=
  { seq := c.seq, tree := c.arg 17 1, shift := n, edge := c.arg 32 4, dest := c.arg 40 8, dom := dom }

section
variable {c : Cmd} {s : State} {p : Nat} (hload : (s.block (c.arg 16 1)).loaded = true) (hclaim : (s.block (c.arg 16 1)).claim = c.claim)
  (hp : (s.image (s.block (c.arg 16 1)).image).bound = some p)
include hload hclaim hp

theorem captureDo_busy (h : (s.block (c.arg 16 1)).capture ≠ none) : captureDo c s = s.fail c.seq Reason.captureBusy := by
  unfold captureDo
  dsimp only
  rw [if_pos ⟨hload, hclaim⟩, hp]
  exact if_pos (Option.isSome_iff_ne_none.2 h)

theorem captureDo_runs (h : (s.block (c.arg 16 1)).capture = none)
    (hto : (s.dom (p / 32)).past ((s.dom (p / 32)).boundShift (c.arg 24 8)) = false) (hmap : s.mapped c.claim (c.arg 40 8) 0x4100 true = true) :
    captureDo c s = (s.modBlock (c.arg 16 1) (fun b => { b with
      capture := some (c.captureAt ((s.dom (p / 32)).boundShift (c.arg 24 8)) (p / 32)), captureBusy := true })).running c.seq := by
  unfold captureDo
  dsimp only
  rw [if_pos ⟨hload, hclaim⟩, hp]
  exact (if_neg (by rw [h]; decide)).trans ((if_neg (Bool.eq_false_iff.1 hto)).trans (if_neg (by rw [hmap]; decide)))

end

/-! ## The self test -/

section
variable {c : Cmd} {s : State}

theorem selfTestDo_claims (h : ∃ i, 1 ≤ i ∧ i < 256 ∧ (s.claim i).state ≠ .closed) : selfTestDo c s = s.fail c.seq Reason.claimState := by
  obtain ⟨i, hlo, hhi, hstate⟩ := h
  unfold selfTestDo
  refine if_pos (List.any_eq_true.2 ⟨i - 1, List.mem_range.2 (by omega), ?_⟩)
  rw [Nat.sub_add_cancel hlo]
  exact bne_iff_ne.2 hstate

theorem selfTestDo_runs (h : ∀ i, 1 ≤ i → i < 256 → (s.claim i).state = .closed) (hidle : s.images.any (fun i => i.2.claim == 0) = false) :
    selfTestDo c s = (upTo 24 (fun s r => s.modRow r (fun x => { x with powered := true })) s).running c.seq := by
  unfold selfTestDo
  refine (if_neg (fun hany => ?_)).trans (if_neg (Bool.eq_false_iff.1 hidle))
  obtain ⟨i, hi, hstate⟩ := List.any_eq_true.1 hany
  exact bne_iff_ne.1 hstate (h (i + 1) (by omega) (by have := List.mem_range.1 hi; omega))

end

/-- Settles O51: each command by its branch, with what a write to claim memory leaves alone. -/
theorem reportsSnapshotsAndCaptures : Obligations.ReportsSnapshotsAndCaptures := by
  refine ⟨⟨fun seq c s h => ⟨fun v hw => ⟨_, hostCmd_ready h scrubDo, ?_⟩, fun hnot => ⟨_, hostCmd_ready h scrubDo, ?_⟩⟩,
      fun seq c s h => ⟨fun hclosed => ⟨_, hostCmd_ready h counterReadDo, ?_⟩, fun v hopen hw => ⟨_, hostCmd_ready h counterReadDo, ?_⟩,
        fun hopen hnot => ⟨_, hostCmd_ready h counterReadDo, ?_⟩⟩,
      fun seq c s h => ⟨fun hover => ⟨_, hostCmd_ready h journalReadDo, ?_⟩, fun hin => ⟨fun v hw => ⟨_, hostCmd_ready h journalReadDo, ?_⟩,
        fun hnot => ⟨_, hostCmd_ready h journalReadDo, ?_⟩⟩⟩,
      fun seq c s h hall => ⟨_, exec_fenceCommand h hall, ended_complete h.1 0, finish_tiles _ _ _ _ _, finish_skips _ _ _ _ _⟩⟩,
    fun seq p c s h hp => ⟨fun hbusy => ⟨_, hostCmd_ready h snapshotDo, ?_⟩, fun hfree hto hmap => ⟨_, hostCmd_ready h snapshotDo, ?_⟩⟩,
    fun seq n a c v s h hnow hc htaken hw => ⟨_, exec_snapshotLatch h hnow htaken, ?_⟩,
    fun seq p c s h => fun hload hclaim hp => ⟨fun hbusy => ⟨_, hostCmd_ready h captureDo, ?_⟩, fun hfree hto hmap => ⟨_, hostCmd_ready h captureDo, ?_⟩⟩,
    fun seq c s h => ⟨fun hopen => ⟨_, hostCmd_ready h selfTestDo, ?_⟩, fun hclosed hidle hlen => ⟨_, hostCmd_ready h selfTestDo, ?_⟩⟩⟩
  · rw [scrubDo_writes hw, seq_of_cmd? h.1]
    exact ⟨rfl, (written_completes h.1 hw 0).1⟩
  · rw [scrubDo_unmapped hnot, seq_of_cmd? h.1]
    exact ended_fail h.1 _
  · rw [counterReadDo_closed hclosed, seq_of_cmd? h.1]
    exact ended_fail h.1 _
  · rw [counterReadDo_writes hopen hw, seq_of_cmd? h.1]
    exact ⟨rfl, (written_completes h.1 hw 0).1⟩
  · rw [counterReadDo_unmapped hopen hnot, seq_of_cmd? h.1]
    exact ended_fail h.1 _
  · rw [journalReadDo_overwritten hover, seq_of_cmd? h.1]
    exact ended_fail h.1 _
  · rw [journalReadDo_writes hin hw, seq_of_cmd? h.1]
    exact ⟨rfl, (written_completes h.1 hw _).2⟩
  · rw [journalReadDo_unmapped hin hnot, seq_of_cmd? h.1]
    exact ended_fail h.1 _
  · rw [snapshotDo_busy hp hbusy, seq_of_cmd? h.1]
    exact ⟨ended_fail h.1 _, snapshot_finish _ _ _ _ _⟩
  · rw [snapshotDo_runs hp hfree hto hmap, seq_of_cmd? h.1]
    exact ⟨⟨_, cmd?_running (s := s.modHost _) h.1, rfl⟩, rfl, rfl⟩
  · have hframe := CvaFrame.writeCva hw
    have hsnap : v.host.snapshot = none := congrArg (·.2.2.2.2.2.2.2.2.2.1) hframe.rest
    rw [snapshotLatchDo_writes h hc hw]
    exact ⟨rfl, (snapshot_finish _ _ _ _ _).trans hsnap, (written_completes (s := s.modHost _) (c := c) (seq := seq) (by exact hc) hw 0).1⟩
  · rw [captureDo_busy hload hclaim hp hbusy, seq_of_cmd? h.1]
    exact ⟨ended_fail h.1 _, finish_riddle _ _ _ _ _⟩
  · obtain rfl : c.seq = seq := seq_of_cmd? h.1
    rw [captureDo_runs hload hclaim hp hfree hto hmap]
    have hblock := block_modBlock s (c.arg 16 1) (fun b => { b with
      capture := some (c.captureAt ((s.dom (p / 32)).boundShift (c.arg 24 8)) (p / 32)), captureBusy := true })
    exact ⟨⟨_, cmd?_running (s := s.modBlock _ _) h.1, rfl⟩, (congrArg RBlock.captureBusy hblock :), (congrArg RBlock.capture hblock :)⟩
  · rw [selfTestDo_claims hopen, seq_of_cmd? h.1]
    exact ended_fail h.1 _
  · have hrows := upTo_modRow (fun _ x => { x with powered := true }) s 24 (by rw [hlen])
    rw [selfTestDo_runs hclosed hidle, seq_of_cmd? h.1]
    generalize upTo 24 (fun s r => s.modRow r (fun x => { x with powered := true })) s = v at hrows ⊢
    have hcmd : v.cmd? seq = some c := by
      rw [hrows.kept]
      exact h.1
    exact ⟨⟨_, cmd?_running hcmd, rfl⟩, (congrArg State.mem hrows.kept).trans rfl, hrows.all hlen (p := fun r => r.powered = true) (fun _ _ => rfl)⟩

end Sys2Proof.Machine

/-! PROOFS. Row clocks, droop sensors and the junction temperature (R397, R399, R403). -/

namespace Sys2Proof.Machine

theorem whenDue_true {b : Bool} (h : b = true) (u : State) : whenDue b u = .next u := by
  rw [h]
  rfl

/-! ## One row -/

/-- Row r is y, and nothing else is changed. -/
structure OnlyRow (r : Nat) (y : Row) (s u : State) : Prop where
  row : u.row r = y
  others : ∀ q, q ≠ r → u.row q = s.row q
  kept : u = { s with power := { s.power with rows := u.power.rows } }

theorem modRow_only {s : State} {r : Nat} (hr : r < 24) (hlen : s.power.rows.length = 24) (f : Row → Row) : OnlyRow r (f (s.row r)) s (s.modRow r f) :=
  ⟨row_modRow f (by omega), fun _ hq => row_modRow_other f hq, rfl⟩

theorem exec_rowPowerReady {r : Nat} {s : State} (hr : r < 24) (h : (s.row r).powering = true) :
    exec (.rowPowerReady r) s = .next (s.modRow r (fun x => { x with powering := false })) :=
  whenDue_true (by rw [decide_eq_true hr, h]; rfl) _

theorem exec_droopSensorTrip {r : Nat} {s : State} (hr : r < 24) (h : (s.row r).sensor = false) :
    exec (.droopSensorTrip r) s = .next (s.modRow r (fun x => { x with sensor := true, stepAt := x.fc + 2 })) :=
  whenDue_true (by rw [decide_eq_true hr, h]; rfl) _

theorem exec_droopSensorClear {r : Nat} {s : State} (hr : r < 24) (h : (s.row r).sensor = true) :
    exec (.droopSensorClear r) s = .next (s.modRow r (fun x => { x with sensor := false, stepAt := x.fc + s.power.stepUpFc.toNat })) :=
  whenDue_true (by rw [decide_eq_true hr, h]; rfl) _

theorem exec_rowClockStepDown {r : Nat} {s : State} (hr : r < 24) (ht : s.power.throttled = false) (h : (s.row r).sensor = true)
    (hk : 12 < (s.row r).k) (hat : (s.row r).stepAt ≤ (s.row r).fc) :
    exec (.rowClockStepDown r) s = .next (s.modRow r (fun x => { x with k := x.k - 1, stepAt := x.fc + 2 })) :=
  whenDue_true (by rw [decide_eq_true hr, ht, h, decide_eq_true hk, decide_eq_true hat]; rfl) _

theorem exec_rowClockStepUp {r : Nat} {s : State} (hr : r < 24) (ht : s.power.throttled = false) (h : (s.row r).sensor = false)
    (hk : (s.row r).k < 16) (hat : (s.row r).stepAt ≤ (s.row r).fc) :
    exec (.rowClockStepUp r) s = .next (s.modRow r (fun x => { x with k := x.k + 1, stepAt := x.fc + s.power.stepUpFc.toNat })) :=
  whenDue_true (by rw [decide_eq_true hr, ht, h, decide_eq_true hk, decide_eq_true hat]; rfl) _

/-! ## The junction temperature -/

/-- The reading c is shown and compared with the warning level; when the warning was last raised, and how often not, may change. -/
structure Warned (c : Nat) (s u : State) : Prop where
  power : u.power = { s.power with
    tjC := BitVec.ofNat 8 c, warning := s.power.warning || decide (s.power.warnC.toNat ≤ c), aboveWarn := decide (s.power.warnC.toNat ≤ c)
    warnAt := u.power.warnAt, warnFolded := u.power.warnFolded }
  images : u.images = s.images
  tiles : u.tiles = s.tiles

/-- A warning that is raised, or folded into the last one. -/
theorem Warned.of_kept {c : Nat} {s u v : State} (h : Warned c s u)
    (hpower : v.power = { u.power with warnAt := v.power.warnAt, warnFolded := v.power.warnFolded })
    (himages : v.images = u.images) (htiles : v.tiles = u.tiles) : Warned c s v :=
  ⟨by rw [hpower, h.power], himages.trans h.images, htiles.trans h.tiles⟩

theorem thermalWarn_warned (s : State) (c : Nat) : Warned c s (s.thermalWarn c) := by
  unfold State.thermalWarn
  extract_lets p above s0 s1 recent
  have h0 : Warned c s s0 := ⟨rfl, rfl, rfl⟩
  have h1 : Warned c s s1 := by
    unfold s1
    split
    · exact h0.of_kept rfl rfl rfl
    · exact h0
  split
  · split
    · exact h1.of_kept rfl rfl rfl
    · refine h1.of_kept ?_ (raise_images s1 Ev.thermalWarning { count := p.warnFolded + 1 })
        (raise_tiles s1 Ev.thermalWarning { count := p.warnFolded + 1 })
      exact congrArg (fun p : Power => { p with warnAt := some s.now, warnFolded := 0 })
        (raise_power s1 Ev.thermalWarning { count := p.warnFolded + 1 })
  · exact h1

/-- The throttle of a reading: set at 105, cleared below 100, and kept between. -/
structure Throttled (c : Nat) (s u : State) : Prop where
  hot : 105 ≤ c → u.power.throttled = true ∧ (s.power.throttled = false → u.power.tripped = true ∧ ∀ r, r < 24 → (u.row r).k = 12)
  cool : c < 100 → u.power.throttled = false
  between : 100 ≤ c → c < 105 → u.power.throttled = s.power.throttled
  reading : u.power.tjC = s.power.tjC ∧ u.power.warning = s.power.warning ∧ u.power.thermtrip = s.power.thermtrip
  length : u.power.rows.length = s.power.rows.length
  images : u.images = s.images
  tiles : u.tiles = s.tiles

/-- A first reading of 105 degrees or more: every row clock is held, and one event raised. -/
theorem thermalThrottle_trips {s : State} {c : Nat} (hlen : s.power.rows.length = 24) (hc : 105 ≤ c) (hfree : s.power.throttled = false) :
    Throttled c s (s.thermalThrottle c) := by
  have hdo : s.thermalThrottle c
      = ((s.modPower (fun p => { p with tripped := true, throttled := true })).hit thermalStatus 30).holdRows.raise Ev.thermalTrip {} := by
    unfold State.thermalThrottle
    rw [if_pos hc, hfree]
    rfl
  rw [hdo]
  have hrows := upTo_modRow (fun _ x => { x with k := 12 })
    ((s.modPower (fun p => { p with tripped := true, throttled := true })).hit thermalStatus 30) 24 (by exact Nat.le_of_eq hlen.symm)
  unfold State.holdRows
  generalize upTo 24 (fun (s : State) r => s.modRow r (fun x => { x with k := 12 })) _ = v at hrows ⊢
  have hpower : (v.raise Ev.thermalTrip {}).power = { s.power with tripped := true, throttled := true, rows := v.power.rows } :=
    (raise_power _ _ _).trans (congrArg State.power hrows.kept)
  have himages : v.images = s.images := (congrArg State.images hrows.kept).trans rfl
  have htiles : v.tiles = s.tiles := (congrArg State.tiles hrows.kept).trans rfl
  refine ⟨fun _ => ⟨by rw [hpower], fun _ => ⟨by rw [hpower], fun r hr => ?_⟩⟩, fun h => by omega, fun _ h => by omega, ?_, ?_,
    (raise_images _ _ _).trans himages, (raise_tiles _ _ _).trans htiles⟩
  · rw [State.row, raise_power]
    exact congrArg Row.k (hrows.mapped r hr)
  · rw [hpower]
    exact ⟨rfl, rfl, rfl⟩
  · rw [hpower]
    exact hrows.length

/-- Nothing but rows is changed, and none is added or taken away. -/
structure RowsOnly (s u : State) : Prop where
  length : u.power.rows.length = s.power.rows.length
  kept : u = { s with power := { s.power with rows := u.power.rows } }

theorem RowsOnly.modRow {s u : State} (h : RowsOnly s u) (r : Nat) (f : Row → Row) : RowsOnly s (u.modRow r f) := by
  refine ⟨(List.length_set ..).trans h.length, ?_⟩
  rw [h.kept]
  rfl

theorem releaseRows_only (s : State) : RowsOnly s s.releaseRows := by
  unfold State.releaseRows upTo
  exact foldl_keeps (RowsOnly s) _ (fun u r hu => hu.modRow r _) _ _ ⟨rfl, rfl⟩

/-- A reading below 100 degrees that ends the throttle. -/
theorem thermalThrottle_releases {s : State} {c : Nat} (hc : c < 100) (hheld : s.power.throttled = true) :
    Throttled c s (s.thermalThrottle c) := by
  have hdo : s.thermalThrottle c = (s.modPower (fun p => { p with throttled := false })).releaseRows := by
    unfold State.thermalThrottle
    rw [if_neg (by omega), if_pos ⟨hc, hheld⟩]
  rw [hdo]
  have hrows := releaseRows_only (s.modPower (fun p => { p with throttled := false }))
  generalize (s.modPower (fun p => { p with throttled := false })).releaseRows = v at hrows ⊢
  have hpower : v.power = { s.power with throttled := false, rows := v.power.rows } := (congrArg State.power hrows.kept).trans rfl
  refine ⟨fun h => by omega, fun _ => by rw [hpower], fun h => by omega, ?_, hrows.length, (congrArg State.images hrows.kept).trans rfl,
    (congrArg State.tiles hrows.kept).trans rfl⟩
  rw [hpower]
  exact ⟨rfl, rfl, rfl⟩

/-- Every other reading leaves the throttle and the rows. -/
theorem thermalThrottle_same {s : State} {c : Nat} (hhot : 105 ≤ c → s.power.throttled = true) (hcool : c < 100 → s.power.throttled = false) :
    s.thermalThrottle c = s := by
  unfold State.thermalThrottle
  by_cases h : 105 ≤ c
  · rw [if_pos h, hhot h]
    rfl
  · rw [if_neg h, if_neg]
    rintro ⟨hc, ht⟩
    exact absurd ((hcool hc).symm.trans ht) Bool.false_ne_true

theorem thermalThrottle_throttled {s : State} (c : Nat) (hlen : s.power.rows.length = 24) : Throttled c s (s.thermalThrottle c) := by
  cases ht : s.power.throttled with
  | true =>
    by_cases hc : c < 100
    · exact thermalThrottle_releases hc ht
    · rw [thermalThrottle_same (fun _ => ht) (fun h => absurd h hc)]
      exact ⟨fun _ => ⟨ht, fun h => absurd (ht.symm.trans h) (by decide)⟩, fun h => absurd h hc, fun _ _ => rfl, ⟨rfl, rfl, rfl⟩, rfl, rfl, rfl⟩
  | false =>
    by_cases hc : 105 ≤ c
    · exact thermalThrottle_trips hlen hc ht
    · rw [thermalThrottle_same (fun h => absurd h hc) (fun _ => ht)]
      exact ⟨fun h => absurd h hc, fun _ => ht, fun _ _ => rfl, ⟨rfl, rfl, rfl⟩, rfl, rfl, rfl⟩

/-! ## A reading -/

theorem exec_thermalSensorRead {c : Nat} {s : State} (hc : c < 256) (hpor : s.power.porAsserted = false) (hoff : s.power.thermtrip = false) :
    exec (.thermalSensorRead c) s = .next (thermalSensorReadDo c s) := by
  show (if c < 256 then _ else _) = _
  rw [if_pos hc]
  exact whenDue_true (by rw [hpor, hoff]; rfl) _

theorem thermalSensorReadDo_on {c : Nat} (h : c < 115) (s : State) : thermalSensorReadDo c s = (s.thermalWarn c).thermalThrottle c := by
  unfold thermalSensorReadDo
  exact if_neg (by omega)

theorem thermalSensorReadDo_off {c : Nat} (h : 115 ≤ c) (s : State) : thermalSensorReadDo c s = ((s.thermalWarn c).thermalThrottle c).thermalOff := by
  unfold thermalSensorReadDo
  exact if_pos h

theorem thermalOff_rows (s : State) : ∀ r ∈ s.thermalOff.power.rows, r.powered = false := by
  intro r hr
  obtain ⟨x, -, rfl⟩ := List.mem_map.1 (show r ∈ s.power.rows.map (fun r => { r with powered := false, powering := false }) from hr)
  rfl

/-- Settles O53: a row's own change, and the warning and the throttle of a reading. -/
theorem rowClocksFollowDroopAndHeat : Obligations.RowClocksFollowDroopAndHeat := by
  refine ⟨fun r s hr hlen => ⟨fun h => ⟨_, exec_rowPowerReady hr h, ?_⟩, fun h => ⟨_, exec_droopSensorTrip hr h, ?_⟩,
      fun h => ⟨_, exec_droopSensorClear hr h, ?_⟩, fun ht h hk hat => ⟨_, exec_rowClockStepDown hr ht h hk hat, ?_⟩,
      fun ht h hk hat => ⟨_, exec_rowClockStepUp hr ht h hk hat, ?_⟩⟩,
    fun c s hc hpor hoff hlen => ⟨fun hlow => ⟨_, exec_thermalSensorRead hc hpor hoff, ?_⟩, fun hhigh => ⟨_, exec_thermalSensorRead hc hpor hoff, ?_⟩⟩,
    fun temps s h => ⟨_, if_pos (beq_iff_eq.2 h), rfl⟩, fun mw s => ⟨_, rfl, rfl⟩⟩
  case refine_1 | refine_2 | refine_3 | refine_4 | refine_5 =>
    obtain ⟨hrow, hothers, hkept⟩ := modRow_only hr hlen _
    exact ⟨hrow, hothers, hkept⟩
  case refine_6 =>
    obtain ⟨hpower, himages, htiles⟩ := thermalWarn_warned s c
    rw [thermalSensorReadDo_on hlow]
    have hth := thermalThrottle_throttled (s := s.thermalWarn c) c (by rw [hpower]; exact hlen)
    generalize s.thermalWarn c = v at hpower himages htiles hth ⊢
    obtain ⟨htj, hwarn, htrip⟩ := hth.reading
    have hbefore : v.power.throttled = s.power.throttled := by rw [hpower]
    refine ⟨?_, ?_, ?_, fun h => ?_, hth.cool, fun hlo hhi => (hth.between hlo hhi).trans hbefore, hth.images.trans himages, hth.tiles.trans htiles⟩
    · rw [htj, hpower]
      exact (BitVec.toNat_ofNat c 8).trans (Nat.mod_eq_of_lt hc)
    · rw [hwarn, hpower]
    · rw [htrip, hpower]
      exact hoff
    · rw [← hbefore]
      exact hth.hot h
  case refine_7 =>
    rw [thermalSensorReadDo_off hhigh]
    exact ⟨rfl, rfl, rfl, rfl, rfl, thermalOff_rows _⟩

end Sys2Proof.Machine

/-! PROOFS. Flits that cross a link in order (R348 to R351). -/

namespace Sys2Proof.Machine

/-! ## Ports and their counters -/

theorem emPort_modEmPort (s : State) (p : Nat) (f : EmPort → EmPort) : (s.modEmPort p f).emPort p = f (s.emPort p) := lookD_put_same _ _ _ _

theorem emPort_of_emeel {s u : State} (h : u.emeel = s.emeel) (p : Nat) : u.emPort p = s.emPort p := by
  rw [State.emPort, h]
  rfl

theorem countPort_counters (s : State) (p c : Nat) :
    s.countPort p c = { s with dbg := { s.dbg with counters := (s.countPort p c).dbg.counters } } := rfl

/-! ## Flits that are sent again -/

/-- What is sent again leaves in order; nothing else changes but counters. -/
structure Resent (p : Nat) (fs : List Flit) (s u : State) : Prop where
  out : u.out = ((fs.map (fun f => Out.flit p f)).reverse) ++ s.out
  kept : u = { s with out := u.out, dbg := { s.dbg with counters := u.dbg.counters } }

theorem resend_resent (p : Nat) (fs : List Flit) : ∀ s : State, Resent p fs s (s.resend p fs) := by
  induction fs with
  | nil => exact fun s => ⟨rfl, rfl⟩
  | cons f fs ih =>
    intro s
    obtain ⟨hout, hkept⟩ := ih ((s.emit (.flit p f)).countPort p 0)
    have hcons : s.resend p (f :: fs) = ((s.emit (.flit p f)).countPort p 0).resend p fs := rfl
    rw [hcons]
    generalize ((s.emit (.flit p f)).countPort p 0).resend p fs = u at hout hkept ⊢
    refine ⟨?_, hkept.trans rfl⟩
    rw [hout, List.map_cons, List.reverse_cons, List.append_assoc]
    rfl

theorem Resent.emeel {p : Nat} {fs : List Flit} {s u : State} (h : Resent p fs s u) : u.emeel = s.emeel := (congrArg State.emeel h.kept).trans rfl
theorem Resent.skips {p : Nat} {fs : List Flit} {s u : State} (h : Resent p fs s u) : u.skips = s.skips := (congrArg State.skips h.kept).trans rfl
theorem Resent.mem {p : Nat} {fs : List Flit} {s u : State} (h : Resent p fs s u) : u.mem = s.mem := (congrArg State.mem h.kept).trans rfl

/-! ## Training -/

theorem exec_portTrainingComplete {p l : Nat} {n : Option Nat} {s : State} (hp : p < 4) (hl : l < 65536) (hn : n.all (fun d => decide (d < 64)) = true)
    (hready : s.host.ready = true) (hen : (s.emPort p).enable = true) (hdown : (s.emPort p).up = false) :
    exec (.portTrainingComplete p l n) s = .next (portTrainingCompleteDo p l n s) := by
  show (if _ then _ else _) = _
  rw [if_pos ⟨hp, hl, hn⟩]
  exact whenDue_true (by rw [hready, hen, hdown]; rfl) _

theorem portTrainingCompleteDo_up {p l : Nat} {n : Option Nat} {s : State} (hl : l ≤ 1000) (hr : popcount 4 (s.emPort p).retired.toNat ≤ 1) :
    portTrainingCompleteDo p l n s = (s.modEmPort p (fun x => { x with
      up := true, lanesUp := ~~~x.retired, degraded := x.retired != 0, neighbour := n, lMeas := l, lFixed := 3 * l + 24 })).resend p
        (s.emPort p).replay := by
  unfold portTrainingCompleteDo
  exact if_neg (by omega)

theorem portTrainingCompleteDo_down {p l : Nat} {n : Option Nat} {s : State} (h : 1000 < l ∨ 1 < popcount 4 (s.emPort p).retired.toNat) :
    portTrainingCompleteDo p l n s = s := by
  unfold portTrainingCompleteDo
  exact if_pos h

/-! ## Flits that come in -/

theorem exec_flitReceived {p c : Nat} {f : Flit} {ok : Bool} {s : State} (hp : p < 4) (hc : c ≤ 3) (hup : (s.emPort p).up = true) :
    exec (.flitReceived p f c ok) s = .next (flitReceivedDo p f c ok s) := by
  show (if _ then _ else _) = _
  rw [if_pos ⟨hp, hc⟩]
  exact whenDue_true hup _

/-- Corrected flits are counted. -/
def State.countCorrected (s : State) (p c : Nat) : State := if 0 < c then s.countPort p 2 else s

theorem countCorrected_counters (s : State) (p c : Nat) :
    s.countCorrected p c = { s with dbg := { s.dbg with counters := (s.countCorrected p c).dbg.counters } } := by
  unfold State.countCorrected
  split <;> rfl

/-- What a NAK leaves: one leaves the device, and the port has the same flits and expects the same. -/
structure Naked (p : Nat) (s u : State) : Prop where
  out : u.out = .nak p (s.emPort p).expect.toNat :: s.out
  accepted : (u.emPort p).accepted = (s.emPort p).accepted
  expect : (u.emPort p).expect = (s.emPort p).expect

theorem nak_naked (s : State) (p c : Nat) : Naked p s ((s.countCorrected p c).nak p) := by
  have hsame := countCorrected_counters s p c
  generalize s.countCorrected p c = v at hsame ⊢
  have hport : v.emPort p = s.emPort p := by rw [hsame]; rfl
  have hnak := emPort_modEmPort ((v.emit (.nak p (v.emPort p).expect.toNat)).countPort p 3) p (fun x => { x with nakAt := x.nakAt <|> some v.now })
  have hbefore : ((v.emit (.nak p (v.emPort p).expect.toNat)).countPort p 3).emPort p = s.emPort p := hport
  rw [hbefore] at hnak
  refine ⟨?_, (congrArg EmPort.accepted hnak :), (congrArg EmPort.expect hnak :)⟩
  show Out.nak p (v.emPort p).expect.toNat :: v.out = _
  rw [hport, hsame]

theorem flitReceivedDo_failed {p c : Nat} {f : Flit} {s : State} : flitReceivedDo p f c false s = (s.countCorrected p c).nak p := by
  unfold flitReceivedDo
  exact if_pos rfl

theorem flitReceivedDo_next {p c : Nat} {f : Flit} {s : State} (h : f.seq = (s.emPort p).expect) : flitReceivedDo p f c true s
    = ((s.countCorrected p c).modEmPort p (fun y => { y with
      expect := y.expect + 1, nakAt := none, accepted := y.accepted ++ [(f, s.flitLate p f)] })).countPort p 1 := by
  unfold flitReceivedDo
  exact (if_neg (by decide)).trans (if_pos h)

theorem flitReceivedDo_gap {p c : Nat} {f : Flit} {s : State} (h : f.seq ≠ (s.emPort p).expect) (hgap : (f.seq - (s.emPort p).expect).toNat < 2048) :
    flitReceivedDo p f c true s = (s.countCorrected p c).nak p := by
  unfold flitReceivedDo
  exact (if_neg (by decide)).trans ((if_neg h).trans (if_pos hgap))

theorem flitReceivedDo_copy {p c : Nat} {f : Flit} {s : State} (h : 2048 ≤ (f.seq - (s.emPort p).expect).toNat) :
    flitReceivedDo p f c true s = s.countCorrected p c := by
  have hne : f.seq ≠ (s.emPort p).expect := fun heq => by
    rw [heq, BitVec.sub_self] at h
    exact absurd h (by decide)
  unfold flitReceivedDo
  exact (if_neg (by decide)).trans ((if_neg hne).trans (if_neg (Nat.not_lt.2 h)))

theorem exec_nakReceived {p n : Nat} {s : State} (hp : p < 4) (hn : n < 4096) (hup : (s.emPort p).up = true) :
    exec (.nakReceived p n) s = .next (nakReceivedDo p n s) := by
  show (if _ then _ else _) = _
  rw [if_pos ⟨hp, hn⟩]
  exact whenDue_true hup _

/-! ## Flits that are handed on -/

section
variable {p : Nat} {f : Flit} {late : Bool} {r : List (Flit × Bool)} {s : State} (h : (s.emPort p).accepted = (f, late) :: r)
include h

theorem exec_flitDelivery (hp : p < 4) (hdue : f.stamp + (s.emPort p).lFixed ≤ s.emeel.meshTime) :
    exec (.flitDelivery p) s = .next (flitDeliveryDo p s) := by
  have hok : flitDeliveryOk p s = true := by
    unfold flitDeliveryOk
    rw [h]
    simp only [decide_eq_true hp, decide_eq_true hdue, Bool.and_self]
  exact whenDue_true hok _

end

theorem flitDeliveryDo_onTime {p : Nat} {f : Flit} {r : List (Flit × Bool)} {s : State} (h : (s.emPort p).accepted = (f, false) :: r) :
    flitDeliveryDo p s = (s.modEmPort p (fun x => { x with accepted := r })).deliver1 f := by
  unfold flitDeliveryDo
  rw [h]
  rfl

/-- What a late flit leaves before it is handed on. -/
def State.lateFlit (s : State) (p : Nat) (r : List (Flit × Bool)) : State :=
  ((((s.modEmPort p (fun x => { x with accepted := r })).modEmPort p (fun x => { x with retryLate := true })).hit (emPortStatus p) 1).countPort p
    4).raise Ev.emeelRetryLate { locKind := 6, loc := p }

theorem flitDeliveryDo_late {p : Nat} {f : Flit} {r : List (Flit × Bool)} {s : State} (h : (s.emPort p).accepted = (f, true) :: r)
    (hkind : f.kind ≠ .data) : flitDeliveryDo p s = (s.lateFlit p r).deliver1 f := by
  unfold flitDeliveryDo
  rw [h]
  dsimp only
  rw [if_pos rfl, if_neg (fun hd => hkind hd.1)]
  rfl

theorem emPort_countPort_hit (u : State) (o b p c q : Nat) : ((u.hit o b).countPort p c).emPort q = u.emPort q :=
  emPort_of_emeel (u := (u.hit o b).countPort p c) (by rfl) q

theorem lateFlit_port (s : State) (p : Nat) (r : List (Flit × Bool)) :
    (s.lateFlit p r).emPort p = { s.emPort p with accepted := r, retryLate := true } := by
  unfold State.lateFlit
  rw [emPort_of_emeel (raise_emeel _ _ _), emPort_countPort_hit]
  have h := emPort_modEmPort (s.modEmPort p (fun x => { x with accepted := r })) p (fun x => { x with retryLate := true })
  exact h.trans (congrArg (fun x : EmPort => { x with retryLate := true }) (emPort_modEmPort s p (fun x => { x with accepted := r })))

theorem lateFlit_kept (s : State) (p : Nat) (r : List (Flit × Bool)) :
    (s.lateFlit p r).emeel.deviceId = s.emeel.deviceId ∧ (s.lateFlit p r).skips = s.skips
      ∧ (s.lateFlit p r).faults.eventSeq = s.faults.eventSeq + 1 := by
  unfold State.lateFlit
  rw [raise_emeel, raise_skips, raise_faults]
  have hkept (u : State) : ((u.hit (emPortStatus p) 1).countPort p 4).emeel = u.emeel
      ∧ ((u.hit (emPortStatus p) 1).countPort p 4).skips = u.skips ∧ ((u.hit (emPortStatus p) 1).countPort p 4).faults = u.faults := ⟨rfl, rfl, rfl⟩
  rw [(hkept _).1, (hkept _).2.1, (hkept _).2.2]
  exact ⟨rfl, rfl, rfl⟩

theorem deliver1_here {s : State} {f : Flit} (h : f.device = s.emeel.deviceId.toNat) (hkind : f.kind = .commitMark) :
    s.deliver1 f = s.modSkip f.stream (fun x => { x with
      effective := max x.effective f.payload.toNat, pushedNow := x.pushedNow + (f.payload.toNat - x.effective), pushSeen := true
      marks := x.marks ++ [(f.payload.toNat, s.ingressDue f.stream + 2)] }) := by
  unfold State.deliver1
  rw [if_pos h]
  unfold State.deliverHere
  rw [hkind]
  dsimp only
  unfold State.deliverSkip
  dsimp only
  rw [hkind]

theorem deliver1_away {s : State} {f : Flit} (h : f.device ≠ s.emeel.deviceId.toNat) :
    s.deliver1 f = s.sendFlit f.device f.kind f.stream f.tag f.payload 16 := by
  unfold State.deliver1
  exact if_neg h

/-- Settles O55: each flit by the place of its sequence, and its delivery by its device. -/
theorem flitsCrossLinksInOrder : Obligations.FlitsCrossLinksInOrder := by
  refine fun p s hp => ⟨fun l n hready hen hdown hn => ⟨fun hl hr => ⟨_, exec_portTrainingComplete hp (by omega) hn hready hen hdown, ?_⟩,
      fun hl hlong => (exec_portTrainingComplete hp hl hn hready hen hdown).trans (by rw [portTrainingCompleteDo_down hlong])⟩,
    fun f c hup hc => ⟨fun hseq => ⟨_, exec_flitReceived hp hc hup, ?_⟩, fun hne hgap => ⟨_, exec_flitReceived hp hc hup, ?_⟩,
      fun hcopy => ⟨_, exec_flitReceived hp hc hup, ?_⟩, ⟨_, exec_flitReceived hp hc hup, ?_⟩⟩,
    fun n hup hn => ⟨_, exec_nakReceived hp hn hup, (resend_resent _ _ _).out, (resend_resent _ _ _).emeel⟩,
    fun f r h hdue hhere hkind => ⟨_, exec_flitDelivery h hp hdue, ?_⟩,
    fun f r h hdue haway => (exec_flitDelivery h hp hdue).trans ?_,
    fun f r h hdue hhere hkind => ⟨_, exec_flitDelivery h hp hdue, ?_⟩⟩
  · rw [portTrainingCompleteDo_up hl hr]
    have hport := emPort_modEmPort s p (fun x => { x with
      up := true, lanesUp := ~~~x.retired, degraded := x.retired != 0, neighbour := n, lMeas := l, lFixed := 3 * l + 24 })
    have hsent := resend_resent p (s.emPort p).replay (s.modEmPort p (fun x => { x with
      up := true, lanesUp := ~~~x.retired, degraded := x.retired != 0, neighbour := n, lMeas := l, lFixed := 3 * l + 24 }))
    rw [← emPort_of_emeel hsent.emeel] at hport
    generalize State.resend _ p (s.emPort p).replay = u at hport hsent ⊢
    dsimp only
    rw [hport]
    exact ⟨rfl, rfl, rfl, rfl, hsent.skips, hsent.mem⟩
  · have hsame := countCorrected_counters s p c
    rw [flitReceivedDo_next hseq]
    generalize s.countCorrected p c = v at hsame ⊢
    have hport := emPort_modEmPort v p (fun y => { y with expect := y.expect + 1, nakAt := none, accepted := y.accepted ++ [(f, s.flitLate p f)] })
    rw [show v.emPort p = s.emPort p by rw [hsame]; rfl] at hport
    exact ⟨(congrArg EmPort.expect hport :), (congrArg EmPort.accepted hport :), (congrArg State.skips hsame).trans rfl⟩
  · rw [flitReceivedDo_gap hne hgap]
    obtain ⟨hout, haccepted, hexpect⟩ := nak_naked s p c
    exact ⟨hout, haccepted, hexpect⟩
  · rw [flitReceivedDo_copy hcopy]
    exact countCorrected_counters s p c
  · rw [flitReceivedDo_failed]
    obtain ⟨hout, haccepted, hexpect⟩ := nak_naked s p c
    exact ⟨hout, haccepted, hexpect⟩
  · rw [flitDeliveryDo_onTime h]
    have hport := emPort_modEmPort s p (fun x => { x with accepted := r })
    rw [deliver1_here (s := s.modEmPort p (fun x => { x with accepted := r })) hhere hkind]
    refine ⟨congrArg EmPort.accepted hport, ?_, ?_, fun k hk => skip_modSkip_other _ _ _ _ hk, rfl⟩
    · rw [skip_modSkip]
      rfl
    · rw [skip_modSkip]
      rfl
  · rw [flitDeliveryDo_onTime h, deliver1_away (s := s.modEmPort p (fun x => { x with accepted := r })) haway]
  · rw [flitDeliveryDo_late h (by rw [hkind]; decide)]
    have hport := lateFlit_port s p r
    obtain ⟨hemeel, hskip, hevent⟩ := lateFlit_kept s p r
    generalize s.lateFlit p r = v at hport hemeel hskip hevent ⊢
    rw [deliver1_here (hhere.trans (congrArg BitVec.toNat hemeel.symm)) hkind]
    refine ⟨congrArg EmPort.accepted hport, congrArg EmPort.retryLate hport, hevent, ?_⟩
    rw [skip_modSkip, State.skip, hskip]
    rfl

end Sys2Proof.Machine

/-! PROOFS. Enumeration, mesh time and the remote register window (R354 to R356, R364, R367). -/

namespace Sys2Proof.Machine

/-! ## What a flit that is sent changes of the links -/

/-- Of the links only ports are changed. -/
def PortsOnly (s u : State) : Prop := u.emeel = { s.emeel with ports := u.emeel.ports }

namespace PortsOnly

theorem refl (s : State) : PortsOnly s s := rfl

theorem trans {s u w : State} (h : PortsOnly s u) (h' : PortsOnly u w) : PortsOnly s w := by
  unfold PortsOnly at *
  rw [h', h]

theorem eq {s u : State} (h : PortsOnly s u) : u.emeel = { s.emeel with ports := u.emeel.ports } := h

theorem sendOn (s : State) (p : Nat) (f : Flit) (delay : Nat) : PortsOnly s (s.sendOn p f delay) := by
  unfold State.sendOn
  extract_lets x g s1
  have h1 : PortsOnly s s1 := rfl
  split
  · exact h1.trans (show PortsOnly s1 _ from rfl)
  · exact h1

theorem sendFlit (s : State) (device : Nat) (kind : FlitKind) (stream tag : Nat) (payload : Line) (delay : Nat) :
    PortsOnly s (s.sendFlit device kind stream tag payload delay) := by
  unfold State.sendFlit
  split
  · exact sendOn _ _ _ _
  · exact refl s

theorem copyToMembers (s : State) (offset : Nat) (v : Word) : PortsOnly s (s.copyToMembers offset v) := by
  unfold State.copyToMembers
  split
  · exact foldl_keeps (PortsOnly s) _ (fun u i hu => hu.trans (sendFlit _ _ _ _ _ _ _)) _ _ (refl s)
  · exact refl s

end PortsOnly

/-! ## Enumeration -/

theorem exec_idTokenReceived {p x y xs ys : Nat} {s : State} (hp : p = 1 ∨ p = 3) (hxs : xs ≤ 8) (hys : ys ≤ 8) (hx : x < xs) (hy : y < ys)
    (hpor : s.power.porAsserted = false) : exec (.idTokenReceived p x y xs ys) s = .next (idTokenReceivedDo p x y xs ys s) := by
  show (if _ then _ else _) = _
  rw [if_pos ⟨hp, hxs, hys, hx, hy⟩]
  exact whenDue_true (by rw [hpor]; rfl) _

/-- The id that a token gives on a port. -/
def tokenId (p x y xs ys : Nat) : Nat := if p = 1 then y * xs + (x + 1) % xs else (y + 1) % ys * xs + x

theorem tokenPlace_id (p x y xs ys : Nat) : (tokenPlace p x y xs ys).2 * xs + (tokenPlace p x y xs ys).1 = tokenId p x y xs ys := by
  unfold tokenPlace tokenId
  split <;> rfl

theorem tokenId_lt {p x y xs ys : Nat} (hxs : xs ≤ 8) (hys : ys ≤ 8) (hx : x < xs) (hy : y < ys) : tokenId p x y xs ys < 64 := by
  have hrow : ∀ a b, a < ys → b < xs → a * xs + b < 64 := fun a b ha hb =>
    calc a * xs + b < a * xs + xs := Nat.add_lt_add_left hb _
      _ = (a + 1) * xs := (Nat.succ_mul a xs).symm
      _ ≤ ys * xs := Nat.mul_le_mul_right xs ha
      _ ≤ 8 * 8 := Nat.mul_le_mul hys hxs
  unfold tokenId
  split
  · exact hrow _ _ hy (Nat.mod_lt _ (by omega))
  · exact hrow _ _ (Nat.mod_lt _ (by omega)) hx

/-- What a member takes note of with its token. -/
def State.takeId (s : State) (p id xs ys : Nat) : State :=
  (s.modEmeel (fun e => { e with
    deviceId := BitVec.ofNat 6 id, idTaken := true, idPort := some p, xMinus1 := BitVec.ofNat 3 (xs - 1)
    yMinus1 := BitVec.ofNat 3 (ys - 1) })).modPower (fun p => { p with linkUp := false })

theorem idTokenReceivedDo_takes {p x y xs ys : Nat} {s : State} (hhead : s.emeel.head = false) (hfree : s.emeel.idTaken = false) :
    idTokenReceivedDo p x y xs ys s = (((s.takeId p (tokenId p x y xs ys) xs ys).forwardToken (tokenPlace p x y xs ys).1 (tokenPlace p x y xs ys).2).emit
      (.report (tokenId p x y xs ys) (s.emPort p).lFixed)) := by
  unfold idTokenReceivedDo
  dsimp only
  rw [tokenPlace_id, if_neg (by rw [hfree, Bool.false_and]; decide), if_neg (by rw [hhead, hfree]; simp)]
  rfl

theorem forwardToken_kept (s : State) (x y : Nat) : (s.forwardToken x y).emeel = s.emeel ∧ (s.forwardToken x y).power = s.power := by
  unfold State.forwardToken
  extract_lets xs ys s1
  have h1 : s1.emeel = s.emeel ∧ s1.power = s.power := by
    unfold s1
    split <;> exact ⟨rfl, rfl⟩
  split
  · exact h1
  · exact h1

theorem exec_deviceReport {id lat : Nat} {s : State} (hhead : s.emeel.head = true) (hen : s.emeel.enumerating = true) (hlo : 1 ≤ id)
    (hhi : id < s.emeel.xSize * s.emeel.ySize) : exec (.deviceReport id lat) s = .next (deviceReportDo id lat s) :=
  whenDue_true (by rw [hhead, hen, decide_eq_true hlo, decide_eq_true hhi]; rfl) _

/-- The members that have reported, with this one. -/
def State.reports (s : State) (id lat : Nat) : List (Nat × Nat) := (id, lat) :: s.emeel.reported.filter (fun r => r.1 != id)

theorem deviceReportDo_more {id lat : Nat} {s : State} (h : (s.reports id lat).length + 1 ≠ s.emeel.xSize * s.emeel.ySize) :
    deviceReportDo id lat s = s.modEmeel (fun e => { e with reported := s.reports id lat }) := by
  unfold deviceReportDo
  exact if_neg h

/-- The enumerated mesh, before the members hear of it. -/
def State.enumeratedBy (s : State) (id lat : Nat) : State :=
  s.modEmeel (fun e => { e with
    reported := s.reports id lat, enumerated := true, enumerating := false, devices := s.emeel.xSize * s.emeel.ySize
    tickDelay := BitVec.ofNat 16 (((s.reports id lat).map (·.2)).foldl max 0 + 16) })

theorem deviceReportDo_last {id lat : Nat} {s : State} (h : (s.reports id lat).length + 1 = s.emeel.xSize * s.emeel.ySize) :
    deviceReportDo id lat s = ((s.enumeratedBy id lat).copyToMembers 0x6000004 (BitVec.ofNat 32 ((s.enumeratedBy id lat).emReg 0x04))).copyToMembers
      0x600000C (BitVec.ofNat 32 ((s.enumeratedBy id lat).emReg 0x0C)) := by
  unfold deviceReportDo
  exact if_pos h

/-! ## Mesh time -/

theorem exec_meshTimeCorrection {o : Int} {s : State} (h : s.isMember = true) : exec (.meshTimeCorrection o) s = .next (meshTimeCorrectionDo o s) :=
  whenDue_true h _

/-- The slew that a correction sets. -/
def State.slewBy (s : State) (o : Int) : State := s.modEmeel (fun e => { e with slew := o, lastCorrection := BitVec.ofInt 8 o })

theorem meshTimeCorrectionDo_locks {o : Int} {s : State} (ho : o.natAbs ≤ 1) (hfree : s.emeel.timeLocked = false) :
    meshTimeCorrectionDo o s = ((s.slewBy o).modEmeel (fun e => { e with timeLocked := true })).reportStatus (2 ^ 30) := by
  unfold meshTimeCorrectionDo
  exact if_pos ⟨ho, by rw [hfree]; rfl⟩

theorem meshTimeCorrectionDo_slews {o : Int} {s : State} (h : ¬ o.natAbs ≤ 1 ∨ s.emeel.timeLocked = true) :
    meshTimeCorrectionDo o s = s.slewBy o := by
  unfold meshTimeCorrectionDo
  refine if_neg (fun hn => h.elim (fun h => h hn.1) (fun h => ?_))
  rw [h] at hn
  exact absurd hn.2 (by decide)

/-! ## ENUMERATE and RETRAIN -/

theorem getLsbD_or_bit30 (v : Word) {i : Nat} (h : i ≠ 30) : (v ||| 0x40000000#32).getLsbD i = v.getLsbD i := by
  rw [BitVec.getLsbD_or]
  have htwo : 0x40000000#32 = BitVec.twoPow 32 30 := rfl
  rw [htwo, BitVec.getLsbD_twoPow, decide_eq_false h.symm, Bool.and_false, Bool.or_false]

theorem extractLsb'_or_bit30 (v : Word) (k n : Nat) (h : k + n ≤ 30) : (v ||| 0x40000000#32).extractLsb' k n = v.extractLsb' k n := by
  refine BitVec.eq_of_getLsbD_eq fun i hi => ?_
  rw [BitVec.getLsbD_extractLsb', BitVec.getLsbD_extractLsb', getLsbD_or_bit30 v (by omega)]

theorem getLsbD_30_or (v : Word) : (v ||| 0x40000000#32).getLsbD 30 = true := by
  rw [BitVec.getLsbD_or]
  exact Bool.or_true _

theorem exec_enumerate_ready {v : Word} {s : State} (h : s.host.ready = true) : exec (.enumerate v) s = .next (s.writeMeshCfg (v ||| 0x40000000#32)) := by
  show execEnumerate v s = _
  rw [execEnumerate, State.bar0, if_pos h]

/-- A mesh that starts to enumerate. -/
def State.startsMesh (s : State) (v : Word) : State :=
  s.modEmeel (fun e => { e with
    xMinus1 := v.extractLsb' 27 3, yMinus1 := v.extractLsb' 24 3, deviceId := 0, idTaken := true, enumerating := true, enumerated := false
    devices := 1, reported := [], locked := [] })

theorem writeMeshCfg_head {v : Word} {s : State} (h : s.emeel.head = true) :
    s.writeMeshCfg (v ||| 0x40000000#32) = (s.startsMesh v).forwardToken 0 0 := by
  unfold State.writeMeshCfg
  rw [if_pos h]
  dsimp only
  rw [if_pos (getLsbD_30_or v), State.enumerateMesh]
  rw [extractLsb'_or_bit30 v 27 3 (by decide), extractLsb'_or_bit30 v 24 3 (by decide)]
  exact if_pos h

theorem writeMeshCfg_member {v : Word} {s : State} (h : s.emeel.head = false) : s.writeMeshCfg v = s := by
  unfold State.writeMeshCfg
  rw [h]
  rfl

theorem exec_retrain {p : Nat} {v : Word} {s : State} (hp : p < 4) (h : s.host.ready = true) :
    exec (.retrain p v) s = .next (s.writePortCfg p (v ||| 0x40000000#32)) := by
  show whenValid _ (s.bar0 _) = _
  rw [State.bar0, if_pos h, decide_eq_true hp]
  rfl

/-- The port's ENABLE as written; a port that is disabled is down. -/
def State.enablePort (s : State) (p : Nat) (on : Bool) : State :=
  if on then s.modEmPort p (fun x => { x with enable := on }) else (s.modEmPort p (fun x => { x with enable := on })).portDown p

theorem writePortCfg_retrains (s : State) (p : Nat) (v : Word) :
    s.writePortCfg p (v ||| 0x40000000#32) = (s.enablePort p (v.getLsbD 31)).retrainPort p := by
  unfold State.writePortCfg
  dsimp only
  rw [if_pos (getLsbD_30_or v), getLsbD_or_bit30 v (by decide)]
  rfl

/-- A setting of the port's own state leaves its use, and its faults. -/
structure PortSet (p : Nat) (s u : State) : Prop where
  inUse : u.portInUse p = s.portInUse p
  faults : u.faults = s.faults

theorem enablePort_set (s : State) (p : Nat) (on : Bool) : PortSet p s (s.enablePort p on) ∧ ((s.enablePort p on).emPort p).enable = on := by
  have hone := emPort_modEmPort s p (fun x => { x with enable := on })
  unfold State.enablePort
  cases on with
  | true => exact ⟨⟨rfl, rfl⟩, congrArg EmPort.enable hone⟩
  | false =>
    refine ⟨⟨rfl, rfl⟩, ?_⟩
    show (State.emPort (State.portDown _ p) p).enable = _
    unfold State.portDown
    rw [emPort_modEmPort]
    exact congrArg EmPort.enable hone

/-! ## The remote window -/

theorem exec_remoteWindowAccess {w : Bool} {o : Nat} {v : Word} {s : State} (ho : o % 4 = 0) (hlt : o < 0x400000) (hfree : s.emeel.window = none)
    (hready : s.host.ready = true) : exec (.remoteWindowAccess w o v) s = .next (s.windowAccess w o v) := by
  show (if _ then _ else _) = _
  rw [if_pos ⟨ho, hlt⟩, State.bar0, if_pos hready]
  exact whenDue_true (by rw [hfree]; rfl) _

/-- An access that ends without its answer. -/
structure WindowFailed (w : Bool) (s u : State) : Prop where
  window : u.emeel.window = none
  event : u.faults.eventSeq = s.faults.eventSeq + 1
  out : w = false → u.out.head? = some (.readValue 0xFFFFFFFF)

theorem windowFails_failed (s : State) (w : Bool) : WindowFailed w s (s.windowFails w) := by
  have hraised : ((s.modEmeel (fun e => { e with window := none })).raise Ev.emRemoteTimeout {}).emeel.window = none := by
    rw [raise_emeel]
    rfl
  have hevent : ((s.modEmeel (fun e => { e with window := none })).raise Ev.emRemoteTimeout {}).faults.eventSeq = s.faults.eventSeq + 1 := by
    rw [raise_faults]
    rfl
  unfold State.windowFails
  generalize (s.modEmeel (fun e => { e with window := none })).raise Ev.emRemoteTimeout {} = u at hraised hevent ⊢
  cases w with
  | true => exact ⟨hraised, hevent, fun h => absurd h (by decide)⟩
  | false => exact ⟨hraised, hevent, fun _ => rfl⟩

section
variable {w : Bool} {o : Nat} {v : Word} {s : State}

theorem windowAccess_closed (h : s.emeel.rwinEnable = false) : s.windowAccess w o v = if w then s else s.emit (.readValue 0) := by
  unfold State.windowAccess
  exact if_pos (by rw [h]; rfl)

/-- An access that leaves for its device. -/
def State.asks (s : State) (w : Bool) (o : Nat) (v : Word) : State :=
  (s.modEmeel (fun e => { e with
    window := some (w, s.emeel.rwinDevice.toNat, s.emeel.rwinPage.toNat * 0x400000 + o, v, s.now) })).emit
      (.windowAccess s.emeel.rwinDevice.toNat w (s.emeel.rwinPage.toNat * 0x400000 + o) v)

theorem windowAccess_asks (hopen : s.emeel.rwinEnable = true) {p : Nat} (hp : s.emeel.portTo s.emeel.rwinDevice.toNat = some p)
    (hup : (s.emPort p).up = true) : s.windowAccess w o v = (s.asks w o v).sendFlit s.emeel.rwinDevice.toNat .register
      (s.emeel.rwinPage.toNat * 0x400000 + o) (boolNat w) (BitVec.ofNat 512 v.toNat) 0 := by
  unfold State.windowAccess
  refine (if_neg (by rw [hopen]; decide)).trans ?_
  dsimp only
  rw [hp]
  exact if_neg (by rw [hup]; decide)

theorem windowAccess_fails (hopen : s.emeel.rwinEnable = true)
    (hdown : ∀ p, s.emeel.portTo s.emeel.rwinDevice.toNat = some p → (s.emPort p).up = false) : s.windowAccess w o v = s.windowFails w := by
  unfold State.windowAccess
  refine (if_neg (by rw [hopen]; decide)).trans ?_
  dsimp only
  cases hp : s.emeel.portTo s.emeel.rwinDevice.toNat with
  | none => rfl
  | some p => exact if_pos (by rw [hdown p hp]; rfl)

end

theorem exec_remoteAccessTimeout {w : Bool} {dev o a : Nat} {v : Word} {s : State} (h : s.emeel.window = some (w, dev, o, v, a))
    (hlate : a + 65536 ≤ s.now) : exec .remoteAccessTimeout s = .next (s.windowFails w) := by
  have hok : remoteAccessTimeoutOk s = true := by
    unfold remoteAccessTimeoutOk
    rw [h]
    exact decide_eq_true hlate
  have hdo : remoteAccessTimeoutDo s = s.windowFails w := by
    unfold remoteAccessTimeoutDo
    rw [h]
  rw [← hdo]
  exact whenDue_true hok _

/-- Settles O56: each step by its branch, with what a flit leaves of the links. -/
theorem meshEnumerationTimeAndWindow : Obligations.MeshEnumerationTimeAndWindow := by
  refine ⟨fun p x y xs ys s hp hxs hys hx hy hpor hhead hfree => ⟨_, exec_idTokenReceived hp hxs hys hx hy hpor, ?_⟩,
    fun id lat s hhead hen hlo hhi => ⟨fun hlast => ⟨_, exec_deviceReport hhead hen hlo hhi, ?_⟩, fun hmore => ⟨_, exec_deviceReport hhead hen hlo hhi, ?_⟩⟩,
    fun o s hmember => ⟨_, exec_meshTimeCorrection hmember, ?_⟩, fun v s hready hhead => ⟨_, exec_enumerate_ready hready, ?_⟩, fun v s hhead => ?_,
    fun p v s hp hready hidle => ⟨_, exec_retrain hp hready, ?_⟩, fun p v s hp hready hused hon => ⟨_, exec_retrain hp hready, ?_⟩,
    fun w o v s ho hlt hfree hready => ⟨fun hclosed => ⟨_, exec_remoteWindowAccess ho hlt hfree hready, ?_⟩,
      fun p hopen hp hup => ⟨_, exec_remoteWindowAccess ho hlt hfree hready, ?_⟩, fun hopen hdown => ⟨_, exec_remoteWindowAccess ho hlt hfree hready, ?_⟩⟩,
    fun w dev o a v s h hlate => ⟨_, exec_remoteAccessTimeout h hlate, ?_⟩⟩
  · rw [idTokenReceivedDo_takes hhead hfree]
    have hfwd := forwardToken_kept (s.takeId p (tokenId p x y xs ys) xs ys) (tokenPlace p x y xs ys).1 (tokenPlace p x y xs ys).2
    generalize State.forwardToken _ (tokenPlace p x y xs ys).1 (tokenPlace p x y xs ys).2 = u at hfwd ⊢
    obtain ⟨hemeel, hpower⟩ := hfwd
    have hid : u.emeel.deviceId.toNat = tokenId p x y xs ys := by
      rw [hemeel]
      exact (BitVec.toNat_ofNat _ 6).trans (Nat.mod_eq_of_lt (tokenId_lt hxs hys hx hy))
    exact ⟨(congrArg Emeel.idTaken hemeel :), hid, (congrArg Emeel.idPort hemeel :), (congrArg Power.linkUp hpower :), rfl⟩
  · rw [deviceReportDo_last hlast]
    have hlinks := (PortsOnly.copyToMembers (s.enumeratedBy id lat) 0x6000004 (BitVec.ofNat 32 ((s.enumeratedBy id lat).emReg 0x04))).trans
      (PortsOnly.copyToMembers _ 0x600000C (BitVec.ofNat 32 ((s.enumeratedBy id lat).emReg 0x0C)))
    generalize State.copyToMembers _ 0x600000C _ = u at hlinks ⊢
    dsimp only
    rw [hlinks.eq]
    exact ⟨rfl, rfl, rfl, rfl⟩
  · rw [deviceReportDo_more hmore]
    exact ⟨rfl, rfl⟩
  · by_cases hlock : o.natAbs ≤ 1 ∧ s.emeel.timeLocked = false
    · rw [meshTimeCorrectionDo_locks hlock.1 hlock.2, State.reportStatus]
      have hlinks := PortsOnly.sendFlit ((s.slewBy o).modEmeel (fun e => { e with timeLocked := true })) 0 .register 0x6000008 9
        (BitVec.ofNat 512 (2 ^ 30 + ((s.slewBy o).modEmeel (fun e => { e with timeLocked := true })).emeel.deviceId.toNat * 2 ^ 32)) 0
      generalize State.sendFlit _ 0 .register 0x6000008 9 _ 0 = u at hlinks ⊢
      dsimp only
      rw [hlinks.eq, decide_eq_true hlock.1, Bool.or_true]
      exact ⟨rfl, rfl, rfl⟩
    · have hcase : ¬ o.natAbs ≤ 1 ∨ s.emeel.timeLocked = true := by
        rw [not_and_or, Bool.not_eq_false] at hlock
        exact hlock
      rw [meshTimeCorrectionDo_slews hcase]
      refine ⟨rfl, rfl, ?_⟩
      rcases hcase with hfar | hlocked
      · rw [decide_eq_false hfar, Bool.or_false]
        rfl
      · rw [hlocked, Bool.true_or]
        exact hlocked
  · rw [writeMeshCfg_head hhead]
    dsimp only
    rw [(forwardToken_kept _ _ _).1]
    exact ⟨rfl, rfl, rfl, rfl⟩
  · show execEnumerate v s = _
    rw [execEnumerate, writeMeshCfg_member hhead, State.bar0, ite_self]
  · obtain ⟨⟨huse, hfaults⟩, henable⟩ := enablePort_set s p (v.getLsbD 31)
    rw [writePortCfg_retrains, State.retrainPort, huse, if_neg (Bool.eq_false_iff.1 hidle), State.portDown]
    generalize s.enablePort p (v.getLsbD 31) = u at henable hfaults ⊢
    have hport := emPort_modEmPort u p (fun x => { x with up := false, lanesUp := 0, neighbour := none })
    exact ⟨congrArg EmPort.up hport, congrArg EmPort.lanesUp hport, (congrArg EmPort.enable hport).trans henable, hfaults⟩
  · rw [writePortCfg_retrains, hon, State.retrainPort, (enablePort_set s p true).1.inUse, if_pos hused]
    have hport := emPort_modEmPort s p (fun x => { x with enable := true })
    refine ⟨?_, ?_⟩
    · rw [emPort_of_emeel (raise_emeel (s.enablePort p true) Ev.emConfigRejected {})]
      exact (congrArg EmPort.up hport :)
    · rw [raise_faults]
      rfl
  · rw [windowAccess_closed hclosed]
    cases w <;> rfl
  · rw [windowAccess_asks hopen hp hup]
    have hlinks := PortsOnly.sendFlit (s.asks w o v) s.emeel.rwinDevice.toNat .register
      (s.emeel.rwinPage.toNat * 0x400000 + o) (boolNat w) (BitVec.ofNat 512 v.toNat) 0
    have hmem := (OnLinks.sendFlit (s.asks w o v) s.emeel.rwinDevice.toNat .register
      (s.emeel.rwinPage.toNat * 0x400000 + o) (boolNat w) (BitVec.ofNat 512 v.toNat) 0).mem
    generalize State.sendFlit _ s.emeel.rwinDevice.toNat .register _ _ _ 0 = u at hlinks hmem ⊢
    exact ⟨(congrArg Emeel.window hlinks.eq).trans rfl, hmem⟩
  · rw [windowAccess_fails hopen hdown]
    obtain ⟨hwindow, hevent, hout⟩ := windowFails_failed s w
    exact ⟨hwindow, hevent, hout⟩
  · obtain ⟨hwindow, hevent, hout⟩ := windowFails_failed s w
    exact ⟨hwindow, hevent, hout⟩

end Sys2Proof.Machine

/-! PROOFS. What the parts of a claim's reset leave alone: the pipelines, the states of the claims, their command rings
and the commands that are in flight (R338). -/

namespace Sys2Proof.Machine

/-! ## The parts of an image that is unloaded -/

/-- The headframe, the images and the pipelines are those of s. -/
structure SameHost (s u : State) : Prop where
  host : u.host = s.host
  images : u.images = s.images
  pipes : u.pipes = s.pipes

/-- What `SameHost` compares. -/
def State.bindings (s : State) : HostIf × Tab Image × Tab Pipe := (s.host, s.images, s.pipes)

namespace SameHost

variable {s u : State}

theorem refl (s : State) : SameHost s s := ⟨rfl, rfl, rfl⟩

/-- An update that writes none of the three. -/
theorem same {w : State} (hs : SameHost s u) (hw : w.bindings = u.bindings) : SameHost s w := by
  obtain ⟨hhost, hrest⟩ := Prod.mk.inj hw
  obtain ⟨himages, hpipes⟩ := Prod.mk.inj hrest
  exact ⟨hhost.trans hs.host, himages.trans hs.images, hpipes.trans hs.pipes⟩

theorem ite {c : Prop} [Decidable c] {a b : State} (ha : SameHost s a) (hb : SameHost s b) : SameHost s (if c then a else b) := by
  split
  · exact ha
  · exact hb

theorem foldl {α : Type} {f : State → α → State} {l : List α} (hf : ∀ u x, SameHost s u → SameHost s (f u x)) (hs : SameHost s u) :
    SameHost s (l.foldl f u) :=
  foldl_keeps (SameHost s) f hf l u hs

theorem upTo {n : Nat} {f : State → Nat → State} (hf : ∀ u x, SameHost s u → SameHost s (f u x)) (hs : SameHost s u) :
    SameHost s (Machine.upTo n f u) :=
  foldl hf hs

theorem modSkip (hs : SameHost s u) {k : Nat} {f : Skip → Skip} : SameHost s (u.modSkip k f) := by
  unfold State.modSkip
  exact .same hs (by rfl)

theorem startStreams (hs : SameHost s u) {h : Nat} {r : TileRec} : SameHost s (u.startStreams h r) := by
  unfold State.startStreams
  exact .upTo (fun _ _ hs => .foldl (fun _ _ hs => .modSkip hs) hs) hs

theorem setTile (hs : SameHost s u) {t : Nat} {x : Tile} : SameHost s (u.setTile t x) := by
  unfold State.setTile
  exact .same hs (by rfl)

theorem modTile (hs : SameHost s u) {t : Nat} {f : Tile → Tile} : SameHost s (u.modTile t f) := by
  unfold State.modTile
  exact .setTile hs

theorem startTile (hs : SameHost s u) {h : Nat} {r : TileRec} : SameHost s (u.startTile h r) := by
  unfold State.startTile
  exact .modTile hs

theorem skipEnds (hs : SameHost s u) {h : Nat} {k : SkipRec} : SameHost s (u.skipEnds h k) := by
  unfold State.skipEnds
  exact .modSkip hs

theorem startImage (hs : SameHost s u) {h : Nat} : SameHost s (u.startImage h) := by
  unfold State.startImage
  extract_lets s1
  have hs1 : SameHost s s1 := .foldl (fun _ _ hs => .startStreams (.startTile hs)) hs
  exact .foldl (fun _ _ hs => .skipEnds hs) hs1

theorem markRange (hs : SameHost s u) {a n : Nat} : SameHost s (u.markRange a n) := by
  unfold State.markRange
  exact .same hs (by rfl)

theorem clearTile (hs : SameHost s u) {t : Nat} : SameHost s (u.clearTile t) := by
  unfold State.clearTile
  exact .modTile (.ite (.markRange (.markRange hs)) (.markRange hs))

theorem modRiddle (hs : SameHost s u) {f : Riddle → Riddle} : SameHost s (u.modRiddle f) := by
  unfold State.modRiddle
  exact .same hs (by rfl)

theorem modBlock (hs : SameHost s u) {q : Nat} {f : RBlock → RBlock} : SameHost s (u.modBlock q f) := by
  unfold State.modBlock
  exact .modRiddle hs

theorem modAdit (hs : SameHost s u) {f : Adit → Adit} : SameHost s (u.modAdit f) := by
  unfold State.modAdit
  exact .same hs (by rfl)

theorem modQuad (hs : SameHost s u) {q : Nat} {f : Quad → Quad} : SameHost s (u.modQuad q f) := by
  unfold State.modQuad
  exact .modAdit hs

theorem modAtile (hs : SameHost s u) {a : Nat} {f : ATile → ATile} : SameHost s (u.modAtile a f) := by
  unfold State.modAtile
  exact .modAdit hs

theorem clearRiddle (hs : SameHost s u) {h : Nat} {x : Image} : SameHost s (u.clearRiddle h x) := by
  unfold State.clearRiddle
  split
  · exact hs
  · extract_lets free s1 s2 gone s3 s4
    have hs1 : SameHost s s1 := by
      refine .foldl (fun _ _ hs => ?_) hs
      split
      · exact .modBlock hs
      · exact .modQuad (.modBlock hs)
    exact .foldl (fun _ _ hs => .modAtile hs) (.foldl (fun _ _ hs => .modAdit hs) (.modRiddle (.modAdit hs1)))

theorem modPower (hs : SameHost s u) {f : Power → Power} : SameHost s (u.modPower f) := by
  unfold State.modPower
  exact .same hs (by rfl)

theorem setShares (hs : SameHost s u) {on : Bool} {l : List Share} : SameHost s (u.setShares on l) := by
  unfold State.setShares
  exact .modPower hs

theorem reshare (hs : SameHost s u) : SameHost s u.reshare := by
  unfold State.reshare
  split
  · exact .setShares hs
  · exact hs

theorem modRow (hs : SameHost s u) {r : Nat} {f : Row → Row} : SameHost s (u.modRow r f) := by
  unfold State.modRow
  exact .modPower hs

theorem zeroRow (hs : SameHost s u) {r : Nat} : SameHost s (u.zeroRow r) := by
  unfold State.zeroRow
  exact .same hs (by rfl)

theorem repower (hs : SameHost s u) : SameHost s u.repower := by
  unfold State.repower
  exact .upTo (fun _ _ hs => .ite (.modRow (.zeroRow hs)) (.ite (.modRow (.zeroRow hs)) hs)) hs

end SameHost

/-! ## The parts of a claim's reset -/

/-- The pipelines, the states of the claims, their rings 0 to 13 and the SEQs of the commands are those of s. -/
structure ResetKept (s u : State) : Prop where
  pipes : u.pipes = s.pipes
  states : ∀ x, (u.claim x).state = (s.claim x).state
  rings : ∀ c k, k < 14 → u.ring c k = s.ring c k
  seqs : u.host.cmds.map Cmd.seq = s.host.cmds.map Cmd.seq

/-- What an update leaves that writes neither headframe nor pipelines. -/
def State.hostAndPipes (s : State) : HostIf × Tab Pipe := (s.host, s.pipes)

namespace ResetKept

variable {s u : State}

theorem refl (s : State) : ResetKept s s := ⟨rfl, fun _ => rfl, fun _ _ _ => rfl, rfl⟩

theorem trans {w : State} (h : ResetKept s u) (h' : ResetKept u w) : ResetKept s w :=
  ⟨h'.pipes.trans h.pipes, fun x => (h'.states x).trans (h.states x), fun c k hk => (h'.rings c k hk).trans (h.rings c k hk), h'.seqs.trans h.seqs⟩

theorem of_host {w : State} (hs : ResetKept s u) (hhost : w.host = u.host) (hpipes : w.pipes = u.pipes) : ResetKept s w := by
  refine hs.trans ⟨hpipes, fun x => ?_, fun c k _ => ?_, by rw [hhost]⟩
  · rw [State.claim, hhost]
    rfl
  · rw [State.ring, hhost]
    rfl

/-- An update that writes neither headframe nor pipelines. -/
theorem same {w : State} (hs : ResetKept s u) (hw : w.hostAndPipes = u.hostAndPipes) : ResetKept s w :=
  hs.of_host (congrArg Prod.fst hw) (congrArg Prod.snd hw)

theorem sameHost {w : State} (hs : ResetKept s u) (hw : SameHost u w) : ResetKept s w := hs.of_host hw.host hw.pipes

theorem ite {c : Prop} [Decidable c] {a b : State} (ha : ResetKept s a) (hb : ResetKept s b) : ResetKept s (if c then a else b) := by
  split
  · exact ha
  · exact hb

theorem foldl {α : Type} {f : State → α → State} {l : List α} (hf : ∀ u x, ResetKept s u → ResetKept s (f u x)) (hs : ResetKept s u) :
    ResetKept s (l.foldl f u) :=
  foldl_keeps (ResetKept s) f hf l u hs

theorem upTo {n : Nat} {f : State → Nat → State} (hf : ∀ u x, ResetKept s u → ResetKept s (f u x)) (hs : ResetKept s u) :
    ResetKept s (Machine.upTo n f u) :=
  foldl hf hs

/-- An update of the headframe outside claims, rings and commands. -/
theorem modHost (hs : ResetKept s u) {f : HostIf → HostIf}
    (hf : ∀ h, (f h).claims = h.claims ∧ (f h).rings = h.rings ∧ (f h).cmds = h.cmds := by exact fun _ => ⟨rfl, rfl, rfl⟩) :
    ResetKept s (u.modHost f) := by
  obtain ⟨hclaims, hrings, hcmds⟩ := hf u.host
  refine hs.trans ⟨rfl, fun x => ?_, fun c k _ => ?_, congrArg _ hcmds⟩
  · exact congrArg (fun t => (lookD t x ({} : Claim)).state) hclaims
  · exact congrArg (fun t => lookD t (16 * c + k) ({} : Machine.Ring)) hrings

theorem modClaim (hs : ResetKept s u) {c : Nat} {f : Claim → Claim} (hf : ∀ x, (f x).state = x.state := by exact fun _ => rfl) :
    ResetKept s (u.modClaim c f) :=
  hs.trans ⟨rfl, fun x => field_modClaim Claim.state u c x f hf, fun _ _ _ => rfl, rfl⟩

theorem modRing (hs : ResetKept s u) {c k : Nat} {f : Machine.Ring → Machine.Ring} (h14 : 14 ≤ k := by decide) (h16 : k < 16 := by decide) :
    ResetKept s (u.modRing c k f) :=
  hs.trans ⟨rfl, fun _ => rfl, fun y j hj => ring_modRing_other u c k y j f (by omega), rfl⟩

theorem modCmd (hs : ResetKept s u) {seq : Nat} {f : Cmd → Cmd} (hf : ∀ c, (f c).seq = c.seq := by exact fun _ => rfl) :
    ResetKept s (u.modCmd seq f) := by
  refine hs.trans ⟨rfl, fun _ => rfl, fun _ _ _ => rfl, ?_⟩
  show (u.host.cmds.map _).map Cmd.seq = u.host.cmds.map Cmd.seq
  rw [List.map_map]
  refine List.map_congr_left fun d _ => ?_
  show (if d.seq == seq then f d else d).seq = d.seq
  split
  · exact hf d
  · rfl

theorem sendFlit (hs : ResetKept s u) {device : Nat} {kind : FlitKind} {stream tag : Nat} {payload : Line} {delay : Nat} :
    ResetKept s (u.sendFlit device kind stream tag payload delay) :=
  hs.of_host (OnLinks.sendFlit _ _ _ _ _ _ _).host (OnLinks.sendFlit _ _ _ _ _ _ _).pipes

theorem tellMembers (hs : ResetKept s u) {op : Nat} {entry : BitVec 512} : ResetKept s (u.tellMembers op entry) :=
  hs.of_host (OnLinks.tellMembers _ _ _).host (OnLinks.tellMembers _ _ _).pipes

theorem modDebug (hs : ResetKept s u) {f : Debug → Debug} : ResetKept s (u.modDebug f) := by
  unfold State.modDebug
  exact .same hs (by rfl)

theorem count (hs : ResetKept s u) {k i c n : Nat} : ResetKept s (u.count k i c n) := by
  unfold State.count
  exact .ite hs (.modDebug hs)

theorem emit (hs : ResetKept s u) {o : Out} : ResetKept s (u.emit o) := by
  unfold State.emit
  exact .same hs (by rfl)

theorem setTile (hs : ResetKept s u) {t : Nat} {x : Tile} : ResetKept s (u.setTile t x) := by
  unfold State.setTile
  exact .same hs (by rfl)

theorem modTile (hs : ResetKept s u) {t : Nat} {f : Tile → Tile} : ResetKept s (u.modTile t f) := by
  unfold State.modTile
  exact .setTile hs

theorem taintStreams (hs : ResetKept s u) {t o n : Nat} : ResetKept s (u.taintStreams t o n) := by
  unfold State.taintStreams
  exact .modTile hs

theorem writeBytes (hs : ResetKept s u) {a : Nat} {bs : List Byte} : ResetKept s (u.writeBytes a bs) := by
  unfold State.writeBytes
  exact .ite hs (.same hs (by rfl))

theorem fireMsix (hs : ResetKept s u) {c v : Nat} : ResetKept s (u.fireMsix c v) := by
  unfold State.fireMsix
  exact .ite (.modClaim hs) (.emit hs)

theorem placeEntry (hs : ResetKept s u) {c k : Nat} {r : Record} (h14 : 14 ≤ k := by decide) (h16 : k < 16 := by decide) :
    ResetKept s (u.placeEntry c k r) := by
  unfold State.placeEntry
  extract_lets g s1 s2
  have hs2 : ResetKept s s2 := .modRing (.writeBytes hs) h14 h16
  exact .ite (.fireMsix hs2) hs2

theorem hit (hs : ResetKept s u) {o b : Nat} : ResetKept s (u.hit o b) := by
  unfold State.hit
  exact .same hs (by rfl)

theorem deliver (hs : ResetKept s u) {c : Nat} {r : Record} : ResetKept s (u.deliver c r) := by
  unfold State.deliver
  exact .ite hs (.ite (.placeEntry hs) (.ite (.modClaim hs) (.count (.hit (.hit (.modRing (.modClaim hs)))))))

theorem modFaults (hs : ResetKept s u) {f : Faults → Faults} : ResetKept s (u.modFaults f) := by
  unfold State.modFaults
  exact .same hs (by rfl)

theorem raise (hs : ResetKept s u) {k : EvKind} {e : EvArgs} : ResetKept s (u.raise k e) := by
  unfold State.raise
  refine .modFaults ?_
  split
  · exact .deliver hs
  · exact .deliver hs
  · extract_lets s1
    have hs1 : ResetKept s s1 := .deliver hs
    exact .ite hs1 (.deliver hs1)

theorem fillHalf (hs : ResetKept s u) {t : Nat} {b : Bool} {o total : Nat} {data : List Byte} : ResetKept s (u.fillHalf t b o
    total data) := by
  unfold State.fillHalf
  exact .ite (.raise hs) (.modTile (.writeBytes hs))

theorem windowWrite (hs : ResetKept s u) {claim t o : Nat} {access : Nat × Nat} {noted : Bool} {bs : List Byte} :
    ResetKept s (u.windowWrite claim t o access noted bs) := by
  unfold State.windowWrite
  extract_lets x ok banked old s1 s2 a b s3
  have hs1 : ResetKept s s1 := by
    unfold s1
    clear_value banked
    split
    · exact hs
    · exact .modTile hs
  have hs2 : ResetKept s s2 := .ite (.taintStreams hs1) hs1
  have hs3 : ResetKept s s3 := .ite hs2 (.fillHalf hs2)
  exact .ite (.ite hs3 (.fillHalf hs3)) (.foldl (fun _ _ hs => .writeBytes hs) hs2)

theorem putRun (hs : ResetKept s u) {claim : Nat} {p : Phys} {access : Nat × Nat} {noted : Bool} {bs : List Byte} : ResetKept s
    (u.putRun claim p access noted bs) := by
  unfold State.putRun
  refine .ite ?_ (.ite (.windowWrite hs) ?_)
  · extract_lets s1
    have hs1 : ResetKept s s1 := .emit hs
    exact .ite (.emit hs1) hs1
  · extract_lets s1
    have hs1 : ResetKept s s1 := .writeBytes hs
    exact .ite (.writeBytes hs1) hs1

theorem windowViolation (hs : ResetKept s u) {claim : Nat} {bad : Option Nat} : ResetKept s (u.windowViolation claim bad) := by
  unfold State.windowViolation
  split
  · exact hs
  · exact .raise hs

theorem runWrite (hs : ResetKept s u) {claim : Nat} {p : Phys} {bs : List Byte} : ResetKept s (u.runWrite claim p bs) := by
  unfold State.runWrite
  exact .putRun (.windowViolation hs)

theorem draw (hs : ResetKept s u) : ResetKept s u.draw := by
  unfold State.draw
  exact .same hs (by rfl)

theorem uninitRead (hs : ResetKept s u) {claim addr n : Nat} : ResetKept s (u.uninitRead claim addr n) := by
  unfold State.uninitRead
  refine .ite hs ?_
  extract_lets x first total s1 due
  have hs1 : ResetKept s s1 := .count hs
  exact .ite (.hit (.modClaim (.raise hs1))) (.hit (.modClaim hs1))

theorem takeRun (hs : ResetKept s u) {claim cva : Nat} {p : Phys} {n : Nat} : ResetKept s (u.takeRun claim cva p n).1 := by
  unfold State.takeRun
  extract_lets bs
  split
  · exact .emit (.draw hs)
  · refine .draw ?_
    split
    · exact hs
    · exact .uninitRead hs

theorem runRead (hs : ResetKept s u) {claim cva : Nat} {p : Phys} {n : Nat} : ResetKept s (u.runRead claim cva p n).1 := by
  unfold State.runRead
  exact .takeRun (.windowViolation hs)

theorem moveBurst (hs : ResetKept s u) {x : Machine.Stream} {y : Burst} : ResetKept s (u.moveBurst x y) := by
  unfold State.moveBurst
  extract_lets dest
  split
  · exact .ite hs (.runWrite hs)
  · exact .runWrite (.runRead hs)

theorem modSump (hs : ResetKept s u) {f : Sump → Sump} : ResetKept s (u.modSump f) := by
  unfold State.modSump
  exact .same hs (by rfl)

theorem modHoist (hs : ResetKept s u) {h : Nat} {f : Hoist → Hoist} : ResetKept s (u.modHoist h f) := by
  unfold State.modHoist
  exact .modSump hs

theorem journal (hs : ResetKept s u) {claim : Nat} {r : Record} : ResetKept s (u.journal claim r) := by
  unfold State.journal
  exact .modHost (.modClaim (.writeBytes (.writeBytes hs)))

theorem finishOne (hs : ResetKept s u) {c : Cmd} {ok : Bool} {reason : Nat} {result : BitVec 128} : ResetKept s (u.finishOne c ok
    reason result) := by
  unfold State.finishOne
  exact .modCmd (.journal hs)

theorem finish (hs : ResetKept s u) {seq : Nat} {ok : Bool} {reason : Nat} {result : BitVec 128} : ResetKept s (u.finish seq ok
    reason result) := by
  unfold State.finish
  split
  · exact hs
  · extract_lets s1 s2 dups
    have hs2 : ResetKept s s2 := .modClaim (.finishOne hs)
    exact .foldl (fun _ _ hs => .finishOne hs) hs2

theorem endStream (hs : ResetKept s u) {h : Nat} {x : Machine.Stream} {ok : Bool} {reason : Nat} : ResetKept s (u.endStream h x
    ok reason) := by
  unfold State.endStream
  extract_lets s1
  have hs1 : ResetKept s s1 := .modHoist hs
  split
  · exact .finish hs1
  · exact hs1

theorem dropQueued (hs : ResetKept s u) {x : Machine.Stream} : ResetKept s (u.dropQueued x) := by
  unfold State.dropQueued
  split
  · exact .finish hs
  · exact hs

theorem drainHoist (hs : ResetKept s u) {claim h : Nat} : ResetKept s (u.drainHoist claim h) := by
  unfold State.drainHoist
  refine .modHoist (.foldl (fun _ _ hs => .dropQueued hs) ?_)
  split
  · exact .ite (.endStream (.foldl (fun _ _ hs => .count (.count (.moveBurst hs))) hs)) hs
  · exact hs

theorem modSkip (hs : ResetKept s u) {k : Nat} {f : Skip → Skip} : ResetKept s (u.modSkip k f) := by
  unfold State.modSkip
  exact .same hs (by rfl)

theorem modImage (hs : ResetKept s u) {h : Nat} {f : Image → Image} : ResetKept s (u.modImage h f) := by
  unfold State.modImage
  exact .same hs (by rfl)

theorem modPower (hs : ResetKept s u) {f : Power → Power} : ResetKept s (u.modPower f) := by
  unfold State.modPower
  exact .same hs (by rfl)

theorem modRow (hs : ResetKept s u) {r : Nat} {f : Row → Row} : ResetKept s (u.modRow r f) := by
  unfold State.modRow
  exact .modPower hs

theorem repin (hs : ResetKept s u) {c : Nat} : ResetKept s (u.repin c) := by
  unfold State.repin
  exact .modClaim hs

theorem modRiddle (hs : ResetKept s u) {f : Riddle → Riddle} : ResetKept s (u.modRiddle f) := by
  unfold State.modRiddle
  exact .same hs (by rfl)

theorem modBlock (hs : ResetKept s u) {q : Nat} {f : RBlock → RBlock} : ResetKept s (u.modBlock q f) := by
  unfold State.modBlock
  exact .modRiddle hs

theorem unloadImage (hs : ResetKept s u) {h : Nat} : ResetKept s (u.unloadImage h) := by
  unfold State.unloadImage
  extract_lets x s1 shared cleared s2 s3
  have hs1 : ResetKept s s1 := .same hs (by rfl)
  have hs2 : ResetKept s s2 := by
    unfold s2
    clear_value shared
    split
    · exact .foldl (fun _ _ hs => .modSkip hs) (.foldl (fun _ _ hs => .sameHost hs (.clearTile (.refl _))) hs1)
    · exact .ite (.modImage (.sameHost hs1 (.startImage (.refl _)))) (.foldl (fun _ _ hs => .modTile hs) hs1)
  have hs3 : ResetKept s s3 := .same hs2 (by rfl)
  have hpinned : ResetKept s ((s3.clearRiddle h x).repin x.claim) := .repin (.sameHost hs3 (.clearRiddle (.refl _)))
  exact .sameHost hpinned (.repower (.reshare (.refl _)))

theorem endCapture (hs : ResetKept s u) {q : Nat} : ResetKept s (u.endCapture q) := by
  unfold State.endCapture
  exact .modBlock hs

theorem cancel (hs : ResetKept s u) {c : Cmd} : ResetKept s (u.cancel c) := by
  unfold State.cancel
  extract_lets units s1 s2 s3 s4
  have hs1 : ResetKept s s1 := .modClaim (.modSump hs)
  have hs2 : ResetKept s s2 := by
    unfold s2
    split
    · exact .unloadImage hs1
    · exact hs1
  exact .finish (.modCmd (.upTo (fun _ _ hs => .ite (.endCapture hs) hs) (.modHost hs2)))

theorem modThread (hs : ResetKept s u) {t th : Nat} {f : Thread → Thread} : ResetKept s (u.modThread t th f) := by
  unfold State.modThread
  exact .modTile hs

theorem freeLine (hs : ResetKept s u) {t th st line : Nat} : ResetKept s (u.freeLine t th st line) := by
  unfold State.freeLine
  exact .modTile hs

theorem freeUnlocks (hs : ResetKept s u) {t th : Nat} : ResetKept s (u.freeUnlocks t th) := by
  unfold State.freeUnlocks
  exact .modThread (.foldl (fun _ _ hs => .freeLine hs) hs)

theorem scramble (hs : ResetKept s u) {a n : Nat} : ResetKept s (u.scramble a n) := by
  unfold State.scramble
  exact .draw (.writeBytes hs)

theorem freeLock (hs : ResetKept s u) {t th : Nat} : ResetKept s (u.freeLock t th) := by
  unfold State.freeLock
  split
  · exact .modThread (.freeLine hs)
  · exact hs

theorem breakLock (hs : ResetKept s u) {t th : Nat} : ResetKept s (u.breakLock t th) := by
  unfold State.breakLock
  split
  · extract_lets s0 s1
    have hs1 : ResetKept s s1 := .hit (.modTile (.scramble (.freeLock hs)))
    exact .raise hs1
  · exact hs

theorem modRegs (hs : ResetKept s u) {t th : Nat} {f : Regs → Regs} : ResetKept s (u.modRegs t th f) := by
  unfold State.modRegs
  exact .modThread hs

theorem settleUnlocks (hs : ResetKept s u) {t th : Nat} : ResetKept s (u.settleUnlocks t th) := by
  unfold State.settleUnlocks
  exact .ite hs (.modThread (.foldl (fun _ _ hs => .freeLine hs) hs))

theorem wakeThread (hs : ResetKept s u) {t th : Nat} : ResetKept s (u.wakeThread t th) := by
  unfold State.wakeThread
  exact .modThread hs

theorem scratchSettled (hs : ResetKept s u) {t th : Nat} : ResetKept s (u.scratchSettled t th) := by
  unfold State.scratchSettled
  extract_lets s1
  have hs1 : ResetKept s s1 := .settleUnlocks hs
  refine .ite hs1 ?_
  split
  · exact .wakeThread hs1
  · exact hs1

theorem sendEntry (hs : ResetKept s u) {t p delay : Nat} {e : Entry} : ResetKept s (u.sendEntry t p delay e) := by
  unfold State.sendEntry
  exact .foldl (fun _ _ hs => .modSkip hs) hs

theorem pushEntry (hs : ResetKept s u) {t p delay seq after : Nat} {e : Entry} : ResetKept s (u.pushEntry t p delay seq after e)
    := by
  unfold State.pushEntry
  exact .sendEntry (.ite (.draw hs) hs)

theorem oqSend (hs : ResetKept s u) {t : Nat} {m : MacOp} {base : Nat} : ResetKept s (u.oqSend t m base) := by
  unfold State.oqSend
  exact .upTo (fun _ _ hs => .pushEntry hs) hs

theorem markMiss (hs : ResetKept s u) {t : Nat} : ResetKept s (u.markMiss t) := by
  unfold State.markMiss
  exact .foldl (fun _ _ hs => .foldl (fun _ _ hs => .ite (.foldl (fun _ _ hs => .modSkip hs) hs) hs) (.modTile hs)) hs

theorem noteTileRead (hs : ResetKept s u) {t o n : Nat} : ResetKept s (u.noteTileRead t o n) := by
  -- The kernel would evaluate the match's list on the applied function, so it is unfolded before it is applied.
  have unfolded (f) (hf : f = @State.noteTileRead) : ResetKept s (f u t o n) := by
    delta State.noteTileRead at hf
    subst hf
    beta_reduce
    generalize u.unwrittenWords (tileAddr t o) n = ws
    cases ws with
    | nil => exact hs
    | cons => exact .ite (.markMiss hs) (.uninitRead hs)
  exact unfolded _ rfl

theorem moveSend (hs : ResetKept s u) {t : Nat} {m : BlockMove} {base : Nat} : ResetKept s (u.moveSend t m base) := by
  unfold State.moveSend
  exact .upTo (fun _ _ hs => .pushEntry (.noteTileRead hs)) hs

theorem startUnits (hs : ResetKept s u) {t base : Nat} : ResetKept s (u.startUnits t base) := by
  unfold State.startUnits
  exact .foldl (fun _ _ hs => .ite (.moveSend hs) hs) (.foldl (fun _ _ hs => .ite (.oqSend hs) hs) (.modTile hs))

theorem leaveTokens (hs : ResetKept s u) {t : Nat} {old : Option MacOp} : ResetKept s (u.leaveTokens t old) := by
  unfold State.leaveTokens
  exact .ite hs (.modRow hs)

theorem stopUnits (hs : ResetKept s u) {t : Nat} {sel : Nat → Bool} : ResetKept s (u.stopUnits t sel) := by
  unfold State.stopUnits
  extract_lets x macs moves fns loads off s1 s2 s3 s4 s5 s6
  have hs6 : ResetKept s s6 := by
    unfold s6
    refine .upTo (fun _ _ hs => .ite (.scratchSettled (.modThread hs)) hs) (.foldl (fun _ _ hs => .ite (.draw (.modRegs
        hs)) (.draw (.modRegs hs))) (.foldl (fun _ _ hs => .foldl (fun _ _ hs => .scramble hs) hs) (.foldl (fun _ _ hs =>
        .scramble hs) (.foldl (fun _ _ hs => ?_) (.modTile hs)))))
    extract_lets k s1 s2
    have hs1 : ResetKept s s1 := .foldl (fun _ _ hs => .scramble hs) hs
    have hs2 : ResetKept s s2 := by
      unfold s2
      split
      · exact .scramble hs1
      · exact hs1
    split
    · exact .foldl (fun _ _ hs => .draw (.modTile hs)) hs2
    · exact hs2
  exact .startUnits (.leaveTokens hs6)

theorem haltImage (hs : ResetKept s u) {h : Nat} : ResetKept s (u.haltImage h) := by
  unfold State.haltImage
  exact .foldl (fun _ _ hs => .upTo (fun _ _ hs => .freeUnlocks (.breakLock hs)) (.modTile (.stopUnits hs))) hs

theorem modSumpPort (hs : ResetKept s u) {p : Nat} {f : SumpPort → SumpPort} : ResetKept s (u.modSumpPort p f) := by
  unfold State.modSumpPort
  exact .modSump hs

theorem drainPorts (hs : ResetKept s u) {claim : Nat} : ResetKept s (u.drainPorts claim) := by
  unfold State.drainPorts
  exact .upTo (fun _ _ hs => .modSumpPort hs) hs

end ResetKept

end Sys2Proof.Machine

/-! PROOFS. Claims that open, reset and close (R337 to R341). -/

namespace Sys2Proof.Machine

/-! ## Tables -/

theorem look_map_values {α β : Type} (t : Tab α) (g : α → β) (k : Nat) : look (t.map (fun p => (p.1, g p.2))) k = (look t k).map g := by
  induction t with
  | nil => rfl
  | cons p t ih =>
    obtain ⟨j, x⟩ := p
    show (if j = k then some (g x) else look (t.map _) k) = Option.map g (if j = k then some x else look t k)
    split
    · rfl
    · exact ih

theorem mem_of_look {α : Type} {t : Tab α} {k : Nat} {x : α} (h : look t k = some x) : (k, x) ∈ t := by
  induction t with
  | nil => exact absurd h (by simp [look])
  | cons p t ih =>
    obtain ⟨j, y⟩ := p
    rw [look] at h
    split at h
    next hj =>
      rw [← hj, ← Option.some.inj h]
      exact List.mem_cons_self
    next => exact List.mem_cons_of_mem _ (ih h)

theorem look_of_mem {α : Type} {t : Tab α} {k : Nat} {x : α} (h : (k, x) ∈ t) : ∃ y, look t k = some y := by
  induction t with
  | nil => exact absurd h List.not_mem_nil
  | cons p t ih =>
    obtain ⟨j, y⟩ := p
    rw [look]
    split
    next => exact ⟨y, rfl⟩
    next hj =>
      rcases List.mem_cons.1 h with heq | hmem
      · exact absurd (Prod.mk.inj heq).1.symm hj
      · exact ih hmem

theorem mem_put {α : Type} {t : Tab α} {k : Nat} {v : α} {p : Nat × α} (h : p ∈ put t k v) : p = (k, v) ∨ p ∈ t := by
  induction t with
  | nil => exact .inl (List.mem_singleton.1 h)
  | cons q t ih =>
    obtain ⟨j, x⟩ := q
    rw [put] at h
    split at h
    · exact List.mem_cons.1 h
    · split at h
      · exact (List.mem_cons.1 h).imp_right (List.mem_cons_of_mem _)
      · rcases List.mem_cons.1 h with rfl | hmem
        · exact .inr List.mem_cons_self
        · exact (ih hmem).imp_right (List.mem_cons_of_mem _)

/-! ## Rings of one claim -/

/-- Rings below n of a claim are changed by f, and nothing but rings is. -/
structure RingsMapped (c : Nat) (f : Ring → Ring) (n : Nat) (s u : State) : Prop where
  mapped : ∀ k, k < n → u.ring c k = f (s.ring c k)
  beyond : ∀ k, n ≤ k → k < 16 → u.ring c k = s.ring c k
  kept : u = { s with host := { s.host with rings := u.host.rings } }

theorem upTo_modRing (s : State) (c : Nat) (f : Ring → Ring) (n : Nat) (hn : n ≤ 16) : RingsMapped c f n s (upTo n (fun s k => s.modRing c k f) s) := by
  induction n with
  | zero => exact ⟨fun k hk => absurd hk (Nat.not_lt_zero k), fun _ _ _ => rfl, rfl⟩
  | succ n ih =>
    obtain ⟨hmap, hbeyond, hkept⟩ := ih (Nat.le_of_succ_le hn)
    have hstep : upTo (n + 1) (fun s k => s.modRing c k f) s = (upTo n (fun s k => s.modRing c k f) s).modRing c n f := by
      unfold upTo
      rw [List.range_succ, List.foldl_append]
      rfl
    rw [hstep]
    generalize upTo n (fun (s : State) k => s.modRing c k f) s = v at hmap hbeyond hkept ⊢
    refine ⟨fun k hk => ?_, fun k hk h16 => ?_, ?_⟩
    · rcases Nat.lt_succ_iff_lt_or_eq.1 hk with hlt | rfl
      · rw [ring_modRing_other _ _ _ _ _ _ (by omega), hmap k hlt]
      · rw [ring_modRing, hbeyond k (le_refl k) (by omega)]
    · rw [ring_modRing_other _ _ _ _ _ _ (by omega), hbeyond k (by omega) h16]
    · rw [hkept]
      rfl

theorem RingsMapped.claim {c n : Nat} {f : Ring → Ring} {s u : State} (h : RingsMapped c f n s u) (x : Nat) : u.claim x = s.claim x := by
  rw [h.kept]
  rfl

theorem clearIndices_mapped (s : State) (c : Nat) : RingsMapped c (fun r => { r with producer := 0, consumer := 0 }) 16 s (s.clearIndices c) :=
  upTo_modRing s c _ 16 (le_refl 16)

/-! ## CLAIM_OPEN -/

section
variable {c : Cmd} {s : State}

theorem claimOpenDo_refused (h : s.isMember = true ∨ (s.claim (c.arg 16 1)).srIov = false) : claimOpenDo c s = s.fail c.seq Reason.notPermitted := by
  unfold claimOpenDo
  exact if_pos (h.imp_right fun h => by rw [h]; rfl)

variable (hhead : s.isMember = false) (hon : (s.claim (c.arg 16 1)).srIov = true)
include hhead hon

theorem claimOpenDo_notClosed (h : (s.claim (c.arg 16 1)).state ≠ .closed) : claimOpenDo c s = s.fail c.seq Reason.claimState := by
  unfold claimOpenDo
  exact (if_neg (by rw [hhead, hon]; decide)).trans (if_pos (bne_iff_ne.2 h))

theorem claimOpenDo_opens (h : (s.claim (c.arg 16 1)).state = .closed) : claimOpenDo c s
    = ((s.openClaim (c.arg 16 1) (c.arg 20 4) (bitAt (c.arg 24 1) 0) (BitVec.ofNat 8 (c.arg 25 1))).tellMembers 0x0001 c.entry).complete c.seq 0 := by
  unfold claimOpenDo
  exact (if_neg (by rw [hhead, hon]; decide)).trans (if_neg (by rw [h]; decide))

end

/-- What an opened claim has. -/
structure Opened (t quota : Nat) (s u : State) : Prop where
  state : (u.claim t).state = .opened
  quota : (u.claim t).quota = quota
  bigPages : (u.claim t).bigPages = []
  ring0 : (u.ring t 0).entries = 1024
  ring14 : (u.ring t 14).entries = 1024
  ring15 : (u.ring t 15).entries = 1024
  cmds : u.host.cmds = s.host.cmds

theorem Opened.of_kept {t quota : Nat} {s u v : State} (h : Opened t quota s u) (hclaim : (v.claim t).unjournaled = (u.claim t).unjournaled)
    (hrings : v.host.rings = u.host.rings) (k : Nat) : (v.claim t).state = .opened ∧ (v.claim t).quota = quota ∧ (v.claim t).bigPages = []
      ∧ (k ∈ [0, 14, 15] → (v.ring t k).entries = 1024) := by
  have hring : v.ring t k = u.ring t k := by
    rw [State.ring, hrings]
    rfl
  refine ⟨(congrArg Claim.state hclaim).trans h.state, (congrArg Claim.quota hclaim).trans h.quota,
    (congrArg Claim.bigPages hclaim).trans h.bigPages, fun hk => ?_⟩
  rw [hring]
  rcases List.mem_cons.1 hk with rfl | hk
  · exact h.ring0
  · rcases List.mem_cons.1 hk with rfl | hk
    · exact h.ring14
    · rw [List.mem_singleton.1 hk]
      exact h.ring15

theorem openClaim_opened (s : State) (t quota : Nat) (signed : Bool) (mask : Byte) : Opened t quota s (s.openClaim t quota signed mask) := by
  unfold State.openClaim
  extract_lets s1 s2
  have hclaim : (s2.claim t).state = .opened ∧ (s2.claim t).quota = quota ∧ (s2.claim t).bigPages = [] := by
    unfold s2
    rw [claim_modClaim]
    exact ⟨rfl, rfl, rfl⟩
  have hcmds : s2.host.cmds = s.host.cmds := rfl
  clear_value s2
  obtain ⟨hstate, hquota, hbig⟩ := hclaim
  have hring (k : Nat) (u : State) : ((u.modRing t k (fun r => r.setUp 1024 (ringPhys t k) 0)).ring t k).entries = 1024 := by
    rw [ring_modRing]
    rfl
  have hother (k j : Nat) (hj : j ≠ k) (u : State) : (u.modRing t k (fun r => r.setUp 1024 (ringPhys t k) 0)).ring t j = u.ring t j :=
    ring_modRing_other _ _ _ _ _ _ (by omega)
  rw [List.foldl_cons, List.foldl_cons, List.foldl_cons, List.foldl_nil]
  refine ⟨hstate, hquota, hbig, ?_, ?_, ?_, hcmds⟩
  · rw [hother 15 0 (by decide), hother 14 0 (by decide), hring]
  · rw [hother 15 14 (by decide), hring]
  · exact hring 15 _

/-! ## A reset that begins -/

/-- What a reset of claim t leaves that has begun. -/
structure Draining (t : Nat) (s u : State) : Prop where
  state : (u.claim t).state = .draining
  others : ∀ x, x ≠ t → (u.claim x).state = (s.claim x).state
  rings : ∀ c k, k < 14 → u.ring c k = s.ring c k
  seqs : u.host.cmds.map Cmd.seq = s.host.cmds.map Cmd.seq
  ending : ∀ p x, u.pipe? p = some x → x.claim = t → x.ending = true

/-- A pipeline that ends with its claim's reset. -/
def Pipe.endedBy (t : Nat) (x : Pipe) : Pipe := if x.claim = t then { x with ending := true } else x

theorem Pipe.endedBy_ending {t : Nat} {x : Pipe} (h : (x.endedBy t).claim = t) : (x.endedBy t).ending = true := by
  unfold Pipe.endedBy at *
  split at h
  next hx => rw [if_pos hx]
  next hx => exact absurd h hx

theorem beginReset_draining (s : State) (t : Nat) : Draining t s (s.beginReset t) := by
  unfold State.beginReset
  extract_lets s1 s2 s3 s4 loose s5 s6
  have h1 : (s1.claim t).state = .draining := congrArg Claim.state (claim_modClaim s t _)
  have hothers (x : Nat) (hx : x ≠ t) : s1.claim x = s.claim x := claim_modClaim_other s t x _ hx
  have hrings1 : ∀ c k, s1.ring c k = s.ring c k := fun _ _ => rfl
  have hseqs1 : s1.host.cmds = s.host.cmds := rfl
  have hdrained : ResetKept s1 (upTo 32 (fun s h => s.drainHoist t h) s1) := .upTo (fun _ _ hs => .drainHoist hs) (.refl s1)
  have h2 : ResetKept s1 s2 := by
    unfold s2
    generalize upTo 32 (fun (s : State) h => s.drainHoist t h) s1 = v at hdrained ⊢
    exact .drainPorts (.modSump hdrained)
  have h3 : ResetKept s1 s3 := .foldl (fun _ _ hs => .cancel hs) h2
  clear_value s3
  have hpipes4 : s4.pipes = s3.pipes.map (fun p => (p.1, p.2.endedBy t)) := rfl
  have hhost4 : s4.host = s3.host := rfl
  clear_value s4
  have h5 : ResetKept s4 s5 := .foldl (fun _ _ hs => .haltImage hs) (.refl s4)
  have h6 : ResetKept s4 s6 := .tellMembers h5
  have hends : ∀ u : State, ResetKept s4 u → Draining t s u := by
    intro u hu
    have hclaim4 (x : Nat) : s4.claim x = s3.claim x := by
      rw [State.claim, hhost4]
      rfl
    have hring4 (c k : Nat) : s4.ring c k = s3.ring c k := by
      rw [State.ring, hhost4]
      rfl
    refine ⟨?_, fun x hx => ?_, fun c k hk => ?_, ?_, fun p x hp hx => ?_⟩
    · rw [hu.states, hclaim4, h3.states, h1]
    · rw [hu.states, hclaim4, h3.states, hothers x hx]
    · rw [hu.rings c k hk, hring4, h3.rings c k hk, hrings1]
    · rw [hu.seqs, hhost4, h3.seqs, hseqs1]
    · rw [State.pipe?, hu.pipes, hpipes4, look_map_values] at hp
      obtain ⟨y, -, rfl⟩ := Option.map_eq_some_iff.1 hp
      exact Pipe.endedBy_ending hx
  split
  · exact hends _ (.same h6 (by rfl))
  · exact hends _ h6

theorem resetClaim_opened {s : State} {t : Nat} (h : (s.claim t).state = .opened) : s.resetClaim t = s.beginReset t := by
  unfold State.resetClaim
  exact if_pos h

theorem resetClaim_other {s : State} {t : Nat} (h : (s.claim t).state ≠ .opened) : s.resetClaim t = s := by
  unfold State.resetClaim
  exact if_neg h

/-- A command is found again where the SEQs are the same. -/
theorem cmd?_of_seqs {s u : State} (h : u.host.cmds.map Cmd.seq = s.host.cmds.map Cmd.seq) {seq : Nat} {c : Cmd} (hc : s.cmd? seq = some c) :
    ∃ d, u.cmd? seq = some d := by
  have hmem : seq ∈ u.host.cmds.map Cmd.seq := by
    rw [h, ← seq_of_cmd? hc]
    exact List.mem_map_of_mem (mem_of_cmd? hc)
  obtain ⟨d, hd, hseq⟩ := List.mem_map.1 hmem
  cases hfind : u.cmd? seq with
  | none => exact absurd (by simpa using hseq) (List.find?_eq_none.1 hfind d hd)
  | some e => exact ⟨e, rfl⟩

/-- A command goes on while its claim drains. -/
theorem runs_of_seqs {s u : State} (h : u.host.cmds.map Cmd.seq = s.host.cmds.map Cmd.seq) {seq : Nat} {c : Cmd} (hc : s.cmd? seq = some c) :
    (u.running seq).Runs seq := by
  obtain ⟨d, hd⟩ := cmd?_of_seqs h hc
  exact ⟨_, cmd?_running hd, rfl⟩

section
variable {c : Cmd} {s : State}

theorem claimResetDo_closed (h : (s.claim (c.arg 16 1)).state = .closed) : claimResetDo c s = s.fail c.seq Reason.claimState := by
  unfold claimResetDo
  exact if_pos h

theorem claimResetDo_runs (h : (s.claim (c.arg 16 1)).state ≠ .closed) : claimResetDo c s = (s.resetClaim (c.arg 16 1)).running c.seq := by
  unfold claimResetDo
  exact if_neg h

theorem claimCloseDo_member (h : s.isMember = true) : claimCloseDo c s = s.fail c.seq Reason.notPermitted := by
  unfold claimCloseDo
  exact if_pos h

theorem claimCloseDo_closed (hhead : s.isMember = false) (h : (s.claim (c.arg 16 1)).state = .closed) :
    claimCloseDo c s = s.fail c.seq Reason.claimState := by
  unfold claimCloseDo
  exact (if_neg (Bool.eq_false_iff.1 hhead)).trans (if_pos h)

theorem claimCloseDo_runs (hhead : s.isMember = false) (h : (s.claim (c.arg 16 1)).state ≠ .closed) :
    claimCloseDo c s = (s.resetClaim (c.arg 16 1)).running c.seq := by
  unfold claimCloseDo
  exact (if_neg (Bool.eq_false_iff.1 hhead)).trans (if_neg h)

end

/-- A claim that is not closed drains after `resetClaim`. -/
theorem resetClaim_state {s : State} {t : Nat} (h : (s.claim t).state ≠ .closed) : ((s.resetClaim t).claim t).state = .draining := by
  cases hstate : (s.claim t).state with
  | closed => exact absurd hstate h
  | opened =>
    rw [resetClaim_opened hstate]
    exact (beginReset_draining s t).state
  | draining => rw [resetClaim_other (by rw [hstate]; decide), hstate]

theorem resetClaim_kept (s : State) (t : Nat) :
    (∀ x, x ≠ t → ((s.resetClaim t).claim x).state = (s.claim x).state) ∧ (s.resetClaim t).host.cmds.map Cmd.seq = s.host.cmds.map Cmd.seq := by
  unfold State.resetClaim
  split
  · exact ⟨(beginReset_draining s t).others, (beginReset_draining s t).seqs⟩
  · exact ⟨fun _ _ => rfl, rfl⟩

/-! ## Function-level resets -/

/-- What a function-level reset of one claim does before the claim resets: its record, and the ring indices. -/
theorem flrClaim_opens {s : State} {t : Nat} (h : (s.claim t).state ≠ .closed) :
    ∃ v : State, s.flrClaim t = (v.clearIndices t).resetClaim t ∧ ∀ x, (v.claim x).state = (s.claim x).state := by
  unfold State.flrClaim
  rw [if_neg h]
  split
  · exact ⟨s, rfl, fun _ => rfl⟩
  · extract_lets c s1
    refine ⟨s1, rfl, fun x => ?_⟩
    have hkept := (ResetKept.journal (claim := t) (r := s.journalRecord c 1 0 0 0) (.refl s)).states x
    unfold s1
    generalize s.journal t (s.journalRecord c 1 0 0 0) = v at hkept ⊢
    exact hkept

theorem flrClaim_closed {s : State} {t : Nat} (h : (s.claim t).state = .closed) : s.flrClaim t = s := by
  unfold State.flrClaim
  exact if_pos h

/-- One claim of a function-level reset. -/
structure FlrStep (t : Nat) (s u : State) : Prop where
  here : (s.claim t).state ≠ .closed → (u.claim t).state = .draining
  others : ∀ x, x ≠ t → (u.claim x).state = (s.claim x).state

theorem flrClaim_step (s : State) (t : Nat) : FlrStep t s (s.flrClaim t) := by
  by_cases h : (s.claim t).state = .closed
  · rw [flrClaim_closed h]
    exact ⟨fun hn => absurd h hn, fun _ _ => rfl⟩
  · obtain ⟨v, hv, hstates⟩ := flrClaim_opens h
    have hclaim := (clearIndices_mapped v t).claim
    rw [hv]
    refine ⟨fun _ => resetClaim_state ?_, fun x hx => ?_⟩
    · rw [hclaim, hstates]
      exact h
    · rw [(resetClaim_kept _ _).1 x hx, hclaim, hstates]

/-- After the claims 1 to n, those of them that were not closed drain. -/
theorem flr_upTo (s : State) (n : Nat) :
    (∀ t, 1 ≤ t → t ≤ n → (s.claim t).state ≠ .closed → ((upTo n (fun s i => s.flrClaim (i + 1)) s).claim t).state = .draining)
      ∧ ∀ t, t = 0 ∨ n < t → ((upTo n (fun s i => s.flrClaim (i + 1)) s).claim t).state = (s.claim t).state := by
  induction n with
  | zero => exact ⟨fun t h1 h2 => by omega, fun _ _ => rfl⟩
  | succ n ih =>
    obtain ⟨hdone, hrest⟩ := ih
    have hstep : upTo (n + 1) (fun s i => s.flrClaim (i + 1)) s = (upTo n (fun s i => s.flrClaim (i + 1)) s).flrClaim (n + 1) := by
      unfold upTo
      rw [List.range_succ, List.foldl_append]
      rfl
    rw [hstep]
    generalize upTo n (fun (s : State) i => s.flrClaim (i + 1)) s = v at hdone hrest ⊢
    obtain ⟨hhere, hothers⟩ := flrClaim_step v (n + 1)
    refine ⟨fun t h1 h2 hopen => ?_, fun t ht => ?_⟩
    · by_cases heq : t = n + 1
      · subst heq
        exact hhere (by rw [hrest _ (.inr (Nat.lt_succ_self n))]; exact hopen)
      · rw [hothers t heq]
        exact hdone t h1 (by omega) hopen
    · rw [hothers t (by omega)]
      exact hrest t (by omega)

theorem flrDo_one {s : State} {t : Nat} (h : t ≠ 0) : flrDo t s = s.flrClaim t := by
  unfold flrDo
  exact if_neg h

theorem flrDo_all (s : State) : flrDo 0 s = (upTo 255 (fun s i => s.flrClaim (i + 1)) s).flrClaim 0 := by
  unfold flrDo
  rw [if_pos rfl]

/-- A reset of the physical function drains every open claim. -/
theorem flrDo_drains (s : State) {t : Nat} (ht : t < 256) (hopen : (s.claim t).state = .opened) : ((flrDo 0 s).claim t).state = .draining := by
  obtain ⟨hdone, hrest⟩ := flr_upTo s 255
  have hne : (s.claim t).state ≠ .closed := by rw [hopen]; decide
  rw [flrDo_all]
  generalize upTo 255 (fun (s : State) i => s.flrClaim (i + 1)) s = v at hdone hrest ⊢
  obtain ⟨hhere, hothers⟩ := flrClaim_step v 0
  by_cases h0 : t = 0
  · subst h0
    exact hhere (by rw [hrest 0 (.inl rfl)]; exact hne)
  · rw [hothers t h0]
    exact hdone t (by omega) (by omega) hne

theorem exec_flr {s : State} {t : Nat} (h : s.functionOn t = true) : exec (.flr t) s = .next (flrDo t s) := by
  show whenValid (s.functionOn t) _ = _
  rw [h]
  rfl

end Sys2Proof.Machine

/-! PROOFS. A claim's reset that completes, and a claim that closes (R338, R340). -/

namespace Sys2Proof.Machine

/-! ## The images of a claim that are unloaded -/

/-- Images of claim t stand at the handles of l only. -/
def ImagesAt (t : Nat) (l : List Nat) (images : Tab Image) : Prop := ∀ p ∈ images, p.2.claim = t → p.1 ∈ l

theorem ImagesAt.of_del {t h : Nat} {l : List Nat} {images : Tab Image} (hat : ImagesAt t (h :: l) images) : ImagesAt t l (del images h) := by
  intro p hp hclaim
  obtain ⟨hmem, hne⟩ := List.mem_filter.1 hp
  rcases List.mem_cons.1 (hat p hmem hclaim) with heq | hin
  · exact absurd heq (bne_iff_ne.1 hne)
  · exact hin

/-- A change of an image that is there, of the same claim. -/
theorem ImagesAt.of_put {t g : Nat} {l : List Nat} {images : Tab Image} {x y : Image} (hat : ImagesAt t l images) (hg : (g, y) ∈ images)
    (hx : x.claim = (lookD images g {}).claim) : ImagesAt t l (put images g x) := by
  intro p hp hclaim
  rcases mem_put hp with rfl | hmem
  · obtain ⟨z, hz⟩ := look_of_mem hg
    have hsame : x.claim = z.claim := by
      rw [hx, lookD, hz]
      rfl
    exact hat (g, z) (mem_of_look hz) (hsame.symm.trans hclaim)
  · exact hat p hmem hclaim

/-- What the unloading of an image leaves: the commands, rings and claims' states, and its handle is free. -/
structure Unloaded (h : Nat) (s u : State) : Prop where
  cmds : u.host.cmds = s.host.cmds
  states : ∀ x, (u.claim x).state = (s.claim x).state
  images : u.images = del s.images h ∨ ∃ g x y, (g, y) ∈ del s.images h ∧ u.images = put (del s.images h) g x
    ∧ x.claim = (lookD (del s.images h) g {}).claim

theorem modImage_images (s : State) (g : Nat) (f : Image → Image) : (s.modImage g f).images = put s.images g (f (s.image g)) := rfl

theorem unloadImage_unloaded (s : State) (h : Nat) : Unloaded h s (s.unloadImage h) := by
  unfold State.unloadImage
  extract_lets x s1 shared cleared s2 s3
  have hpinned (v : State) (c : Nat) : (v.repin c).host.cmds = v.host.cmds ∧ (v.repin c).images = v.images
      ∧ ∀ y, ((v.repin c).claim y).state = (v.claim y).state := ⟨rfl, rfl, (ResetKept.repin (.refl v)).states⟩
  have hafter : SameHost ((s3.clearRiddle h x).repin x.claim) ((s3.clearRiddle h x).repin x.claim).reshare.repower := .repower (.reshare (.refl _))
  have hriddle : SameHost s3 (s3.clearRiddle h x) := .clearRiddle (.refl s3)
  obtain ⟨hpcmds, hpimages, hpstates⟩ := hpinned (s3.clearRiddle h x) x.claim
  have h3host : s3.host = s2.host := rfl
  have h3images : s3.images = s2.images := rfl
  have h2host : s2.host = s.host := by
    unfold s2
    clear_value shared
    split
    · exact (SameHost.foldl (fun _ _ hs => .modSkip hs) (.foldl (fun _ _ hs => .clearTile hs) (.refl s1))).host
    · split
      · exact (SameHost.startImage (.refl s1)).host
      · exact (SameHost.foldl (fun _ _ hs => .modTile hs) (.refl s1)).host
  have h2images : s2.images = del s.images h ∨ ∃ g x y, (g, y) ∈ del s.images h ∧ s2.images = put (del s.images h) g x
      ∧ x.claim = (lookD (del s.images h) g {}).claim := by
    have hshared : ∀ q, shared = some q → q ∈ del s.images h := fun q hq => List.mem_of_find?_eq_some hq
    unfold s2
    clear_value shared
    rcases shared with _ | ⟨g, y⟩
    · exact .inl (SameHost.foldl (fun _ _ hs => .modSkip hs) (.foldl (fun _ _ hs => .clearTile hs) (.refl s1))).images
    · dsimp only
      split
      · have hstart : (s1.startImage g).images = del s.images h := (SameHost.startImage (.refl s1)).images
        have hput := modImage_images (s1.startImage g) g (fun z => { z with predecessor := none })
        rw [hstart] at hput
        exact .inr ⟨g, _, y, hshared _ rfl, hput, congrArg (fun t => (lookD t g ({} : Image)).claim) hstart⟩
      · exact .inl (SameHost.foldl (fun _ _ hs => .modTile hs) (.refl s1)).images
  clear_value s3
  refine ⟨?_, fun y => ?_, ?_⟩
  · rw [hafter.host, hpcmds, hriddle.host, h3host, h2host]
  · have hclaims : (((s3.clearRiddle h x).repin x.claim).reshare.repower).claim y = ((s3.clearRiddle h x).repin x.claim).claim y := by
      rw [State.claim, hafter.host]
      rfl
    have hbefore : (s3.clearRiddle h x).claim y = s.claim y := by
      rw [State.claim, hriddle.host, h3host, h2host]
      rfl
    rw [hclaims, hpstates, hbefore]
  · rw [hafter.images, hpimages, hriddle.images, h3images]
    exact h2images

/-- After every handle of l, no image of claim t is left. -/
structure AllUnloaded (t : Nat) (s u : State) : Prop where
  cmds : u.host.cmds = s.host.cmds
  states : ∀ x, (u.claim x).state = (s.claim x).state
  images : ∀ p ∈ u.images, p.2.claim ≠ t

theorem foldl_unloadImage {t : Nat} (l : List Nat) : ∀ s : State, ImagesAt t l s.images →
    AllUnloaded t s (l.foldl (fun s h => s.unloadImage h) s) := by
  induction l with
  | nil => exact fun s h => ⟨rfl, fun _ => rfl, fun p hp hclaim => List.not_mem_nil (h p hp hclaim)⟩
  | cons h l ih =>
    intro s hat
    obtain ⟨hcmds, hstates, himages⟩ := unloadImage_unloaded s h
    have hleft : ImagesAt t l (s.unloadImage h).images := by
      rcases himages with heq | ⟨g, x, y, hg, heq, hx⟩
      · rw [heq]
        exact hat.of_del
      · rw [heq]
        exact hat.of_del.of_put hg hx
    obtain ⟨hc, hs, hi⟩ := ih (s.unloadImage h) hleft
    rw [List.foldl_cons]
    exact ⟨hc.trans hcmds, fun x => (hs x).trans (hstates x), hi⟩

/-! ## Commands that complete one after the other -/

/-- What each single end keeps, and depends on the commands alone, the end of a command keeps. -/
theorem finish_induct {P : State → Prop} {ok : Bool} {n : Nat} {r : BitVec 128} (hcmds : ∀ u v : State, v.host.cmds = u.host.cmds → P u → P v)
    (hone : ∀ (u : State) (c : Cmd), P u → P (u.finishOne c ok n r)) {s : State} (h : P s) (q : Nat) : P (s.finish q ok n r) := by
  unfold State.finish
  split
  · exact h
  next c _ =>
    extract_lets s1 s2 dups
    have h1 : P s1 := hone s c h
    have h2 : P s2 := hcmds s1 s2 rfl h1
    exact foldl_keeps P _ hone _ _ h2

theorem AllEnded.finish {seq : Nat} {ok : Bool} {n : Nat} {r : BitVec 128} {u : State} (h : AllEnded seq ok n r u) (q : Nat) :
    AllEnded seq ok n r (u.finish q ok n r) := by
  exact finish_induct (fun _ _ hcmds hu => hu.of_cmds hcmds) (fun _ c hu => hu.finishOne c) h q

/-- Some command has this SEQ and did not come from a function-level reset. -/
def State.HasRinged (s : State) (seq : Nat) : Prop := ∃ d ∈ s.host.cmds, d.seq = seq ∧ d.isFlr = false

theorem hasRinged_finishOne {s : State} {seq : Nat} (h : s.HasRinged seq) (c : Cmd) (ok : Bool) (n : Nat) (r : BitVec 128) :
    (s.finishOne c ok n r).HasRinged seq := by
  obtain ⟨d, hd, hseq, hflr⟩ := h
  unfold State.HasRinged
  rw [finishOne_cmds]
  refine ⟨_, List.mem_map_of_mem hd, ?_, ?_⟩
  · split <;> exact hseq
  · split <;> exact hflr

theorem hasRinged_finish {s : State} {seq : Nat} (h : s.HasRinged seq) (q : Nat) (ok : Bool) (n : Nat) (r : BitVec 128) :
    (s.finish q ok n r).HasRinged seq := by
  refine finish_induct (P := fun u => u.HasRinged seq) (fun u v hcmds hu => ?_) (fun _ c hu => hasRinged_finishOne hu c ok n r) h q
  unfold State.HasRinged
  rw [hcmds]
  exact hu

/-- A command that still runs is one that ran before. -/
def RunsFrom (s u : State) : Prop := ∀ d ∈ u.host.cmds, d.state = .running → d ∈ s.host.cmds

theorem runsFrom_finishOne {s u : State} (h : RunsFrom s u) (c : Cmd) (ok : Bool) (n : Nat) (r : BitVec 128) : RunsFrom s (u.finishOne c ok n r) := by
  intro d hd hrun
  rw [finishOne_cmds] at hd
  obtain ⟨e, he, rfl⟩ := List.mem_map.1 hd
  split at hrun
  next => exact absurd hrun (by simp)
  next hne =>
    rw [if_neg hne]
    exact h e he hrun

theorem runsFrom_finish {s u : State} (h : RunsFrom s u) (q : Nat) (ok : Bool) (n : Nat) (r : BitVec 128) : RunsFrom s (u.finish q ok n r) := by
  refine finish_induct (P := RunsFrom s) (fun u v hcmds hu => ?_) (fun _ c hu => runsFrom_finishOne hu c ok n r) h q
  unfold RunsFrom
  rw [hcmds]
  exact hu

/-- The one command of its SEQ is d. -/
structure State.Sole (s : State) (d : Cmd) : Prop where
  mem : d ∈ s.host.cmds
  only : ∀ e ∈ s.host.cmds, e.seq = d.seq → e = d

theorem State.Sole.of_cmds {s u : State} {d : Cmd} (h : s.Sole d) (hcmds : u.host.cmds = s.host.cmds) : u.Sole d :=
  ⟨by rw [hcmds]; exact h.mem, by rw [hcmds]; exact h.only⟩

theorem sole_finishOne {s : State} {d : Cmd} (h : s.Sole d) {c : Cmd} (hc : c.seq ≠ d.seq) (ok : Bool) (n : Nat) (r : BitVec 128) :
    (s.finishOne c ok n r).Sole d := by
  refine ⟨?_, fun e he hseq => ?_⟩
  · rw [finishOne_cmds]
    refine List.mem_map.2 ⟨d, h.mem, if_neg ?_⟩
    simpa using hc.symm
  · rw [finishOne_cmds] at he
    obtain ⟨e', he', rfl⟩ := List.mem_map.1 he
    by_cases hsame : (e'.seq == c.seq) = true
    · rw [if_pos hsame] at hseq
      exact absurd ((beq_iff_eq.1 hsame).symm.trans hseq) hc
    · rw [if_neg hsame] at hseq ⊢
      exact h.only e' he' hseq

theorem foldl_sole {d : Cmd} (l : List Cmd) (hl : ∀ c ∈ l, c.seq ≠ d.seq) (ok : Bool) (n : Nat) (r : BitVec 128) : ∀ s : State, s.Sole d →
    (l.foldl (fun s c => s.finishOne c ok n r) s).Sole d := by
  induction l with
  | nil => exact fun s h => h
  | cons c l ih =>
    intro s h
    rw [List.foldl_cons]
    exact ih (fun x hx => hl x (List.mem_cons_of_mem _ hx)) (s.finishOne c ok n r) (sole_finishOne h (hl c List.mem_cons_self) ok n r)

/-- The end of another command leaves a running one, which duplicates nothing. -/
theorem sole_finish {s : State} {d : Cmd} (h : s.Sole d) (hrun : d.state = .running) {q : Nat} (hq : q ≠ d.seq) (ok : Bool) (n : Nat) (r : BitVec 128) :
    (s.finish q ok n r).Sole d := by
  unfold State.finish
  split
  · exact h
  next c hc =>
    have hseq : c.seq = q := seq_of_cmd? hc
    extract_lets s1 s2 dups
    have h1 : s1.Sole d := sole_finishOne h (by rw [hseq]; exact hq) ok n r
    have h2 : s2.Sole d := State.Sole.of_cmds (s := s1) (u := s2) h1 rfl
    refine foldl_sole dups (fun x hx hsame => ?_) ok n r s2 h2
    obtain ⟨hmem, hdup⟩ := List.mem_filter.1 hx
    have hacc := (Bool.and_eq_true_iff.1 hdup).2
    rw [h2.only x hmem hsame, hrun] at hacc
    exact absurd hacc (by decide)

/-! ## The commands that a completed reset completes -/

/-- The resets of claim t that a command asked for. -/
def State.ringedResets (s : State) (t : Nat) : List Cmd :=
  (s.host.cmds.filter (fun c => c.resets t && !c.ended && c.duplicateOf.isNone)).filter (fun c => !c.isFlr)

theorem foldl_complete_ended {r : BitVec 128} {d : Cmd} (l : List Cmd) : ∀ s : State, (d ∈ l ∧ (∃ c, s.cmd? d.seq = some c)) ∨ AllEnded d.seq true 0 r s →
    AllEnded d.seq true 0 r (l.foldl (fun s c => s.complete c.seq r) s) := by
  induction l with
  | nil => exact fun s h => h.elim (fun h => absurd h.1 List.not_mem_nil) id
  | cons c l ih =>
    intro s h
    refine ih _ ?_
    rcases h with ⟨hd, e, he⟩ | hended
    · rcases List.mem_cons.1 hd with rfl | hin
      · exact .inr (finish_allEnded he true 0 r)
      · exact .inl ⟨hin, cmd?_of_seqs (ResetKept.finish (.refl s)).seqs he⟩
    · exact .inr (hended.finish c.seq)

theorem cmd?_of_mem {s : State} {d : Cmd} (h : d ∈ s.host.cmds) : ∃ c, s.cmd? d.seq = some c := by
  cases hfind : s.cmd? d.seq with
  | none => exact absurd (beq_self_eq_true d.seq) (List.find?_eq_none.1 hfind d h)
  | some c => exact ⟨c, rfl⟩

/-! ## CLAIM_RESET_COMPLETE -/

theorem exec_claimResetComplete {t : Nat} {s : State} (ht : t < 256) (hstate : (s.claim t).state = .draining)
    (hpipes : s.pipes.all (fun p => p.2.claim != t) = true) (hawait : s.emeel.awaiting.all (fun a => a.1 != t) = true) :
    exec (.claimResetComplete t) s = .next (claimResetCompleteDo t s) := by
  refine whenDue_true ?_ _
  unfold claimResetCompleteOk
  rw [decide_eq_true ht, hstate, hpipes, hawait]
  rfl

/-- The claim's closing commands that run. -/
def State.closesOf (s : State) (t : Nat) : List Cmd :=
  s.host.cmds.filter (fun c => c.opcode == 0x0003 && c.arg 16 1 == t && c.state == .running)

/-- The state of a completed reset before a CLAIM_CLOSE goes on. -/
structure ResetDone (t : Nat) (s u : State) : Prop where
  state : (u.claim t).state = .opened
  images : ∀ p ∈ u.images, p.2.claim ≠ t
  ended : ∀ d ∈ s.host.cmds, d.resets t = true → d.isFlr = false → d.ended = false → d.duplicateOf = none → ∃ r, AllEnded d.seq true 0 r u
  runs : RunsFrom s u
  sole : ∀ d, d.opcode = 0x0003 → d.state = .running → s.Sole d → u.Sole d

/-- An update that keeps the commands, the images and the claim's state. -/
theorem ResetDone.of_kept {t : Nat} {s u v : State} (h : ResetDone t s u) (hcmds : v.host.cmds = u.host.cmds) (himages : v.images = u.images)
    (hstate : (v.claim t).state = (u.claim t).state) : ResetDone t s v := by
  refine ⟨hstate.trans h.state, ?_, fun d hd h1 h2 h3 h4 => ?_, ?_, fun d ho hr hs => (h.sole d ho hr hs).of_cmds hcmds⟩
  · rw [himages]
    exact h.images
  · obtain ⟨r, hr⟩ := h.ended d hd h1 h2 h3 h4
    exact ⟨r, hr.of_cmds hcmds⟩
  · intro d hd
    rw [hcmds] at hd
    exact h.runs d hd

/-- The record and the ring indices of a function-level reset, whose command goes. -/
def State.endFlr (s : State) (t : Nat) (resets : List Cmd) (r : BitVec 128) : State :=
  if resets.any Cmd.isFlr then
    (((resets.filter Cmd.isFlr).foldl (fun s c => s.journal t (s.journalRecord c 2 c.seq 0 r)) s).clearIndices t).modHost
      (fun h => { h with cmds := h.cmds.filter (fun c => !(c.isFlr && c.resets t)) })
  else s

/-- A member answers the head. -/
def State.answerReset (s : State) (t : Nat) : State :=
  if s.isMember then s.sendFlit 0 .command 0x0002 (1 + 256 * s.emeel.deviceId.toNat) (claimEntry t) 0 else s

/-- A CLAIM_CLOSE that waits for the reset goes on. -/
def State.closeAfter (s : State) (t : Nat) : State :=
  if (s.closesOf t).isEmpty then s
  else (s.closesOf t).foldl (fun s c => s.complete c.seq 0) ((s.closeClaim t).tellMembers 0x0003 (claimEntry t))

/-- The skips of a claim are flushed. -/
def State.flushSkips (s : State) (t : Nat) : State :=
  { s with skips := s.skips.map (fun k => (k.1, if k.2.cfg.valid && k.2.cfg.claim == t then k.2.flush else k.2)) }

/-- The skips of a claim are flushed and its images unloaded. -/
def State.emptied (s : State) (t : Nat) : State :=
  (((((s.flushSkips t).images.filter (fun i => i.2.claim == t)).map (·.1)).foldl (fun s h => s.unloadImage h) (s.flushSkips t)).repin t).reshare

/-- How long the reset took. -/
def State.resetTook (s : State) (t : Nat) : BitVec 128 := BitVec.ofNat 128 ((s.now - (s.claim t).resetAt) % 2 ^ 32)

theorem claimResetCompleteDo_eq (t : Nat) (s : State) : claimResetCompleteDo t s =
    ((((((s.emptied t).ringedResets t).foldl (fun u c => u.complete c.seq ((s.emptied t).resetTook t)) (s.emptied t)).modClaim t
      (fun x => { x with state := .opened })).endFlr t
        ((s.emptied t).host.cmds.filter (fun c => c.resets t && !c.ended && c.duplicateOf.isNone)) ((s.emptied t).resetTook t)).answerReset t).closeAfter t := by
  unfold claimResetCompleteDo State.closeAfter State.answerReset State.endFlr State.closesOf State.ringedResets State.resetTook State.emptied
    State.flushSkips
  rfl

theorem emptied_unloaded (s : State) (t : Nat) : AllUnloaded t s (s.emptied t) := by
  have hun := foldl_unloadImage (t := t) (((s.flushSkips t).images.filter (fun i => i.2.claim == t)).map (·.1))
    (s.flushSkips t)
    (fun p hp hclaim => List.mem_map_of_mem (List.mem_filter.2 ⟨hp, by simpa using hclaim⟩))
  unfold State.emptied
  generalize List.foldl (fun (s : State) h => s.unloadImage h) _ _ = v at hun ⊢
  obtain ⟨hcmds, hstates, himages⟩ := hun
  have hshared : SameHost (v.repin t) (v.repin t).reshare := .reshare (.refl _)
  have hpinned := (ResetKept.repin (c := t) (.refl v)).states
  refine ⟨?_, fun x => ?_, ?_⟩
  · rw [hshared.host]
    exact hcmds
  · have hsame : (v.repin t).reshare.claim x = (v.repin t).claim x := by
      rw [State.claim, hshared.host]
      rfl
    rw [hsame, hpinned x, hstates x]
    rfl
  · rw [hshared.images]
    exact himages

theorem foldl_complete_images (l : List Cmd) (r : BitVec 128) (s : State) : (l.foldl (fun s c => s.complete c.seq r) s).images = s.images :=
  foldl_keeps (fun u => u.images = s.images) _ (fun u c hu => (finish_images u c.seq true 0 r).trans hu) _ _ rfl

theorem foldl_complete_sole {d : Cmd} (hrun : d.state = .running) (r : BitVec 128) (l : List Cmd) (hl : ∀ c ∈ l, c.seq ≠ d.seq) : ∀ s : State, s.Sole d →
    (l.foldl (fun s c => s.complete c.seq r) s).Sole d := by
  induction l with
  | nil => exact fun s h => h
  | cons c l ih =>
    intro s h
    rw [List.foldl_cons]
    exact ih (fun x hx => hl x (List.mem_cons_of_mem _ hx)) (s.complete c.seq r) (sole_finish h hrun (hl c List.mem_cons_self) true 0 r)

theorem foldl_journal_kept (l : List Cmd) (t : Nat) (r : BitVec 128) (s : State) :
    let u := l.foldl (fun s c => s.journal t (s.journalRecord c 2 c.seq 0 r)) s
    u.host.cmds = s.host.cmds ∧ u.images = s.images ∧ ∀ x, (u.claim x).state = (s.claim x).state :=
  foldl_keeps (fun u => u.host.cmds = s.host.cmds ∧ u.images = s.images ∧ ∀ x, (u.claim x).state = (s.claim x).state) _
    (fun u c hu => ⟨(by simp [State.journal, State.modHost, State.modClaim] : (u.journal t _).host.cmds = u.host.cmds).trans hu.1,
      (journal_images _ _ _).trans hu.2.1, fun x => ((ResetKept.journal (.refl u)).states x).trans (hu.2.2 x)⟩) _ _ ⟨rfl, rfl, fun _ => rfl⟩

end Sys2Proof.Machine

/-! PROOFS. The claims' obligation: open, reset, close and function-level reset (O46). -/

namespace Sys2Proof.Machine

/-! ## A reset that completes, up to its closing commands -/

theorem foldl_complete_states (l : List Cmd) (r : BitVec 128) (s : State) : ResetKept s (l.foldl (fun s c => s.complete c.seq r) s) :=
  .foldl (fun _ _ hs => .finish hs) (.refl s)

theorem foldl_complete_runsFrom {s : State} (l : List Cmd) (r : BitVec 128) (u : State) (h : RunsFrom s u) :
    RunsFrom s (l.foldl (fun s c => s.complete c.seq r) u) :=
  foldl_keeps (RunsFrom s) _ (fun _ c hu => runsFrom_finish hu c.seq true 0 r) _ _ h

theorem foldl_complete_ringed {seq : Nat} (l : List Cmd) (r : BitVec 128) (u : State) (h : u.HasRinged seq) :
    (l.foldl (fun s c => s.complete c.seq r) u).HasRinged seq :=
  foldl_keeps (fun u => u.HasRinged seq) _ (fun _ c hu => hasRinged_finish hu c.seq true 0 r) _ _ h

/-- What the completed resets leave: the commands that asked for them have ended, and still came by a ring. -/
structure ResetsEnded (t : Nat) (s u : State) : Prop where
  images : ∀ p ∈ u.images, p.2.claim ≠ t
  ended : ∀ d ∈ s.host.cmds, d.resets t = true → d.isFlr = false → d.ended = false → d.duplicateOf = none →
    (∃ r, AllEnded d.seq true 0 r u) ∧ u.HasRinged d.seq
  runs : RunsFrom s u
  sole : ∀ d, d.opcode = 0x0003 → d.state = .running → s.Sole d → u.Sole d

theorem resetsEnded_complete {t : Nat} {s v : State} (hv : AllUnloaded t s v) (r : BitVec 128) :
    ResetsEnded t s ((v.ringedResets t).foldl (fun u c => u.complete c.seq r) v) := by
  refine ⟨?_, fun d hd hresets hflr hopen hdup => ⟨⟨r, foldl_complete_ended _ v (.inl ⟨?_, ?_⟩)⟩, foldl_complete_ringed _ r v ?_⟩,
    foldl_complete_runsFrom _ r v ?_, fun d hop hrun hsole => foldl_complete_sole hrun r _ (fun c hc hsame => ?_) v (hsole.of_cmds hv.cmds)⟩
  · rw [foldl_complete_images]
    exact hv.images
  · refine List.mem_filter.2 ⟨List.mem_filter.2 ⟨by rw [hv.cmds]; exact hd, ?_⟩, by rw [hflr]; rfl⟩
    rw [hresets, hopen, hdup]
    rfl
  · exact cmd?_of_mem (by rw [hv.cmds]; exact hd)
  · exact ⟨d, by rw [hv.cmds]; exact hd, rfl, hflr⟩
  · intro d hd _
    rw [hv.cmds] at hd
    exact hd
  · obtain ⟨hmem, -⟩ := List.mem_filter.1 hc
    obtain ⟨hin, htest⟩ := List.mem_filter.1 hmem
    rw [hv.cmds] at hin
    have hd : c = d := hsole.only c hin hsame
    rw [hd] at htest
    unfold Cmd.resets at htest
    rw [hop] at htest
    exact absurd htest (by simp)

/-- The claim opens again, and a function-level reset's own command goes. -/
theorem endFlr_done {t : Nat} {s u : State} (h : ResetsEnded t s u) (resets : List Cmd) (r : BitVec 128) :
    ResetDone t s ((u.modClaim t (fun x => { x with state := .opened })).endFlr t resets r) := by
  have hopen : ((u.modClaim t (fun x => { x with state := .opened })).claim t).state = .opened := congrArg Claim.state (claim_modClaim u t _)
  have hstart : ResetDone t s (u.modClaim t (fun x => { x with state := .opened })) :=
    ⟨hopen, h.images, fun d hd h1 h2 h3 h4 => (h.ended d hd h1 h2 h3 h4).1.imp fun _ hr => hr.of_cmds rfl, h.runs,
      fun d ho hr hs => (h.sole d ho hr hs).of_cmds rfl⟩
  have hringed : ∀ seq, u.HasRinged seq → (u.modClaim t (fun x => { x with state := .opened })).HasRinged seq := fun _ hseq => hseq
  unfold State.endFlr
  generalize u.modClaim t (fun x => { x with state := .opened }) = v at hopen hstart hringed ⊢
  split
  · obtain ⟨hcmds, himages, hstates⟩ := foldl_journal_kept (resets.filter Cmd.isFlr) t r v
    generalize (resets.filter Cmd.isFlr).foldl (fun (s : State) c => s.journal t (s.journalRecord c 2 c.seq 0 r)) v = w at hcmds himages hstates ⊢
    have hclear := clearIndices_mapped w t
    have hwcmds : (w.clearIndices t).host.cmds = v.host.cmds := by
      rw [hclear.kept]
      exact hcmds
    have hwimages : (w.clearIndices t).images = v.images := by
      rw [hclear.kept]
      exact himages
    have hwstate : ((w.clearIndices t).claim t).state = .opened := by
      rw [hclear.claim, hstates, hopen]
    generalize w.clearIndices t = z at hwcmds hwimages hwstate ⊢
    have hfilter : ∀ d, d ∈ z.host.cmds.filter (fun c => !(c.isFlr && c.resets t)) → d ∈ v.host.cmds := fun d hd => by
      rw [← hwcmds]
      exact (List.mem_filter.1 hd).1
    refine ⟨hwstate, ?_, fun d hd h1 h2 h3 h4 => ?_, fun d hd hrun => hstart.runs d (hfilter d hd) hrun, fun d hop hrun hs => ?_⟩
    · intro p hp
      exact hstart.images p (by rw [← hwimages]; exact hp)
    · obtain ⟨r', hr'⟩ := hstart.ended d hd h1 h2 h3 h4
      obtain ⟨e, he, hseq, hflr⟩ := hringed _ (h.ended d hd h1 h2 h3 h4).2
      refine ⟨r', ⟨e, ?_, hseq⟩, fun x hx hxs => hr'.all x (hfilter x hx) hxs⟩
      exact List.mem_filter.2 ⟨by rw [hwcmds]; exact he, by rw [hflr]; rfl⟩
    · obtain ⟨hmem, honly⟩ := hstart.sole d hop hrun hs
      refine ⟨List.mem_filter.2 ⟨by rw [hwcmds]; exact hmem, ?_⟩, fun e he hseq => honly e (hfilter e he) hseq⟩
      unfold Cmd.resets
      rw [hop]
      simp
  · exact hstart

theorem answerReset_done {t : Nat} {s u : State} (h : ResetDone t s u) : ResetDone t s (u.answerReset t) := by
  unfold State.answerReset
  split
  · have hlinks := OnLinks.sendFlit u 0 .command 0x0002 (1 + 256 * u.emeel.deviceId.toNat) (claimEntry t) 0
    generalize u.sendFlit 0 .command 0x0002 (1 + 256 * u.emeel.deviceId.toNat) (claimEntry t) 0 = w at hlinks ⊢
    refine h.of_kept (congrArg HostIf.cmds hlinks.host) hlinks.images ?_
    rw [State.claim, hlinks.host]
    rfl
  · exact h

/-- The state of a completed reset before a CLAIM_CLOSE goes on. -/
def State.resetDone (s : State) (t : Nat) : State :=
  (((((s.emptied t).ringedResets t).foldl (fun u c => u.complete c.seq ((s.emptied t).resetTook t)) (s.emptied t)).modClaim t
    (fun x => { x with state := .opened })).endFlr t
      ((s.emptied t).host.cmds.filter (fun c => c.resets t && !c.ended && c.duplicateOf.isNone)) ((s.emptied t).resetTook t)).answerReset t

theorem resetDone_done (s : State) (t : Nat) : ResetDone t s (s.resetDone t) := by
  unfold State.resetDone
  exact answerReset_done (endFlr_done (resetsEnded_complete (emptied_unloaded s t) _) _ _)

theorem claimResetCompleteDo_done (t : Nat) (s : State) : claimResetCompleteDo t s = (s.resetDone t).closeAfter t := claimResetCompleteDo_eq t s

/-! ## The claim that closes -/

/-- A closed claim: no pages, and rings 0 to 13 without entries. -/
structure ClosedClaim (t : Nat) (u : State) : Prop where
  state : (u.claim t).state = .closed
  pages : (u.claim t).pages = []
  rings : ∀ k, k < 14 → (u.ring t k).entries = 0

theorem closeClaim_closed (s : State) (t : Nat) : ClosedClaim t (s.closeClaim t) ∧ (s.closeClaim t).images = s.images := by
  unfold State.closeClaim
  extract_lets x units s1 s2 s3
  have h2 : (s2.claim t).state = .closed ∧ (s2.claim t).pages = [] := by
    unfold s2
    rw [claim_modClaim]
    exact ⟨rfl, rfl⟩
  have h2images : s2.images = s.images := rfl
  have h3 : RingsMapped t (fun r => r.setUp 0 0 0) 16 s2 s3 := upTo_modRing s2 t _ 16 (le_refl 16)
  clear_value s2 s3
  refine ⟨⟨?_, ?_, fun k hk => ?_⟩, ?_⟩
  · exact (congrArg Claim.state (h3.claim t)).trans h2.1
  · exact (congrArg Claim.pages (h3.claim t)).trans h2.2
  · exact congrArg Ring.entries (h3.mapped k (by omega))
  · show s3.images = s.images
    rw [h3.kept]
    exact h2images

theorem ClosedClaim.of_kept {t : Nat} {u v : State} (h : ClosedClaim t u) (hv : ResetKept u v) (hpages : (v.claim t).pages = (u.claim t).pages) :
    ClosedClaim t v :=
  ⟨(hv.states t).trans h.state, hpages.trans h.pages, fun k hk => (congrArg Ring.entries (hv.rings t k hk)).trans (h.rings k hk)⟩

theorem closeAfter_none {s : State} {t : Nat} (h : s.closesOf t = []) : s.closeAfter t = s := by
  unfold State.closeAfter
  rw [h]
  rfl

theorem foldl_complete_pages (l : List Cmd) (r : BitVec 128) (s : State) (t : Nat) :
    ((l.foldl (fun s c => s.complete c.seq r) s).claim t).pages = (s.claim t).pages :=
  foldl_keeps (fun u => (u.claim t).pages = (s.claim t).pages) _ (fun u c hu => (pages_finish u c.seq true 0 r t).1.trans hu) _ _ rfl

theorem closeAfter_closes {s : State} {t : Nat} (h : s.closesOf t ≠ []) : ClosedClaim t (s.closeAfter t) ∧ (s.closeAfter t).images = s.images := by
  obtain ⟨hclosed, himages⟩ := closeClaim_closed s t
  have hlinks := OnLinks.tellMembers (s.closeClaim t) 0x0003 (claimEntry t)
  have htold : ResetKept (s.closeClaim t) ((s.closeClaim t).tellMembers 0x0003 (claimEntry t)) := .tellMembers (.refl _)
  have hpages : (((s.closeClaim t).tellMembers 0x0003 (claimEntry t)).claim t).pages = ((s.closeClaim t).claim t).pages := by
    rw [State.claim, hlinks.host]
    rfl
  unfold State.closeAfter
  rw [if_neg (by rw [List.isEmpty_iff]; exact h)]
  generalize (s.closeClaim t).tellMembers 0x0003 (claimEntry t) = v at hlinks htold hpages ⊢
  refine ⟨(hclosed.of_kept htold hpages).of_kept (foldl_complete_states _ 0 v) (foldl_complete_pages _ 0 v t), ?_⟩
  rw [foldl_complete_images, hlinks.images, himages]

/-- No closing command runs after the reset where none ran before it. -/
theorem closesOf_none {t : Nat} {s u : State} (h : RunsFrom s u) (hnone : s.closesOf t = []) : u.closesOf t = [] := by
  refine List.filter_eq_nil_iff.2 fun d hd htest => ?_
  have hrun : d.state = .running := by
    rw [Bool.and_eq_true] at htest
    exact beq_iff_eq.1 htest.2
  exact List.filter_eq_nil_iff.1 hnone d (h d hd hrun) htest

/-- A closing command that is the only one of its SEQ still runs. -/
theorem closesOf_some {t : Nat} {s u : State} (h : ∀ d, d.opcode = 0x0003 → d.state = .running → s.Sole d → u.Sole d) {d : Cmd} (hd : d ∈ s.closesOf t)
    (honly : ∀ e ∈ s.host.cmds, e.seq = d.seq → e = d) : u.closesOf t ≠ [] := by
  obtain ⟨hmem, htest⟩ := List.mem_filter.1 hd
  have hparts := htest
  rw [Bool.and_eq_true, Bool.and_eq_true] at hparts
  obtain ⟨⟨hop, -⟩, hrun⟩ := hparts
  have hsole := h d (beq_iff_eq.1 hop) (beq_iff_eq.1 hrun) ⟨hmem, honly⟩
  exact List.ne_nil_of_mem (List.mem_filter.2 ⟨hsole.mem, htest⟩)

/-! ## The obligation -/

theorem flrClaim_opened {s : State} {t : Nat} (h : (s.claim t).state = .opened) :
    ((s.flrClaim t).claim t).state = .draining ∧ (∀ k, k < 14 → ((s.flrClaim t).ring t k).producer = 0 ∧ ((s.flrClaim t).ring t k).consumer = 0)
      ∧ ∀ p x, (s.flrClaim t).pipe? p = some x → x.claim = t → x.ending = true := by
  obtain ⟨v, hv, hstates⟩ := flrClaim_opens (s := s) (t := t) (by rw [h]; decide)
  have hmap := clearIndices_mapped v t
  have hopen : ((v.clearIndices t).claim t).state = .opened := by
    rw [hmap.claim, hstates, h]
  rw [hv, resetClaim_opened hopen]
  have hdrain := beginReset_draining (v.clearIndices t) t
  refine ⟨hdrain.state, fun k hk => ?_, hdrain.ending⟩
  rw [hdrain.rings t k hk, hmap.mapped k (by omega)]
  exact ⟨rfl, rfl⟩

/-- Settles O46: a reset that begins drains its claim, and one that completes empties it. -/
theorem claimsOpenResetAndClose : Obligations.ClaimsOpenResetAndClose := by
  refine ⟨fun seq c s h => ⟨fun hhead hon hclosed => ⟨_, hostCmd_ready h claimOpenDo, ?_⟩, fun hhead hon hopen => ⟨_, hostCmd_ready h claimOpenDo, ?_⟩,
      fun hnot => ⟨_, hostCmd_ready h claimOpenDo, ?_⟩⟩,
    fun seq c s h => ⟨fun hopen => ⟨_, hostCmd_ready h claimResetDo, ?_⟩, fun hdrain => ⟨_, hostCmd_ready h claimResetDo, ?_⟩,
      fun hclosed => ⟨_, hostCmd_ready h claimResetDo, ?_⟩⟩,
    fun seq c s h => ⟨fun hhead hopen => ⟨_, hostCmd_ready h claimCloseDo, ?_⟩, fun hmember => ⟨_, hostCmd_ready h claimCloseDo, ?_⟩,
      fun hhead hclosed => ⟨_, hostCmd_ready h claimCloseDo, ?_⟩⟩,
    fun t s ht hstate hpipes hawait => ⟨fun hnone => ⟨_, exec_claimResetComplete ht hstate hpipes hawait, ?_⟩,
      fun hsome => ⟨_, exec_claimResetComplete ht hstate hpipes hawait, ?_⟩⟩,
    fun t s hon h0 => ⟨fun hclosed => ?_, fun hopen => ⟨_, exec_flr hon, ?_⟩⟩,
    fun s => ⟨_, exec_flr rfl, fun t ht hopen => flrDo_drains s ht hopen⟩⟩
  · obtain rfl : c.seq = seq := seq_of_cmd? h.1
    rw [claimOpenDo_opens hhead hon hclosed]
    have hopened := openClaim_opened s (c.arg 16 1) (c.arg 20 4) (bitAt (c.arg 24 1) 0) (BitVec.ofNat 8 (c.arg 25 1))
    generalize s.openClaim (c.arg 16 1) (c.arg 20 4) (bitAt (c.arg 24 1) 0) (BitVec.ofNat 8 (c.arg 25 1)) = v at hopened ⊢
    have hlinks := OnLinks.tellMembers v 0x0001 c.entry
    generalize v.tellMembers 0x0001 c.entry = w at hlinks ⊢
    have hcmd : w.cmd? c.seq = some c := (hlinks.cmd? c.seq).trans ((cmd?_of_cmds hopened.cmds c.seq).trans h.1)
    have hclaim : ((w.complete c.seq 0).claim (c.arg 16 1)).unjournaled = (v.claim (c.arg 16 1)).unjournaled := by
      rw [State.complete, (finish_finished w c.seq true 0 0).claims, State.claim, hlinks.host]
      rfl
    have hrings : (w.complete c.seq 0).host.rings = v.host.rings := by
      rw [State.complete, (EndFrame.finish w c.seq true 0 0).rings, hlinks.host]
    have hkept := hopened.of_kept hclaim hrings
    obtain ⟨hstate, hquota, hbig, h0⟩ := hkept 0
    exact ⟨hstate, hquota, h0 (by decide), (hkept 14).2.2.2 (by decide), (hkept 15).2.2.2 (by decide), hbig, ended_complete hcmd 0⟩
  · rw [claimOpenDo_notClosed hhead hon hopen, seq_of_cmd? h.1]
    exact ⟨ended_fail h.1 _, (ResetKept.finish (.refl s)).states _⟩
  · rw [claimOpenDo_refused hnot, seq_of_cmd? h.1]
    exact ⟨ended_fail h.1 _, (ResetKept.finish (.refl s)).states _⟩
  · rw [claimResetDo_runs (by rw [hopen]; decide), seq_of_cmd? h.1, resetClaim_opened hopen]
    have hdrain := beginReset_draining s (c.arg 16 1)
    exact ⟨hdrain.state, runs_of_seqs hdrain.seqs h.1, hdrain.ending⟩
  · rw [claimResetDo_runs (by rw [hdrain]; decide), seq_of_cmd? h.1]
    exact ⟨resetClaim_state (by rw [hdrain]; decide), runs_of_seqs (resetClaim_kept s _).2 h.1⟩
  · rw [claimResetDo_closed hclosed, seq_of_cmd? h.1]
    exact ended_fail h.1 _
  · rw [claimCloseDo_runs hhead hopen, seq_of_cmd? h.1]
    exact ⟨resetClaim_state hopen, runs_of_seqs (resetClaim_kept s _).2 h.1⟩
  · rw [claimCloseDo_member hmember, seq_of_cmd? h.1]
    exact ended_fail h.1 _
  · rw [claimCloseDo_closed hhead hclosed, seq_of_cmd? h.1]
    exact ended_fail h.1 _
  · have hdone := resetDone_done s t
    rw [claimResetCompleteDo_done]
    generalize s.resetDone t = v at hdone ⊢
    rw [closeAfter_none (closesOf_none hdone.runs hnone)]
    refine ⟨hdone.state, fun k x hx => hdone.images _ (mem_of_look hx), fun d hd h1 h2 h3 h4 => ?_⟩
    obtain ⟨r, hr⟩ := hdone.ended d hd h1 h2 h3 h4
    exact hr.ended
  · obtain ⟨d, hd, honly⟩ := hsome
    have hdone := resetDone_done s t
    rw [claimResetCompleteDo_done]
    generalize s.resetDone t = v at hdone ⊢
    obtain ⟨hclosed, himages⟩ := closeAfter_closes (closesOf_some hdone.sole hd honly)
    refine ⟨hclosed.state, hclosed.pages, fun k x hx => hdone.images (k, x) (mem_of_look ?_), hclosed.rings⟩
    rwa [himages] at hx
  · rw [exec_flr hon, flrDo_one h0, flrClaim_closed hclosed]
  · rw [flrDo_one h0]
    exact flrClaim_opened hopen

end Sys2Proof.Machine

/-! PROOFS. Pins and bring-up, from POR_N to READY (R300, R386, R396, R405, R406). -/

namespace Sys2Proof.Machine

/-! ## Zeros with valid check bits -/

theorem rangeHas_rangeDel_inside (r : List (Nat × Nat)) {lo hi w : Nat} (hlo : lo ≤ w) (hhi : w < hi) : rangeHas (rangeDel r lo hi) w = false := by
  refine List.any_eq_false.2 fun p hp => ?_
  obtain ⟨hmem, -⟩ := List.mem_filter.1 hp
  obtain ⟨q, -, hq⟩ := List.mem_flatMap.1 hmem
  rw [Bool.and_eq_true, decide_eq_true_eq, decide_eq_true_eq]
  rcases List.mem_cons.1 hq with rfl | hq
  · dsimp only
    omega
  · rw [List.mem_singleton.1 hq]
    dsimp only
    omega

/-- A byte that reads 0 and whose word has been written. -/
def State.Zero (s : State) (a : Nat) : Prop := memGet s.mem a = 0 ∧ s.isUnwritten a = false

theorem zeroRange_zero {s : State} {a n b : Nat} (ha : a % 8 = 0) (hn : n % 8 = 0) (hlo : a ≤ b) (hhi : b < a + n) : (s.zeroRange a n).Zero b := by
  refine ⟨?_, ?_⟩
  · show memGet (memClear s.mem a n) b = 0
    rw [memGet_memClear, if_pos ⟨hlo, hhi⟩]
  · show rangeHas (rangeDel s.unwritten (a / 8) ((a + n) / 8)) (b / 8) = false
    exact rangeHas_rangeDel_inside _ (by omega) (by omega)

/-! ## POR_N and PERST_N -/

theorem exec_porNAssert {s : State} (h : s.power.porAsserted = false) : exec .porNAssert s = .next (porNAssertDo s) := whenDue_true (by rw [h]; rfl) _

theorem exec_porNDeassert {s : State} {m : Bool} (h : s.power.porAsserted = true) : exec (.porNDeassert m) s = .next (porNDeassertDo m s) :=
  whenDue_true h _

theorem exec_perstNAssert {s : State} (h : s.power.perstAsserted = false) : exec .perstNAssert s = .next (perstNAssertDo s) :=
  whenDue_true (by rw [h]; rfl) _

/-- The submission that PERST_N discards, with a new nonce. -/
def State.dropSubmission (s : State) : State := if s.dbg.busy then (s.modDebug (fun d => { d with busy := false })).newNonce else s

theorem dropSubmission_kept (s : State) : s.dropSubmission.host = s.host ∧ s.dropSubmission.mem = s.mem ∧ s.dropSubmission.power = s.power := by
  unfold State.dropSubmission
  split <;> exact ⟨rfl, rfl, rfl⟩

/-- The link goes down. -/
def State.perstDown (s : State) : State := s.dropSubmission.modPower (fun p => { p with perstAsserted := true, linkUp := false })

theorem perstNAssertDo_idle {s : State} (h : s.host.ready = false) : perstNAssertDo s = s.perstDown := by
  have hready : s.perstDown.host.ready = false := (congrArg HostIf.ready (dropSubmission_kept s).1).trans h
  unfold perstNAssertDo
  exact if_neg (Bool.eq_false_iff.1 hready)

theorem perstNAssertDo_ready {s : State} (h : s.host.ready = true) : perstNAssertDo s = flrDo 0 s.perstDown := by
  have hready : s.perstDown.host.ready = true := (congrArg HostIf.ready (dropSubmission_kept s).1).trans h
  unfold perstNAssertDo
  exact if_pos hready

/-! ## Start-up tests -/

/-- Nothing of faults, host and power is changed but the rows. -/
structure Repowered (s u : State) : Prop where
  faults : u.faults = s.faults
  host : u.host = s.host
  power : ∃ rows, u.power = { s.power with rows := rows }

theorem repower_repowered (s : State) : Repowered s s.repower := by
  have hstep (u : State) (r : Nat) (f : Row → Row) (hu : Repowered s u) : Repowered s ((u.zeroRow r).modRow r f) := by
    obtain ⟨hfaults, hhost, rows, hpower⟩ := hu
    refine ⟨hfaults, hhost, (u.zeroRow r).power.rows.set r (f ((u.zeroRow r).power.rows.getD r {})), ?_⟩
    exact congrArg (fun p : Power => { p with rows := (u.zeroRow r).power.rows.set r (f ((u.zeroRow r).power.rows.getD r {})) }) hpower
  unfold State.repower upTo
  refine foldl_keeps (Repowered s) _ (fun u r hu => ?_) _ _ ⟨rfl, rfl, s.power.rows, rfl⟩
  split
  · exact hstep u r _ hu
  · split
    · exact hstep u r _ hu
    · exact hu

theorem exec_checkerSelfTestComplete {fs : List FaultReport} {s : State} (hfs : fs.all faultNames = true)
    (h : (s.power.sramFilled && !s.power.checkersDone) = true ∨ s.selfTest?.isSome = true) :
    exec (.checkerSelfTestComplete fs) s = .next (checkerSelfTestCompleteDo fs s) := by
  show (if _ then _ else _) = _
  rw [if_pos hfs]
  exact whenDue_true (by rw [Bool.or_eq_true]; exact h) _

theorem checkerSelfTestCompleteDo_startup {fs : List FaultReport} {s : State} (h : s.power.checkersDone = false) :
    checkerSelfTestCompleteDo fs s = ((s.bringUp (fun p => { p with checkersDone := true })).startFailures fs).repower := by
  unfold checkerSelfTestCompleteDo
  rw [h]
  rfl

theorem checkerSelfTestCompleteDo_command {fs : List FaultReport} {s : State} {c : Cmd} (h : s.power.checkersDone = true) (hc : s.selfTest? = some c) :
    checkerSelfTestCompleteDo fs s = s.endSelfTest c fs := by
  unfold checkerSelfTestCompleteDo
  rw [if_pos h, hc]

/-- Without a failure, the faults stay but that the tests may be done. -/
theorem startFailures_nil (s : State) : s.startFailures [] = { s with faults := { s.faults with selfTestDone := (s.startFailures []).faults.selfTestDone } } := by
  have hfound : s.faults.found ++ [] = s.faults.found := List.append_nil _
  show (({ s with faults := { s.faults with found := s.faults.found ++ [] } } : State).noteFailures []).testsDone = _
  rw [hfound]
  rfl

/-- The memories that the marches of a self test leave zero. -/
def State.marched (s : State) (scope : Nat) : State :=
  if bitAt scope 2 then (if bitAt scope 1 then s.zeroTiles else s).zeroRange 0 0xB80000000 else if bitAt scope 1 then s.zeroTiles else s

theorem marched_host (s : State) (scope : Nat) : (s.marched scope).host = s.host := by
  unfold State.marched
  split <;> split <;> rfl

theorem endSelfTest_nil (s : State) (c : Cmd) : s.endSelfTest c [] = (s.marched (c.arg 16 1)).repower.complete c.seq 0 := by
  unfold State.endSelfTest State.marched
  rfl

theorem exec_tileSramFillComplete {s : State} (hpll : s.power.pllLocked = true) (hnot : s.power.sramFilled = false) :
    exec .tileSramFillComplete s = .next (tileSramFillCompleteDo s) := whenDue_true (by rw [hpll, hnot]; rfl) _

theorem tileSramFillCompleteDo_memory (s : State) :
    (tileSramFillCompleteDo s).mem = s.zeroTiles.mem ∧ (tileSramFillCompleteDo s).unwritten = s.zeroTiles.unwritten := ⟨rfl, rfl⟩

/-- All tile SRAM reads zero after the fill. -/
theorem zeroTiles_zero (s : State) {t o : Nat} (ht : t < 768) (ho : o < 0x100000) : (tileSramFillCompleteDo s).Zero (tileAddr t o) := by
  have hzero : s.zeroTiles.Zero (tileAddr t o) := by
    refine zeroRange_zero (by decide) (by decide) ?_ ?_
    · unfold tileAddr
      omega
    · unfold tileAddr
      omega
  unfold State.Zero State.isUnwritten at *
  rw [(tileSramFillCompleteDo_memory s).1, (tileSramFillCompleteDo_memory s).2]
  exact hzero

theorem exec_sumpFillComplete {s : State} (ht : s.power.sumpTested = true) (hnot : s.power.sumpFilled = false) :
    exec .sumpFillComplete s = .next (sumpFillCompleteDo s) := whenDue_true (by rw [ht, hnot]; rfl) _

theorem sumpFillCompleteDo_memory (s : State) :
    (sumpFillCompleteDo s).mem = (s.zeroRange 0 sumpTop).mem ∧ (sumpFillCompleteDo s).unwritten = (s.zeroRange 0 sumpTop).unwritten := ⟨rfl, rfl⟩

/-- All of the sump reads zero after the fill. -/
theorem sumpFill_zero (s : State) {a : Nat} (ha : a < sumpTop) : (sumpFillCompleteDo s).Zero a := by
  have hzero : (s.zeroRange 0 sumpTop).Zero a := zeroRange_zero rfl (by decide) (Nat.zero_le a) (by rw [Nat.zero_add]; exact ha)
  unfold State.Zero State.isUnwritten at *
  rw [(sumpFillCompleteDo_memory s).1, (sumpFillCompleteDo_memory s).2]
  exact hzero

theorem exec_sumpAddressTestComplete {fs : List FaultReport} {s : State} (hfs : fs.all faultNames = true) (ht : s.power.hbmTrained = true)
    (hnot : s.power.sumpTested = false) :
    exec (.sumpAddressTestComplete fs) s = .next ((s.bringUp (fun p => { p with sumpTested := true })).startFailures fs) := by
  show (if _ then _ else _) = _
  rw [if_pos hfs]
  exact whenDue_true (by rw [ht, hnot]; rfl) _

/-! ## Firmware, fills and READY -/

theorem exec_firmwareVerified {e : Nat} {s : State} (he : e ≤ 4) (hpll : s.power.pllLocked = true) (hnot : s.power.firmwareOk = false)
    (hclean : s.power.error = 0) : exec (.firmwareVerified e) s = .next (firmwareVerifiedDo e s) := by
  show (if _ then _ else _) = _
  rw [if_pos he]
  exact whenDue_true (by rw [hpll, hnot, hclean]; rfl) _

theorem firmwareVerifiedDo_error {e : Nat} {s : State} (h : 1 ≤ e) : firmwareVerifiedDo e s = s.bringUp (fun p => { p with error := BitVec.ofNat 8 e }) := by
  unfold firmwareVerifiedDo
  exact if_neg (by omega)

/-- The ready headframe, before its start-up failures are raised. -/
def State.readied (s : State) : State := ((s.modHost (fun h => { h with ready := true })).bringUp id).openClaim 0 0 false 0

theorem readied_ready (s : State) : s.readied.host.ready = true ∧ s.readied.power.phase = 4 ∧ (s.readied.claim 0).state = .opened := by
  refine ⟨?_, ?_, (openClaim_opened _ 0 0 false 0).state⟩
  · unfold State.readied State.openClaim
    rfl
  · unfold State.readied State.openClaim
    rfl

/-- What the start-up failures that are raised leave. -/
theorem selfTestEvents_kept (s : State) (fs : List FaultReport) :
    (s.selfTestEvents fs).host.ready = s.host.ready ∧ (s.selfTestEvents fs).power = s.power
      ∧ ((s.selfTestEvents fs).claim 0).state = (s.claim 0).state := by
  unfold State.selfTestEvents
  refine foldl_keeps (fun u : State => u.host.ready = s.host.ready ∧ u.power = s.power ∧ (u.claim 0).state = (s.claim 0).state) _
    (fun u f hu => ?_) _ _ ⟨rfl, rfl, rfl⟩
  obtain ⟨hready, hpower, hstate⟩ := hu
  refine ⟨?_, (raise_power _ _ _).trans hpower, ((ResetKept.raise (.refl u)).states 0).trans hstate⟩
  exact (congrArg (·.2.2.2.2.2.2.2.2.2.2) (CvaFrame.raise u Ev.selfTestFailed _).rest).trans hready

theorem exec_headframeReady {s : State} (hnot : s.host.ready = false) (hc : s.power.checkersDone = true) (hf : s.power.firmwareOk = true)
    (hs : s.power.sumpFilled = true) (he : s.power.error = 0) (ht : s.power.thermtrip = false) :
    exec .headframeReady s = .next (headframeReadyDo s) := by
  refine whenDue_true ?_ _
  unfold headframeReadyOk
  rw [hnot, hc, hf, hs, he, ht]
  rfl

theorem headframeReadyDo_eq (s : State) :
    headframeReadyDo s = (s.readied.selfTestEvents s.readied.faults.found).modFaults (fun f => { f with found := [] }) := rfl

/-- The rows that a locked PLL powers for the tests. -/
def State.rowsPowered (s : State) : State :=
  upTo 24 (fun u r => u.modRow r (fun x => { x with powered := true, acc := Config.freeBits (Nat.pair s.free r) % 16 }))
    (s.bringUp (fun p => { p with pllLocked := true }))

theorem exec_pllLock {s : State} (hpor : s.power.porAsserted = false) (hnot : s.power.pllLocked = false) :
    exec .pllLock s = .next s.rowsPowered.draw := whenDue_true (by rw [hpor, hnot]; rfl) _

/-- Rows change and nothing else, whatever their number. -/
theorem upTo_modRow_only (f : Nat → Row → Row) (n : Nat) (s : State) : RowsOnly s (upTo n (fun s r => s.modRow r (f r)) s) := by
  unfold upTo
  exact foldl_keeps (RowsOnly s) _ (fun u r hu => hu.modRow r _) _ _ ⟨rfl, rfl⟩

/-- The rows of a locked PLL, where there are 24. -/
theorem rowsPowered_rows (s : State) : s.rowsPowered.power.pllLocked = true
    ∧ (∀ r ∈ s.rowsPowered.power.rows, s.power.rows.length = 24 → r.powered = true) ∧ s.rowsPowered.mem = s.mem := by
  have hstart : (s.bringUp (fun p => { p with pllLocked := true })).power.pllLocked = true
      ∧ (s.bringUp (fun p => { p with pllLocked := true })).power.rows = s.power.rows
      ∧ (s.bringUp (fun p => { p with pllLocked := true })).mem = s.mem := ⟨rfl, rfl, rfl⟩
  unfold State.rowsPowered
  generalize s.bringUp (fun p => { p with pllLocked := true }) = v at hstart ⊢
  obtain ⟨hlocked, hrows, hmem⟩ := hstart
  have honly := upTo_modRow_only (fun r x => { x with powered := true, acc := Config.freeBits (Nat.pair s.free r) % 16 }) 24 v
  have hmapped := upTo_modRow (fun r x => { x with powered := true, acc := Config.freeBits (Nat.pair s.free r) % 16 }) v 24
  generalize upTo 24 (fun (u : State) r => u.modRow r (fun x => { x with powered := true, acc := Config.freeBits (Nat.pair s.free r) % 16 })) v = u
    at honly hmapped ⊢
  refine ⟨?_, fun r hr hlen => ?_, (congrArg State.mem honly.kept).trans hmem⟩
  · rw [honly.kept]
    exact hlocked
  · have hlen' : v.power.rows.length = 24 := by rw [hrows, hlen]
    exact (hmapped (by rw [hlen'])).all hlen' (p := fun r => r.powered = true) (fun _ _ => rfl) r hr

/-- Settles O52: each pin and step by what it sets. -/
theorem bringUpReachesReady : Obligations.BringUpReachesReady := by
  refine fun s => ⟨fun hpor => ⟨_, exec_porNAssert hpor, rfl, rfl, rfl, rfl, rfl, rfl, rfl, rfl, rfl⟩,
    fun m hpor => ⟨_, exec_porNDeassert hpor, rfl, rfl, ?_, rfl, rfl⟩,
    fun hperst hready hbusy => ⟨_, exec_perstNAssert hperst, ?_⟩, fun hperst hready hbusy => ⟨_, exec_perstNAssert hperst, ?_⟩,
    fun hperst hready => ⟨_, exec_perstNAssert hperst, fun t ht hopen => ?_⟩, fun hperst => ⟨_, whenDue_true hperst _, rfl⟩,
    fun hpor hperst hlink hhead => ⟨_, whenDue_true (by rw [hpor, hperst, hlink, hhead]; rfl) _, rfl⟩,
    fun hpor hnot => ⟨_, exec_pllLock hpor hnot, ?_⟩,
    fun hpll hnot => ⟨_, exec_tileSramFillComplete hpll hnot, rfl, fun t o ht ho => ?_⟩,
    fun fs hfs hfill hnot => ⟨_, exec_checkerSelfTestComplete hfs (.inl (by rw [hfill, hnot]; rfl)), fun hnil => ?_⟩,
    fun hdone c hc => ⟨_, exec_checkerSelfTestComplete rfl (.inr (by rw [hc]; rfl)), ?_⟩,
    fun hpll hnot => ⟨_, whenDue_true (by rw [hpll, hnot]; rfl) _, rfl, rfl⟩,
    fun fs hfs htrained hnot => ⟨_, exec_sumpAddressTestComplete hfs htrained hnot, fun hnil => ?_⟩,
    fun hpll hnot hclean => ⟨⟨_, exec_firmwareVerified (by decide) hpll hnot hclean, rfl, rfl⟩,
      fun e he1 he4 => ⟨_, exec_firmwareVerified he4 hpll hnot hclean, ?_⟩⟩,
    fun htested hnot => ⟨_, exec_sumpFillComplete htested hnot, rfl, rfl, fun a ha => ?_⟩,
    fun hnot hc hf hsf he ht => ⟨_, exec_headframeReady hnot hc hf hsf he ht, ?_⟩⟩
  · show (List.map _ (List.range 8)).length = 8
    rw [List.length_map, List.length_range]
  · rw [perstNAssertDo_idle hready, State.perstDown, State.dropSubmission, hbusy]
    rfl
  · rw [perstNAssertDo_idle hready, State.perstDown, State.dropSubmission, if_pos hbusy]
    exact ⟨rfl, rfl, rfl, rfl⟩
  · rw [perstNAssertDo_ready hready]
    refine flrDo_drains s.perstDown ht ?_
    have hhost : s.perstDown.host = s.host := (dropSubmission_kept s).1
    rw [State.claim, hhost]
    exact hopen
  · have hrows := rowsPowered_rows s
    generalize s.rowsPowered = v at hrows ⊢
    obtain ⟨hlocked, hpowered, hmem⟩ := hrows
    exact ⟨hlocked, hpowered, hmem⟩
  · exact zeroTiles_zero s ht ho
  · subst hnil
    rw [checkerSelfTestCompleteDo_startup hnot]
    obtain ⟨hfaults, -, rows, hpower⟩ := repower_repowered ((s.bringUp (fun p => { p with checkersDone := true })).startFailures [])
    rw [hfaults, hpower, startFailures_nil]
    exact ⟨rfl, rfl, rfl⟩
  · rw [checkerSelfTestCompleteDo_command hdone hc, endSelfTest_nil]
    have hhost := (repower_repowered (s.marched (c.arg 16 1))).host.trans (marched_host s _)
    generalize (s.marched (c.arg 16 1)).repower = v at hhost ⊢
    obtain ⟨d, hd⟩ := cmd?_of_mem (s := v) (d := c) (by rw [hhost]; exact List.mem_of_find?_eq_some hc)
    exact ended_complete hd 0
  · subst hnil
    rw [startFailures_nil]
    exact ⟨rfl, rfl⟩
  · rw [firmwareVerifiedDo_error he1]
    exact ⟨(BitVec.toNat_ofNat e 8).trans (Nat.mod_eq_of_lt (by omega)), rfl⟩
  · exact sumpFill_zero s ha
  · obtain ⟨hready, hphase, hstate⟩ := readied_ready s
    obtain ⟨h1, h2, h3⟩ := selfTestEvents_kept s.readied s.readied.faults.found
    rw [headframeReadyDo_eq]
    exact ⟨h1.trans hready, (congrArg Power.phase h2).trans hphase, h3.trans hstate, rfl⟩

end Sys2Proof.Machine

/-! PROOFS. The stop of a tile in a slot replay: each thread that has issued is back at its checkpoint (R189, R373). -/

namespace Sys2Proof.Machine

/-! ## What the parts of a stop leave alone -/

/-- Every thread of u has the checkpoint that it has in s, every row the fc; no event of s is forgotten. -/
structure Stopping (s u : State) : Prop where
  checkpoints : ∀ t th, (u.thread t th).checkpoint = (s.thread t th).checkpoint
  events : s.faults.eventSeq ≤ u.faults.eventSeq
  rowFc : ∀ t, u.rowFc t = s.rowFc t

/-- What `Stopping` compares. -/
def State.stopFields (s : State) : Tab Tile × Nat × Power := (s.tiles, s.faults.eventSeq, s.power)

namespace Stopping

variable {s u : State}

theorem refl (s : State) : Stopping s s := ⟨fun _ _ => rfl, le_rfl, fun _ => rfl⟩

theorem trans {w : State} (h : Stopping s u) (h' : Stopping u w) : Stopping s w :=
  ⟨fun t th => (h'.checkpoints t th).trans (h.checkpoints t th), h.events.trans h'.events, fun t => (h'.rowFc t).trans (h.rowFc t)⟩

/-- An update that writes no tile, no power and no event. -/
theorem same {w : State} (hs : Stopping s u) (hw : w.stopFields = u.stopFields) : Stopping s w := by
  obtain ⟨htiles, hrest⟩ := Prod.mk.inj hw
  obtain ⟨hevents, hpower⟩ := Prod.mk.inj hrest
  refine hs.trans ⟨fun t th => ?_, hevents.ge, fun t => ?_⟩
  · rw [State.thread, State.tile, htiles]
    rfl
  · rw [State.rowFc, State.row, hpower]
    rfl

theorem ite {c : Prop} [Decidable c] {a b : State} (ha : Stopping s a) (hb : Stopping s b) : Stopping s (if c then a else b) := by
  split
  · exact ha
  · exact hb

theorem foldl {α : Type} {f : State → α → State} {l : List α} (hf : ∀ u x, Stopping s u → Stopping s (f u x)) (hs : Stopping s u) :
    Stopping s (l.foldl f u) :=
  foldl_keeps (Stopping s) f hf l u hs

theorem upTo {n : Nat} {f : State → Nat → State} (hf : ∀ u x, Stopping s u → Stopping s (f u x)) (hs : Stopping s u) :
    Stopping s (Machine.upTo n f u) :=
  foldl hf hs

theorem modTile (hs : Stopping s u) {t : Nat} {f : Tile → Tile} (hf : ∀ x, (f x).threads = x.threads := by exact fun _ => rfl) :
    Stopping s (u.modTile t f) :=
  hs.trans ⟨fun _ _ => by rw [thread_modTile _ _ _ _ _ hf], le_rfl, fun _ => rfl⟩

theorem modThread (hs : Stopping s u) {t th : Nat} {f : Thread → Thread}
    (hf : ∀ x, (f x).checkpoint = x.checkpoint := by exact fun _ => rfl) : Stopping s (u.modThread t th f) := by
  refine hs.trans ⟨fun x y => ?_, le_rfl, fun _ => rfl⟩
  by_cases hx : x = t
  · subst hx
    by_cases hy : y = th
    · subst hy
      rw [thread_modThread, hf]
    · rw [thread_modThread_other _ _ _ _ _ hy]
  · rw [State.thread, tile_modThread_other _ _ _ _ _ hx]
    rfl

theorem modRow (hs : Stopping s u) {r : Nat} {f : Row → Row} (hf : ∀ x, (f x).fc = x.fc := by exact fun _ => rfl) :
    Stopping s (u.modRow r f) :=
  hs.trans ⟨fun _ _ => rfl, le_rfl, fun t => rowFc_modRow _ _ t _ hf⟩

theorem modFaults (hs : Stopping s u) {f : Faults → Faults} (hf : ∀ x, (f x).eventSeq = x.eventSeq := by exact fun _ => rfl) :
    Stopping s (u.modFaults f) :=
  hs.trans ⟨fun _ _ => rfl, (hf u.faults).ge, fun _ => rfl⟩

theorem raise (hs : Stopping s u) {k : EvKind} {e : EvArgs} : Stopping s (u.raise k e) := by
  refine hs.trans ⟨fun _ _ => by rw [thread_raise], ?_, fun t => ?_⟩
  · rw [raise_faults]
    exact Nat.le_succ _
  · rw [State.rowFc, State.row, raise_power]
    rfl



theorem draw (hs : Stopping s u) : Stopping s u.draw := by
  unfold State.draw
  exact .same hs (by rfl)

theorem writeBytes (hs : Stopping s u) {a : Nat} {bs : List Byte} : Stopping s (u.writeBytes a bs) := by
  unfold State.writeBytes
  exact .ite hs (.same hs (by rfl))

theorem scramble (hs : Stopping s u) {a n : Nat} : Stopping s (u.scramble a n) := by
  unfold State.scramble
  exact .draw (.writeBytes hs)

theorem modRegs (hs : Stopping s u) {t th : Nat} {f : Regs → Regs} : Stopping s (u.modRegs t th f) := by
  unfold State.modRegs
  exact .modThread hs

theorem freeLine (hs : Stopping s u) {t th st line : Nat} : Stopping s (u.freeLine t th st line) := by
  unfold State.freeLine
  exact .modTile hs

theorem settleUnlocks (hs : Stopping s u) {t th : Nat} : Stopping s (u.settleUnlocks t th) := by
  unfold State.settleUnlocks
  exact .ite hs (.modThread (.foldl (fun _ _ hs => .freeLine hs) hs))

theorem wakeThread (hs : Stopping s u) {t th : Nat} : Stopping s (u.wakeThread t th) := by
  unfold State.wakeThread
  exact .modThread hs

theorem scratchSettled (hs : Stopping s u) {t th : Nat} : Stopping s (u.scratchSettled t th) := by
  unfold State.scratchSettled
  extract_lets s1
  have hs1 : Stopping s s1 := .settleUnlocks hs
  refine .ite hs1 ?_
  split
  · exact .wakeThread hs1
  · exact hs1

theorem modSkip (hs : Stopping s u) {k : Nat} {f : Skip → Skip} : Stopping s (u.modSkip k f) := by
  unfold State.modSkip
  exact .same hs (by rfl)

theorem sendEntry (hs : Stopping s u) {t p delay : Nat} {e : Entry} : Stopping s (u.sendEntry t p delay e) := by
  unfold State.sendEntry
  exact .foldl (fun _ _ hs => .modSkip hs) hs

theorem pushEntry (hs : Stopping s u) {t p delay seq after : Nat} {e : Entry} : Stopping s (u.pushEntry t p delay seq after e) := by
  unfold State.pushEntry
  exact .sendEntry (.ite (.draw hs) hs)

theorem oqSend (hs : Stopping s u) {t : Nat} {m : MacOp} {base : Nat} : Stopping s (u.oqSend t m base) := by
  unfold State.oqSend
  exact .upTo (fun _ _ hs => .pushEntry hs) hs

theorem markMiss (hs : Stopping s u) {t : Nat} : Stopping s (u.markMiss t) := by
  unfold State.markMiss
  exact .foldl (fun _ _ hs => .foldl (fun _ _ hs => .ite (.foldl (fun _ _ hs => .modSkip hs) hs) hs) (.modTile hs)) hs

theorem modDebug (hs : Stopping s u) {f : Debug → Debug} : Stopping s (u.modDebug f) := by
  unfold State.modDebug
  exact .same hs (by rfl)

theorem count (hs : Stopping s u) {k i c n : Nat} : Stopping s (u.count k i c n) := by
  unfold State.count
  exact .ite hs (.modDebug hs)

theorem hit (hs : Stopping s u) {o b : Nat} : Stopping s (u.hit o b) := by
  unfold State.hit
  exact .same hs (by rfl)

theorem modHost (hs : Stopping s u) {f : HostIf → HostIf} : Stopping s (u.modHost f) := by
  unfold State.modHost
  exact .same hs (by rfl)

theorem modClaim (hs : Stopping s u) {c : Nat} {f : Claim → Claim} : Stopping s (u.modClaim c f) := by
  unfold State.modClaim
  exact .modHost hs

theorem uninitRead (hs : Stopping s u) {claim addr n : Nat} : Stopping s (u.uninitRead claim addr n) := by
  unfold State.uninitRead
  refine .ite hs ?_
  extract_lets x first total s1 due
  have hs1 : Stopping s s1 := .count hs
  exact .ite (.hit (.modClaim (.raise hs1))) (.hit (.modClaim hs1))

theorem noteTileRead (hs : Stopping s u) {t o n : Nat} : Stopping s (u.noteTileRead t o n) := by
  -- The kernel would evaluate the match's list on the applied function, so it is unfolded before it is applied.
  have unfolded (f) (hf : f = @State.noteTileRead) : Stopping s (f u t o n) := by
    delta State.noteTileRead at hf
    subst hf
    beta_reduce
    generalize u.unwrittenWords (tileAddr t o) n = ws
    cases ws with
    | nil => exact hs
    | cons => exact .ite (.markMiss hs) (.uninitRead hs)
  exact unfolded _ rfl

theorem moveSend (hs : Stopping s u) {t : Nat} {m : BlockMove} {base : Nat} : Stopping s (u.moveSend t m base) := by
  unfold State.moveSend
  exact .upTo (fun _ _ hs => .pushEntry (.noteTileRead hs)) hs

theorem startUnits (hs : Stopping s u) {t base : Nat} : Stopping s (u.startUnits t base) := by
  unfold State.startUnits
  exact .foldl (fun _ _ hs => .ite (.moveSend hs) hs) (.foldl (fun _ _ hs => .ite (.oqSend hs) hs) (.modTile hs))

theorem leaveTokens (hs : Stopping s u) {t : Nat} {old : Option MacOp} : Stopping s (u.leaveTokens t old) := by
  unfold State.leaveTokens
  exact .ite hs (.modRow hs)

theorem stopUnits (hs : Stopping s u) {t : Nat} {sel : Nat → Bool} : Stopping s (u.stopUnits t sel) := by
  unfold State.stopUnits
  extract_lets x macs moves fns loads off s1 s2 s3 s4 s5 s6
  have hs6 : Stopping s s6 := by
    unfold s6
    refine .upTo (fun _ _ hs => .ite (.scratchSettled (.modThread hs)) hs) (.foldl (fun _ _ hs => .ite (.draw (.modRegs hs)) (.draw (.modRegs hs))) (.foldl (fun _ _ hs => .foldl (fun _ _ hs => .scramble hs) hs) (.foldl (fun _ _ hs => .scramble hs) (.foldl (fun _ _ hs => ?_) (.modTile hs)))))
    extract_lets k s1 s2
    have hs1 : Stopping s s1 := .foldl (fun _ _ hs => .scramble hs) hs
    have hs2 : Stopping s s2 := by
      unfold s2
      split
      · exact .scramble hs1
      · exact hs1
    split
    · exact .foldl (fun _ _ hs => .draw (.modTile hs)) hs2
    · exact hs2
  exact .startUnits (.leaveTokens hs6)

theorem modPort (hs : Stopping s u) {t p : Nat} {f : Port → Port} : Stopping s (u.modPort t p f) := by
  unfold State.modPort
  refine .modTile hs (hf := fun x => ?_)
  split
  · rfl
  · rfl

theorem discardPort (hs : Stopping s u) {t p keep : Nat} : Stopping s (u.discardPort t p keep) := by
  unfold State.discardPort
  exact .modPort (.foldl (fun _ _ hs => .ite (.modSkip hs) (.modSkip hs)) hs)

theorem rewindPort (hs : Stopping s u) {t p keep : Nat} {port : Port} : Stopping s (u.rewindPort t p keep port) := by
  unfold State.rewindPort
  exact .ite (.discardPort hs) (.modSkip hs)

theorem freeLock (hs : Stopping s u) {t th : Nat} : Stopping s (u.freeLock t th) := by
  unfold State.freeLock
  split
  · exact .modThread (.freeLine hs)
  · exact hs

theorem breakLock (hs : Stopping s u) {t th : Nat} : Stopping s (u.breakLock t th) := by
  unfold State.breakLock
  split
  · extract_lets s0 s1
    have hs1 : Stopping s s1 := .hit (.modTile (.scramble (.freeLock hs)))
    exact .raise hs1
  · exact hs

theorem dropRequests (hs : Stopping s u) {t th : Nat} : Stopping s (u.dropRequests t th) := by
  unfold State.dropRequests
  split
  · exact .modTile hs
  · exact hs

theorem restoreThread (hs : Stopping s u) {t th fc : Nat} : Stopping s (u.restoreThread t th fc) := by
  unfold State.restoreThread
  exact .modThread (.modTile (.dropRequests (.breakLock hs)))

end Stopping

/-! ## Threads that are restored -/

theorem thread_scramble (s : State) (a n x y : Nat) : (s.scramble a n).thread x y = s.thread x y := by
  unfold State.scramble State.writeBytes
  split
  · rfl
  · rfl

/-- Breaking a lock changes at most the lock that a thread holds. -/
theorem thread_breakLock (s : State) (t th x y : Nat) :
    ∃ l, (s.breakLock t th).thread x y = { s.thread x y with lock := l } := by
  have hfree : ∃ l, (s.freeLock t th).thread x y = { s.thread x y with lock := l } := by
    by_cases hx : x = t
    · subst hx
      by_cases hy : y = th
      · subst hy
        exact ⟨none, (freeLock_fields s x y).1⟩
      · refine ⟨_, show _ = s.thread x y from ?_⟩
        unfold State.freeLock
        split
        · rw [thread_modThread_other _ _ _ _ _ hy, freeLine_eq, thread_modTile _ _ _ _ _ (fun _ => by rfl)]
        · rfl
    · refine ⟨_, show _ = s.thread x y from ?_⟩
      unfold State.freeLock
      split
      · rw [State.thread, tile_modThread_other _ _ _ _ _ hx]
        exact thread_modTile s _ x y _ (fun _ => by rfl)
      · rfl
  obtain ⟨l, hl⟩ := hfree
  unfold State.breakLock
  split
  · refine ⟨l, ?_⟩
    rw [thread_raise, thread_hit, thread_modTile _ _ _ _ _ (fun _ => by rfl), thread_scramble, hl]
  · exact ⟨_, rfl⟩

/-- Withdrawing a lock request changes no thread. -/
theorem thread_dropRequests (s : State) (t th x y : Nat) : (s.dropRequests t th).thread x y = s.thread x y := by
  unfold State.dropRequests
  split
  · exact thread_modTile _ _ _ _ _ (fun _ => by rfl)
  · rfl

/-- Thread th of tile t waits for nothing and has its registers as at its checkpoint. -/
def State.AtCheckpoint (s : State) (t th : Nat) : Prop :=
  (s.thread t th).regs = (s.thread t th).checkpoint ∧ (s.thread t th).wait = .none

theorem State.AtCheckpoint.of_lock {s u : State} {t th : Nat} (h : s.AtCheckpoint t th) {l : Option (Nat × Nat)}
    (hu : u.thread t th = { s.thread t th with lock := l }) : u.AtCheckpoint t th := by
  unfold State.AtCheckpoint
  rw [hu]
  exact h

theorem State.AtCheckpoint.of_thread {s u : State} {t th : Nat} (h : s.AtCheckpoint t th) (hu : u.thread t th = s.thread t th) :
    u.AtCheckpoint t th := by
  unfold State.AtCheckpoint
  rw [hu]
  exact h

theorem restoreThread_same (s : State) (t th fc : Nat) : (s.restoreThread t th fc).AtCheckpoint t th := by
  unfold State.restoreThread State.AtCheckpoint
  rw [thread_modThread]
  exact ⟨rfl, rfl⟩

theorem restoreThread_other {s : State} {t th y : Nat} (h : s.AtCheckpoint t y) (hy : y ≠ th) (fc : Nat) :
    (s.restoreThread t th fc).AtCheckpoint t y := by
  obtain ⟨l, hl⟩ := thread_breakLock s t th t y
  refine h.of_lock (l := l) ?_
  unfold State.restoreThread
  rw [thread_modThread_other _ _ _ _ _ hy, thread_modTile _ _ _ _ _ (fun _ => by rfl), thread_dropRequests, hl]

/-- Every thread of a list is restored by restoring them one after another. -/
theorem foldl_restoreThread {t th : Nat} {fc : State → Nat} : ∀ {l : List Nat} {s : State}, th ∈ l ∨ s.AtCheckpoint t th →
    (l.foldl (fun s th => s.restoreThread t th (fc s)) s).AtCheckpoint t th
  | [], _, h => h.resolve_left (List.not_mem_nil)
  | x :: l, s, h => by
    rw [List.foldl_cons]
    refine foldl_restoreThread ?_
    by_cases hx : th = x
    · subst hx
      exact .inr (restoreThread_same s t th _)
    · exact h.imp (fun hmem => (List.mem_cons.1 hmem).resolve_left hx) (fun hat => restoreThread_other hat hx _)

/-- What steps 1 and 2 of R373 do to a tile: its restored threads are at their checkpoints. -/
theorem stopTile_stops (s : State) (t : Nat) :
    Stopping s (s.stopTile t) ∧ ∀ th, th < 4 → (s.thread t th).replayed = true → (s.stopTile t).AtCheckpoint t th := by
  unfold State.stopTile
  extract_lets x ths s1 s2 s3 s4
  have hs2 : Stopping s s2 := .foldl (fun _ _ hs => .ite (.rewindPort hs) hs) (.stopUnits (.refl s))
  have hs3 : Stopping s s3 := .foldl (fun _ _ hs => .restoreThread hs) hs2
  have hs4 : Stopping s s4 := .ite (.modTile hs3) hs3
  refine ⟨.modTile hs4, fun th hth hreplayed => ?_⟩
  have hmem : th ∈ ths := List.mem_filter.2 ⟨List.mem_range.2 hth, hreplayed⟩
  have hat : s3.AtCheckpoint t th := foldl_restoreThread (fc := fun s => s.rowFc t + 16) (.inl hmem)
  clear_value s3
  have hat4 : s4.AtCheckpoint t th := by
    unfold s4
    split
    · exact hat.of_thread (thread_mustMiss s3 t t th)
    · exact hat
  clear_value s4
  exact hat4.of_thread (thread_modTile _ _ _ _ _ (fun _ => by rfl))

end Sys2Proof.Machine

/-! PROOFS. Faults and their answers: reports, replays, retirements and spares (R368 to R379). -/

namespace Sys2Proof.Machine

/-! ## What a report of a fault leaves alone -/

/-- Of u only the fault log, its events and what they show differ from s. -/
structure Noted (s u : State) : Prop where
  tiles : u.tiles = s.tiles
  skips : u.skips = s.skips
  images : u.images = s.images
  power : u.power = s.power
  ticks : u.ticks = s.ticks
  now : u.now = s.now
  adit : u.adit = s.adit
  states : ∀ x, (u.claim x).state = (s.claim x).state
  events : s.faults.eventSeq ≤ u.faults.eventSeq

namespace Noted

variable {s u : State}

theorem refl (s : State) : Noted s s := ⟨rfl, rfl, rfl, rfl, rfl, rfl, rfl, fun _ => rfl, le_rfl⟩

theorem trans {w : State} (h : Noted s u) (h' : Noted u w) : Noted s w :=
  ⟨h'.tiles.trans h.tiles, h'.skips.trans h.skips, h'.images.trans h.images, h'.power.trans h.power, h'.ticks.trans h.ticks,
    h'.now.trans h.now, h'.adit.trans h.adit, fun x => (h'.states x).trans (h.states x), h.events.trans h'.events⟩

theorem modFaults (hs : Noted s u) {f : Faults → Faults} (hf : ∀ x, (f x).eventSeq = x.eventSeq := by exact fun _ => rfl) :
    Noted s (u.modFaults f) :=
  hs.trans ⟨rfl, rfl, rfl, rfl, rfl, rfl, rfl, fun _ => rfl, (hf u.faults).ge⟩

theorem raise (hs : Noted s u) {k : EvKind} {e : EvArgs} : Noted s (u.raise k e) := by
  refine hs.trans ⟨raise_tiles _ _ _, raise_skips _ _ _, raise_images _ _ _, raise_power _ _ _, raise_ticks _ _ _, raise_now _ _ _,
    raise_adit _ _ _, (ResetKept.raise (.refl u)).states, ?_⟩
  rw [raise_faults]
  exact Nat.le_succ _

theorem hit (hs : Noted s u) {o b : Nat} : Noted s (u.hit o b) :=
  hs.trans ⟨rfl, rfl, rfl, rfl, rfl, rfl, rfl, fun _ => rfl, le_rfl⟩

theorem count (hs : Noted s u) {k i c n : Nat} : Noted s (u.count k i c n) := by
  unfold State.count
  split
  · exact hs
  · exact hs.trans ⟨rfl, rfl, rfl, rfl, rfl, rfl, rfl, fun _ => rfl, le_rfl⟩

theorem track (hs : Noted s u) {key : Nat} {link : Bool} : Noted s (u.track key link).1 := by
  unfold State.track
  extract_lets f set
  have hset : ∀ ts, Noted s (set ts) := fun ts => hs.modFaults
  split
  · exact hset _
  · split
    · exact hset _
    · split
      · exact hset _
      · dsimp only
        exact .raise (.hit (.modFaults hs))

theorem decideRetire (hs : Noted s u) {r : FaultReport} : Noted s (u.decideRetire r) := by
  unfold State.decideRetire
  split
  · exact hs
  · exact hs.modFaults

theorem occur (hs : Noted s u) {r : FaultReport} : Noted s (u.occur r).1 := by
  unfold State.occur
  extract_lets key failed s1 s2
  have hs2 : Noted s s2 := .modFaults (.track hs)
  dsimp only
  split
  · exact .decideRetire hs2
  · exact hs2

theorem raiseFolded (hs : Noted s u) {loc : Nat} {k : EvKind} {e : EvArgs} : Noted s (u.raiseFolded loc k e) := by
  unfold State.raiseFolded
  extract_lets key
  split
  · split
    · exact .modFaults hs
    · exact .modFaults (.raise hs)
  · exact .modFaults (.raise hs)

theorem corrected (hs : Noted s u) {r : FaultReport} {t : Nat} {k : EvKind} {e : EvArgs} : Noted s (u.corrected r t k e) := by
  unfold State.corrected State.retryNext
  exact .modFaults (.raiseFolded (.count hs))

theorem tile (h : Noted s u) (t : Nat) : u.tile t = s.tile t := by rw [State.tile, h.tiles]; rfl

theorem thread (h : Noted s u) (t th : Nat) : u.thread t th = s.thread t th := by rw [State.thread, h.tile]; rfl

theorem rowFc (h : Noted s u) (t : Nat) : u.rowFc t = s.rowFc t := by rw [State.rowFc, State.row, h.power]; rfl

theorem tickNow (h : Noted s u) (t : Nat) : u.tickNow t = s.tickNow t := by
  simp only [State.tickNow, State.tilePipe, State.tileRealtime, State.image, State.dom, h.tile, h.images, h.ticks, h.now]

end Noted

/-! ## Reports -/

theorem exec_faultDetection {f : FaultReport} {s : State} (h : faultNames f = true) :
    exec (.faultDetection f) s = .next (faultDetectionDo f s) :=
  (whenValid_next _ _ _).2 ⟨h, rfl⟩

theorem faultDetectionDo_again {f : FaultReport} {s : State} (h : s.sameReport f = true) : faultDetectionDo f s = s := if_pos h

theorem faultDetectionDo_residue {t c : Nat} {s : State} (h : s.sameReport (.residue t c) = false) :
    faultDetectionDo (.residue t c) s = (s.occur (.residue t c)).1.respond (.residue t c) (s.occur (.residue t c)).2 :=
  if_neg (by rw [h]; decide)

theorem faultDetectionDo_sram {t o : Nat} {n : TileUnit} {double : Bool} {s : State} (h : s.sameReport (.sram t n o double) = false) :
    faultDetectionDo (.sram t n o double) s
      = (s.occur (.sram t n o double)).1.respond (.sram t n o double) (s.occur (.sram t n o double)).2 :=
  if_neg (by rw [h]; decide)

theorem faultDetectionDo_shaftSwitch {t : Nat} {s : State} (h : s.sameReport (.shaftSwitch t) = false) :
    faultDetectionDo (.shaftSwitch t) s = (s.occur (.shaftSwitch t)).1.loseTile t :=
  if_neg (by rw [h]; decide)

theorem loseTile_lost (s : State) (t : Nat) : ((s.loseTile t).tile t).lost = true ∧ ∀ x, x ≠ t → (s.loseTile t).tile x = s.tile x := by
  unfold State.loseTile
  split
  next hlost => exact ⟨hlost, fun _ _ => rfl⟩
  next => exact ⟨by rw [tile_modTile], fun x hx => by rw [tile_modTile_other _ _ _ _ hx, tile_raise]⟩

/-! ## Slot replay -/

theorem groupOf_alone {s : State} {t : Nat} (h : (s.tile t).group = 0) : s.groupOf t = [t] := if_pos h

/-- A slot boundary of a tile changes the retirements alone. -/
theorem boundary_noted (s : State) (t : Nat) : Noted s (s.boundary t) := .modFaults (.refl s)

/-- Slot replay of a tile that is in no lockstep group. -/
theorem replay_alone {s : State} {t : Nat} (hon : (s.tile t).enabled = true) (htick : s.tickNow t = false)
    (hclaim : (s.claim (s.tile t).claim).state ≠ .draining) (hgroup : (s.tile t).group = 0) (key cause : Nat) :
    s.replay t key cause = ((s.stopTile t).modTile t (fun x => { x with
      restartAt := some (s.rowFc t + 16), retryOf := some key, replayFc := s.rowFc t, missCause := some cause })).boundary t := by
  unfold State.replay
  rw [hon, htick, beq_eq_false_iff_ne.2 hclaim, groupOf_alone hgroup]
  rfl

/-- The replay of a tile that is in no group: restored threads, a restart 16 fc later, and no event forgotten. -/
theorem replay_restores {s : State} {t : Nat} (hon : (s.tile t).enabled = true) (htick : s.tickNow t = false)
    (hclaim : (s.claim (s.tile t).claim).state ≠ .draining) (hgroup : (s.tile t).group = 0) (key cause : Nat) :
    ((s.replay t key cause).tile t).restartAt = some (s.rowFc t + 16) ∧ s.faults.eventSeq ≤ (s.replay t key cause).faults.eventSeq
      ∧ ∀ th, th < 4 → (s.thread t th).replayed = true →
        ((s.replay t key cause).thread t th).regs = (s.thread t th).checkpoint ∧ ((s.replay t key cause).thread t th).wait = .none := by
  obtain ⟨hstops, hrestored⟩ := stopTile_stops s t
  rw [replay_alone hon htick hclaim hgroup]
  generalize s.stopTile t = v at hstops hrestored
  refine ⟨?_, hstops.events, fun th hth hreplayed => ?_⟩
  · rw [(boundary_noted _ t).tile, tile_modTile]
  · obtain ⟨hregs, hwait⟩ := hrestored th hth hreplayed
    rw [(boundary_noted _ t).thread, thread_modTile _ _ _ _ _ (fun _ => by rfl), hregs, hwait, hstops.checkpoints]
    exact ⟨rfl, rfl⟩

theorem exec_replayRestart {t d : Nat} {s : State} (ht : t < 768) (hloading : (s.tile t).spareLoading = false)
    (hloaded : (s.tile t).spareLoaded = false) (hat : (s.tile t).restartAt = some d) (hd : d ≤ s.rowFc t) :
    exec (.replayRestart t) s = .next (replayRestartDo t s) := by
  refine (whenDue_next _ _ _).2 ⟨?_, rfl⟩
  simp [replayRestartOk, ht, hloading, hloaded, hat, hd]

/-- The restart of a tile that is in no group: it is no longer to restart, with one event. -/
theorem replayRestartDo_alone {s : State} {t : Nat} (hgroup : (s.tile t).group = 0) :
    (replayRestartDo t s).tile t = { s.tile t with restartAt := none }
      ∧ (replayRestartDo t s).faults.eventSeq = s.faults.eventSeq + 1 ∧ ∀ x, x ≠ t → (replayRestartDo t s).tile x = s.tile x := by
  have hstart : replayRestartDo t s = ((((s.modTile t (fun x => { x with restartAt := none })).boundary t).countTile t 13 1).raise
      Ev.slotReplayed { (((s.modTile t (fun x => { x with restartAt := none })).boundary t).tileEv t) with cause := none }) := by
    unfold replayRestartDo
    rw [groupOf_alone hgroup]
    rfl
  have htile : ∀ x, (replayRestartDo t s).tile x = (s.modTile t (fun x => { x with restartAt := none })).tile x := fun x => by
    rw [hstart, tile_raise, tile_countTile, (boundary_noted _ t).tile]
  refine ⟨by rw [htile, tile_modTile], ?_, fun x hx => by rw [htile, tile_modTile_other _ _ _ _ hx]⟩
  rw [hstart, raise_faults, countTile_faults]
  rfl

/-! ## Retirements and spares -/

theorem exec_retirementEffect {s : State} {r : Retire} (h : s.faults.retires.find? (fun r => r.effectDue s.now) = some r) :
    exec .retirementEffect s = .next ((s.retireUnit r.report).settleRetire (reportKey r.report)) := by
  refine (whenDue_next _ _ _).2 ⟨?_, ?_⟩
  · exact List.any_eq_true.2 ⟨r, List.mem_of_find?_eq_some h, List.find?_some (p := fun r : Retire => r.effectDue s.now) h⟩
  · rw [retirementEffectDo, h]

/-- A settled retirement stays only as a copy. -/
theorem settleRetire_copying (s : State) (key : Nat) :
    ∀ x ∈ (s.settleRetire key).faults.retires, reportKey x.report = key → x.copying = true := fun x hx hkey => by
  have hkept := (List.mem_filter.1 hx).2
  rw [hkey, bne_self_eq_false, Bool.or_false] at hkept
  exact hkept

/-- A first failed column is out of use. -/
theorem retireUnit_residue {s : State} {t : Nat} (h : (s.tile t).columnRetired = none) (c : Nat) :
    ((s.retireUnit (.residue t c)).tile t).columnRetired = some c := by
  unfold State.retireUnit
  simp only [h]
  rw [tile_raise, tile_modTile]

/-- A first failed sequencer copy is out of use. -/
theorem retireUnit_seqVote {s : State} {t : Nat} (h : (s.tile t).copiesMasked = []) (c : Nat) :
    ((s.retireUnit (.seqVote t c)).tile t).copiesMasked = [c] := by
  unfold State.retireUnit
  simp only [h, List.contains_nil, List.isEmpty_nil, Bool.not_true, Bool.false_eq_true, if_false]
  rw [tile_raise, tile_modTile]

theorem findAt_any {α : Type} {p : α → Bool} {l : List α} {i : Nat} {x : α} (h : findAt p l = some (i, x)) : l.any p = true := by
  by_contra hnone
  rw [findAt_none_of_all (by simpa using hnone)] at h
  exact absurd h (by simp)

theorem exec_retirementCopyComplete {s : State} {i : Nat} {r : Retire}
    (h : findAt (fun r => r.copyDue s.now) s.faults.retires = some (i, r)) :
    exec .retirementCopyComplete s = .next (s.modFaults (fun f => { f with retires := dropAt f.retires i })) :=
  (whenDue_next _ _ _).2 ⟨findAt_any h, by rw [retirementCopyCompleteDo, h]⟩

theorem exec_spareLoadComplete {t : Nat} {s : State} (ht : t < 768) (hloading : (s.tile t).spareLoading = true)
    (hrow : (s.row (t / 32)).powering = false) : exec (.spareLoadComplete t) s
      = .next (s.modTile t (fun x => { x with spareLoading := false, spareLoaded := true, restartAt := none })) := by
  refine (whenDue_next _ _ _).2 ⟨?_, rfl⟩
  simp [spareLoadCompleteOk, ht, hloading, hrow]

theorem exec_spareRestart {t : Nat} {s : State} (ht : t < 768) (hloaded : (s.tile t).spareLoaded = true)
    (hat : (s.tile t).restartAt ≠ none) : exec (.spareRestart t) s
      = .next ((s.modTile t (fun x => { x with spareLoaded := false, restartAt := none })).boundary t) := by
  refine (whenDue_next _ _ _).2 ⟨?_, rfl⟩
  simp [spareRestartOk, ht, hloaded, Option.isSome_iff_ne_none.2 hat]

/-- A UCIe packet that fails is noted, with at least one event. -/
theorem ucieError_noted (s : State) (l : Nat) :
    l ∈ (s.ucieError l).adit.ucieRetry ∧ s.faults.eventSeq < (s.ucieError l).faults.eventSeq ∧ (s.ucieError l).tiles = s.tiles := by
  unfold State.ucieError
  extract_lets r again s1 s2
  have hoccur : Noted s (s.occur r).1 := .occur (.refl s)
  have hevents : s.faults.eventSeq < s1.faults.eventSeq := by
    unfold s1
    rw [raise_faults]
    exact Nat.lt_succ_of_le hoccur.events
  have hs1 : s1.tiles = s.tiles := (raise_tiles _ _ _).trans hoccur.tiles
  have hs2 : l ∈ s2.adit.ucieRetry ∧ s.faults.eventSeq < s2.faults.eventSeq ∧ s2.tiles = s.tiles :=
    ⟨List.mem_cons_self, hevents, hs1⟩
  obtain ⟨hmem, hlt, htiles⟩ := hs2
  split
  · have hdecided : Noted s2 (s2.decideRetire r) := .decideRetire (.refl s2)
    exact ⟨by rwa [hdecided.adit], hlt.trans_le hdecided.events, hdecided.tiles.trans htiles⟩
  · exact ⟨hmem, hlt, htiles⟩

/-- Settles O54: a residue error replays its tile from the checkpoints, and each other row does what its branch says. -/
theorem faultsReplaysAndRetirements : Obligations.FaultsReplaysAndRetirements := by
  refine ⟨⟨fun t c s hname hnew hon hgroup htick hclaim => ?_, fun t o n s hname hnew => ?_, fun t s ht hnew => ?_,
    fun f s hname hsame => ?_, fun a s hon ha => ?_, fun l s hl => ⟨?_, ?_⟩⟩,
    fun t d s ht hloading hloaded hat hd hgroup => ?_, fun r s hfind => ?_, fun i r s hfind => ?_, fun t s ht hloading hrow => ?_,
    fun t s ht hloaded hat => ?_⟩
  · rw [exec_faultDetection hname, faultDetectionDo_residue hnew]
    have hoccur : Noted s (s.occur (.residue t c)).1 := .occur (.refl s)
    generalize s.occur (.residue t c) = o at hoccur
    have hraised : Noted s (o.1.raise Ev.residueError (o.1.faultEv t c o.2)) := hoccur.raise
    have hevents : s.faults.eventSeq < (o.1.raise Ev.residueError (o.1.faultEv t c o.2)).faults.eventSeq := by
      rw [raise_faults]
      exact Nat.lt_succ_of_le hoccur.events
    change Answers (.next ((o.1.raise Ev.residueError (o.1.faultEv t c o.2)).replay t _ _)) _
    generalize o.1.raise Ev.residueError (o.1.faultEv t c o.2) = v at hraised hevents ⊢
    obtain ⟨hrestart, hle, hthreads⟩ := replay_restores (s := v) (t := t) (by rw [hraised.tile, hon]) (by rw [hraised.tickNow, htick])
      (by rw [hraised.tile, hraised.states]; exact hclaim) (by rw [hraised.tile, hgroup]) (reportKey (.residue t c)) o.1.faults.eventSeq
    refine answers_next ⟨by rw [hrestart, hraised.rowFc], hevents.trans_le hle, fun th hth hreplayed => ?_⟩
    obtain ⟨hregs, hwait⟩ := hthreads th hth (by rw [hraised.thread, hreplayed])
    exact ⟨by rw [hregs, hraised.thread], hwait⟩
  · rw [exec_faultDetection hname, faultDetectionDo_sram hnew]
    have hoccur : Noted s (s.occur (.sram t n o false)).1 := .occur (.refl s)
    have hdone := hoccur.corrected (r := .sram t n o false) (t := t) (k := Ev.sramEccCorrected)
      (e := (s.occur (.sram t n o false)).1.faultEv t (o / 64) (s.occur (.sram t n o false)).2)
    exact answers_next ⟨hdone.tiles, hdone.skips, hdone.images⟩
  · rw [exec_faultDetection (f := .shaftSwitch t) (decide_eq_true ht), faultDetectionDo_shaftSwitch hnew]
    have hoccur : Noted s (s.occur (.shaftSwitch t)).1 := .occur (.refl s)
    obtain ⟨hlost, hothers⟩ := loseTile_lost (s.occur (.shaftSwitch t)).1 t
    exact answers_next ⟨hlost, fun x hx => by rw [hothers x hx, hoccur.tile]⟩
  · rw [exec_faultDetection hname, faultDetectionDo_again hsame]
  · refine (whenDue_next _ _ _).2 ⟨?_, rfl⟩
    rw [hon, Bool.true_and, Bool.or_eq_true, decide_eq_true_eq]
    exact ha
  · exact ⟨_, (whenValid_next _ _ _).2 ⟨decide_eq_true hl, rfl⟩, rfl, rfl⟩
  · exact ⟨_, (whenValid_next _ _ _).2 ⟨decide_eq_true hl, rfl⟩, ucieError_noted s l⟩
  · rw [exec_replayRestart ht hloading hloaded hat hd]
    obtain ⟨htile, hevents, hothers⟩ := replayRestartDo_alone hgroup
    exact answers_next ⟨by rw [htile], hevents, by rw [htile], hothers⟩
  · rw [exec_retirementEffect hfind]
    refine answers_next ⟨settleRetire_copying _ _, fun t c hr hnone => ?_, fun t c hr hnil => ?_⟩
    · rw [hr]
      exact retireUnit_residue hnone c
    · rw [hr]
      exact retireUnit_seqVote hnil c
  · rw [exec_retirementCopyComplete hfind]
    exact answers_next rfl
  · rw [exec_spareLoadComplete ht hloading hrow]
    exact answers_next ⟨tile_modTile _ _ _, rfl⟩
  · rw [exec_spareRestart ht hloaded hat]
    refine answers_next ⟨?_, rfl, rfl⟩
    rw [(boundary_noted _ t).tile, tile_modTile]

end Sys2Proof.Machine

/-! PROOFS. Halts, comparators, the debug unlock and JTAG access (R417 to R422). -/

namespace Sys2Proof.Machine

/-! ## What an event leaves of the debug block -/

/-- The debug block without its counters. -/
def State.dbgRest (s : State) : Debug := { s.dbg with counters := [] }

theorem count_dbgRest (s : State) (k i c n : Nat) : (s.count k i c n).dbgRest = s.dbgRest := by
  unfold State.count
  split
  · rfl
  · rfl

theorem deliver_dbgRest (s : State) (c : Nat) (r : Record) : (s.deliver c r).dbgRest = s.dbgRest := by
  have hplaced : (s.placeEntry c 15 r).dbg = s.dbg := by
    unfold State.placeEntry
    dsimp only
    split
    · rw [fireMsix_dbg, modRing_dbg, writeBytes_dbg]
    · rw [modRing_dbg, writeBytes_dbg]
  unfold State.deliver
  split
  · rfl
  · split
    · rw [State.dbgRest, hplaced]
      rfl
    · split
      · rfl
      · rw [count_dbgRest]
        rfl

/-- An event changes no more of the debug block than a counter. -/
theorem raise_dbgRest (s : State) (k : EvKind) (e : EvArgs) : (s.raise k e).dbgRest = s.dbgRest := by
  unfold State.raise
  show State.dbgRest (match k.audience with
    | .pf => s.deliver 0 (s.eventRecord k e false)
    | .claim => s.deliver e.claim (s.eventRecord k e false)
    | .both => if e.claim = 0 then s.deliver e.claim (s.eventRecord k e false)
      else (s.deliver e.claim (s.eventRecord k e false)).deliver 0 (s.eventRecord k e true)) = _
  split
  · exact deliver_dbgRest _ _ _
  · exact deliver_dbgRest _ _ _
  · split
    · exact deliver_dbgRest _ _ _
    · rw [deliver_dbgRest, deliver_dbgRest]

/-- A field of the debug block other than the counters, over an event. -/
theorem raise_debug {α : Type} (g : Debug → α) (s : State) (k : EvKind) (e : EvArgs)
    (hg : ∀ d, g { d with counters := [] } = g d := by exact fun _ => rfl) : g (s.raise k e).dbg = g s.dbg := by
  rw [← hg, ← hg s.dbg]
  exact congrArg g (raise_dbgRest s k e)

/-! ## Commands to the threads of a tile -/

/-- An operation on each selected thread of a tile, where thread th is selected: what holds before its turn gives what
the operation leaves, and that stays. -/
theorem upTo_selected {p q : State → Prop} {f : State → Nat → State} {ths th : Nat} {s : State} (hth : th < 4)
    (hsel : bitAt ths th = true) (hbefore : ∀ u y, y ≠ th → bitAt ths y = true → p u → p (f u y)) (hturn : ∀ u, p u → q (f u th))
    (hafter : ∀ u y, y ≠ th → bitAt ths y = true → q u → q (f u y)) (hs : p s) :
    q (upTo 4 (fun s y => if bitAt ths y then f s y else s) s) := by
  have hsplit : List.range 4 = List.range th ++ th :: (List.range (3 - th)).map (fun k => th + 1 + k) := by
    interval_cases th <;> rfl
  have hkeep (r : State → Prop) (hr : ∀ u y, y ≠ th → bitAt ths y = true → r u → r (f u y)) (l : List Nat) (hl : th ∉ l)
      (u : State) (hu : r u) : r (l.foldl (fun s y => if bitAt ths y then f s y else s) u) := by
    induction l generalizing u with
    | nil => exact hu
    | cons y l ih =>
      obtain ⟨hy, hl⟩ := not_or.1 (mt List.mem_cons.2 hl)
      rw [List.foldl_cons]
      refine ih hl _ ?_
      split
      next hbit => exact hr u y (Ne.symm hy) hbit hu
      next => exact hu
  unfold upTo
  rw [hsplit, List.foldl_append, List.foldl_cons, if_pos hsel]
  refine hkeep q hafter _ (by simp; omega) _ (hturn _ ?_)
  exact hkeep p hbefore _ (by simp) s hs

theorem eq_of_bitAt_two_pow {th y : Nat} (h : bitAt (2 ^ th) y = true) : y = th := by
  have hbit : (2 ^ th).testBit y = true := by
    rw [bitAt, Nat.shiftRight_eq_div_pow] at h
    rwa [Nat.testBit_eq_decide_div_mod_eq, decide_eq_true_eq, ← beq_iff_eq]
  rw [Nat.testBit_two_pow] at hbit
  exact (of_decide_eq_true hbit).symm

/-- A write of the halt register before its command acts. -/
def State.haltNamed (s : State) (v : Word) : State :=
  s.modDebug (fun d => { d with haltThreads := BitVec.ofNat 4 (bits v.toNat 19 16), haltTile := BitVec.ofNat 10 (bits v.toNat 9 0) })

variable {s : State} {v : Word}

theorem writeHaltCtrl_closed (ht : s.physical (bits v.toNat 9 0) < 768) (hcmd : 1 ≤ bits v.toNat 26 24 ∧ bits v.toNat 26 24 ≤ 4)
    (hopen : s.debugOpen = false) : s.writeHaltCtrl v = (s.haltNamed v).unlockRejected := by
  unfold State.writeHaltCtrl
  extract_lets id ths cmd s1 t act
  have hvalid : ¬(cmd = 0 ∨ 4 < cmd ∨ 768 ≤ t) := by
    have ht : t < 768 := ht
    omega
  rw [if_neg hvalid, if_pos (by rw [hopen]; rfl)]
  rfl

/-- The operation that a command asks for on a thread. -/
def State.haltCommand (cmd : Nat) : State → Nat → Nat → State :=
  if cmd = 1 then State.askHalt else if cmd = 2 then State.resumeThread else if cmd = 3 then State.stepThread else State.forceThread

theorem writeHaltCtrl_open (ht : s.physical (bits v.toNat 9 0) < 768) (hcmd : 1 ≤ bits v.toNat 26 24 ∧ bits v.toNat 26 24 ≤ 4)
    (hopen : s.debugOpen = true) : s.writeHaltCtrl v = upTo 4 (fun u th => if bitAt (bits v.toNat 19 16) th
      then State.haltCommand (bits v.toNat 26 24) u (s.physical (bits v.toNat 9 0)) th else u) (s.haltNamed v) := by
  unfold State.writeHaltCtrl State.haltCommand
  extract_lets id ths cmd s1 t act
  have hvalid : ¬(cmd = 0 ∨ 4 < cmd ∨ 768 ≤ t) := by
    have ht : t < 768 := ht
    omega
  rw [if_neg hvalid, if_neg (by rw [hopen]; decide)]
  split
  · rfl
  · split
    · rfl
    · split
      · rfl
      · rfl

theorem exec_haltRow (hready : s.host.ready = true) : ∀ p ∈ [((Instr.dbHalt, 1) : (Word → Instr) × Nat), (.dbResume, 2), (.dbStep, 3),
    (.dbForce, 4)], bits v.toNat 26 24 = p.2 → exec (p.1 v) s = .next (s.writeHaltCtrl v) := by
  have hrow (c : Nat) (hc : bits v.toNat 26 24 = c) :
      whenValid (bits v.toNat 26 24 == c) (s.bar0 (s.writeHaltCtrl v)) = .next (s.writeHaltCtrl v) :=
    (whenValid_next _ _ _).2 ⟨beq_iff_eq.2 hc, (if_pos hready).symm⟩
  simp only [List.forall_mem_cons]
  exact ⟨fun hc => hrow 1 hc, fun hc => hrow 2 hc, fun hc => hrow 3 hc, fun hc => hrow 4 hc, by simp⟩

/-! ### One thread -/

theorem thread_askHalt (s : State) (t th : Nat) (h : (s.thread t th).mode = .running) :
    (s.askHalt t th).thread t th = { s.thread t th with haltAsked := some (s.rowFc t + 4096) } := by
  unfold State.askHalt
  rw [thread_modThread, if_pos (by rw [h]; rfl)]

theorem resumeThread_halted (s : State) (t th : Nat) (h : (s.thread t th).mode = .debug) (hpassed : (s.thread t th).tickPassed = false) :
    s.resumeThread t th = s.modThread t th (fun y => { y with mode := .running, tickPassed := false, passBreak := true }) := by
  unfold State.resumeThread
  extract_lets x s1
  rw [if_pos (by rw [h]; rfl)]
  unfold s1
  rw [if_neg (by rw [hpassed]; simp)]

/-- A resumed thread runs, and no tick has passed it. -/
theorem resumeThread_runs (s : State) (t th : Nat) (h : (s.thread t th).mode = .debug) :
    ((s.resumeThread t th).thread t th).mode = .running ∧ ((s.resumeThread t th).thread t th).tickPassed = false := by
  unfold State.resumeThread
  extract_lets x s1
  rw [if_pos (by rw [h]; rfl), thread_modThread]
  exact ⟨rfl, rfl⟩

/-- Resuming another thread while no tick has passed a thread of the tile. -/
theorem thread_resumeThread_other (s : State) (t : Nat) {th y : Nat} (hy : th ≠ y) (hpassed : ∀ x, (s.thread t x).tickPassed = false) :
    (s.resumeThread t y).thread t th = s.thread t th ∧ ∀ x, ((s.resumeThread t y).thread t x).tickPassed = false := by
  have hmod (f : Thread → Thread) (hf : ∀ x, x.tickPassed = false → (f x).tickPassed = false) :
      (s.modThread t y f).thread t th = s.thread t th ∧ ∀ x, ((s.modThread t y f).thread t x).tickPassed = false := by
    refine ⟨thread_modThread_other _ _ _ _ _ hy, fun x => ?_⟩
    by_cases hx : x = y
    · subst hx
      rw [thread_modThread]
      exact hf _ (hpassed x)
    · rw [thread_modThread_other _ _ _ _ _ hx]
      exact hpassed x
  by_cases hmode : (s.thread t y).mode = .debug
  · rw [resumeThread_halted s t y hmode (hpassed y)]
    exact hmod _ (fun _ _ => rfl)
  · unfold State.resumeThread
    extract_lets x s1
    rw [if_neg (by simpa using hmode)]
    exact hmod _ (fun _ h => h)

theorem thread_stepThread (s : State) (t th : Nat) (h : (s.thread t th).mode = .debug) :
    (s.stepThread t th).thread t th = { s.thread t th with mode := .running, stepping := true, passBreak := true } := by
  unfold State.stepThread
  rw [thread_modThread, if_pos (by rw [h]; rfl)]

/-- A halt that takes effect: the thread, the others, and one event. -/
theorem haltNow_halts (s : State) (t th : Nat) (broken : Bool) :
    (s.haltNow t th broken).thread t th = { s.thread t th with mode := .debug, haltAsked := none, stepping := false }
      ∧ (s.haltNow t th broken).faults.eventSeq = s.faults.eventSeq + 1 ∧ (∀ x, x ≠ t → (s.haltNow t th broken).tile x = s.tile x)
      ∧ (∀ y, y ≠ th → (s.haltNow t th broken).thread t y = s.thread t y) ∧ (s.haltNow t th broken).dbg.forced = s.dbg.forced := by
  unfold State.haltNow
  refine ⟨by rw [thread_raise, thread_modThread], by rw [raise_faults]; rfl, fun x hx => ?_, fun y hy => ?_, raise_debug Debug.forced _ _ _⟩
  · rw [tile_raise, tile_modThread_other _ _ _ _ _ hx]
  · rw [thread_raise, thread_modThread_other _ _ _ _ _ hy]

theorem scramble_faults (s : State) (a n : Nat) : (s.scramble a n).faults = s.faults := by
  unfold State.scramble
  exact writeBytes_faults _ _ _

/-- A broken lock is no longer the thread's, with one event. -/
theorem breakLock_breaks {s : State} {t th : Nat} (h : (s.thread t th).lock ≠ none) :
    (s.breakLock t th).thread t th = { s.thread t th with lock := none }
      ∧ (s.breakLock t th).faults.eventSeq = s.faults.eventSeq + 1 := by
  obtain ⟨hthread, -, hfaults⟩ := freeLock_fields s t th
  unfold State.breakLock
  split
  next st line hlock =>
    refine ⟨?_, ?_⟩
    · rw [thread_raise, thread_hit, thread_modTile _ _ _ _ _ (fun _ => by rfl), thread_scramble, hthread]
    · rw [raise_faults, hit_faults, modTile_faults, scramble_faults, hfaults]
  next hlock => exact absurd hlock h

/-- A forced halt of a thread that holds a lock. -/
theorem haltForced_locked {s : State} {t th : Nat} (h : (s.thread t th).lock ≠ none) :
    (s.haltForced t th).thread t th = { s.thread t th with lock := none, mode := .debug, haltAsked := none, stepping := false }
      ∧ (s.haltForced t th).faults.eventSeq = s.faults.eventSeq + 2 ∧ (s.haltForced t th).dbg.forced = true := by
  obtain ⟨hthread, hevents⟩ := breakLock_breaks h
  unfold State.haltForced
  rw [if_pos (Option.isSome_iff_ne_none.2 h)]
  obtain ⟨hhalted, hhaltEvents, -, -, hforced⟩ := haltNow_halts (((s.breakLock t th).modDebug (fun d => { d with forced := true })).hit haltStatus 0)
    t th true
  refine ⟨?_, ?_, by rw [hforced]; rfl⟩
  · rw [hhalted, thread_hit]
    exact congrArg (fun x : Thread => { x with mode := .debug, haltAsked := none, stepping := false }) hthread
  · rw [hhaltEvents]
    exact congrArg (· + 1) hevents

/-- A forced halt of a thread of the tile leaves another thread but for its lock. -/
theorem haltForced_other (s : State) (t : Nat) {y th : Nat} (hy : th ≠ y) :
    ∃ l, (s.haltForced t y).thread t th = { s.thread t th with lock := l } := by
  unfold State.haltForced
  split
  · obtain ⟨l, hl⟩ := thread_breakLock s t y t th
    refine ⟨l, ?_⟩
    obtain ⟨-, -, -, hothers, -⟩ := haltNow_halts (((s.breakLock t y).modDebug (fun d => { d with forced := true })).hit haltStatus 0) t y true
    rw [hothers th hy, thread_hit]
    exact hl
  · obtain ⟨-, -, -, hothers, -⟩ := haltNow_halts s t y false
    exact ⟨_, hothers th hy⟩

/-- A forced halt leaves the thread halted with its registers, and at least one event. -/
theorem haltForced_halts (s : State) (t th : Nat) : ((s.haltForced t th).thread t th).mode = .debug
    ∧ ((s.haltForced t th).thread t th).regs = (s.thread t th).regs ∧ s.faults.eventSeq < (s.haltForced t th).faults.eventSeq := by
  by_cases hlock : (s.thread t th).lock = none
  · unfold State.haltForced
    rw [if_neg (by simp [hlock])]
    obtain ⟨hthread, hevents, -⟩ := haltNow_halts s t th false
    exact ⟨by rw [hthread], by rw [hthread], by omega⟩
  · obtain ⟨hthread, hevents, -⟩ := haltForced_locked hlock
    exact ⟨by rw [hthread], by rw [hthread], by omega⟩

theorem forceThread_running {s : State} {t th : Nat} (h : (s.thread t th).mode = .running) : s.forceThread t th = s.haltForced t th :=
  if_pos (by rw [h]; rfl)

/-- Forcing another thread: this one but for its lock, and no event is forgotten. -/
theorem forceThread_other (s : State) (t : Nat) {y th : Nat} (hy : th ≠ y) :
    (∃ l, (s.forceThread t y).thread t th = { s.thread t th with lock := l }) ∧ s.faults.eventSeq ≤ (s.forceThread t y).faults.eventSeq := by
  unfold State.forceThread
  split
  · exact ⟨haltForced_other s t hy, (haltForced_halts s t y).2.2.le⟩
  · exact ⟨⟨_, rfl⟩, le_rfl⟩

/-! ### The row of commands -/

section Commands

variable {th : Nat} (hready : s.host.ready = true) (ht : s.physical (bits v.toNat 9 0) < 768) (hopen : s.debugOpen = true) (hth : th < 4)
  (hsel : bitAt (bits v.toNat 19 16) th = true)

include hready ht hopen

/-- A halt command that is open acts on each selected thread. -/
theorem exec_haltOpen {c : Nat} (hc : 1 ≤ c ∧ c ≤ 4) (hcmd : bits v.toNat 26 24 = c) {row : Word → Instr} (hrow : (row, c) ∈
    [((Instr.dbHalt, 1) : (Word → Instr) × Nat), (.dbResume, 2), (.dbStep, 3), (.dbForce, 4)]) :
    exec (row v) s = .next (upTo 4 (fun u th => if bitAt (bits v.toNat 19 16) th
      then State.haltCommand c u (s.physical (bits v.toNat 9 0)) th else u) (s.haltNamed v)) := by
  rw [exec_haltRow hready _ hrow hcmd, writeHaltCtrl_open ht (by omega) hopen, hcmd]

include hth hsel

theorem dbHalt_asks (hcmd : bits v.toNat 26 24 = 1) (hmode : (s.thread (s.physical (bits v.toNat 9 0)) th).mode = .running) :
    Answers (exec (.dbHalt v) s) (fun u => u.thread (s.physical (bits v.toNat 9 0)) th
      = { s.thread (s.physical (bits v.toNat 9 0)) th with haltAsked := some (s.rowFc (s.physical (bits v.toNat 9 0)) + 4096) }) := by
  rw [exec_haltOpen hready ht hopen (by decide) hcmd (by simp), show State.haltCommand 1 = State.askHalt from rfl]
  generalize s.physical (bits v.toNat 9 0) = t at hmode
  refine answers_next (upTo_selected (p := fun u => u.thread t th = s.thread t th ∧ u.rowFc t = s.rowFc t)
    (q := fun u => u.thread t th = { s.thread t th with haltAsked := some (s.rowFc t + 4096) }) (f := fun u y => u.askHalt t y)
    (s := s.haltNamed v) hth hsel (fun u y hy _ hu => ?_) (fun u hu => ?_) (fun u y hy _ hu => ?_) ⟨rfl, rfl⟩)
  · obtain ⟨hthread, hfc⟩ := hu
    exact ⟨(thread_modThread_other _ _ _ _ _ (Ne.symm hy)).trans hthread, hfc⟩
  · obtain ⟨hthread, hfc⟩ := hu
    rw [thread_askHalt u t th (by rw [hthread, hmode]), hthread, hfc]
  · exact (thread_modThread_other _ _ _ _ _ (Ne.symm hy)).trans hu

theorem dbResume_runs (hcmd : bits v.toNat 26 24 = 2) (hmode : (s.thread (s.physical (bits v.toNat 9 0)) th).mode = .debug)
    (hpassed : ∀ x, (s.thread (s.physical (bits v.toNat 9 0)) x).tickPassed = false) :
    Answers (exec (.dbResume v) s) (fun u => u.thread (s.physical (bits v.toNat 9 0)) th
      = { s.thread (s.physical (bits v.toNat 9 0)) th with mode := .running, passBreak := true }) := by
  rw [exec_haltOpen hready ht hopen (by decide) hcmd (by simp), show State.haltCommand 2 = State.resumeThread from rfl]
  generalize s.physical (bits v.toNat 9 0) = t at hmode hpassed
  have hpassedThread := hpassed th
  refine answers_next (upTo_selected (p := fun u => u.thread t th = s.thread t th ∧ ∀ x, (u.thread t x).tickPassed = false)
    (q := fun u => u.thread t th = { s.thread t th with mode := .running, passBreak := true } ∧ ∀ x, (u.thread t x).tickPassed = false)
    (f := fun u y => u.resumeThread t y) (s := s.haltNamed v) hth hsel (fun u y hy _ hu => ?_) (fun u hu => ?_) (fun u y hy _ hu => ?_) ⟨rfl, hpassed⟩).1
  · obtain ⟨hthread, hfalse⟩ := hu
    obtain ⟨hkept, hstill⟩ := thread_resumeThread_other u t (Ne.symm hy) hfalse
    exact ⟨hkept.trans hthread, hstill⟩
  · obtain ⟨hthread, hfalse⟩ := hu
    rw [resumeThread_halted u t th (by rw [hthread, hmode]) (hfalse th)]
    refine ⟨?_, fun x => ?_⟩
    · rw [thread_modThread, hthread, ← hpassedThread]
    · by_cases hx : x = th
      · subst hx
        rw [thread_modThread]
      · rw [thread_modThread_other _ _ _ _ _ hx]
        exact hfalse x
  · obtain ⟨hthread, hfalse⟩ := hu
    obtain ⟨hkept, hstill⟩ := thread_resumeThread_other u t (Ne.symm hy) hfalse
    exact ⟨hkept.trans hthread, hstill⟩

theorem dbStep_steps (hcmd : bits v.toNat 26 24 = 3) (hmode : (s.thread (s.physical (bits v.toNat 9 0)) th).mode = .debug) :
    Answers (exec (.dbStep v) s) (fun u => u.thread (s.physical (bits v.toNat 9 0)) th
      = { s.thread (s.physical (bits v.toNat 9 0)) th with mode := .running, stepping := true, passBreak := true }) := by
  rw [exec_haltOpen hready ht hopen (by decide) hcmd (by simp), show State.haltCommand 3 = State.stepThread from rfl]
  generalize s.physical (bits v.toNat 9 0) = t at hmode
  refine answers_next (upTo_selected (p := fun u => u.thread t th = s.thread t th)
    (q := fun u => u.thread t th = { s.thread t th with mode := .running, stepping := true, passBreak := true })
    (f := fun u y => u.stepThread t y) (s := s.haltNamed v) hth hsel (fun u y hy _ hu => ?_) (fun u hu => ?_) (fun u y hy _ hu => ?_) rfl)
  · exact (thread_modThread_other _ _ _ _ _ (Ne.symm hy)).trans hu
  · rw [thread_stepThread u t th (by rw [hu, hmode]), hu]
  · exact (thread_modThread_other _ _ _ _ _ (Ne.symm hy)).trans hu

theorem dbForce_halts (hcmd : bits v.toNat 26 24 = 4) (hmode : (s.thread (s.physical (bits v.toNat 9 0)) th).mode = .running) :
    Answers (exec (.dbForce v) s) (fun u => (u.thread (s.physical (bits v.toNat 9 0)) th).mode = .debug
      ∧ (u.thread (s.physical (bits v.toNat 9 0)) th).regs = (s.thread (s.physical (bits v.toNat 9 0)) th).regs
      ∧ s.faults.eventSeq < u.faults.eventSeq) := by
  rw [exec_haltOpen hready ht hopen (by decide) hcmd (by simp), show State.haltCommand 4 = State.forceThread from rfl]
  generalize s.physical (bits v.toNat 9 0) = t at hmode
  refine answers_next (upTo_selected (p := fun u => (u.thread t th).mode = .running ∧ (u.thread t th).regs = (s.thread t th).regs
      ∧ s.faults.eventSeq ≤ u.faults.eventSeq)
    (q := fun u => (u.thread t th).mode = .debug ∧ (u.thread t th).regs = (s.thread t th).regs ∧ s.faults.eventSeq < u.faults.eventSeq)
    (f := fun u y => u.forceThread t y) (s := s.haltNamed v) hth hsel (fun u y hy _ hu => ?_) (fun u hu => ?_) (fun u y hy _ hu => ?_) ⟨hmode, rfl, le_rfl⟩)
  · obtain ⟨hmode, hregs, hevents⟩ := hu
    obtain ⟨⟨l, hl⟩, hle⟩ := forceThread_other u t (Ne.symm hy)
    exact ⟨by rw [hl, hmode], by rw [hl, hregs], hevents.trans hle⟩
  · obtain ⟨hmode, hregs, hevents⟩ := hu
    rw [forceThread_running hmode]
    obtain ⟨hdebug, hkept, hlt⟩ := haltForced_halts u t th
    exact ⟨hdebug, hkept.trans hregs, hevents.trans_lt hlt⟩
  · obtain ⟨hmode, hregs, hevents⟩ := hu
    obtain ⟨⟨l, hl⟩, hle⟩ := forceThread_other u t (Ne.symm hy)
    exact ⟨by rw [hl, hmode], by rw [hl, hregs], hevents.trans_le hle⟩

omit hsel in
/-- A command that names one thread alone acts once. -/
theorem exec_haltAlone {c : Nat} (hc : 1 ≤ c ∧ c ≤ 4) (hcmd : bits v.toNat 26 24 = c) {row : Word → Instr} (hrow : (row, c) ∈
    [((Instr.dbHalt, 1) : (Word → Instr) × Nat), (.dbResume, 2), (.dbStep, 3), (.dbForce, 4)]) (halone : bits v.toNat 19 16 = 2 ^ th) :
    exec (row v) s = .next (State.haltCommand c (s.haltNamed v) (s.physical (bits v.toNat 9 0)) th) := by
  rw [exec_haltOpen hready ht hopen hc hcmd hrow, halone]
  generalize s.physical (bits v.toNat 9 0) = t
  have hturn := upTo_selected (ths := 2 ^ th) (p := fun u => u = s.haltNamed v)
    (q := fun u => u = State.haltCommand c (s.haltNamed v) t th) (f := fun u y => State.haltCommand c u t y) hth
    (by rw [bitAt, Nat.shiftRight_eq_div_pow, Nat.div_self (Nat.two_pow_pos th)]; rfl)
    (fun u y hy hbit _ => absurd (eq_of_bitAt_two_pow hbit) hy) (fun u hu => by rw [hu])
    (fun u y hy hbit _ => absurd (eq_of_bitAt_two_pow hbit) hy) rfl
  rw [hturn]

end Commands

/-! ## Halts that take effect and comparators -/

theorem exec_haltTakesEffect {t th : Nat} (ht : t < 768) (hth : th < 4) (hfirst : s.tickFirst t = false)
    (hmode : (s.thread t th).mode = .running) (hasked : (s.thread t th).haltAsked ≠ none) (hlock : (s.thread t th).lock = none)
    (hwait : ∀ st line, (s.thread t th).wait ≠ .lock st line) : exec (.haltTakesEffect t th) s = .next (s.haltNow t th false) := by
  refine (whenDue_next _ _ _).2 ⟨?_, rfl⟩
  unfold haltTakesEffectOk
  extract_lets x
  have hrest : (decide (t < 768) && decide (th < 4) && !s.tickFirst t && x.mode == .running && x.haltAsked.isSome && x.lock.isNone) = true := by
    simp [x, ht, hth, hfirst, hmode, hlock, Option.isSome_iff_ne_none.2 hasked]
  rw [hrest, Bool.true_and]
  split
  next st line h => exact absurd h (hwait st line)
  next => rfl

theorem exec_haltLockTimeout {t th st line a : Nat} (ht : t < 768) (hth : th < 4) (hfirst : s.tickFirst t = false)
    (hmode : (s.thread t th).mode = .running) (hlock : (s.thread t th).lock = some (st, line)) (hasked : (s.thread t th).haltAsked = some a)
    (ha : a ≤ s.rowFc t) : exec (.haltLockTimeout t th) s = .next (s.haltForced t th) := by
  refine (whenDue_next _ _ _).2 ⟨?_, rfl⟩
  simp [haltLockTimeoutOk, ht, hth, hfirst, hmode, hlock, hasked, ha]

/-- A comparator that matches: the thread halts, or is asked to where it holds a lock. -/
theorem breakHalt_breaks (s : State) (t th data : Nat) : (s.breakHalt t th data).thread t th
      = (if (s.thread t th).lock.isSome then { s.thread t th with haltAsked := some (s.rowFc t + 4096) }
        else { s.thread t th with mode := .debug, tickPassed := false })
      ∧ (s.breakHalt t th data).faults.eventSeq = s.faults.eventSeq + 1 := by
  unfold State.breakHalt
  exact ⟨by rw [thread_raise, thread_modThread], by rw [raise_faults]; rfl⟩

theorem exec_pcBreakpointMatch {n : Nat} (hn : n < 8) (hon : (s.comparator n).1 = true)
    (hmode : (s.thread (s.comparator n).2.1 (s.comparator n).2.2.1).mode = .running)
    (hwait : (s.thread (s.comparator n).2.1 (s.comparator n).2.2.1).wait = .none)
    (hasked : (s.thread (s.comparator n).2.1 (s.comparator n).2.2.1).haltAsked = none)
    (hpass : (s.thread (s.comparator n).2.1 (s.comparator n).2.2.1).passBreak = false)
    (hpc : (s.thread (s.comparator n).2.1 (s.comparator n).2.2.1).regs.pc = (s.comparator n).2.2.2) :
    exec (.pcBreakpointMatch n) s = .next (pcBreakpointMatchDo n s) := by
  refine (whenDue_next _ _ _).2 ⟨?_, rfl⟩
  simp [pcBreakpointMatchOk, hn, hon, hmode, hwait, hasked, hpass, hpc]

/-! ## The debug unlock and JTAG -/

theorem exec_unlockSubmit (hready : s.host.ready = true) : exec .unlockSubmit s = .next s.submit := by
  show Host.Outcome.next (s.bar0 s.submit) = _
  rw [State.bar0, if_pos hready]

/-- A token that is not valid costs an attempt and one event, and draws a nonce. -/
theorem unlockCheck_rejects (h : s.tokenValid = false) :
    (unlockCheckCompleteDo s).dbg.busy = false ∧ (unlockCheckCompleteDo s).dbg.unlocked = s.dbg.unlocked
      ∧ (unlockCheckCompleteDo s).dbg.attempts = s.dbg.attempts - 1
      ∧ (unlockCheckCompleteDo s).faults.eventSeq = s.faults.eventSeq + 1 ∧ (unlockCheckCompleteDo s).free = s.free + 1 := by
  unfold unlockCheckCompleteDo
  extract_lets s1
  rw [if_neg (by rw [h]; decide)]
  have hbusy : (s1.raise Ev.debugUnlockRejected {}).dbg.busy = s1.dbg.busy := raise_debug Debug.busy _ _ _
  have hunlocked : (s1.raise Ev.debugUnlockRejected {}).dbg.unlocked = s1.dbg.unlocked := raise_debug Debug.unlocked _ _ _
  have hattempts : (s1.raise Ev.debugUnlockRejected {}).dbg.attempts = s1.dbg.attempts := raise_debug Debug.attempts _ _ _
  have hevents : (s1.raise Ev.debugUnlockRejected {}).faults.eventSeq = s1.faults.eventSeq + 1 := by rw [raise_faults]
  have hfree : (s1.raise Ev.debugUnlockRejected {}).free = s1.free := raise_free _ _ _
  unfold State.unlockRejected
  generalize s1.raise Ev.debugUnlockRejected {} = w at hbusy hunlocked hattempts hevents hfree
  exact ⟨hbusy, hunlocked, congrArg (· - 1) hattempts, hevents, congrArg (· + 1) hfree⟩

/-- What a read latches is no tile. -/
theorem regLatch_tiles (s : State) (jtag : Bool) (o : Nat) : (s.regLatch jtag o).tiles = s.tiles := by
  unfold State.regLatch
  extract_lets hi r
  repeat' split
  all_goals rfl

theorem exec_dbacc {x : DWord} (h : bits x.toNat 33 32 = 0) : exec (.dbacc x) s = .next (dbaccDo x s) :=
  (whenValid_next _ _ _).2 ⟨beq_iff_eq.2 h, rfl⟩

/-- Settles O60: each halt command visits the selected threads of its tile once, and each other row does what its branch
says. -/
theorem haltsBreakpointsAndUnlock : Obligations.HaltsBreakpointsAndUnlock := by
  refine ⟨fun v s hready ht => ⟨fun hclosed p hp hcmd => ?_, fun hopen th hth hsel => ⟨fun hcmd hmode => ?_, fun hcmd hmode hpassed => ?_,
    fun hcmd hmode halone => ?_, fun hcmd hmode => ?_, fun hcmd hmode hlock => ?_, fun hcmd hmode hlock halone => ?_⟩⟩,
    ⟨fun t th s ht hth hfirst hmode hasked hlock hwait => ?_, fun t th st line a s ht hth hfirst hmode hlock hasked ha => ?_,
      fun n s hn hon hmode hwait hasked hpass hpc => ?_⟩,
    fun s => ⟨fun hready hbusy => ⟨fun hleft => ?_, fun hleft => ?_⟩, fun hbusy => ?_, fun hbusy => ⟨fun hvalid => ?_, fun hvalid => ?_⟩,
      fun x hx => ⟨fun hshut => ?_, fun hopen hread => ?_, fun hopen hwrite => ?_⟩⟩⟩
  · have hrange : 1 ≤ p.2 ∧ p.2 ≤ 4 := by
      rw [List.mem_cons, List.mem_cons, List.mem_cons, List.mem_singleton] at hp
      rcases hp with rfl | rfl | rfl | rfl
      all_goals decide
    rw [exec_haltRow hready p hp hcmd, writeHaltCtrl_closed ht (by omega) hclosed]
    exact answers_next ⟨raise_tiles _ _ _, by rw [State.unlockRejected, raise_faults]; rfl⟩
  · exact dbHalt_asks hready ht hopen hth hsel hcmd hmode
  · exact dbResume_runs hready ht hopen hth hsel hcmd hmode hpassed
  · rw [exec_haltAlone hready ht hopen hth (by decide) hcmd (by simp) halone]
    exact answers_next (resumeThread_runs _ _ _ hmode)
  · exact dbStep_steps hready ht hopen hth hsel hcmd hmode
  · exact dbForce_halts hready ht hopen hth hsel hcmd hmode
  · rw [exec_haltAlone hready ht hopen hth (by decide) hcmd (by simp) halone]
    refine answers_next ?_
    obtain ⟨hthread, -, hforced⟩ := haltForced_locked (s := s.haltNamed v) hlock
    show ((State.forceThread _ _ _).thread _ _).mode = _ ∧ ((State.forceThread _ _ _).thread _ _).lock = _
      ∧ (State.forceThread _ _ _).dbg.forced = _
    rw [forceThread_running (s := s.haltNamed v) hmode]
    exact ⟨by rw [hthread], by rw [hthread], hforced⟩
  · rw [exec_haltTakesEffect ht hth hfirst hmode hasked hlock hwait]
    obtain ⟨hthread, hevents, htiles, -⟩ := haltNow_halts s t th false
    exact answers_next ⟨hthread, hevents, htiles⟩
  · rw [exec_haltLockTimeout ht hth hfirst hmode hlock hasked ha]
    obtain ⟨hthread, hevents, hforced⟩ := haltForced_locked (s := s) (t := t) (th := th) (by rw [hlock]; exact Option.some_ne_none _)
    exact answers_next ⟨by rw [hthread], by rw [hthread], hforced, hevents⟩
  · rw [exec_pcBreakpointMatch hn hon hmode hwait hasked hpass hpc, pcBreakpointMatchDo]
    obtain ⟨hthread, hevents⟩ := breakHalt_breaks s (s.comparator n).2.1 (s.comparator n).2.2.1 (0x10000 + n)
    refine answers_next ⟨hevents, fun hlock => ?_, fun hlock => ?_⟩
    · rw [thread_modThread, hthread, if_neg (by simp [hlock])]
      simp [hlock]
    · rw [thread_modThread, hthread, if_pos (Option.isSome_iff_ne_none.2 hlock)]
      simp [Option.isSome_iff_ne_none.2 hlock]
  · rw [exec_unlockSubmit hready, State.submit, if_neg (not_or.2 ⟨hleft, by rw [hbusy]; decide⟩)]
    exact answers_next rfl
  · rw [exec_unlockSubmit hready, State.submit, if_pos (.inl hleft)]
  · show Host.Outcome.next (s.bar0 s.submit) = _
    rw [State.submit, if_pos (.inr hbusy), State.bar0, ite_self]
  · refine ⟨_, (whenDue_next _ _ _).2 ⟨hbusy, rfl⟩, ?_⟩
    rw [unlockCheckCompleteDo, if_pos hvalid]
    rfl
  · exact ⟨_, (whenDue_next _ _ _).2 ⟨hbusy, rfl⟩, unlockCheck_rejects hvalid⟩
  · rw [exec_dbacc hx, dbaccDo]
    rw [if_neg (show ¬s.dbaccOk _ = true from fun h => absurd (hshut.symm.trans h) (by decide))]
    exact answers_next ⟨rfl, rfl, rfl, rfl⟩
  · rw [exec_dbacc hx, dbaccDo]
    rw [if_pos (show s.dbaccOk _ = true from hopen), if_neg (by rw [hread]; decide)]
    exact answers_next ⟨rfl, rfl, regLatch_tiles _ _ _⟩
  · rw [exec_dbacc hx, dbaccDo]
    rw [if_pos (show s.dbaccOk _ = true from hopen), if_pos hwrite]
    exact answers_next ⟨rfl, rfl⟩

end Sys2Proof.Machine

/-! PROOFS. Weight updates, weight fills, and streams that are queued or resumed (R60, R61, R305 to R311, R342). -/

namespace Sys2Proof.Machine

/-! ## What the end of a command leaves of memory above the claims' windows -/

theorem journalAddr_lt {c : Nat} (hc : c < 256) (n : Nat) : journalAddr c n + 0x2040 ≤ 0xC00000000 := by
  have ho : 64 * (n % 16384) < 0x100000 := by omega
  unfold journalAddr journalPage dualPrimary hfBase
  dsimp only
  rw [Nat.shiftLeft_eq, Nat.shiftRight_eq_div_pow]
  omega

theorem journal_above {s : State} {c b : Nat} (hc : c < 256) (hb : 0xC00000000 ≤ b) (r : Record) :
    memGet (s.journal c r).mem b = memGet s.mem b := by
  have hlow := journalAddr_lt hc (s.claim c).journalHead.toNat
  rw [journal_eq]
  generalize journalAddr c (s.claim c).journalHead.toNat = a at hlow ⊢
  rw [modHost_mem, modClaim_mem, memGet_writeBytes_outside (.inr (by rw [lineBytes_length]; omega)), memGet_writeBytes_outside (.inr (by rw [lineBytes_length]; omega))]

theorem finishOne_above {s : State} {c : Cmd} {b : Nat} (hc : c.claim < 256) (hb : 0xC00000000 ≤ b) (ok : Bool) (n : Nat) (r : BitVec 128) :
    memGet (s.finishOne c ok n r).mem b = memGet s.mem b := by
  rw [State.finishOne, modCmd_mem, journal_above hc hb]

/-- Where every command is of a claim that exists, the end of a command writes below 0xC_0000_0000. -/
theorem finish_above {s : State} (hclaims : ∀ d ∈ s.host.cmds, d.claim < 256) {b : Nat} (hb : 0xC00000000 ≤ b) (seq : Nat) (ok : Bool)
    (n : Nat) (r : BitVec 128) : memGet (s.finish seq ok n r).mem b = memGet s.mem b := by
  unfold State.finish
  split
  · rfl
  next c hc =>
    extract_lets s1 s2 dups
    have h2 : memGet s2.mem b = memGet s.mem b := by
      unfold s2
      rw [modClaim_mem]
      exact finishOne_above (hclaims c (mem_of_cmd? hc)) hb ok n r
    have hdups : ∀ d ∈ dups, d.claim < 256 := fun d hd => by
      have hmem : d ∈ (s.finishOne c ok n r).host.cmds := (List.mem_filter.1 hd).1
      rw [finishOne_cmds] at hmem
      obtain ⟨e, he, rfl⟩ := List.mem_map.1 hmem
      split
      · exact hclaims e he
      · exact hclaims e he
    exact List.foldlRecOn dups _ (motive := fun u : State => memGet u.mem b = memGet s.mem b) h2
      (fun u hu d hd => (finishOne_above (hdups d hd) hb ok n r).trans hu)

/-! ## WEIGHT_UPDATE -/

variable {s : State} {seq : Nat} {c : Cmd}

section Update

variable (himage : s.hasImage c.claim (c.arg 16 2) = true)
  (hrange : (s.image (c.arg 16 2)).weightRange (c.arg 18 2) (c.arg 20 4) (c.arg 24 4) = true)

include himage hrange

theorem weightUpdateDo_fills (hfold : (s.tile (s.physical (c.arg 18 2))).fold = true) (hsize : c.arg 24 4 = halfSize)
    (hoff : c.arg 20 4 = 0 ∨ c.arg 20 4 = halfSize) : weightUpdateDo c s = s.fillByHoist c (s.physical (c.arg 18 2)) := by
  unfold weightUpdateDo
  extract_lets h tile off n x t
  rw [if_neg (by simp [h, himage]), if_neg (by simp [x, h, tile, off, n, hrange]), if_pos hfold, if_pos ⟨hsize, hoff⟩]

theorem weightUpdateDo_busy (hfold : (s.tile (s.physical (c.arg 18 2))).fold = false) (hstarted : (s.image (c.arg 16 2)).started = true) :
    weightUpdateDo c s = s.fail c.seq Reason.busy := by
  unfold weightUpdateDo
  extract_lets h tile off n x t
  rw [if_neg (by simp [h, himage]), if_neg (by simp [x, h, tile, off, n, hrange]), if_neg (by simp [t, tile, hfold]), if_pos hstarted]

theorem weightUpdateDo_reads (hfold : (s.tile (s.physical (c.arg 18 2))).fold = false) (hstarted : (s.image (c.arg 16 2)).started = false)
    {bs : List Byte} (hread : s.readCva c.claim (c.arg 32 8) (c.arg 24 4) = some bs) :
    weightUpdateDo c s = (((s.noteCvaRead c.claim (c.arg 32 8) (c.arg 24 4)).writeBytes
      (tileAddr (s.physical (c.arg 18 2)) (c.arg 20 4)) bs).keepCopy (c.arg 16 2) (c.arg 18 2) (c.arg 20 4) bs).complete c.seq 0 := by
  unfold weightUpdateDo
  extract_lets h tile off n x t
  have hread : s.readCva c.claim (c.arg 32 8) n = some bs := hread
  rw [if_neg (by simp [h, himage]), if_neg (by simp [x, h, tile, off, n, hrange]), if_neg (by simp [t, tile, hfold]),
    if_neg (by simp [x, h, hstarted]), hread]

end Update

theorem hoist_running (s : State) (seq k : Nat) : (s.running seq).hoist k = s.hoist k := rfl

/-- A fill that finds room runs on as a stream at the end of the least loaded hoist's queue. -/
theorem fillByHoist_queues (hc : s.cmd? seq = some c) (hroom : (s.hoist s.leastHoist).be.length < 32) (t : Nat) :
    (s.fillByHoist c t).Runs seq ∧ ((s.fillByHoist c t).hoist s.leastHoist).be.length = (s.hoist s.leastHoist).be.length + 1
      ∧ (s.fillByHoist c t).mem = s.mem := by
  unfold State.fillByHoist
  extract_lets h src dst
  have hfull : ¬32 ≤ (s.hoist h).be.length := Nat.not_le.2 hroom
  rw [if_neg hfull, seq_of_cmd? hc]
  refine ⟨⟨_, cmd?_running (s := s.modHoist h _) hc, rfl⟩, ?_, rfl⟩
  rw [hoist_running, hoist_modHoist, List.length_append]
  rfl

theorem readCva_length {cl a n : Nat} {bs : List Byte} (h : s.readCva cl a n = some bs) : bs.length = n := by
  unfold State.readCva at h
  split at h
  · rw [← Option.some.inj h, List.length_map, List.length_range]
  · exact absurd h (by simp)

/-- A WEIGHT_UPDATE of an image that has not started completes with its bytes in the tile. -/
theorem weightUpdateDo_writes (hc : s.cmd? seq = some c) (hok : s.MemoryOk) (hclaims : ∀ d ∈ s.host.cmds, d.claim < 256) {bs : List Byte}
    (himage : s.hasImage c.claim (c.arg 16 2) = true)
    (hrange : (s.image (c.arg 16 2)).weightRange (c.arg 18 2) (c.arg 20 4) (c.arg 24 4) = true)
    (hfold : (s.tile (s.physical (c.arg 18 2))).fold = false) (hstarted : (s.image (c.arg 16 2)).started = false)
    (hread : s.readCva c.claim (c.arg 32 8) (c.arg 24 4) = some bs) :
    (weightUpdateDo c s).Ended seq true 0
      ∧ memRead (weightUpdateDo c s).mem (tileAddr (s.physical (c.arg 18 2)) (c.arg 20 4)) (c.arg 24 4) = bs := by
  have hlen := readCva_length hread
  rw [weightUpdateDo_reads himage hrange hfold hstarted hread, seq_of_cmd? hc, ← hlen]
  have hnoted : (s.noteCvaRead c.claim (c.arg 32 8) bs.length).host.cmds = s.host.cmds := (EventFrame.noteCvaRead s _ _ _).cmds
  have hokNoted := noteCvaRead_memoryOk s c.claim (c.arg 32 8) bs.length hok
  generalize s.noteCvaRead c.claim (c.arg 32 8) bs.length = v at hnoted hokNoted
  have haddr : 0xC00000000 ≤ tileAddr (s.physical (c.arg 18 2)) (c.arg 20 4) := by
    unfold tileAddr
    omega
  generalize tileAddr (s.physical (c.arg 18 2)) (c.arg 20 4) = a at haddr
  have hkept : ((v.writeBytes a bs).keepCopy (c.arg 16 2) (c.arg 18 2) (c.arg 20 4) bs).host.cmds = s.host.cmds := by
    show (v.writeBytes a bs).host.cmds = _
    rw [writeBytes_host, hnoted]
  refine ⟨ended_complete ((cmd?_of_cmds hkept seq).trans hc) 0, ?_⟩
  refine Eq.trans ?_ (memRead_writeBytes hokNoted a bs)
  exact memRead_congr fun b hb _ => finish_above (by rw [hkept]; exact hclaims) (haddr.trans hb) _ _ _ _

/-! ## HOIST and RESUME -/

theorem exec_hoist (h : s.Ready seq 0x0030 c) (hroom : s.hoistFull (c.arg 16 1) = false) :
    exec (.hoist seq) s = .next (hoistDo c s) := by
  show execHoist seq s = _
  unfold execHoist
  rw [h.1]
  dsimp only
  rw [hroom, if_neg Bool.false_ne_true]
  exact hostCmd_ready h hoistDo

theorem exec_resume (h : s.Ready seq 0x0031 c) (hroom : s.resumeFull c = false) : exec (.resume seq) s = .next (resumeDo c s) := by
  show execResume seq s = _
  unfold execResume
  rw [h.1]
  dsimp only
  rw [hroom, if_neg Bool.false_ne_true]
  exact hostCmd_ready h resumeDo

/-! ## Weight fills -/

theorem exec_weightFillArrival {t : Nat} {b : Bool} {total : Nat} {data : List Byte} (ht : t < 768) (hkind : kindOf t = 3)
    (hfold : (s.tile t).fold = true) (hpos : 1 ≤ data.length) (hlen : data.length ≤ 64)
    (hn : (s.tile t).fillCount b + data.length ≤ total) (htotal : total ≤ 81920)
    (hhalf : (s.tile t).half b ≠ .filling ∨ (s.tile t).fillTotal b = total) :
    exec (.weightFillArrival t b ⟨total, data⟩) s = .next (s.fillHalf t b ((s.tile t).fillCount b) total data) := by
  refine (whenValid_next _ _ _).2 ⟨?_, rfl⟩
  simp only [weightFillArrivalOk, halfSize, Bool.and_eq_true, Bool.or_eq_true, decide_eq_true_eq, beq_iff_eq, bne_iff_ne]
  exact ⟨⟨⟨⟨⟨⟨⟨ht, hkind⟩, hfold⟩, hpos⟩, hlen⟩, hn⟩, decide_eq_true htotal⟩, hhalf⟩

/-- A fill into a half that is READY or ACTIVE is one event. -/
theorem fillHalf_busy {t : Nat} {b : Bool} (h : (s.tile t).half b = .ready ∨ (s.tile t).half b = .active) (o total : Nat) (data : List Byte) :
    s.fillHalf t b o total data = s.raise Ev.weightHalfBusy (s.tileEv t) := by
  unfold State.fillHalf
  extract_lets x n done left want s1
  refine if_pos ?_
  rw [Bool.or_eq_true, beq_iff_eq, beq_iff_eq]
  exact h

/-- The tile after bytes of a fill that bring a half to n of total bytes. -/
def Tile.filledTo (x : Tile) (b : Bool) (n total : Nat) : Tile :=
  let left := if total ≤ n then 0 else n
  let want := if total ≤ n then 0 else total
  (if b then { x with fillB := left, fillTotalB := want } else { x with fillA := left, fillTotalA := want }).setHalf b
    (if total ≤ n then .ready else .filling)

theorem half_filledTo (x : Tile) (b : Bool) (n total : Nat) :
    (x.filledTo b n total).half b = (if total ≤ n then .ready else .filling) ∧ (x.filledTo b n total).half (!b) = x.half (!b)
      ∧ (x.filledTo b n total).fillCount b = (if total ≤ n then 0 else n)
      ∧ (x.filledTo b n total).fillTotal b = (if total ≤ n then 0 else total) := by
  cases b
  · exact ⟨rfl, rfl, rfl, rfl⟩
  · exact ⟨rfl, rfl, rfl, rfl⟩

/-- A fill into a half that is FREE or FILLING. -/
theorem fillHalf_fills {t : Nat} {b : Bool} (h : (s.tile t).half b = .free ∨ (s.tile t).half b = .filling) (o total : Nat) (data : List Byte) :
    s.fillHalf t b o total data = (s.writeBytes (tileAddr t (halfOffset b + o)) data).modTile t
      (fun x => x.filledTo b ((s.tile t).fillCount b + data.length) total) := by
  unfold State.fillHalf
  extract_lets x n done left want s1
  have hfree : ¬(x.half b == .ready || x.half b == .active) = true := by
    rcases h with h | h
    all_goals
      rw [show x.half b = _ from h]
      decide
  rw [if_neg hfree]
  simp only [Tile.filledTo, done, left, want, n, x, s1, decide_eq_true_eq]

/-- What a fill into a half that is FREE or FILLING leaves. -/
theorem fillHalf_fields {t : Nat} {b : Bool} (h : (s.tile t).half b = .free ∨ (s.tile t).half b = .filling) (hok : s.MemoryOk)
    {total : Nat} {data : List Byte} :
    let u := s.fillHalf t b ((s.tile t).fillCount b) total data
    let n := (s.tile t).fillCount b
    let a := tileAddr t (halfOffset b + n)
    memRead u.mem a data.length = data ∧ SameBytes s u a data.length
      ∧ (n + data.length < total → (u.tile t).half b = .filling ∧ (u.tile t).fillCount b = n + data.length ∧ (u.tile t).fillTotal b = total)
      ∧ (n + data.length = total → (u.tile t).half b = .ready ∧ (u.tile t).fillCount b = 0)
      ∧ (u.tile t).half (!b) = (s.tile t).half (!b) ∧ ∀ x, x ≠ t → u.tile x = s.tile x := by
  intro u n a
  have hu : u = (s.writeBytes a data).modTile t (fun x => x.filledTo b (n + data.length) total) := fillHalf_fills h _ _ _
  have htile : u.tile t = (s.tile t).filledTo b (n + data.length) total := by
    rw [hu, tile_modTile, State.tile, writeBytes_tiles]
    rfl
  have hmem : u.mem = (s.writeBytes a data).mem := by
    rw [hu]
    rfl
  clear_value u
  obtain ⟨hhalf, hother, hcount, htotal⟩ := half_filledTo (s.tile t) b (n + data.length) total
  refine ⟨by rw [hmem]; exact memRead_writeBytes hok a data, fun y hy => ?_, fun hlt => ?_, fun heq => ?_, by rw [htile, hother], fun x hx => ?_⟩
  · rw [hmem]
    exact memGet_writeBytes_outside hy
  · rw [htile, hhalf, hcount, htotal, if_neg (by omega), if_neg (by omega), if_neg (by omega)]
    exact ⟨rfl, rfl, rfl⟩
  · rw [htile, hhalf, hcount, if_pos (by omega), if_pos (by omega)]
    exact ⟨rfl, rfl⟩
  · rw [hu, tile_modTile_other _ _ _ _ hx, State.tile, writeBytes_tiles]
    rfl

end Sys2Proof.Machine

namespace Sys2Proof.Machine

/-- Settles O50: each command takes the branch that its premises name, and a fill writes its bytes behind those there. -/
theorem weightUpdatesAndStreams : Obligations.WeightUpdatesAndStreams := by
  refine ⟨⟨fun seq c bs s h himage hrange => ⟨fun hfold hsize hoff hroom => ?_, fun hfold hstarted => ?_,
    fun hfold hstarted hread _ hok hclaims => ?_⟩, fun seq c s h hroom => ?_, fun seq c s h => ⟨fun hnone => ?_, fun k x hfound hroom => ?_⟩⟩,
    fun t b total data s ht hkind hfold hpos hlen => ?_⟩
  · refine ⟨_, hostCmd_ready h weightUpdateDo, ?_⟩
    rw [weightUpdateDo_fills himage hrange hfold hsize hoff]
    exact fillByHoist_queues h.1 hroom _
  · refine ⟨_, hostCmd_ready h weightUpdateDo, ?_⟩
    rw [weightUpdateDo_busy himage hrange hfold hstarted, seq_of_cmd? h.1]
    exact ⟨ended_fail h.1 _, finish_tiles _ _ _ _ _⟩
  · exact ⟨_, hostCmd_ready h weightUpdateDo, weightUpdateDo_writes h.1 hok hclaims himage hrange hfold hstarted hread⟩
  · intro k
    rw [exec_hoist h hroom]
    have hk : hoistDo c s = (s.modHoist k (fun y => { y with
        be := y.be ++ [{ kind := .command c.seq, claim := c.claim, lists := (c.arg 24 8, c.arg 32 8), readyAt := s.now }] })).running c.seq := rfl
    rw [hk]
    refine answers_next ⟨?_, fun j hj => ?_, ?_⟩
    · rw [seq_of_cmd? h.1]
      exact ⟨_, cmd?_running (s := s.modHoist k _) h.1, rfl⟩
    · rw [hoist_running, hoist_modHoist_other _ _ _ _ hj]
    · rw [hoist_running, hoist_modHoist]
  · have hnone : s.asideOf c = none := hnone
    rw [exec_resume h (by rw [State.resumeFull, hnone]), resumeDo, hnone, seq_of_cmd? h.1]
    exact answers_next ⟨ended_fail h.1 _, finish_sump _ _ _ _ _⟩
  · have hfound : s.asideOf c = some (k, x) := hfound
    rw [exec_resume h (by rw [State.resumeFull, hfound]; exact decide_eq_false (by omega)), resumeDo, hfound, seq_of_cmd? h.1]
    refine answers_next ⟨ended_complete (s := s.modHoist k _) h.1 0, ?_⟩
    have hkept (v : State) : (v.complete seq 0).hoist k = v.hoist k := by
      rw [State.hoist, show (v.complete seq 0).sump = v.sump from finish_sump _ _ _ _ _]
      rfl
    rw [hkept]
    exact hoist_modHoist s k _
  · intro n a hn htotal hok
    refine ⟨fun hhalf => ?_, fun hhalf => ?_⟩
    · have hready : (s.tile t).half b = .free ∨ (s.tile t).half b = .filling := hhalf.imp_right And.left
      have hvalid : (s.tile t).half b ≠ .filling ∨ (s.tile t).fillTotal b = total :=
        hhalf.imp (fun hfree => by rw [hfree]; decide) And.right
      rw [exec_weightFillArrival ht hkind hfold hpos hlen hn htotal hvalid]
      exact answers_next (fillHalf_fields hready hok)
    · have hvalid : (s.tile t).half b ≠ .filling := by
        rcases hhalf with hhalf | hhalf
        all_goals
          rw [hhalf]
          decide
      rw [exec_weightFillArrival ht hkind hfold hpos hlen hn htotal (.inl hvalid), fillHalf_busy hhalf]
      exact answers_next ⟨raise_tiles _ _ _, by rw [raise_faults]⟩

end Sys2Proof.Machine

/-! PROOFS. Images that load, complete and unload (R55, R240 to R242, R330). -/

namespace Sys2Proof.Machine

/-! ## What the installation of an image leaves alone -/

/-- Images, commands, and the logical ids of positions are as before. -/
structure Installing (s u : State) : Prop where
  images : u.images = s.images
  cmds : u.host.cmds = s.host.cmds
  mapped : ∀ t, (u.tile t).mapped = (s.tile t).mapped
  logical : ∀ t, (u.tile t).logical = (s.tile t).logical

/-- What an update leaves that writes neither images, headframe nor tiles. -/
def State.imagesHostTiles (s : State) : Tab Image × HostIf × Tab Tile := (s.images, s.host, s.tiles)

namespace Installing

variable {s u : State}

theorem refl (s : State) : Installing s s := ⟨rfl, rfl, fun _ => rfl, fun _ => rfl⟩

theorem trans {w : State} (h : Installing s u) (h' : Installing u w) : Installing s w :=
  ⟨h'.images.trans h.images, h'.cmds.trans h.cmds, fun t => (h'.mapped t).trans (h.mapped t), fun t => (h'.logical t).trans (h.logical t)⟩

theorem of_tiles {w : State} (hs : Installing s u) (himages : w.images = u.images) (hcmds : w.host.cmds = u.host.cmds)
    (htiles : w.tiles = u.tiles) : Installing s w := by
  have htile (t : Nat) : w.tile t = u.tile t := by
    rw [State.tile, htiles]
    rfl
  exact hs.trans ⟨himages, hcmds, fun t => by rw [htile], fun t => by rw [htile]⟩

/-- An update that writes neither images, headframe nor tiles. -/
theorem same {w : State} (hs : Installing s u) (hw : w.imagesHostTiles = u.imagesHostTiles) : Installing s w := by
  obtain ⟨himages, hrest⟩ := Prod.mk.inj hw
  obtain ⟨hhost, htiles⟩ := Prod.mk.inj hrest
  exact hs.of_tiles himages (congrArg HostIf.cmds hhost) htiles

theorem ite {c : Prop} [Decidable c] {a b : State} (ha : Installing s a) (hb : Installing s b) : Installing s (if c then a else b) := by
  split
  · exact ha
  · exact hb

theorem foldl {α : Type} {f : State → α → State} {l : List α} (hf : ∀ u x, Installing s u → Installing s (f u x)) (hs : Installing s u) :
    Installing s (l.foldl f u) :=
  foldl_keeps (Installing s) f hf l u hs

theorem upTo {n : Nat} {f : State → Nat → State} (hf : ∀ u x, Installing s u → Installing s (f u x)) (hs : Installing s u) :
    Installing s (Machine.upTo n f u) :=
  foldl hf hs

theorem modTile (hs : Installing s u) {t : Nat} {f : Tile → Tile}
    (hf : ∀ x, (f x).mapped = x.mapped ∧ (f x).logical = x.logical := by exact fun _ => ⟨rfl, rfl⟩) : Installing s (u.modTile t f) :=
  hs.trans ⟨rfl, rfl, fun x => field_modTile Tile.mapped u t x f (fun y => (hf y).1),
    fun x => field_modTile Tile.logical u t x f (fun y => (hf y).2)⟩

theorem modClaim (hs : Installing s u) {c : Nat} {f : Claim → Claim} : Installing s (u.modClaim c f) := hs.of_tiles rfl rfl rfl

theorem raise (hs : Installing s u) {k : EvKind} {e : EvArgs} : Installing s (u.raise k e) :=
  hs.of_tiles (raise_images _ _ _) (EventFrame.raise u k e).cmds (raise_tiles _ _ _)

theorem modPower (hs : Installing s u) {f : Power → Power} : Installing s (u.modPower f) := by
  unfold State.modPower
  exact .same hs (by rfl)

theorem modRow (hs : Installing s u) {r : Nat} {f : Row → Row} : Installing s (u.modRow r f) := by
  unfold State.modRow
  exact .modPower hs

theorem zeroRow (hs : Installing s u) {r : Nat} : Installing s (u.zeroRow r) := by
  unfold State.zeroRow
  exact .same hs (by rfl)

theorem repower (hs : Installing s u) : Installing s u.repower := by
  unfold State.repower
  exact .upTo (fun _ _ hs => .ite (.modRow (.zeroRow hs)) (.ite (.modRow (.zeroRow hs)) hs)) hs

theorem markRange (hs : Installing s u) {a n : Nat} : Installing s (u.markRange a n) := by
  unfold State.markRange
  exact .same hs (by rfl)

theorem markOwned (hs : Installing s u) {x : Image} : Installing s (u.markOwned x) := by
  unfold State.markOwned
  exact .foldl (fun _ _ hs => .markRange hs) hs

theorem modSkip (hs : Installing s u) {k : Nat} {f : Skip → Skip} : Installing s (u.modSkip k f) := by
  unfold State.modSkip
  exact .same hs (by rfl)

theorem egressFor (hs : Installing s u) {h i : Nat} {x : Image} {m : MeshRec} : Installing s (u.egressFor h i x m) := by
  unfold State.egressFor
  split
  · exact .modSkip hs
  · exact hs

theorem loadSkips (hs : Installing s u) {h : Nat} {x : Image} : Installing s (u.loadSkips h x) := by
  unfold State.loadSkips
  exact .foldl (fun _ _ hs => .ite (.egressFor hs) hs) (.foldl (fun _ _ hs => .modSkip hs) hs)

theorem draw (hs : Installing s u) : Installing s u.draw := by
  unfold State.draw
  exact .same hs (by rfl)

theorem writeBytes (hs : Installing s u) {a : Nat} {bs : List Byte} : Installing s (u.writeBytes a bs) := by
  unfold State.writeBytes
  exact .ite hs (.same hs (by rfl))

theorem scramble (hs : Installing s u) {a n : Nat} : Installing s (u.scramble a n) := by
  unfold State.scramble
  exact .draw (.writeBytes hs)

theorem writeStore (hs : Installing s u) {x : Image} : Installing s (u.writeStore x) := by
  unfold State.writeStore
  exact .foldl (fun _ _ hs => .scramble hs) hs

theorem emit (hs : Installing s u) {o : Out} : Installing s (u.emit o) := by
  unfold State.emit
  exact .same hs (by rfl)

theorem taintStreams (hs : Installing s u) {t o n : Nat} : Installing s (u.taintStreams t o n) := by
  unfold State.taintStreams
  exact .modTile hs

theorem fillHalf (hs : Installing s u) {t : Nat} {b : Bool} {o total : Nat} {data : List Byte} :
    Installing s (u.fillHalf t b o total data) := by
  unfold State.fillHalf
  refine .ite (.raise hs) (.modTile (.writeBytes hs) (fun _ => ?_))
  cases b
  · exact ⟨rfl, rfl⟩
  · exact ⟨rfl, rfl⟩

theorem windowWrite (hs : Installing s u) {claim t o : Nat} {access : Nat × Nat} {noted : Bool} {bs : List Byte} :
    Installing s (u.windowWrite claim t o access noted bs) := by
  unfold State.windowWrite
  extract_lets x ok banked old s1 s2 a b s3
  have hs1 : Installing s s1 := by
    unfold s1
    clear_value banked
    split
    · exact hs
    · exact .modTile hs
  have hs2 : Installing s s2 := .ite (.taintStreams hs1) hs1
  have hs3 : Installing s s3 := .ite hs2 (.fillHalf hs2)
  exact .ite (.ite hs3 (.fillHalf hs3)) (.foldl (fun _ _ hs => .writeBytes hs) hs2)

theorem putRun (hs : Installing s u) {claim : Nat} {p : Phys} {access : Nat × Nat} {noted : Bool} {bs : List Byte} :
    Installing s (u.putRun claim p access noted bs) := by
  unfold State.putRun
  refine .ite ?_ (.ite (.windowWrite hs) ?_)
  · extract_lets s1
    have hs1 : Installing s s1 := .emit hs
    exact .ite (.emit hs1) hs1
  · extract_lets s1
    have hs1 : Installing s s1 := .writeBytes hs
    exact .ite (.writeBytes hs1) hs1

theorem windowViolation (hs : Installing s u) {claim : Nat} {bad : Option Nat} : Installing s (u.windowViolation claim bad) := by
  unfold State.windowViolation
  split
  · exact hs
  · exact .raise hs

theorem putCva (hs : Installing s u) {claim cva : Nat} {bs : List Byte} : Installing s (u.putCva claim cva bs) := by
  unfold State.putCva
  exact .foldl (fun _ _ hs => .putRun hs) (.windowViolation hs)

theorem writeBlob (hs : Installing s u) {x : Image} {data : List Byte} {b : BlobRec} : Installing s (u.writeBlob x data b) := by
  unfold State.writeBlob
  refine .ite (.writeBytes hs) (.ite (.writeBytes hs) ?_)
  split
  · exact .putCva hs
  · exact hs

theorem loadShadow (hs : Installing s u) {h : Nat} {x : Image} {r : TileRec} : Installing s (u.loadShadow h x r) := by
  unfold State.loadShadow
  exact .modTile (.writeBytes hs)

theorem modAdit (hs : Installing s u) {f : Adit → Adit} : Installing s (u.modAdit f) := by
  unfold State.modAdit
  exact .same hs (by rfl)

theorem modQuad (hs : Installing s u) {q : Nat} {f : Quad → Quad} : Installing s (u.modQuad q f) := by
  unfold State.modQuad
  exact .modAdit hs

theorem modRiddle (hs : Installing s u) {f : Riddle → Riddle} : Installing s (u.modRiddle f) := by
  unfold State.modRiddle
  exact .same hs (by rfl)

theorem modBlock (hs : Installing s u) {q : Nat} {f : RBlock → RBlock} : Installing s (u.modBlock q f) := by
  unfold State.modBlock
  exact .modRiddle hs

theorem loadBlock (hs : Installing s u) {h : Nat} {x : Image} {b : RiddleBits} {q : Nat} : Installing s (u.loadBlock h x b q) := by
  unfold State.loadBlock
  exact .modQuad (.modBlock hs)

theorem modAtile (hs : Installing s u) {a : Nat} {f : ATile → ATile} : Installing s (u.modAtile a f) := by
  unfold State.modAtile
  exact .modAdit hs

theorem loadFrame (hs : Installing s u) {h : Nat} {x : Image} {f : RiddleFrame} : Installing s (u.loadFrame h x f) := by
  unfold State.loadFrame
  split
  · exact .modRiddle hs
  · exact .modAdit (.modRiddle hs)
  · exact .modAtile hs
  · exact hs

theorem loadRiddle (hs : Installing s u) {h : Nat} {x : Image} : Installing s (u.loadRiddle h x) := by
  unfold State.loadRiddle
  split
  · exact hs
  · exact .modRiddle (.foldl (fun _ _ hs => .loadFrame hs) (.foldl (fun _ _ hs => .loadBlock hs) hs))

theorem repin (hs : Installing s u) {c : Nat} : Installing s (u.repin c) := by
  unfold State.repin
  exact .modClaim hs

theorem setShares (hs : Installing s u) {on : Bool} {l : List Share} : Installing s (u.setShares on l) := by
  unfold State.setShares
  exact .modPower hs

theorem reshare (hs : Installing s u) : Installing s u.reshare := by
  unfold State.reshare
  split
  · exact .setShares hs
  · exact hs

end Installing

/-! ## The installation -/

/-- An image that is installed is the one under its handle; commands and logical ids are as before. -/
theorem installImage_installing (s : State) (h : Nat) (x : Image) :
    ∃ k, Installing { s with images := put s.images h { x with copy := k } } (s.installImage h x) := by
  refine ⟨(x.blobs.filter (fun b => decide (b.target ≤ 2))).flatMap (fun b =>
    (blobBytes (patchedData x) b).zipIdx.map (fun p => (b.dest, b.offset + p.2, p.1))), ?_⟩
  unfold State.installImage
  extract_lets data new kept s1 s2 s3 s4 s5
  have hs1 : Installing { s with images := put s.images h { x with copy := kept } } s1 := .repower (.refl _)
  have hs2 : Installing { s with images := put s.images h { x with copy := kept } } s2 := .ite (.markOwned hs1) hs1
  have hs3 : Installing { s with images := put s.images h { x with copy := kept } } s3 :=
    .ite (.loadSkips hs2) (.foldl (fun _ _ hs => .ite (.egressFor hs) hs) hs2)
  have hs4 : Installing { s with images := put s.images h { x with copy := kept } } s4 :=
    .foldl (fun _ _ hs => .writeBlob hs) (.writeStore hs3)
  have hs5 : Installing { s with images := put s.images h { x with copy := kept } } s5 := .foldl (fun _ _ hs => .loadShadow hs) hs4
  exact .reshare (.repin (.loadRiddle hs5))

/-- Position t loads a shadow copy, which is not yet valid. -/
def State.Shadowed (s : State) (t : Nat) : Prop := (s.tile t).shadowLoading = true ∧ (s.tile t).shadowValid = false

theorem tile_writeBytes (s : State) (a : Nat) (bs : List Byte) (x : Nat) : (s.writeBytes a bs).tile x = s.tile x := by
  rw [State.tile, writeBytes_tiles]
  rfl

theorem loadShadow_same (s : State) (h : Nat) (x : Image) (r : TileRec) : (s.loadShadow h x r).Shadowed (s.physical r.tile) := by
  unfold State.loadShadow State.Shadowed
  rw [tile_modTile]
  exact ⟨rfl, rfl⟩

theorem loadShadow_keeps {s : State} {t : Nat} (hs : s.Shadowed t) (h : Nat) (x : Image) (r : TileRec) :
    (s.loadShadow h x r).Shadowed t := by
  by_cases ht : t = s.physical r.tile
  · rw [ht]
    exact loadShadow_same s h x r
  · unfold State.loadShadow State.Shadowed
    rw [tile_modTile_other _ _ _ _ ht, tile_writeBytes]
    exact hs

/-- A position keeps its logical id while an image is installed. -/
theorem Installing.home {s u : State} (h : Installing s u) {t : Nat} (hs : s.Home t) : u.Home t := by
  obtain ⟨hmapped, hlogical⟩ := hs
  exact ⟨(h.mapped t).trans hmapped, (h.logical t).trans hlogical⟩

/-- Every tile of a list that is at its own position loads its shadow copy. -/
theorem foldl_loadShadow {h t : Nat} {x : Image} : ∀ {l : List TileRec} {s : State}, s.Home t → (∃ r ∈ l, r.tile = t) ∨ s.Shadowed t →
    (l.foldl (fun s r => s.loadShadow h x r) s).Shadowed t
  | [], _, _, hs => hs.resolve_left (by simp)
  | r :: l, s, hhome, hs => by
    rw [List.foldl_cons]
    refine foldl_loadShadow ((Installing.loadShadow (.refl s)).home hhome) ?_
    by_cases hr : r.tile = t
    · refine .inr ?_
      have hsame := loadShadow_same s h x r
      rwa [hr, physical_of_home hhome] at hsame
    · refine hs.imp (fun ⟨y, hy, hyt⟩ => ⟨y, (List.mem_cons.1 hy).resolve_left ?_, hyt⟩) (fun hs => loadShadow_keeps hs h x r)
      rintro rfl
      exact hr hyt

theorem loadRiddle_tiles (s : State) (h : Nat) (x : Image) : (s.loadRiddle h x).tiles = s.tiles := by
  unfold State.loadRiddle
  split
  · rfl
  next b _ =>
    extract_lets s1 s2
    have hs1 : s1.tiles = s.tiles := foldl_keeps (fun u => u.tiles = s.tiles) (fun s q => s.loadBlock h x b q)
      (fun u q hu => hu) _ _ rfl
    have hs2 : s2.tiles = s.tiles := foldl_keeps (fun u => u.tiles = s.tiles) _ (fun u f hu => by
      unfold State.loadFrame
      split
      all_goals exact hu) _ _ hs1
    exact hs2

theorem reshare_tiles (s : State) : s.reshare.tiles = s.tiles := by
  unfold State.reshare
  split
  · rfl
  · rfl

/-- Every tile of an installed image that is at its own position loads its shadow copy. -/
theorem installImage_shadowed {s : State} (h : Nat) (x : Image) {r : TileRec} (hr : r ∈ x.tiles) (hhome : s.Home r.tile) :
    (s.installImage h x).Shadowed r.tile := by
  unfold State.installImage
  extract_lets data new kept s1 s2 s3 s4 s5
  have hs1 : Installing { s with images := put s.images h { x with copy := kept } } s1 := .repower (.refl _)
  have hs2 : Installing { s with images := put s.images h { x with copy := kept } } s2 := .ite (.markOwned hs1) hs1
  have hs3 : Installing { s with images := put s.images h { x with copy := kept } } s3 :=
    .ite (.loadSkips hs2) (.foldl (fun _ _ hs => .ite (.egressFor hs) hs) hs2)
  have hs4 : Installing { s with images := put s.images h { x with copy := kept } } s4 :=
    .foldl (fun _ _ hs => .writeBlob hs) (.writeStore hs3)
  have hshadowed : s5.Shadowed r.tile := foldl_loadShadow (hs4.home hhome) (.inl ⟨r, hr, rfl⟩)
  have htiles : ((s5.loadRiddle h x).repin x.claim).reshare.tiles = s5.tiles := (reshare_tiles _).trans (loadRiddle_tiles s5 h x)
  unfold State.Shadowed State.tile
  rw [htiles]
  exact hshadowed

/-! ## LOAD -/

/-- A read of claim memory that reaches no tile window, with no word unwritten, has nothing to note. -/
theorem noteCvaRead_quiet {s : State} {cl a n : Nat} (hwritten : s.unwritten = [])
    (hruns : (s.runsOf cl a n false).all (fun r => !isWindow r.2.2.addr) = true) : s.noteCvaRead cl a n = s := by
  have hnone : (s.runsOf cl a n false).findSome? (fun r => s.runBad r.2.2 r.2.1 false (a, n)) = none := by
    refine List.findSome?_eq_none_iff.2 fun r hr => ?_
    have hsump : isWindow r.2.2.addr = false := by simpa using List.all_eq_true.1 hruns r hr
    unfold State.runBad
    rw [hsump]
    rfl
  have hclean (p : Nat) : s.isUnwritten p = false := by
    rw [State.isUnwritten, hwritten]
    rfl
  unfold State.noteCvaRead
  extract_lets s1 marked
  have hs1 : s1 = s := by
    unfold s1
    rw [hnone]
    rfl
  have hmarked : marked = [] := by
    refine List.filter_eq_nil_iff.2 fun x _ => ?_
    split
    · rw [hclean]
      exact Bool.false_ne_true
    · exact Bool.false_ne_true
  rw [hmarked]
  exact hs1

section Load

variable {s : State} {seq h : Nat} {c : Cmd} {head bs : List Byte}

/-- The table of regions that a LOAD reads (R240). -/
def State.regionTable (s : State) (c : Cmd) : Option (List Byte) :=
  if c.arg 32 2 = 0 then some [] else if c.arg 24 8 + 8 * c.arg 32 2 ≤ cvaTop
    then s.readCva c.claim (c.arg 24 8) (8 * c.arg 32 2) else none

/-- The image that a LOAD installs. -/
def State.loadedImage (s : State) (c : Cmd) (bs : List Byte) : Image :=
  { parseImage bs c.claim with
    regions := (parseImage bs c.claim).regions.zipIdx.map (fun p => { p.1 with cva := fieldLE ((s.regionTable c).getD []) (8 * p.2) 8 })
    predecessor := s.predecessorOf (parseImage bs c.claim), loadSeq := c.seq }

/-- What a LOAD does whose image can be read. -/
theorem loadDo_read (hhead : c.arg 16 8 + 128 ≤ 2 ^ 48) (hreadHead : s.readCva c.claim (c.arg 16 8) 128 = some head)
    (hsize : c.arg 16 8 + fieldLE head 16 8 ≤ 2 ^ 48) (hread : s.readCva c.claim (c.arg 16 8) (fieldLE head 16 8) = some bs)
    (hwritten : s.unwritten = []) (hfree : s.freeHandle = some h)
    (hruns : (s.runsOf c.claim (c.arg 16 8) (fieldLE head 16 8) false).all (fun r => !isWindow r.2.2.addr) = true)
    (htable : (s.runsOf c.claim (c.arg 24 8) (8 * c.arg 32 2) false).all (fun r => !isWindow r.2.2.addr) = true) :
    loadDo c s = match s.loadChecks c.claim h bs (c.arg 32 2) (s.regionTable c) with
      | some f => s.failLoad c.seq f
      | none => (s.installImage h (s.loadedImage c bs)).running c.seq := by
  unfold loadDo
  extract_lets cva count region
  rw [if_pos (show cva + 128 ≤ cvaTop from hhead), hreadHead]
  dsimp only
  rw [if_pos (show cva + fieldLE head 16 8 ≤ cvaTop from hsize), hread]
  dsimp only
  rw [noteCvaRead_quiet hwritten hruns, noteCvaRead_quiet hwritten htable, ite_self, hfree]
  dsimp only
  unfold State.loadedImage State.regionTable
  rfl

theorem exec_loadCommand (hready : s.Ready seq 0x0020 c)
    (hfirst : s.host.cmds.any (fun d => d.opcode == 0x0020 && decide (d.seq < seq) && s.cmdReady d.seq 0x0020) = false) :
    exec (.load seq) s = .next (loadDo c s) := by
  show execLoad seq s = _
  unfold execLoad
  rw [hfirst, if_neg Bool.false_ne_true]
  exact hostCmd_ready hready loadDo

/-- What an image that is installed by a LOAD leaves. -/
theorem installImage_loads (hc : s.cmd? seq = some c) (h : Nat) (bs : List Byte) :
    let u := (s.installImage h (s.loadedImage c bs)).running c.seq
    u.Runs seq ∧ (u.image h).claim = c.claim ∧ (u.image h).loadSeq = seq ∧ (u.image h).loaded = false ∧ (∀ g, g ≠ h → u.image g = s.image g)
      ∧ ∀ r ∈ (parseImage bs c.claim).tiles, s.Home r.tile → (u.tile r.tile).shadowLoading = true ∧ (u.tile r.tile).shadowValid = false := by
  obtain ⟨k, hinstalled⟩ := installImage_installing s h (s.loadedImage c bs)
  have hshadowed (r : TileRec) (hr : r ∈ (parseImage bs c.claim).tiles) (hhome : s.Home r.tile) :
      (s.installImage h (s.loadedImage c bs)).Shadowed r.tile := installImage_shadowed h _ hr hhome
  generalize s.installImage h (s.loadedImage c bs) = v at hinstalled hshadowed
  have himage : v.image h = { s.loadedImage c bs with copy := k } := by
    rw [State.image, hinstalled.images]
    exact lookD_put_same _ _ _ _
  rw [seq_of_cmd? hc]
  have himages (g : Nat) : (v.running seq).image g = v.image g := rfl
  intro u
  refine ⟨⟨_, cmd?_running ((cmd?_of_cmds hinstalled.cmds seq).trans hc), rfl⟩, ?_, ?_, ?_, fun g hg => ?_, hshadowed⟩
  · rw [himages, himage]
    rfl
  · rw [himages, himage]
    exact seq_of_cmd? hc
  · rw [himages, himage]
    rfl
  · rw [himages, State.image, hinstalled.images]
    exact lookD_put_other _ _ _ _ _ hg

end Load

/-! ## LOAD_COMPLETE and UNLOAD -/

/-- Position t runs image h. -/
def State.RunsImage (s : State) (h t : Nat) : Prop := (s.tile t).image = h ∧ (s.tile t).enabled = true

theorem startTile_same (s : State) (h : Nat) (r : TileRec) : (s.startTile h r).RunsImage h (s.physical r.tile) := by
  unfold State.startTile State.RunsImage
  rw [tile_modTile]
  exact ⟨rfl, rfl⟩

theorem startTile_keeps {s : State} {h t : Nat} (hs : s.RunsImage h t) (r : TileRec) : (s.startTile h r).RunsImage h t := by
  by_cases ht : t = s.physical r.tile
  · rw [ht]
    exact startTile_same s h r
  · unfold State.startTile State.RunsImage
    rw [tile_modTile_other _ _ _ _ ht]
    exact hs

theorem startTile_home {s : State} {t : Nat} (hs : s.Home t) (h : Nat) (r : TileRec) : (s.startTile h r).Home t := by
  unfold State.startTile
  exact (Installing.modTile (.refl s)).home hs

theorem startStreams_tiles (s : State) (h : Nat) (r : TileRec) : (s.startStreams h r).tiles = s.tiles := by
  unfold State.startStreams
  refine foldl_keeps (fun u => u.tiles = s.tiles) _ (fun u p hu => ?_) _ _ rfl
  refine foldl_keeps (fun u => u.tiles = s.tiles) _ (fun v k hv => ?_) _ _ hu
  exact hv

/-- Every tile of a list that is at its own position runs the image that starts. -/
theorem foldl_startTile {h t : Nat} : ∀ {l : List TileRec} {s : State}, s.Home t → (∃ r ∈ l, r.tile = t) ∨ s.RunsImage h t →
    (l.foldl (fun s r => (s.startTile h r).startStreams h r) s).RunsImage h t
  | [], _, _, hs => hs.resolve_left (by simp)
  | r :: l, s, hhome, hs => by
    rw [List.foldl_cons]
    have htile : ((s.startTile h r).startStreams h r).tile t = (s.startTile h r).tile t := by
      rw [State.tile, startStreams_tiles]
      rfl
    refine foldl_startTile ?_ ?_
    · rw [State.Home, htile]
      exact startTile_home hhome h r
    · rw [State.RunsImage, htile]
      by_cases hr : r.tile = t
      · refine .inr ?_
        have hsame := startTile_same s h r
        rwa [hr, physical_of_home hhome] at hsame
      · refine hs.imp (fun ⟨y, hy, hyt⟩ => ⟨y, (List.mem_cons.1 hy).resolve_left ?_, hyt⟩) (fun hs => startTile_keeps hs r)
        rintro rfl
        exact hr hyt

/-- The tiles of an image that starts run it where they are at their own positions. -/
theorem startImage_runs {s : State} {h : Nat} {r : TileRec} (hr : r ∈ (s.image h).tiles) (hhome : s.Home r.tile) :
    (s.startImage h).RunsImage h r.tile := by
  unfold State.startImage
  extract_lets s1
  have hs1 : s1.RunsImage h r.tile := foldl_startTile hhome (.inl ⟨r, hr, rfl⟩)
  refine foldl_keeps (fun u => u.RunsImage h r.tile) _ (fun u k hu => ?_) _ _ hs1
  exact hu

section Complete

variable {s : State} {seq h : Nat} {c : Cmd}

theorem exec_loadComplete (hloading : s.loadingImage seq = some h) (hc : s.cmd? seq = some c) (hop : c.opcode = 0x0020)
    (hstate : c.state = .running)
    (hvalid : (s.image h).tiles.all (fun r => (s.tile (s.physical r.tile)).shadowImage == h && (s.tile (s.physical r.tile)).shadowValid) = true) :
    exec (.loadComplete seq) s = .next (loadCompleteDo seq s) := by
  refine (whenDue_next _ _ _).2 ⟨?_, rfl⟩
  unfold loadCompleteOk
  rw [hc, hloading]
  dsimp only
  rw [hop, hstate, hvalid]
  rfl

theorem loadCompleteDo_starts (hloading : s.loadingImage seq = some h) (hpred : (s.image h).predecessor = none) :
    loadCompleteDo seq s
      = ((s.modImage h (fun x => { x with loaded := true })).startImage h).complete seq (loadResult h 0xFFFFFFFF 0) := by
  unfold loadCompleteDo
  rw [hloading]
  dsimp only
  rw [if_pos (by rw [hpred]; rfl)]

theorem loadCompleteDo_succeeds (hloading : s.loadingImage seq = some h) (hpred : (s.image h).predecessor ≠ none) :
    loadCompleteDo seq s = (s.modImage h (fun x => { x with loaded := true })).complete seq (loadResult h 0xFFFFFFFF 0) := by
  unfold loadCompleteDo
  rw [hloading]
  dsimp only
  rw [if_neg (by simpa using hpred)]

/-- What the end of a LOAD leaves: it has ended, its image is loaded, and it runs on its tiles where it succeeds no other. -/
theorem loadCompleteDo_loads (hloading : s.loadingImage seq = some h) (hc : s.cmd? seq = some c) :
    (loadCompleteDo seq s).Ended seq true 0 ∧ ((loadCompleteDo seq s).image h).loaded = true
      ∧ ((s.image h).predecessor = none → ∀ r ∈ (s.image h).tiles, s.Home r.tile →
        ((loadCompleteDo seq s).tile r.tile).image = h ∧ ((loadCompleteDo seq s).tile r.tile).enabled = true)
      ∧ ((s.image h).predecessor ≠ none → (loadCompleteDo seq s).tiles = s.tiles) := by
  have hloaded : (s.modImage h (fun x => { x with loaded := true })).image h = { s.image h with loaded := true } := image_modImage _ _ _
  have hfinished (v : State) (n : Nat) (hcmds : v.host.cmds = s.host.cmds) (himages : v.images = (s.modImage h (fun x => { x with loaded := true })).images) :
      (v.complete seq (loadResult h n 0)).Ended seq true 0 ∧ ((v.complete seq (loadResult h n 0)).image h).loaded = true := by
    refine ⟨ended_complete ((cmd?_of_cmds hcmds seq).trans hc) _, ?_⟩
    have hsame : (v.complete seq (loadResult h n 0)).image h = (s.modImage h (fun x => { x with loaded := true })).image h := by
      rw [State.image, show (v.complete seq (loadResult h n 0)).images = v.images from finish_images _ _ _ _ _, himages]
      rfl
    rw [hsame, hloaded]
  by_cases hpred : (s.image h).predecessor = none
  · rw [loadCompleteDo_starts hloading hpred]
    have hstarted : SameHost (s.modImage h (fun x => { x with loaded := true }))
        ((s.modImage h (fun x => { x with loaded := true })).startImage h) := .startImage (.refl _)
    have hruns (r : TileRec) (hr : r ∈ (s.image h).tiles) (hhome : s.Home r.tile) :
        ((s.modImage h (fun x => { x with loaded := true })).startImage h).RunsImage h r.tile :=
      startImage_runs (by rw [hloaded]; exact hr) hhome
    generalize (s.modImage h (fun x => { x with loaded := true })).startImage h = v at hstarted hruns
    obtain ⟨hended, hdone⟩ := hfinished v 0xFFFFFFFF (by rw [hstarted.host]; rfl) hstarted.images
    refine ⟨hended, hdone, fun _ r hr hhome => ?_, fun hsome => absurd hpred hsome⟩
    rw [State.tile, show (v.complete seq (loadResult h 0xFFFFFFFF 0)).tiles = v.tiles from finish_tiles _ _ _ _ _]
    exact hruns r hr hhome
  · rw [loadCompleteDo_succeeds hloading hpred]
    obtain ⟨hended, hdone⟩ := hfinished (s.modImage h (fun x => { x with loaded := true })) 0xFFFFFFFF rfl rfl
    exact ⟨hended, hdone, fun hnone => absurd hnone hpred, fun _ => finish_tiles _ _ _ _ _⟩

/-- An image that is unloaded is gone. -/
theorem look_unloadImage (s : State) (h : Nat) : look (s.unloadImage h).images h = none := by
  rcases (unloadImage_unloaded s h).images with himages | ⟨g, x, y, hmem, himages, -⟩
  · rw [himages, look_del_same]
  · have hne : h ≠ g := fun heq => by
      have hkept := (List.mem_filter.1 hmem).2
      rw [heq] at hkept
      simp at hkept
    rw [himages, look_put_other _ _ _ _ hne, look_del_same]

theorem exec_unload (hready : s.Ready seq 0x0021 c)
    (hquiet : s.host.cmds.any (fun d => d.seq != seq && d.claim == c.claim && d.state == .running && d.handles.contains (c.arg 16 2)
      && decide (0x0025 < d.opcode)) = false) : exec (.unload seq) s = .next (unloadDo c s) := by
  show execUnload seq s = _
  unfold execUnload
  rw [hready.1]
  dsimp only
  rw [hquiet, if_neg Bool.false_ne_true]
  exact hostCmd_ready hready unloadDo

end Complete

/-- Settles O48: a LOAD ends with the first check that fails or installs its image, whose tiles load their shadow copies, and
the other rows take the branch that their premises name. -/
theorem imagesLoadAndUnload : Obligations.ImagesLoadAndUnload := by
  refine ⟨fun seq h c head bs s hready hfirst hhead hreadHead hsize hread hwritten hfree hruns htable => ?_,
    fun t s ht hloading hspare hrow => ?_, fun seq h c s hloading hc hop hstate hvalid => ?_, fun seq c s hready hquiet => ?_⟩
  · have hdo := loadDo_read hhead hreadHead hsize hread hwritten hfree hruns htable
    refine ⟨fun f hf => ?_, fun hnone => ?_⟩
    · have hf : s.loadChecks c.claim h bs (c.arg 32 2) (s.regionTable c) = some f := hf
      rw [exec_loadCommand hready hfirst, hdo, hf, seq_of_cmd? hready.1]
      exact answers_next ⟨ended_finish hready.1 _ _ _, finish_images _ _ _ _ _, finish_tiles _ _ _ _ _, finish_skips _ _ _ _ _⟩
    · have hnone : s.loadChecks c.claim h bs (c.arg 32 2) (s.regionTable c) = none := hnone
      rw [exec_loadCommand hready hfirst, hdo, hnone]
      exact answers_next (installImage_loads hready.1 h bs)
  · refine ⟨_, (whenDue_next _ _ _).2 ⟨?_, rfl⟩, tile_modTile _ _ _, rfl, fun x hx => tile_modTile_other _ _ _ _ hx⟩
    simp [shadowLoadCompleteOk, ht, hloading, hspare, hrow]
  · rw [exec_loadComplete hloading hc hop hstate hvalid]
    exact answers_next (loadCompleteDo_loads hloading hc)
  · rw [exec_unload hready hquiet, unloadDo]
    intro k
    refine ⟨fun hno => ?_, fun hyes hbound => ?_, fun hyes hbound => ?_⟩
    · rw [if_pos (by rw [hno]; rfl), seq_of_cmd? hready.1]
      exact answers_next ⟨ended_fail hready.1 _, finish_images _ _ _ _ _⟩
    · rw [if_neg (by rw [hyes]; decide), if_pos (Option.isSome_iff_ne_none.2 hbound), seq_of_cmd? hready.1]
      exact answers_next ⟨ended_fail hready.1 _, finish_images _ _ _ _ _⟩
    · rw [if_neg (by rw [hyes]; decide), if_neg (by rw [hbound]; decide), seq_of_cmd? hready.1]
      obtain ⟨m, hm⟩ := cmd?_of_seqs (ResetKept.unloadImage (h := k) (.refl s)).seqs hready.1
      refine answers_next ⟨ended_complete hm 0, ?_⟩
      rw [show ((s.unloadImage k).complete seq 0).images = (s.unloadImage k).images from finish_images _ _ _ _ _]
      exact look_unloadImage s k

end Sys2Proof.Machine

/-! PROOFS. One fc of the tick domain clock on an empty queue. -/

namespace Sys2Proof.Machine

/-! ## What one fc leaves alone -/

/-- Time, the queue, images and claims are as before, and so is memory under q. -/
structure Still (q : Prop) (s u : State) : Prop where
  now : u.now = s.now
  pending : u.pending = s.pending
  images : u.images = s.images
  claims : u.host.claims = s.host.claims
  mem : q → u.mem = s.mem

/-- What `Still` compares. -/
def State.stillFields (s : State) : Nat × List Instr × Tab Image × Tab Claim × List Host.Cell :=
  (s.now, s.pending, s.images, s.host.claims, s.mem)

namespace Still

variable {q : Prop} {s u : State}

theorem refl (q : Prop) (s : State) : Still q s s := ⟨rfl, rfl, rfl, rfl, fun _ => rfl⟩

/-- An update that writes none of them. -/
theorem same {w : State} (hs : Still q s u) (hw : w.stillFields = u.stillFields) : Still q s w := by
  obtain ⟨hnow, hrest⟩ := Prod.mk.inj hw
  obtain ⟨hpending, hrest⟩ := Prod.mk.inj hrest
  obtain ⟨himages, hrest⟩ := Prod.mk.inj hrest
  obtain ⟨hclaims, hmem⟩ := Prod.mk.inj hrest
  exact ⟨hnow.trans hs.now, hpending.trans hs.pending, himages.trans hs.images, hclaims.trans hs.claims, fun hq => hmem.trans (hs.mem hq)⟩

theorem ite {c : Prop} [Decidable c] {a b : State} (ha : Still q s a) (hb : Still q s b) : Still q s (if c then a else b) := by
  split
  · exact ha
  · exact hb

theorem foldl {α : Type} {f : State → α → State} {l : List α} (hf : ∀ u x, Still q s u → Still q s (f u x)) (hs : Still q s u) :
    Still q s (l.foldl f u) :=
  foldl_keeps (Still q s) f hf l u hs

theorem upTo {n : Nat} {f : State → Nat → State} (hf : ∀ u x, Still q s u → Still q s (f u x)) (hs : Still q s u) :
    Still q s (Machine.upTo n f u) :=
  foldl hf hs

/-- An update of the headframe outside the claims. -/
theorem modHost (hs : Still q s u) {f : HostIf → HostIf} (hf : ∀ h, (f h).claims = h.claims := by exact fun _ => rfl) :
    Still q s (u.modHost f) :=
  ⟨hs.now, hs.pending, hs.images, (hf u.host).trans hs.claims, hs.mem⟩

/-- A write of memory where q does not hold. -/
theorem writeBytes (hs : Still q s u) (hq : ¬q) {a : Nat} {bs : List Byte} : Still q s (u.writeBytes a bs) := by
  unfold State.writeBytes
  exact .ite hs ⟨hs.now, hs.pending, hs.images, hs.claims, fun h => absurd h hq⟩

theorem takeSnapshot (hs : Still q s u) {stepped : Nat → Bool} : Still q s (u.takeSnapshot stepped) := by
  unfold State.takeSnapshot
  split
  · split
    · exact .ite hs (.modHost hs)
    · exact hs
  · exact hs

theorem enterRows (hs : Still q s u) {stepped : Nat → Bool} : Still q s (u.enterRows stepped) := by
  unfold State.enterRows
  exact .same hs (by rfl)

theorem modDebug (hs : Still q s u) {f : Debug → Debug} : Still q s (u.modDebug f) := by
  unfold State.modDebug
  exact .same hs (by rfl)

theorem count (hs : Still q s u) {k i c n : Nat} : Still q s (u.count k i c n) := by
  unfold State.count
  exact .ite hs (.modDebug hs)

theorem modPower (hs : Still q s u) {f : Power → Power} : Still q s (u.modPower f) := by
  unfold State.modPower
  exact .same hs (by rfl)

theorem advanceRows (hs : Still q s u) : Still q s u.advanceRows := by
  unfold State.advanceRows
  exact .modPower (.upTo (fun _ _ hs => .ite (.count (.count hs)) hs) hs)

theorem modDom (hs : Still q s u) {d : Nat} {f : TickDomain → TickDomain} : Still q s (u.modDom d f) := by
  unfold State.modDom
  exact .same hs (by rfl)

theorem dropTicks (hs : Still q s u) : Still q s u.dropTicks := by
  unfold State.dropTicks
  exact .upTo (fun _ _ hs => .ite (.modDom hs) hs) hs

theorem modEmeel (hs : Still q s u) {f : Emeel → Emeel} : Still q s (u.modEmeel f) := by
  unfold State.modEmeel
  exact .same hs (by rfl)

theorem settleFc (hs : Still q s u) : Still q s u.settleFc := by
  unfold State.settleFc
  exact .modDebug (.same hs (by rfl))

theorem modSkip (hs : Still q s u) {k : Nat} {f : Skip → Skip} : Still q s (u.modSkip k f) := by
  unfold State.modSkip
  exact .same hs (by rfl)

theorem modEmPort (hs : Still q s u) {p : Nat} {f : EmPort → EmPort} : Still q s (u.modEmPort p f) := by
  unfold State.modEmPort
  exact .modEmeel hs

theorem countPort (hs : Still q s u) {p c : Nat} : Still q s (u.countPort p c) := by
  unfold State.countPort
  exact .count hs

theorem emit (hs : Still q s u) {o : Out} : Still q s (u.emit o) := by
  unfold State.emit
  exact .same hs (by rfl)

theorem sendOn (hs : Still q s u) {p : Nat} {f : Flit} {delay : Nat} : Still q s (u.sendOn p f delay) := by
  unfold State.sendOn
  extract_lets x g s1
  have hs1 : Still q s s1 := .modEmPort hs
  exact .ite (.countPort (.emit hs1)) hs1

theorem sendFlit (hs : Still q s u) {device : Nat} {kind : FlitKind} {stream tag : Nat} {payload : Line} {delay : Nat} :
    Still q s (u.sendFlit device kind stream tag payload delay) := by
  unfold State.sendFlit
  split
  · exact .sendOn hs
  · exact hs

theorem sendEgress (hs : Still q s u) {k : Nat} : Still q s (u.sendEgress k) := by
  unfold State.sendEgress
  extract_lets x
  split
  · exact .ite hs (.sendFlit (.modSkip hs))
  · exact hs

theorem drainEgress (hs : Still q s u) {k : Nat} : Still q s (u.drainEgress k) := by
  unfold State.drainEgress
  exact .upTo (fun _ _ hs => .sendEgress hs) hs

theorem drainEgresses (hs : Still q s u) : Still q s u.drainEgresses := by
  unfold State.drainEgresses
  exact .foldl (fun _ _ hs => .drainEgress hs) hs

theorem modSump (hs : Still q s u) {f : Sump → Sump} : Still q s (u.modSump f) := by
  unfold State.modSump
  exact .same hs (by rfl)

theorem modSumpPort (hs : Still q s u) {p : Nat} {f : SumpPort → SumpPort} : Still q s (u.modSumpPort p f) := by
  unfold State.modSumpPort
  exact .modSump hs

theorem portDecide (hs : Still q s u) {port : Nat} : Still q s (u.portDecide port) := by
  unfold State.portDecide
  refine .ite hs ?_
  extract_lets n lw
  split
  · exact hs
  · exact .count (.count (.modSumpPort hs))

theorem presentRun (hs : Still q s u) {port : Nat} {r : Run} : Still q s (u.presentRun port r) := by
  unfold State.presentRun
  refine .ite (.modSumpPort hs) ?_
  extract_lets r1 s1
  have hs1 : Still q s s1 := .modSumpPort hs
  exact .ite (.portDecide hs1) hs1

theorem admitRuns (hs : Still q s u) : Still q s u.admitRuns := by
  unfold State.admitRuns
  exact .foldl (fun _ _ hs => .foldl (fun _ _ hs => .presentRun (.modSumpPort hs)) hs) hs

theorem modAdit (hs : Still q s u) {f : Adit → Adit} : Still q s (u.modAdit f) := by
  unfold State.modAdit
  exact .same hs (by rfl)

theorem takeBuffers (hs : Still q s u) : Still q s u.takeBuffers := by
  unfold State.takeBuffers
  refine .upTo (fun _ _ hs => ?_) hs
  split
  · split
    · exact .ite (.modAdit hs) hs
    · exact hs
  · exact hs

theorem modRiddle (hs : Still q s u) {f : Riddle → Riddle} : Still q s (u.modRiddle f) := by
  unfold State.modRiddle
  exact .same hs (by rfl)

theorem drainRiddle (hs : Still q s u) : Still q s u.drainRiddle := by
  unfold State.drainRiddle
  exact .modRiddle hs

theorem countRings (hs : Still q s u) : Still q s u.countRings := by
  unfold State.countRings
  exact .foldl (fun _ _ hs => .ite (.count hs) hs) hs

theorem countHoists (hs : Still q s u) : Still q s u.countHoists := by
  unfold State.countHoists
  exact .foldl (fun _ _ hs => .ite (.count hs) hs) hs

theorem setTile (hs : Still q s u) {t : Nat} {x : Tile} : Still q s (u.setTile t x) := by
  unfold State.setTile
  exact .same hs (by rfl)

theorem modTile (hs : Still q s u) {t : Nat} {f : Tile → Tile} : Still q s (u.modTile t f) := by
  unfold State.modTile
  exact .setTile hs

theorem modThread (hs : Still q s u) {t th : Nat} {f : Thread → Thread} : Still q s (u.modThread t th f) := by
  unfold State.modThread
  exact .modTile hs

theorem wakeThread (hs : Still q s u) {t th : Nat} : Still q s (u.wakeThread t th) := by
  unfold State.wakeThread
  exact .modThread hs

theorem bellSend (hs : Still q s u) {t route : Nat} {v : Byte} : Still q s (u.bellSend t route v) := by
  unfold State.bellSend
  split
  · exact .foldl (fun _ _ hs => .modTile hs) hs
  · exact hs

theorem retryBells (hs : Still q s u) {stepped : Nat → Bool} : Still q s (u.retryBells stepped) := by
  unfold State.retryBells
  refine .foldl (fun _ _ hs => ?_) hs
  refine .ite hs (.upTo (fun _ _ hs => ?_) hs)
  split
  · exact .ite hs (.wakeThread (.bellSend hs))
  · exact hs

theorem oqWriteRow (hs : Still q s u) (hq : ¬q) {t : Nat} {m : MacOp} {r : Nat} : Still q s (u.oqWriteRow t m r) := by
  unfold State.oqWriteRow
  exact .writeBytes hs hq

theorem oqAdvance (hs : Still q s u) (hq : ¬q) {t : Nat} : Still q s (u.oqAdvance t) := by
  unfold State.oqAdvance
  exact .ite hs (.modTile (.foldl (fun _ _ hs => .foldl (fun _ _ hs => .oqWriteRow hs hq) hs) hs))

/-- The work of the rows writes no memory where no tile has a MAC instruction in flight. -/
theorem rowWork (hs : Still q s u) (hquiet : q → ∀ p ∈ u.tiles, p.2.macs = []) {stepped : Nat → Bool} : Still q s (u.rowWork stepped) := by
  unfold State.rowWork
  extract_lets tiles
  refine .retryBells ?_
  by_cases hq : q
  · have hnone : tiles = [] := by
      refine List.map_eq_nil_iff.2 (List.filter_eq_nil_iff.2 fun p hp => ?_)
      rw [hquiet hq p hp]
      exact Bool.false_ne_true
    rw [hnone]
    exact hs
  · exact .foldl (fun _ _ hs => .oqAdvance hs hq) hs

theorem countSkipFc (hs : Still q s u) {k : Nat} : Still q s (u.countSkipFc k) := by
  unfold State.countSkipFc
  extract_lets x fc s0 s1
  have hs0 : Still q s s0 := .ite (.modSkip hs) hs
  have hs1 : Still q s s1 := .ite (.count hs0) hs0
  exact .ite (.modSkip hs1) (.ite hs1 (.modSkip hs1))

theorem countTile (hs : Still q s u) {t c n : Nat} : Still q s (u.countTile t c n) := by
  unfold State.countTile
  exact .count hs

theorem countTileFc (hs : Still q s u) {t : Nat} : Still q s (u.countTileFc t) := by
  unfold State.countTileFc
  refine .countTile (.countTile (.countTile (.countTile (.upTo (fun _ _ hs => ?_) hs))))
  split
  · exact .countTile hs
  · exact hs

theorem countRows (hs : Still q s u) {stepped : Nat → Bool} : Still q s (u.countRows stepped) := by
  unfold State.countRows
  exact .foldl (fun _ _ hs => .countSkipFc hs) (.foldl (fun _ _ hs => .countTileFc hs) hs)

end Still

/-! ## Tiles before the work of the rows -/

/-- No tile has a MAC instruction in flight. -/
def State.NoMacs (s : State) : Prop := ∀ p ∈ s.tiles, p.2.macs = []

theorem State.NoMacs.of_tiles {s u : State} (hs : s.NoMacs) (htiles : u.tiles = s.tiles) : u.NoMacs := by
  unfold State.NoMacs
  rw [htiles]
  exact hs

theorem takeSnapshot_tiles (s : State) (stepped : Nat → Bool) : (s.takeSnapshot stepped).tiles = s.tiles := by
  unfold State.takeSnapshot
  split
  · split
    · split
      · rfl
      · rfl
    · rfl
  · rfl

theorem dropTicks_tiles (s : State) : s.dropTicks.tiles = s.tiles := by
  unfold State.dropTicks upTo
  refine foldl_keeps (fun u => u.tiles = s.tiles) _ (fun u d hu => ?_) _ _ rfl
  extract_lets gone
  split
  · exact hu
  · exact hu

theorem advanceRows_tiles (s : State) : s.advanceRows.tiles = s.tiles := by
  unfold State.advanceRows upTo
  extract_lets s1
  have hs1 : s1.tiles = s.tiles := by
    refine foldl_keeps (fun u => u.tiles = s.tiles) _ (fun u r hu => ?_) _ _ rfl
    dsimp only
    split
    · rw [count_tiles, count_tiles, hu]
    · exact hu
  rw [modPower_tiles, hs1]

theorem enterRows_noMacs {s : State} (hs : s.NoMacs) (stepped : Nat → Bool) : (s.enterRows stepped).NoMacs := by
  intro p hp
  obtain ⟨r, hr, rfl⟩ := List.mem_map.1 hp
  show (if _ then r.2 else r.2.enterRow _ _ _).macs = []
  split
  · exact hs r hr
  · exact hs r hr

theorem countTileFc_tiles (s : State) (t : Nat) : (s.countTileFc t).tiles = s.tiles := by
  unfold State.countTileFc
  extract_lets x s1 tokens
  have hs1 : s1.tiles = s.tiles := by
    refine foldl_keeps (fun u => u.tiles = s.tiles) _ (fun u th hu => ?_) _ _ rfl
    split
    · rw [countTile_tiles, hu]
    · exact hu
  rw [countTile_tiles, countTile_tiles, countTile_tiles, countTile_tiles, hs1]

theorem countSkipFc_tiles (s : State) (k : Nat) : (s.countSkipFc k).tiles = s.tiles := by
  unfold State.countSkipFc
  extract_lets x fc s0 s1
  have hs0 : s0.tiles = s.tiles := by
    unfold s0
    split
    · rfl
    · rfl
  have hs1 : s1.tiles = s.tiles := by
    unfold s1
    split
    · rw [count_tiles, hs0]
    · exact hs0
  split
  · exact hs1
  · split
    · exact hs1
    · exact hs1

theorem countRows_tiles (s : State) (stepped : Nat → Bool) : (s.countRows stepped).tiles = s.tiles := by
  unfold State.countRows
  extract_lets tiles skips
  refine foldl_keeps (fun u => u.tiles = s.tiles) _ (fun u k hu => (countSkipFc_tiles u k).trans hu) _ _ ?_
  exact foldl_keeps (fun u => u.tiles = s.tiles) _ (fun u t hu => (countTileFc_tiles u t).trans hu) _ _ rfl

/-! ## The fc -/

theorem clockTick_held {s : State} (h : s.power.porAsserted = true) : s.clockTick = { s with now := s.now + 1 } := by
  unfold State.clockTick
  simp only [h, if_true]

theorem clockTick_free {s : State} (h : s.power.porAsserted = false) :
    let stepped (r : Nat) : Bool := (s.row r).steps
    let s1 : State := { s.takeSnapshot stepped with now := s.now + 1 }
    s.clockTick = ((((((((((s1.settleFc.modEmeel Emeel.advance).dropTicks).advanceRows).enterRows stepped).countRows stepped).rowWork
      stepped).countHoists.countRings).drainRiddle).takeBuffers).admitRuns).drainEgresses := by
  unfold State.clockTick
  simp only [h, Bool.false_eq_true, if_false]

/-- What one fc leaves alone while POR_N is released. -/
theorem clockTick_still {s : State} (h : s.power.porAsserted = false) :
    ∃ v : State, Still s.NoMacs s v ∧ Still s.NoMacs { v with now := s.now + 1 } s.clockTick := by
  have htick := clockTick_free h
  dsimp only at htick
  generalize (fun r => (s.row r).steps) = stepped at htick
  have hsnap : Still s.NoMacs s (s.takeSnapshot stepped) := .takeSnapshot (.refl _ s)
  have htiles := takeSnapshot_tiles s stepped
  generalize s.takeSnapshot stepped = v at htick hsnap htiles
  refine ⟨v, hsnap, ?_⟩
  rw [htick]
  have hquiet : s.NoMacs → State.NoMacs (((((({ v with now := s.now + 1 } : State).settleFc.modEmeel Emeel.advance).dropTicks).advanceRows).enterRows
      stepped).countRows stepped) := fun hs => by
    refine State.NoMacs.of_tiles (enterRows_noMacs ?_ stepped) (countRows_tiles _ stepped)
    refine hs.of_tiles ?_
    rw [advanceRows_tiles, dropTicks_tiles]
    exact htiles
  exact .drainEgresses (.admitRuns (.takeBuffers (.drainRiddle (.countRings (.countHoists (.rowWork (.countRows (.enterRows (.advanceRows
    (.dropTicks (.modEmeel (.settleFc (.refl _ _))))))) hquiet))))))

/-- Settles O3: without a command a step is one fc, and no part of an fc writes an image, a claim, or memory where no row of an
OQ is in flight. -/
theorem emptyQueueLetsOneFcPass : Obligations.EmptyQueueLetsOneFcPass := by
  intro s hpending
  have hstep : step s = .next s.clockTick := by
    unfold step
    rw [hpending]
  rw [hstep]
  refine answers_next ?_
  cases hpor : s.power.porAsserted with
  | true =>
    rw [clockTick_held hpor]
    exact ⟨rfl, hpending, rfl, rfl, fun _ => rfl, fun _ => rfl⟩
  | false =>
    obtain ⟨v, hsnap, htick⟩ := clockTick_still hpor
    exact ⟨htick.now, (htick.pending.trans hsnap.pending).trans hpending, htick.images.trans hsnap.images, htick.claims.trans hsnap.claims,
      fun hquiet => (htick.mem hquiet).trans (hsnap.mem hquiet), fun h => absurd h (by decide)⟩

end Sys2Proof.Machine
